-- ==== Sys2Proof/Word.lean ====
section
/-! DEFINITION. The words of the FL632: 32-bit registers (R2) and bytes, with their plainest arithmetic. -/

namespace Sys2Proof

/-- A register of the 16 MiB register space (R2). -/
abbrev Word := BitVec 32

/-- One byte of a message, of the Lake or of an image. -/
abbrev Byte := BitVec 8

/-- A string of bytes, first byte first. -/
abbrev Bytes := List (BitVec 8)

/-- The bits `[hi:lo]` of a word, as a number. -/
def fld (w : Word) (hi lo : Nat) : Nat := (w.toNat >>> lo) % 2 ^ (hi + 1 - lo)

/-- One bit of a word. -/
def bit (w : Word) (i : Nat) : Bool := w.toNat.testBit i

/-- The word with its bits `[hi:lo]` replaced by the low bits of `v`. -/
def setFld (w : Word) (hi lo v : Nat) : Word :=
  let m := (2 ^ (hi + 1 - lo) - 1) <<< lo
  BitVec.ofNat 32 ((w.toNat &&& (0xFFFFFFFF ^^^ m)) ||| ((v % 2 ^ (hi + 1 - lo)) <<< lo))

/-- The word with bit `i` set or cleared. -/
def setBit (w : Word) (i : Nat) (v : Bool) : Word := setFld w i i (if v then 1 else 0)

/-- A number as a word, modulo 2³². -/
abbrev wd (n : Nat) : Word := BitVec.ofNat 32 n

/-- The two's complement reading of the low `n` bits of `v` (R10). -/
def sx (n v : Nat) : Int :=
  let u := v % 2 ^ n
  if u < 2 ^ (n - 1) then (u : Int) else (u : Int) - 2 ^ n

/-- The low `n` bits of an integer, as a number. -/
def lowBits (n : Nat) (v : Int) : Nat := (v % (2 ^ n : Int)).toNat

end Sys2Proof
end

