-- ==== Sys2Proof/Syntax.lean ====
section
/-! DEFINITION. The commands of the FL632. -/

namespace Sys2Proof


/-- A PTP message as it arrives (IEEE 1588-2019): sequence number, sender, domain, transport (0 L2, 1 UDP/IPv4,
2 UDP/IPv6), its time field in units of 2⁻¹⁶ ns, its correctionField in the same units, and its two-step flag. -/
structure PtpMsg where
  seq : Nat := 0
  sender : Nat := 0
  domain : Nat := 0
  transport : Nat := 0
  time : Int := 0
  corr : Int := 0
  twoStep : Bool := false
  deriving DecidableEq, Repr

/-- The data set of a master as an Announce gives it (R264). -/
structure AnnounceDs where
  gm : Nat := 0
  prio1 : Nat := 255
  clockClass : Nat := 255
  accuracy : Nat := 254
  variance : Nat := 65535
  prio2 : Nat := 255
  steps : Nat := 0
  sender : Nat := 0
  utc : Nat := 0
  deriving DecidableEq, Repr

/-- What the bus of a two-wire controller shows to the check of R89: SCL still low after STRETCH; SDA low, and the pulses
after which the target releases it (none: not within nine); SDA high after the STOP. -/
structure BusCheck where
  sclStuck : Bool := false
  sdaLow : Bool := false
  frees : Option (Fin 10) := none
  stopOk : Bool := true
  deriving DecidableEq, Repr

/-- What the targets of a two-wire bus answer: for each byte sent whether it is acknowledged (none: not), and the bytes
they send (none: 0xFF). -/
structure TwResp where
  acks : List Bool := []
  data : List (BitVec 8) := []
  deriving DecidableEq, Repr

/-- The ECC outcome of a Lake codeword: clean, corrected in a x4 device, or uncorrectable (R249). -/
inductive Ecc where
  | clean | corrected (dev : Fin 10) | bad
  deriving DecidableEq, Repr

/-- The message that issued a posted write of the Lake: its SEQ and its session (R306). -/
structure Issuer where
  seq : BitVec 32 := 0
  session : BitVec 32 := 0
  deriving DecidableEq, Repr

/-- A requester of the data fabric at the Lake (Table 11.2). -/
inductive LakeReq where
  | tnr (b : Fin 4) | copyIn (g : Fin 12) | raw (g : Fin 12) | market (n : Fin 16) | twoWire (t : Fin 8)
  | bulk (t : Fin 8) | aperture (t : Fin 8)
  deriving DecidableEq, Repr

/-- What the full or fast training of one channel found: the DIMM, whether a training was good, and the identifier of a
new baseline when it was a full training. -/
structure TrainResult where
  gib : Nat := 0
  ranks : Nat := 0
  density : Nat := 0
  /-- The DIMM is registered, has ECC and is built from x4 devices (R240). -/
  rdimm : Bool := true
  good : Bool := false
  full : Option Nat := none
  /-- ECC errors that the verification of the training met, by Lake address. -/
  verify : List (Nat × Ecc) := []
  deriving DecidableEq, Repr

/-- The Lake supports the DIMM: 8, 16 or 32 GiB, 1 or 2 ranks, a density of Table 11.9 (R240). -/
def TrainResult.fits (r : TrainResult) : Bool :=
  r.rdimm && [8, 16, 32].contains r.gib && [1, 2].contains r.ranks && [1, 2, 3].contains r.density

/-- Where a transport message or a request on an Ethernet link comes from: its encapsulation (0 raw, 1 IPv4, 2 IPv6), MAC,
IP address as a number and UDP port. -/
structure NetSrc where
  enc : Fin 3 := 1
  mac : BitVec 48 := 0
  ip : Nat := 0
  udp : Nat := 0
  /-- The destination of the frame: MAC, IP address, UDP port, and the EtherType of a raw frame. -/
  dmac : BitVec 48 := 0
  dip : Nat := 0
  dport : Nat := 0
  etype : BitVec 16 := 0
  deriving DecidableEq, Repr

/-- The header fields of a received transport message that the device checks (Table 10.3). -/
structure MsgHead where
  magic : BitVec 16 := 0x464C
  xver : BitVec 8 := 1
  stream : Fin 16 := 0
  session : BitVec 32 := 0
  deriving DecidableEq, Repr

/-- Where an ICP message comes from or goes to: address bytes (4 or 16) and UDP port. -/
structure Peer where
  addr : Bytes := []
  udp : Nat := 0
  deriving DecidableEq, Repr

/-- An ICP message from a host, its header (Table 13.1): the management port (0 MA, 1 MB) and the source, VER, STALL, FLAGS,
SESSION, SEQ and MAC; and the IP address and UDP port to which it was sent (R280). -/
structure IcpHead where
  port : Fin 2 := 0
  peer : Peer := {}
  dip : Nat := 0
  dport : BitVec 16 := 0x5848
  ver : BitVec 8 := 0x23
  stall : Fin 8 := 0
  flags : BitVec 8 := 0
  session : BitVec 32 := 0
  seq : BitVec 32 := 0
  mac : BitVec 128 := 0
  deriving DecidableEq, Repr

/-- An operation entry of a REQ (Table 13.5), its payload without padding. -/
structure IcpOp where
  op : BitVec 8 := 1
  size : BitVec 8 := 2
  count : BitVec 16 := 1
  addr : BitVec 32 := 0
  payload : Bytes := []
  deriving DecidableEq, Repr

/-- A block with staged fields (R300). -/
inductive CommitBlock where
  | spr (n : Fin 32) | bar (b : Fin 4) | cor (g : Fin 12) | frm (g : Fin 12) | tal (g : Fin 12) | out (n : Fin 16) | ltg (b : Fin 4)
  deriving DecidableEq, Repr
/-- A command of the FL632: one constructor per row of the command table. -/
inductive Instr where
  /-- REGISTER_WRITE (R3): A write to a register that has no row of its own replaces, clears or sets its fields by the field type codes. -/
  | registerWrite (t : Fin 8) (a : BitVec 24) (size : Fin 4) (v : BitVec 64)
  /-- READ_CLEAR (R3): A read of an RC register returns the current value and then clears it, with a same-cycle increment kept by R4. -/
  | readClear (t : Fin 8) (a : BitVec 24)
  /-- LATCHING_READ (R292): A read of the low word of a latching register set latches the companion words, so that one set describes one value. -/
  | latchingRead (t : Fin 8) (a : BitVec 24) (wide : Bool)
  /-- COMMIT_WRITE (R300): A write to a block's commit register sets WAITING, or replaces a waiting commit and sets REPLACED. -/
  | commitWrite (t : Fin 8) (b : CommitBlock) (v : Word)
  /-- COMMIT_TAKE_EFFECT (R300): At the named boundary of the block's group, the block check runs and the written RWS fields are put into force, or the commit is refused. -/
  | commitTakeEffect (b : CommitBlock)
  /-- COLD_POWER_UP (R389): At the start instant after PWR_OK and RESET_L rise, the internal reset is released and straps are sampled; restore, start selection and Lake training begin. -/
  | coldPowerUp (devid : BitVec 14) (factoryL : Bool)
  /-- RESET_L_LOW (R307): RESET_L driven low starts a device reset, or abandons an entry to Doze or Still. -/
  | resetLLow (low : Nat)
  /-- CTL_RESET (R307): An owner write of CTL_RESET with the key and DEVICE set starts a device reset. -/
  | ctlReset (v : Word)
  /-- PWR_OK_LOW (R356): PWR_OK going low puts the device in Off at once and holds it in reset. -/
  | pwrOkLow
  /-- SUPPLY_FAIL (R356): A monitored supply below its fail threshold puts the device in Off. -/
  | supplyFail (j : Fin 24) (mv : BitVec 16)
  /-- REFCLK_LOSS (R391): SYSREF_CLK absent for 20 us in Ready or Run is treated as a supply fail. -/
  | refclkLoss
  /-- THERMAL_TRIP (R360): A temperature above TEL_TRIP for 1 ms takes the device to Still without a retained-store commit. -/
  | thermalTrip
  /-- ERASE (R38): The ERASE command erases the inactive image slot. -/
  | erase (b : Bool)
  /-- ERASE_DONE (R38): Completion of an erase leaves the slot EMPTY. -/
  | eraseDone
  /-- BEGIN_LOAD (R38): The BEGIN_LOAD command sets the inactive slot to LOADING and sets SIC_LOAD_OFS to 0. -/
  | beginLoad (b : Bool)
  /-- SIC_LOAD_DATA_WRITE (R39): A write of SIC_LOAD_DATA stores four bytes at SIC_LOAD_OFS and advances it, or is discarded with BAD_STATE. -/
  | sicLoadDataWrite (v : Word)
  /-- COPY (R38): The COPY command starts copying an image from a Lake readout buffer into the inactive slot. -/
  | copy (b : Bool)
  /-- COPY_DONE (R38): Completion of an image copy, or its end with LAKE_ERR, which leaves the slot INVALID. -/
  | copyDone (ecc : List (Nat × Ecc))
  /-- END_LOAD (R38): The END_LOAD command moves the slot to LOADED. -/
  | endLoad (b : Bool)
  /-- CHECK (R40): The CHECK command starts the ordered checks of Table 2.4 on the inactive slot. -/
  | check (b : Bool)
  /-- CHECK_DONE (R40): The checks finish, setting the slot VALID or INVALID and recording SIC_ERR. -/
  | checkDone
  /-- COMMIT (R42): The COMMIT command arms a VALID slot and starts Prepare, or is refused. -/
  | commit (b force probation : Bool)
  /-- PREPARE_DONE (R42): Prepare completes and the commit enters Armed. -/
  | prepareDone
  /-- SWAP_SWITCH (R42): At the first round boundary at or after the swap instant, the new calendar, STALLS, EVENTS and FORCE entries take effect together. -/
  | swapSwitch
  /-- SWAP_RESOURCE_FREE (R44): A changed resource passes to its new use when the last old-frame line has left it. -/
  | swapResourceFree (r : Fin 28)
  /-- ABORT (R47): The ABORT command abandons a commit in Prepare or Armed, or starts the revert in Probation. -/
  | abort
  /-- COMMIT_TIMEOUT (R47): With no swap instant within SIC_COMMIT_TMO, the commit is abandoned. -/
  | commitTimeout
  /-- CONFIRM (R48): The CONFIRM command in Probation writes the boot pointer and sets the slot ACTIVE. -/
  | confirm
  /-- PROBATION_REVERT (R48): Expiry of SIC_PROBE_TMO commits the old slot back and raises SWAP_FAIL. -/
  | probationRevert
  /-- INSTALL_KEY (R36): The INSTALL_KEY command installs the staged public key into an unlocked key slot 1-3. -/
  | installKey (k : Fin 4)
  /-- INSTALL_KEY_DONE (R36): The key write to the retained store completes and the command's busy state ends. -/
  | installKeyDone
  /-- LOCK_KEY (R36): The LOCK_KEY command locks a key slot. -/
  | lockKey (k : Fin 4)
  /-- RAISE_FLOOR (R37): The RAISE_FLOOR command sets SIC_SERIAL_FLOOR to the active image's SERIAL. -/
  | raiseFloor
  /-- WINDOW_DRAIN_END (R229): Expiry of SIC_DRAIN_TMO for a removed or moved window retires its held records into a gap record with CAUSE 2. -/
  | windowDrainEnd (n : Fin 16)
  /-- SPRING_ENABLE (R55): SPRn_CTL.EN changing from 0 to 1 samples the PHY configuration and starts the Spring. -/
  | springEnable (n : Fin 32)
  /-- SPRING_DISABLE (R76): Clearing SPRn_CTL.EN sets the receivers high-impedance, empties the trigger queue into filler lines and abandons the current line. -/
  | springDisable (n : Fin 32)
  /-- DESKEW_SEQUENCE (R57): A received deskew sequence sweeps the lane's delay line and updates VALUE within its window. -/
  | deskewSequence (n : Fin 32) (i : Fin 4) (initial : Bool) (eye : Option (Fin 256))
  /-- DSK_VALUE_WRITE (R57): A software write of a deskew VALUE outside the window moves the bound and raises DSK_FORCED. -/
  | dskValueWrite (n : Fin 32) (i : Fin 4) (v : Fin 256) (pin : Bool)
  /-- DSK_WINDOW_WRITE (R57): A write of MIN above MAX, or MAX below MIN, moves the other bound to the same value. -/
  | dskWindowWrite (n : Fin 32) (i : Fin 4) (lo hi : Fin 256) (step : Fin 16)
  /-- LONG_PACKET (R63): A CSI-2 long packet is checked, decoded and unpacked into its line's channels, completing or closing the line. -/
  | longPacket (n : Fin 32) (pairs : List Bytes)
  /-- SHORT_PACKET (R64): A frame-start, frame-end or other short packet is tracked or ignored. -/
  | shortPacket (n : Fin 32) (pairs : List Bytes)
  /-- LINE_ASSOCIATION (R66): At the start-of-transmission of a line's first packet, the line is associated with the oldest queued trigger or discarded as untriggered. -/
  | lineAssociation (n : Fin 32) (vc : Fin 4) (dt : Fin 64)
  /-- TRIGGER_EXPIRY (R66): More than LAT_MAX since the oldest queued trigger emits a filler line and drops the trigger. -/
  | triggerExpiry (n : Fin 32)
  /-- ASSEMBLY_TIMEOUT (R63): SPRn_ASM_TMO expiry closes the line incomplete with the flag PART. -/
  | assemblyTimeout (n : Fin 32)
  /-- SOFT_TRIGGER (R73): A write of 1 to SPRn_TRIG_CTL.SOFT emits one trigger pulse on the pin when SRC is 5. -/
  | softTrigger (n : Fin 32)
  /-- TRIGGER_PULSE_END (R73): Expiry of the trigger pulse width ends the pulse and clears SOFT. -/
  | triggerPulseEnd (n : Fin 32)
  /-- XRST_PULSE (R74): Setting SPRn_XRST.PULSE drives SPn_XRST_L low for WIDTH. -/
  | xrstPulse (n : Fin 32)
  /-- XRST_PULSE_END (R74): Expiry of the reset pulse width returns the pin to the ASSERT level and clears PULSE. -/
  | xrstPulseEnd (n : Fin 32)
  /-- POND_POINTER_MISMATCH (R317): A mismatch between the copies of an SRAM pond pointer resets the pond, and its owner reacts by Table 14.5. -/
  | pondPointerMismatch (p : Fin 86)
  /-- POND_INJECT (R317): A keyed write of PND_INJECT forces a pointer-copy mismatch in an SRAM pond. -/
  | pondInject (v : Word)
  /-- POND_PACKET_NOTICE (R314): A producer completes a packet's length slot, and the committed write pointer moves past the packet. -/
  | pondPacketNotice (p : Fin 22) (len : Nat)
  /-- POND_PACKET_RELEASE (R315): A consumer releases a read packet, freeing its space after the visibility delay. -/
  | pondPacketRelease (p : Fin 22)
  /-- CHAIN_POND_PUSH (R312): A producer's offered item is accepted into a chain pond. -/
  | chainPondPush (p : Fin 126) (v : BitVec 128) (taken : Bool)
  /-- CHAIN_POND_POP (R312): The consumer takes the item at the head of a chain pond. -/
  | chainPondPop (p : Fin 126)
  /-- LIST_START_CMD (R86): TWBn_CMD START_LIST queues a software transaction list, or is refused with BUSY. -/
  | listStartCmd (n : Fin 32) (lake notify : Bool) (t : Fin 8)
  /-- CONTROLLER_RESET (R89): A controller reset aborts the running list and runs the bus-clear procedure. -/
  | controllerReset (n : Fin 32) (hold : BusCheck)
  /-- BUS_CLEAR_RETRY (R89): Expiry of XRST_WAIT after a sensor reset pulse repeats the bus-clear check. -/
  | busClearRetry (n : Fin 32) (hold : BusCheck)
  /-- CLEAR_CMD (R90): TWBn_CMD CLEAR runs the bus-clear from a STUCK state with attempt 0. -/
  | clearCmd (n : Fin 32) (hold : BusCheck)
  /-- FLUSH_CMD (R86): TWBn_CMD FLUSH discards the queued software lists. -/
  | flushCmd (n : Fin 32)
  /-- CONTROLLER_DISABLE (R86): Clearing TWBn_CTL.EN releases SCL and SDA and fails the queued lists with ABORTED. -/
  | controllerDisable (n : Fin 32)
  /-- LIST_BEGIN (R85): A list at the head of the queue on a free bus is copied, checked and started. -/
  | listBegin (n : Fin 32) (ecc : List (Nat × Ecc))
  /-- LIST_DELAY_END (R84): Expiry of a DELAY step lets the list continue. -/
  | listDelayEnd (n : Fin 32) (resp : TwResp)
  /-- LIST_END (R87): A list ends and records one result in TWBn_RESULT, updating RDBUF, the calendar entry and any completion item. -/
  | listEnd (n : Fin 32) (resp : TwResp) (hold : Option (Fin 256 × BusCheck))
  /-- ARBITRATION_LOST (R83): SDA read low where the controller released high stops driving and restarts the transaction. -/
  | arbitrationLost (n : Fin 32) (resp : TwResp) (k : Fin 256)
  /-- STRETCH_TIMEOUT (R81): SCL held low beyond STRETCH fails the list with STRETCH_TMO and runs the SCL check. -/
  | stretchTimeout (n : Fin 32) (resp : TwResp) (k : Fin 256) (low : Nat) (hold : BusCheck)
  /-- BUS_BUSY_TIMEOUT (R82): A bus not free within BUSY of the first START fails the list with BUS_BUSY. -/
  | busBusyTimeout (n : Fin 32)
  /-- FOREIGN_CONDITION (R93): A START or STOP not generated by the owning controller is treated as lost arbitration and counted. -/
  | foreignCondition (n : Fin 32) (resp : TwResp) (k : Fin 256)
  /-- TWT_WRITE (R94): A board-controller write through TWT writes registers in four-byte groups. -/
  | twtWrite (a : BitVec 24) (data : Bytes)
  /-- TWT_READ (R94): A board-controller read through TWT returns registers in four-byte groups without side effects. -/
  | twtRead (a : BitVec 24) (n : Nat)
  /-- TWT_PROTO_VIOLATION (R92): A START or STOP in the acknowledge window discards the partial transfer and is counted. -/
  | twtProtoViolation (w : Option (BitVec 24 × Bytes))
  /-- TWT_SCL_TIMEOUT (R96): SCL held low by the board controller beyond TWBT_TMO abandons the transfer. -/
  | twtSclTimeout (w : Option (BitVec 24 × Bytes)) (low : Nat)
  /-- TWBT_SOFT_SET (R98): A write of 1 to TWBT_SOFT_SET sets TWBT_ALERT.SOFT. -/
  | twbtSoftSet (v : Word)
  /-- BMC_REQ (R97): A TWT address match in Doze or Still is a board-controller request that wakes the device. -/
  | bmcReq
  /-- LINE_TRIGGER (R274): In encoder mode the generator emits a trigger when the position reaches the next trigger position, deciding frame membership and queuing the trigger at each Spring. -/
  | lineTrigger (b : Fin 4)
  /-- LINE_TRIGGER_TIMED (R276): In time mode the generator emits a trigger when its period expires. -/
  | lineTriggerTimed (b : Fin 4)
  /-- ENTRY_ARM (R176): Setting ARM in an exposure calendar entry arms it. -/
  | entryArm (n : Fin 32) (e : Fin 64)
  /-- ENTRY_CANCEL (R178): Setting CANCEL in an ARMED entry cancels it. -/
  | entryCancel (n : Fin 32) (e : Fin 64)
  /-- STITCHED_LINE_ASSEMBLE (R104): Once every sensor's lines for a trigger are present, the Seam Unit assembles the stitched line named after trigger t - D_b. -/
  | stitchedLineAssemble (b : Fin 4)
  /-- TRUNCATION_MARKER_AT_SEAM (R106): A truncation marker at the Seam Unit assembles the remaining lines below L and emits none above. -/
  | truncationMarkerAtSeam (b : Fin 4)
  /-- SEAM_MEASUREMENT_DONE (R113): The frame's overlap measurements complete and the tracker computes its updates. -/
  | seamMeasurementDone (b : Fin 4)
  /-- SEAM_TRACKER_APPLY (R115): At the first stitched line of frame F + 2, the tracker's results take effect. -/
  | seamTrackerApply (b : Fin 4)
  /-- SEAM_COEF_WRITE (R109): A write to a seam coefficient bank in force anywhere is discarded with TABLE_BUSY. -/
  | seamCoefWrite (i : Fin 2048) (v : Word)
  /-- ROUND_BOUNDARY (R123): A round ends, advancing the round count, pressing counters and the utilisation window latch. -/
  | roundBoundary
  /-- SLOT_DECISION (R127): At each slot start, the engine chooses the group to serve and processes up to 12,288 samples through the correction chain. -/
  | slotDecision
  /-- LAKE_LINE_COPY (R135): A Lake-fed group line at the head of the ingress ponds is copied into the group's Lake region, or the region is full. -/
  | lakeLineCopy (g : Fin 12)
  /-- LAKE_COPY_DONE (R405): The Lake accepts the last write of a group line's copy, which can make the line ready. -/
  | lakeCopyDone (g : Fin 12)
  /-- TNR_READ_ARRIVE (R132): The accumulator samples of a segment arrive from the Lake. -/
  | tnrReadArrive (b : Fin 4) (count : BitVec 48) (k : Nat)
  /-- GROUP_RESET (R309): A write of STL_s_GRP_RESET resets the groups named in its Springs, engine, controllers, TNR and calendar. -/
  | groupReset (t : Fin 8) (mask : BitVec 12)
  /-- TNR_RESET_CMD (R155): A write of RESET to COR_Gg_TNR_CMD requests an accumulator reset. -/
  | tnrResetCmd (b : Fin 4)
  /-- TNR_RESET_EFFECT (R155): At the first group line of the next frame, the accumulator reset takes effect. -/
  | tnrResetEffect (b : Fin 4)
  /-- TNR_ADAPT_UPDATE (R152): At a frame's end the stage fits the noise estimate and measures the lateral shift, forming want values. -/
  | tnrAdaptUpdate (b : Fin 4)
  /-- TNR_ADAPT_APPLY (R152): The windowed noise and shift values come into force at frame F + 2. -/
  | tnrAdaptApply (b : Fin 4)
  /-- FF_BASE_WRITE (R158): An owner write of COR_FF_BASEn rechecks the flat-field ranges for conflicts. -/
  | ffBaseWrite (n : Fin 32) (v : Word)
  /-- TABLE_LOAD_START (R164): Setting START in COR_Gg_TLD_CTL latches and checks the load, then starts it or refuses it. -/
  | tableLoadStart (g : Fin 12) (t : Fin 8)
  /-- TABLE_LOAD_DATA_WRITE (R164): A write of TLD_DATA in MODE 0 stores one entry and advances. -/
  | tableLoadDataWrite (g : Fin 12) (v : Word)
  /-- TABLE_LOAD_DATA_READ (R164): A read of TLD_DATA in MODE 2 returns one entry and advances. -/
  | tableLoadDataRead (g : Fin 12)
  /-- TABLE_LOAD_DONE (R164): A load ends with OK or another code, raising LOAD_DONE or LOAD_FAIL and posting any completion item. -/
  | tableLoadDone (g : Fin 12) (ecc : List (Nat × Ecc))
  /-- GPIO_EDGE (R277): A filtered edge on a GPIO input is timestamped into its capture FIFO and passed to any mark-sensor source. -/
  | gpioEdge (i : Fin 16) (falling : Bool) (held : Nat)
  /-- CAPTURE_READ (R277): A read of TIM_GPIOi_CAP_TIME_LO returns and removes the oldest capture and latches its words. -/
  | captureRead (i : Fin 16)
  /-- STATS_RECORD_CLOSE (R184): A frame's statistics record closes when the next frame, a truncation marker or a group reset has passed every point. -/
  | statsRecordClose (g : Fin 12)
  /-- STATS_RECORD_ENTER (R184): A closed statistics record enters the output pond of every statistics stream and REC_DONE is raised. -/
  | statsRecordEnter (g : Fin 12)
  /-- STATS_RECORD_TIMEOUT (R206): A statistics record not entered within one round of closing is discarded with a pending truncation record of cause 5. -/
  | statsRecordTimeout (n : Fin 16)
  /-- OUTPUT_LINE_FORM (R192): An output line is formed once line v + 2, the frame end or a truncation marker has reached the tap. -/
  | outputLineForm (n : Fin 16)
  /-- RECORD_COMPLETE (R197): The framer completes a line record, enters it in the output pond and advances ALIVE. -/
  | recordComplete (n : Fin 16)
  /-- TRUNCATION_RECORD_ENTER (R204): A complete pending truncation record is entered into the output pond once it has room. -/
  | truncationRecordEnter (n : Fin 16)
  /-- OUT_COEF_WRITE (R195): A write to an output coefficient set in force is discarded with TABLE_BUSY. -/
  | outCoefWrite (k : Fin 768) (v : Word)
  /-- ETH_PORT_ENABLE (R212): ETH_p_CTL.EN changing from 0 to 1 applies the mode and brings up the port's links. -/
  | ethPortEnable (p : Fin 4) (v : Word)
  /-- LINK_FAULT (R213): A stream link loses alignment or signals a fault. -/
  | linkFault (l : Fin 8) (aligned lfault rfault : Bool)
  /-- LINK_DOWN (R213): A link not up for MKT_LINK_HOLD is declared down. -/
  | linkDown (l : Fin 8)
  /-- LINK_UP (R213): A down link meets the up conditions again. -/
  | linkUp (l : Fin 8)
  /-- FAILBACK (R236): A primary link up for MKT_FAILBACK returns the stream to it at the next record boundary. -/
  | failback (n : Fin 16)
  /-- RECEIVER_SILENCE (R237): No valid ACK for XPT_STn_SILENT raises RX_SILENT and fails over once. -/
  | receiverSilence (n : Fin 16)
  /-- MARKET_TAKE_RECORD (R372): The Market takes an eligible record from its pond, gives it a SEQ, writes it to the window and schedules its first segment. -/
  | marketTakeRecord (n : Fin 16)
  /-- SEGMENT_SEND (R218): A data segment chosen by the scheduler is handed to its link. -/
  | segmentSend (l : Fin 8)
  /-- OPEN_MESSAGE (R219): A received OPEN negotiates a session for a stream and is answered with OPEN_REPLY. -/
  | openMessage (l : Fin 8) (src : NetSrc) (h : MsgHead) (xmin xmax rmin rmax : BitVec 8) (credit : BitVec 64)
  /-- CLOSE_MESSAGE (R219): A received CLOSE with the session in force sets the session to none. -/
  | closeMessage (l : Fin 8) (src : NetSrc) (h : MsgHead)
  /-- ACK_MESSAGE (R223): A received ACK acknowledges records, advances the rewind mark and may raise the credit limit. -/
  | ackMessage (l : Fin 8) (src : NetSrc) (h : MsgHead) (cum : BitVec 32) (bitmap limit : BitVec 64) (aflags : BitVec 32)
  /-- RESEND_TIMEOUT (R224): Expiry of XPT_STn_RTO for the record at the rewind mark resends the held unacknowledged records. -/
  | resendTimeout (n : Fin 16) (old : Bool)
  /-- SWITCH_PRIMARY (R235): XPT_STn_CMD SWITCH_PRIMARY moves the stream to its primary link. -/
  | switchPrimary (n : Fin 16)
  /-- SWITCH_STANDBY (R235): XPT_STn_CMD SWITCH_STANDBY moves the stream to its standby link. -/
  | switchStandby (n : Fin 16)
  /-- XPT_CLOSE (R219): XPT_STn_CMD CLOSE sets the stream's session to none. -/
  | xptClose (n : Fin 16)
  /-- XPT_RESEND (R224): XPT_STn_CMD RESEND acts as an RTO expiry. -/
  | xptResend (n : Fin 16)
  /-- PFC_FRAME (R231): A received PFC frame pauses the enabled priorities of the link. -/
  | pfcFrame (l : Fin 8) (prios : List (Fin 8 × BitVec 16))
  /-- PAUSE_QUANTA_EXPIRE (R231): Expiry of a priority's pause quanta makes its streams eligible again. -/
  | pauseQuantaExpire (l : Fin 8) (q : Fin 8)
  /-- PAUSE_FRAME (R231): A received IEEE 802.3 PAUSE frame is ignored and counted. -/
  | pauseFrame (l : Fin 8)
  /-- PFC_WATCHDOG (R232): A priority paused for MKT_PFC_WD resumes and ignores pauses for MKT_PFC_IGN. -/
  | pfcWatchdog (l : Fin 8) (q : Fin 8)
  /-- PFC_IGNORE_END (R232): Expiry of MKT_PFC_IGN makes PFC pauses of the priority honoured again. -/
  | pfcIgnoreEnd (l : Fin 8) (q : Fin 8)
  /-- ARP_REQUEST (R215): An ARP request or IPv6 neighbour solicitation for a stream link's address is answered. -/
  | arpRequest (l : Fin 10) (src : NetSrc) (target : BitVec 128)
  /-- ECHO_REQUEST (R215): An ICMP or ICMPv6 echo request to a stream link is answered. -/
  | echoRequest (l : Fin 10) (src : NetSrc) (ident seq : BitVec 16) (payload : Bytes)
  /-- ETH_FRAME_REJECT (R216): A received frame that the link does not accept is discarded and counted. -/
  | ethFrameReject (l : Fin 10) (frame : Bytes)
  /-- LAKE_TRAINING_DONE (R243): Training completes, the population set is chosen and a full training's baseline is saved. -/
  | lakeTrainingDone (res : Vector TrainResult 12)
  /-- FULL_TRAIN (R244): LAKE_CMD FULL_TRAIN retrains the named channels in full, or is refused with BUSY. -/
  | fullTrain (mask : Fin 4096)
  /-- LAKE_RETRAIN_STEP (R245): A temperature change of DT or the expiry of INTERVAL takes one retraining step on a channel. -/
  | lakeRetrainStep (c : Fin 12) (rd wr : Int)
  /-- LAKE_TRIM_WRITE (R246): A software write of a trim outside its window moves the bound and raises TRIM_FORCED. -/
  | lakeTrimWrite (c : Fin 12) (rd wr : Fin 256)
  /-- SCRUB_READ (R251): The scrubber reads the next codeword at its paced rate and rewrites a corrected one. -/
  | scrubRead (ecc : Ecc)
  /-- LAKE_REFRESH (R252): tREFI expiry issues an all-bank refresh to each rank. -/
  | lakeRefresh (c : Fin 12) (mr4 : Fin 16) (hot : Bool)
  /-- LAKE_REQUEST (R248): A data-fabric request to the Lake is fenced by region, served, and its ECC errors handled per consumer. -/
  | lakeRequest (q : LakeReq) (a : Nat) (len : Nat) (write : Option (Bytes × Issuer)) (ecc : List (Nat × Ecc))
  /-- APERTURE_READ (R253): A non-posted read through a stall aperture reads the Lake. -/
  | apertureRead (t : Fin 8) (o : Fin 0x4000) (wide : Bool) (answer : Option Ecc)
  /-- APERTURE_WRITE (R254): A posted write through a stall aperture writes the Lake, with read-modify-write below 64 bytes. -/
  | apertureWrite (t : Fin 8) (o : Fin 0x4000) (wide : Bool) (v : BitVec 64) (ecc : Ecc) (by_ : Issuer)
  /-- TB_SET (R258): TBn_CMD SET steps the base to the value in TBn_SET. -/
  | tbSet (n : Fin 4)
  /-- TB_STEP (R271): TBn_CMD STEP authorises one step, at once or at a bar's next frame start. -/
  | tbStep (n : Fin 4) (useReg atFrame : Bool) (bar : Fin 4)
  /-- TB_SLEW (R260): TBn_CMD SLEW applies the amount at plus or minus 200 ppm without a step. -/
  | tbSlew (n : Fin 4)
  /-- SLEW_DONE (R260): The slew amount is fully applied and SL returns to 0. -/
  | slewDone (n : Fin 4)
  /-- TB_CANCEL (R271): TBn_CMD CANCEL cancels a pending step without STEP_FAIL. -/
  | tbCancel (n : Fin 4)
  /-- TB_RELOCK (R269): TBn_CMD RELOCK returns a PTP base to UNLOCKED. -/
  | tbRelock (n : Fin 4)
  /-- TB_FORMAT_CHANGE (R258): A write that changes TBn_CTL.FMT steps the base to 0 in the new format. -/
  | tbFormatChange (n : Fin 4) (binary : Bool)
  /-- TIM_SNAP (R260): TIM_CMD SNAP latches all time bases and web positions on one cycle. -/
  | timSnap
  /-- ENCODER_EDGE (R261): A filtered quadrature edge updates the web-position count, or an illegal transition is counted. -/
  | encoderEdge (n : Fin 4) (a b : Bool) (delay held : Nat)
  /-- ENCODER_INDEX (R263): A filtered index edge latches the position and counts. -/
  | encoderIndex (n : Fin 4) (rising : Bool) (delay held : Nat)
  /-- ENCODER_STALL (R262): No edge for WPn_STALL makes the base stopped. -/
  | encoderStall (n : Fin 4)
  /-- PTP_SYNC (R268): A received Sync forms the offset d and updates the servo. -/
  | ptpSync (p : Fin 4) (m : PtpMsg)
  /-- PTP_FOLLOW_UP (R267): A received Follow_Up supplies t1 of a two-step Sync. -/
  | ptpFollowUp (p : Fin 4) (m : PtpMsg)
  /-- PTP_DELAY_REQ (R264): A received Delay_Req is timestamped and answered with Delay_Resp. -/
  | ptpDelayReq (p : Fin 4) (m : PtpMsg)
  /-- PTP_DELAY_RESP (R267): A received Delay_Resp completes an end-to-end delay measurement. -/
  | ptpDelayResp (p : Fin 4) (m : PtpMsg)
  /-- PTP_PDELAY_REQ (R264): A received Pdelay_Req is answered with Pdelay_Resp and Follow_Up. -/
  | ptpPdelayReq (p : Fin 4) (m : PtpMsg)
  /-- PTP_PDELAY_RESP (R267): A received Pdelay_Resp and its Follow_Up complete a peer delay measurement. -/
  | ptpPdelayResp (p : Fin 4) (m : PtpMsg) (t3 : Int)
  /-- DS_LONG (R272): A delay-suspect run lasting 60 s raises DS_LONG once. -/
  | dsLong (p : Fin 4)
  /-- PTP_ANNOUNCE (R264): A received Announce feeds the BMCA, which may change the grandmaster. -/
  | ptpAnnounce (p : Fin 4) (m : PtpMsg) (d : AnnounceDs)
  /-- PTP_MANAGEMENT (R264): A received management message is ignored and counted. -/
  | ptpManagement (p : Fin 4)
  /-- PTP_SYNC_TIMEOUT (R269): No Sync for announceReceiptTimeout intervals puts the servo in HOLDOVER. -/
  | ptpSyncTimeout (k : Fin 4)
  /-- PTP_MESSAGE_SEND (R264): A message interval expires and the instance sends Sync, Announce or a delay request. -/
  | ptpMessageSend (p : Fin 4) (kind : Nat)
  /-- PPS_PULSE (R278): A GPIO with FUNC 2 pulses as its base crosses a whole second. -/
  | ppsPulse (i : Fin 16)
  /-- HELLO (R282): An authenticated HELLO opens a session, grants channels and derives the session key, or is refused. -/
  | hello (h : IcpHead) (vmin vmax chans : BitVec 8) (hnonce : BitVec 128)
  /-- ICP_MESSAGE_REJECT (R281): A message failing authentication, MAGIC, BLEN or length is discarded and counted. -/
  | icpMessageReject (h : IcpHead) (magic : BitVec 16) (type : BitVec 8) (blen : BitVec 16) (body : Bytes)
  /-- ICP_READ (R287): A READ operation of a REQ returns its items. -/
  | icpRead (n : BitVec 32) (size : Fin 4) (count : Fin 256) (a : BitVec 32) (lake : Option Ecc)
  /-- ICP_WRITE (R287): A WRITE operation of a REQ stores its items. -/
  | icpWrite (n : BitVec 32) (size : Fin 4) (items : List (BitVec 64)) (a : BitVec 32) (lake : Option Ecc)
  /-- ICP_RMW (R287): An RMW operation atomically reads, masks and writes a register and returns the old value. -/
  | icpRmw (n : BitVec 32) (size : Fin 4) (a : BitVec 32) (mask value : BitVec 64) (lake : Option Ecc)
  /-- ICP_PWRITE (R288): A posted write stores its items without a response; failures enter the posted-error log. -/
  | icpPwrite (n seq : BitVec 32) (size : Fin 4) (items : List (BitVec 64)) (a : BitVec 32) (ecc : Ecc)
  /-- LAKE_READ_OP (R294): A LONG LAKE_READ operation starts sending a Lake range as BULK messages. -/
  | lakeReadOp (n : BitVec 32) (lake : BitVec 64) (len tag : BitVec 32)
  /-- LAKE_WRITE_OP (R294): A LONG LAKE_WRITE operation starts accepting BULK data into a Lake range. -/
  | lakeWriteOp (n : BitVec 32) (lake : BitVec 64) (len tag : BitVec 32)
  /-- BULK_SEND (R294): The device sends the next BULK message of a LAKE_READ once its data has been read. -/
  | bulkSend (opid : BitVec 32) (ecc : List (Nat × Ecc))
  /-- BULK_RECEIVE (R294): A host BULK message for a LAKE_WRITE is written as it arrives. -/
  | bulkReceive (h : IcpHead) (opid offset : BitVec 32) (data : Bytes) (ecc : List (Nat × Ecc))
  /-- LONG_OP_DONE (R295): A long operation ends and posts its completion item. -/
  | longOpDone (opid : BitVec 32)
  /-- LONG_OP_TIMEOUT (R294): No BULK for CTL_LONG_TMO ends a LAKE_WRITE with TIMEOUT. -/
  | longOpTimeout (opid : BitVec 32)
  /-- BYE (R284): A BYE closes the session and releases its event channels. -/
  | bye (h : IcpHead)
  /-- KEEPALIVE (R284): A KEEPALIVE keeps the session open and wakes its sleeping channels. -/
  | keepalive (h : IcpHead)
  /-- SESSION_TIMEOUT (R284): No authenticated message for CTL_SESS_TMO closes the session. -/
  | sessionTimeout (n : BitVec 32)
  /-- ACCESS_TIMEOUT (R305): No response within CTL_ACC_TMO returns TIMEOUT. -/
  | accessTimeout
  /-- LATE_RESPONSE (R305): A response arriving after its timeout is discarded and counted. -/
  | lateResponse
  /-- STALL_KEY_INSTALL (R286): Setting STL_s_KEY_CMD.INSTALL writes the staged stall key to the retained store. -/
  | stallKeyInstall (t : Fin 8)
  /-- STALL_KEY_STORED (R286): The key record is committed, INSTALL clears and KEY_INSTALLED is raised. -/
  | stallKeyStored (t : Fin 8)
  /-- STALL_KEY_ERASE (R286): Setting STL_s_KEY_CMD.ERASE removes the stall key. -/
  | stallKeyErase (t : Fin 8)
  /-- STALL_RESET (R308): Setting STL_s_RESET.STALL closes sessions, aborts long operations, empties ponds and logs, clears channels and resets streams. -/
  | stallReset (t : Fin 8)
  /-- COMPLETION_READ (R296): A read of STL_s_CPL0 removes the oldest completion item and latches its words. -/
  | completionRead (t : Fin 8)
  /-- CRC_INIT (R320): CRCk_CMD INIT loads c from INIT and feeds the alive counter if enabled. -/
  | crcInit (k : Fin 16)
  /-- CRC_LAKE_FEED (R324): CRCk_CMD LAKE_FEED starts feeding a Lake range into the unit. -/
  | crcLakeFeed (k : Fin 16)
  /-- CRC_ABORT (R324): CRCk_CMD ABORT ends a Lake feed. -/
  | crcAbort (k : Fin 16)
  /-- CRC_LAKE_FEED_DONE (R324): A Lake feed completes, or ends with LAKE_ERR. -/
  | crcLakeFeedDone (k : Fin 16) (ecc : List (Nat × Ecc))
  /-- CRC_DATA_WRITE (R321): A write of CRCk_DATA feeds its bytes in ascending address order. -/
  | crcDataWrite (k : Fin 16) (o : Fin 4) (size : Fin 3) (v : Word)
  /-- CRC_VAL_WRITE (R322): A write of CRCk_VAL sets the running value after pending feeds complete. -/
  | crcValWrite (k : Fin 16) (v : BitVec 64)
  /-- EVENT_SOURCE_RAISE (R330): An active edge or assertion makes a source PENDING, or sets REFIRE while it is ACTIVE. -/
  | eventSourceRaise (n : Fin 768) (level : Bool) (held : Nat)
  /-- EVENT_SOURCE_DEASSERT (R330): A level source deasserted before delivery returns to IDLE. -/
  | eventSourceDeassert (n : Fin 768) (held : Nat)
  /-- EVENT_DELIVERY (R332): A PENDING source is assigned to the first awake enabled target whose pond has room. -/
  | eventDelivery (room : BitVec 20)
  /-- EVENT_NOTIFY (R336): A target with NEW of at least 1 is notified when its moderation condition is met. -/
  | eventNotify (t : Fin 20)
  /-- EVENT_RENOTIFY (R338): Expiry of EVC_Tt_RENOTIFY with a notifiable bit set notifies again with RENOTIFY. -/
  | eventRenotify (t : Fin 20)
  /-- EVENT_TAKE (R340): A write of EVC_Tt_TAKE takes a source into service on the stack, or is refused. -/
  | eventTake (t : Fin 20) (n : Fin 1024)
  /-- EVENT_DONE (R341): A write of EVC_Tt_DONE completes the stack top, or records a stack fault. -/
  | eventDone (t : Fin 20) (n : Fin 1024)
  /-- EVENT_DISMISS (R334): A write of 1 to a pending bit dismisses the source. -/
  | eventDismiss (t : Fin 20) (n : Fin 768)
  /-- SLEEP (R343): An ICP SLEEP flushes moderated notifications, puts the named channels to sleep and sends SLEEP_ACK. -/
  | sleep (h : IcpHead) (chans : BitVec 8)
  /-- TARGET_SLEEP_WRITE (R343): Writing 1 to EVC_Tt_CTL.SLEEP flushes and puts the target to sleep; writing 0 wakes it. -/
  | targetSleepWrite (t : Fin 20) (v : Bool)
  /-- EVENT_IDLE_SET (R336): Writing 1 to EVC_Tt_CTL.IDLE lets the next notifiable bit be reported at once. -/
  | eventIdleSet (t : Fin 20)
  /-- WAKE_ACTION (R344): A pending wake-set source with no awake target sends a wake frame or drives a pin. -/
  | wakeAction (t : Fin 20)
  /-- WOL_RETRY (R344): Expiry of WOL_RETRY sends the magic frame again, up to three in all. -/
  | wolRetry (t : Fin 20)
  /-- EVC_SW_SET (R349): A write of EVC_SW_SET raises one edge of a software source, or is denied. -/
  | evcSwSet (t : Fin 8) (v : Fin 1024)
  /-- EVC_HOLD_WRITE (R333): Setting or clearing EVC_HOLD stops or resumes deliveries and notifications. -/
  | evcHoldWrite (hold : Bool)
  /-- EDGE_LATCH (R347): An active pin edge while the fabric clock is stopped is caught by the Tarn edge latch. -/
  | edgeLatch (i : Fin 20) (falling : Bool)
  /-- ENTER_DOZE (R350): TRN_CMD ENTER_DOZE starts entry to Doze, or is refused with BUSY. -/
  | enterDoze
  /-- ENTER_STILL (R350): TRN_CMD ENTER_STILL starts entry to Still, or is refused with BUSY. -/
  | enterStill
  /-- ENTRY_COMPLETE (R351): After the commit and self-refresh, the fast clocks stop and the device rests in Doze or Still. -/
  | entryComplete
  /-- WAKE_DOZE (R353): A wake source in Doze restarts the clocks, steps the time bases and reaches Ready. -/
  | wakeDoze (src : Fin 768)
  /-- WAKE_STILL (R355): A wake source in Still releases the enables, waits for supplies and starts the device. -/
  | wakeStill (src : Fin 768) (devid : BitVec 14) (factoryL : Bool) (supplies : Vector (BitVec 16) 24)
  /-- SUPPLY_WAIT_TIMEOUT (R355): Supplies not within range by TRN_PUP_TMO leave the device in Still. -/
  | supplyWaitTimeout
  /-- WAKE_TIMER_EXPIRE (R359): A wake timer expires, sets TMRk and reloads or clears EN. -/
  | wakeTimerExpire (k : Fin 2)
  /-- WAKE_FRAME (R358): A matching magic, ICP or ARP frame on MA or MB in Doze wakes the device. -/
  | wakeFrame (port : Fin 2) (frame : Bytes)
  /-- KEEP_COMMIT (R362): KEEP_CMD COMMIT starts a retained-store commit. -/
  | keepCommit
  /-- KEEP_AUTO_COMMIT (R362): Expiry of the KEEP_AUTO delay after a Kept change starts a commit. -/
  | keepAutoCommit
  /-- COMMIT_DONE (R362): Every record copy of the commit has been written and COMMIT_DONE is raised. -/
  | commitDone
  /-- KEEP_VERIFY (R366): KEEP_CMD VERIFY starts a read of every record copy. -/
  | keepVerify
  /-- KEEP_VERIFY_PERIOD (R366): Expiry of the KEEP_VERIFY interval starts a verification. -/
  | keepVerifyPeriod
  /-- VERIFY_DONE (R366): Verification ends, with bad copies repaired from their valid partners. -/
  | verifyDone (lost : List (Fin 7 × Bool × Nat × Byte))
  /-- TEL_SAMPLE (R368): Every 1 ms the Tarn samples sensors and monitors and raises alarms. -/
  | telSample (temps : Vector (BitVec 16) 16) (volts : Vector (BitVec 16) 24) (power : BitVec 20)
  /-- TEL_RECORD (R369): Every TEL_PERIOD ms in Ready and Run, a telemetry payload is formed and carried on statistics streams. -/
  | telRecord
  /-- JTAG_EXTEST (R399): The EXTEST instruction takes control of the balls while RESET_L is low. -/
  | jtagExtest
  /-- JTAG_SAMPLE_PRELOAD (R398): The SAMPLE/PRELOAD instruction samples or preloads the boundary-scan cells. -/
  | jtagSamplePreload (cells : List Bool)
  /-- JTAG_IDCODE (R398): The IDCODE instruction selects the IDCODE register. -/
  | jtagIdcode
  /-- JTAG_HIGHZ (R399): The HIGHZ instruction floats the balls while RESET_L is low. -/
  | jtagHighz
  /-- JTAG_CLAMP (R399): The CLAMP instruction holds the boundary-scan values while RESET_L is low. -/
  | jtagClamp
  /-- JTAG_BYPASS (R398): BYPASS, or any other opcode, selects the bypass register. -/
  | jtagBypass (opcode : Fin 32)
  /-- JTAG_TEST_LOGIC_RESET (R398): TRST_L low, or five TCK cycles with TMS high, enters Test-Logic-Reset and selects IDCODE. -/
  | jtagTestLogicReset
  /-- PHY_ERROR (R68): A SoT error, SoT sync error, lane that is not locked, or escape-mode LPDT on a Spring's lanes is counted in SPRn_CNT_PHY and discards what it carried. -/
  | phyError (n : Fin 32)
  /-- MANAGEMENT_LINK_DOWN (R265): MA or MB loses its link, and its PTP port takes the portState FAULTY. -/
  | managementLinkDown (m : Fin 2) (aligned lfault rfault : Bool)
  /-- MANAGEMENT_LINK_UP (R265): MA or MB regains its link, and its PTP port leaves FAULTY. -/
  | managementLinkUp (m : Fin 2)
  /-- ANNOUNCE_RECEIPT_TIMEOUT (R269): No Announce arrives for announceReceiptTimeout intervals, so the BMCA re-selects and the instance may lose its slave port and enter HOLDOVER. -/
  | announceReceiptTimeout (p : Fin 4)
  /-- PPS_PULSE_END (R278): The WIDTH of a GPIO pulse output expires and the pulse ends. -/
  | ppsPulseEnd (i : Fin 16)
  /-- REQ (R283): An arriving authenticated REQ is sequenced as a whole: it is executed, answered from the RSP cache, answered STALE, refused as TOO_LARGE, or, when it holds no operations, only keeps the session open. -/
  | req (h : IcpHead) (ops : List IcpOp) (lake : Option Ecc)
  /-- STALL_RESET_DONE (R308): The stall reset completes within 1 ms and STL_s_RESET.STALL clears. -/
  | stallResetDone (t : Fin 8)
  /-- DRAIN_GAP_TIMEOUT (R229): SIC_DRAIN_TMO expires after the first transmission of a removed window's CAUSE 2 gap record, and the old window stops answering. -/
  | drainGapTimeout (n : Fin 16)
  /-- ETH_PORT_DISABLE (R212): ETH_p_CTL.EN changing from 1 to 0 puts the port's lanes in electrical idle and takes its links down. -/
  | ethPortDisable (p : Fin 4) (v : Word)
  /-- TARN_CRYSTAL_STARTED (R395): Once the 32.768 kHz crystal has run for 1,024 cycles, the Tarn times the wake timers and the time in Doze from the crystal instead of the RC oscillator. -/
  | tarnCrystalStarted
  deriving DecidableEq, Repr

end Sys2Proof
end

