-- ==== Sys2Proof/Machine/Bits.lean ====
section
/-! DEFINITION. Rounding, saturation, wrap-around comparison, byte order and other helpers shared by all blocks. -/

namespace Sys2Proof.Machine
open Sys2Proof

/-- An integer clamped to `[lo, hi]`: saturation never wraps (R11). -/
def clampI (lo hi x : Int) : Int := if x < lo then lo else if hi < x then hi else x

/-- A natural number clamped to `[lo, hi]`. -/
def clampN (lo hi x : Nat) : Nat := if x < lo then lo else if hi < x then hi else x

/-- Division by a positive number, rounded to nearest, ties away from zero (R11). -/
def rdiv (a : Int) (d : Nat) : Int :=
  if a < 0 then -(((-a).toNat * 2 + d) / (2 * d) : Nat) else ((a.toNat * 2 + d) / (2 * d) : Nat)

/-- Right shift by `n` bits, rounded to nearest, ties away from zero (R11). -/
def rshr (a : Int) (n : Nat) : Int := rdiv a (2 ^ n)

/-- Floor of `a / 2^n`: the arithmetic right shift of the pseudocode (Numbers and units). -/
def ashr (a : Int) (n : Nat) : Int := a / (2 ^ n : Int)

/-- Saturation to an unsigned format of `n` bits. -/
def satU (n : Nat) (x : Int) : Nat := (clampI 0 ((2 ^ n : Nat) - 1 : Int) x).toNat

/-- The signed wrap-around difference of two `n`-bit values (R12). -/
def wrapDiff (n a b : Nat) : Int :=
  let d := (a % 2 ^ n + 2 ^ n - b % 2 ^ n) % 2 ^ n
  if d < 2 ^ (n - 1) then (d : Int) else (d : Int) - (2 ^ n : Nat)

/-- `a` is later than `b`, both of width `n` (R12). -/
def isLater (n a b : Nat) : Bool := decide (0 < wrapDiff n a b)

/-- `x`, or 1 where the field holds 0 ("0 is treated as 1"). -/
def atLeast1 (x : Nat) : Nat := if x = 0 then 1 else x

/-- `k` bytes of `v`, least significant byte first. -/
def leBytes : Nat → Nat → Bytes
  | 0, _ => []
  | k + 1, v => BitVec.ofNat 8 v :: leBytes k (v / 256)

/-- `k` bytes of `v`, most significant byte first (network order). -/
def beBytes (k v : Nat) : Bytes := (leBytes k v).reverse

/-- The number that bytes spell, least significant byte first. -/
def ofLe : Bytes → Nat
  | [] => 0
  | b :: bs => b.toNat + 256 * ofLe bs

/-- The number that bytes spell, most significant byte first. -/
def ofBe (bs : Bytes) : Nat := bs.foldl (fun a b => a * 256 + b.toNat) 0

/-- The `n` bytes of `bs` at offset `o`; bytes beyond the end read 0. -/
def slice (bs : Bytes) (o n : Nat) : Bytes :=
  let r := (bs.drop o).take n
  r ++ List.replicate (n - r.length) 0#8

/-- Little-endian number of `n` bytes at offset `o`. -/
def leAt (bs : Bytes) (o n : Nat) : Nat := ofLe (slice bs o n)

/-- Big-endian number of `n` bytes at offset `o`. -/
def beAt (bs : Bytes) (o n : Nat) : Nat := ofBe (slice bs o n)

/-- `bs` padded with zero bytes to a multiple of `k`. -/
def padTo (k : Nat) (bs : Bytes) : Bytes := bs ++ List.replicate ((k - bs.length % k) % k) 0#8

/-- Number of one bits among the low `n` bits of `v`. -/
def popCount : Nat → Nat → Nat
  | 0, _ => 0
  | n + 1, v => v % 2 + popCount n (v / 2)

/-- The numbers below `n` whose bit is set in `v`, in ascending order. -/
def bitsOf (n v : Nat) : List Nat := (List.range n).filter (fun i => v.testBit i)

/-- The first `some` that `f` gives over a list. -/
def firstSome {α β : Type} (f : α → Option β) : List α → Option β
  | [] => none
  | a :: as => match f a with
    | some b => some b
    | none => firstSome f as

/-- The element `i` of a list replaced by `f` of it. -/
def updAt {α : Type} (l : List α) (i : Nat) (f : α → α) : List α := l.modify i f

/-- Element `i` of a vector replaced by `f` of it. -/
def vupd {α : Type} {n : Nat} (v : Vector α n) (i : Fin n) (f : α → α) : Vector α n := v.set i.val (f v[i.val])

/-- The index `n` of a family of `k`, when there is one. -/
def fin? (k n : Nat) : Option (Fin k) := if h : n < k then some ⟨n, h⟩ else none

/-! Transaction list steps (R84). -/

/-- OP of a step. -/
def stepOp (w : Word) : Nat := fld w 31 28

/-- The bits of a step that Table 4.2 names for its OP; the others are reserved (R6, R84). -/
def stepMask (w : Word) : Nat :=
  match stepOp w with
  | 1 => 0xF80000FF
  | 2 => 0xFBFFFFFF
  | 3 => 0xF00000FF
  | 5 => 0xF0FFFFFF
  | _ => 0xF0000000

/-- The largest number of at most `bits` bits above `acc`'s whose `k`-th power does not exceed `n`. -/
def rootFloor (k n : Nat) : Nat → Nat → Nat
  | 0, acc => acc
  | bits + 1, acc => rootFloor k n bits (if (acc + 2 ^ bits) ^ k ≤ n then acc + 2 ^ bits else acc)

end Sys2Proof.Machine
end

