-- ==== Sys2Proof/Machine/Crypto.lean ====
section
/-! DEFINITION. Check values and authentication: CRC-32C, SHA-256, HMAC-SHA-256 (R281), SHA-512 and the Ed25519
verification of R404. Every loop is structural, so the kernel can evaluate it. -/

namespace Sys2Proof.Machine
open Sys2Proof

/-- Eight steps of the reflected CRC-32C register. -/
def crc32cStep : Nat → Nat → Nat
  | 0, c => c
  | k + 1, c => crc32cStep k (if c % 2 = 1 then (c / 2) ^^^ 0x82F63B78 else c / 2)

/-- The CRC-32C running value after one byte. -/
def crc32cByte (c : Nat) (b : Byte) : Nat := crc32cStep 8 (c ^^^ b.toNat)

/-- CRC-32C of a byte string: polynomial 0x1EDC6F41, reflected, initial and final value 0xFFFFFFFF (R198). -/
def crc32c (bs : Bytes) : Nat := bs.foldl crc32cByte 0xFFFFFFFF ^^^ 0xFFFFFFFF

/-- Rotation of a `w`-bit value to the right. -/
def rotr (w n x : Nat) : Nat := (x >>> n) ||| ((x <<< (w - n)) % 2 ^ w)

/-- The first `w` bits of the fractional part of the `k`-th root of `p`: FIPS 180-4 takes every constant of the two
hashes so. -/
def rootFraction (k w p : Nat) : Nat := rootFloor k (p * 2 ^ (k * w)) (w + 5) 0 % 2 ^ w

/-- The primes up to 409, the eightieth. -/
def shaPrimes : List Nat :=
  (List.range 410).filter (fun p => decide (2 ≤ p) && (List.range 21).all (fun d =>
    decide (d < 2) || decide (p ≤ d) || decide (p % d ≠ 0)))

/-- The `n` round constants of a hash of `w`-bit words: cube roots of the first primes. -/
def shaRoundWords (w n : Nat) : List Nat := (shaPrimes.take n).map (rootFraction 3 w)

/-- The eight starting words of a hash of `w`-bit words: square roots of the first primes. -/
def shaStart (w : Nat) : List Nat := (shaPrimes.take 8).map (rootFraction 2 w)

/-- The four sigma functions of a SHA-2 family member: (rotation, rotation, rotation or shift) triples. -/
structure ShaShape where
  w : Nat
  bigA : Nat × Nat × Nat
  bigE : Nat × Nat × Nat
  s0 : Nat × Nat × Nat
  s1 : Nat × Nat × Nat
  deriving DecidableEq, Repr

/-- SHA-256. -/
def sha256Shape : ShaShape := ⟨32, (2, 13, 22), (6, 11, 25), (7, 18, 3), (17, 19, 10)⟩
/-- SHA-512. -/
def sha512Shape : ShaShape := ⟨64, (28, 34, 39), (14, 18, 41), (1, 8, 7), (19, 61, 6)⟩

/-- Three rotations, exclusive-or. -/
def shaBig (w : Nat) (t : Nat × Nat × Nat) (x : Nat) : Nat := rotr w t.1 x ^^^ rotr w t.2.1 x ^^^ rotr w t.2.2 x
/-- Two rotations and a shift, exclusive-or. -/
def shaSmall (w : Nat) (t : Nat × Nat × Nat) (x : Nat) : Nat := rotr w t.1 x ^^^ rotr w t.2.1 x ^^^ (x >>> t.2.2)

/-- `n` further message-schedule words; the window holds the last 16, newest first, and `acc` all so far, newest first. -/
def shaSched (p : ShaShape) : Nat → List Nat → List Nat
  | 0, acc => acc
  | n + 1, acc =>
    let x := (shaSmall p.w p.s1 (acc.getD 1 0) + acc.getD 6 0 + shaSmall p.w p.s0 (acc.getD 14 0) + acc.getD 15 0)
      % 2 ^ p.w
    shaSched p n (x :: acc)

/-- One SHA-2 round on the eight working variables. -/
def shaRound (p : ShaShape) (v : List Nat) (kw : Nat × Nat) : List Nat :=
  match v with
  | [a, b, c, d, e, f, g, h] =>
    let ch := (e &&& f) ^^^ ((e ^^^ (2 ^ p.w - 1)) &&& g)
    let mj := (a &&& b) ^^^ (a &&& c) ^^^ (b &&& c)
    let t1 := h + shaBig p.w p.bigE e + ch + kw.1 + kw.2
    let t2 := shaBig p.w p.bigA a + mj
    [(t1 + t2) % 2 ^ p.w, a, b, c, (d + t1) % 2 ^ p.w, e, f, g]
  | _ => v

/-- One block of the compression function; the block is 16 words. -/
def shaBlock (p : ShaShape) (k : List Nat) (hs : List Nat) (blk : List Nat) : List Nat :=
  let ws := (shaSched p (k.length - 16) blk.reverse).reverse
  let v := (k.zip ws).foldl (shaRound p) hs
  (hs.zip v).map (fun x => (x.1 + x.2) % 2 ^ p.w)

/-- The words of `n` blocks of 16 words taken from padded bytes. -/
def shaBlocks (p : ShaShape) : Nat → Bytes → List (List Nat)
  | 0, _ => []
  | n + 1, bs =>
    let wb := p.w / 8
    ((List.range 16).map (fun i => beAt bs (i * wb) wb)) :: shaBlocks p n (bs.drop (16 * wb))

/-- A SHA-2 hash of a byte string, as its bytes. -/
def sha2 (p : ShaShape) (k init : List Nat) (bs : Bytes) : Bytes :=
  let wb := p.w / 8
  let blkLen := 16 * wb
  let lenLen := 2 * wb
  let z := (blkLen - (bs.length + 1 + lenLen) % blkLen) % blkLen
  let padded := bs ++ [0x80#8] ++ List.replicate z 0#8 ++ beBytes lenLen (bs.length * 8)
  let hs := (shaBlocks p (padded.length / blkLen) padded).foldl (shaBlock p k) init
  hs.flatMap (fun x => beBytes wb x)

/-- SHA-256. -/
def sha256 (bs : Bytes) : Bytes := sha2 sha256Shape (shaRoundWords 32 64) (shaStart 32) bs

/-- SHA-512. -/
def sha512 (bs : Bytes) : Bytes := sha2 sha512Shape (shaRoundWords 64 80) (shaStart 64) bs

/-- HMAC-SHA-256 (FIPS 198-1). -/
def hmac (key msg : Bytes) : Bytes :=
  let k0 := if key.length > 64 then sha256 key else key
  let k := k0 ++ List.replicate (64 - k0.length) 0#8
  sha256 (k.map (· ^^^ 0x5C#8) ++ sha256 (k.map (· ^^^ 0x36#8) ++ msg))

/-! Ed25519 verification (RFC 8032, section 5.1.7, with the choices of R404). -/

/-- The field prime 2²⁵⁵ − 19. -/
def edP : Nat := 2 ^ 255 - 19
/-- The group order L (R404). -/
def edL : Nat := 2 ^ 252 + 27742317777372353535851937790883648493

/-- `x^e mod p` by `k` squarings, least significant bit of the exponent first. -/
def powMod (p : Nat) : Nat → Nat → Nat → Nat → Nat
  | 0, _, _, acc => acc
  | k + 1, x, e, acc => powMod p k (x * x % p) (e / 2) (if e % 2 = 1 then acc * x % p else acc)

/-- Inverse in the field. -/
def edInv (x : Nat) : Nat := powMod edP 256 (x % edP) (edP - 2) 1
/-- The curve constant d = −121665/121666. -/
def edD : Nat := (edP - 121665) * edInv 121666 % edP

/-- A point in extended coordinates (X, Y, Z, T). -/
structure EdPoint where
  x : Nat
  y : Nat
  z : Nat
  t : Nat
  deriving DecidableEq, Repr

/-- The neutral element. -/
def edZero : EdPoint := ⟨0, 1, 1, 0⟩

/-- Point addition (complete formulas). -/
def edAdd (d : Nat) (p q : EdPoint) : EdPoint :=
  let sb := fun a b => (a + edP - b % edP) % edP
  let a := sb p.y p.x * sb q.y q.x % edP
  let b := (p.y + p.x) * (q.y + q.x) % edP
  let c := p.t * 2 * d % edP * q.t % edP
  let e := p.z * 2 * q.z % edP
  let ee := sb b a
  let f := sb e c
  let g := (e + c) % edP
  let h := (b + a) % edP
  ⟨ee * f % edP, g * h % edP, f * g % edP, ee * h % edP⟩

/-- Scalar multiple, `k` bits of the scalar, least significant first. -/
def edMul (d : Nat) : Nat → Nat → EdPoint → EdPoint → EdPoint
  | 0, _, _, acc => acc
  | k + 1, n, p, acc => edMul d k (n / 2) (edAdd d p p) (if n % 2 = 1 then edAdd d acc p else acc)

/-- Equality of two points. -/
def edEq (p q : EdPoint) : Bool :=
  decide (p.x * q.z % edP = q.x * p.z % edP) && decide (p.y * q.z % edP = q.y * p.z % edP)

/-- Decoding a point (RFC 8032, section 5.1.3). -/
def edDecode (d : Nat) (bs : Bytes) : Option EdPoint :=
  let n := ofLe (slice bs 0 32)
  let sign := n / 2 ^ 255
  let y := n % 2 ^ 255
  if y ≥ edP then none else
    let u := (y * y + edP - 1) % edP
    let v := (d * (y * y % edP) + 1) % edP
    let v3 := v * v % edP * v % edP
    let v7 := v3 * v3 % edP * v % edP
    let x0 := u * v3 % edP * powMod edP 256 (u * v7 % edP) ((edP - 5) / 8) 1 % edP
    let chk := v * (x0 * x0 % edP) % edP
    let x? : Option Nat :=
      if chk = u then some x0
      else if chk = (edP - u) % edP then some (x0 * powMod edP 256 2 ((edP - 1) / 4) 1 % edP)
      else none
    match x? with
    | none => none
    | some x =>
      if x = 0 ∧ sign = 1 then none
      else
        let x' := if x % 2 = sign then x else (edP - x) % edP
        some ⟨x', y, 1, x' * y % edP⟩

/-- The base point's encoding: y = 4/5, sign 0. -/
def edBase : Bytes := leBytes 32 (4 * edInv 5 % edP)

/-- The Ed25519 verification of R404: [S]B = R + [k]A exactly, S below L. -/
def ed25519Verify (key msg sig : Bytes) : Bool :=
  let d := edD
  let s := leAt sig 32 32
  if s ≥ edL then false
  else match edDecode d key, edDecode d (slice sig 0 32), edDecode d edBase with
    | some a, some r, some b =>
      let k := ofLe (sha512 (slice sig 0 32 ++ slice key 0 32 ++ msg)) % edL
      edEq (edMul d 256 s b edZero) (edAdd d r (edMul d 256 k a edZero))
    | _, _, _ => false

end Sys2Proof.Machine
end

