-- ==== Sys2Proof/Config.lean ====
section
/-! DEFINITION. What an FL632 fixes at manufacture, and the free values: values the spec leaves open. No definition
here has a body that a proof could look into. -/

namespace Sys2Proof.Config

/-- The Aelzen image-signing key, words 0 to 7 of SIC_PUBKEY (R404): fixed at manufacture, not given. -/
opaque aelzenKey : Nat → Word

/-- The die identity, GLB_UID_LO and GLB_UID_HI (R403): fixed at manufacture, not given. -/
opaque dieId : Nat → Word

/-- The factory MAC of a link, from the device ID and the link code 0-7 on XA and XB, 8 MA, 9 MB: the rule that makes it
from the straps is not given (Table 10.13). -/
opaque linkMac : Nat → Nat → BitVec 48

/-- A fresh free word for each draw: the on-die random source (R282) and results the spec leaves open. -/
opaque freeWord : Nat → BitVec 32

/-- A fresh free choice among a number of possibilities, for each draw. -/
opaque freeNat : Nat → Nat

/-- The payload of a retained-store record copy (R361), from its kind and the draw count: the layouts are Aelzen's own. -/
opaque recordBytes : Nat → Nat → List (BitVec 8)

/-- A field of a section record of an image, from the section type, the field's number in the list at
`Sys2Proof.Machine.decodeStructure`, and the record's bytes: Table 2.2 names the fields of the GROUPS, LAKE, STREAMS, STALLS
and EVENTS records and not their places. -/
opaque imageField : Nat → Nat → List (BitVec 8) → Nat

/-- The place in its channel of a codeword, by the channel address: rank, bank group and bank as bits [22:17] of Table 11.7
lay them out, shifted to bit 0. The device fixes the mapping (R247); the spec does not give it. -/
opaque dramPlace : Nat → BitVec 6

/-- The filtered levels of SCL (bit 0) and SDA (bit 1) on the bus of a two-wire controller, and whether it is busy (bit 2), at
a cycle: what the targets and other controllers make of the lines (Table 4.5). -/
opaque busLines : Nat → Nat → BitVec 3

/-- Where a resend window's first record begins in its ring, in units of 64 bytes, and whether the gap slot stands before the ring or
after it: the spec gives the window's region and sizes alone (R222, R228). -/
opaque windowStart : Nat → Nat
@[inherit_doc windowStart] opaque gapSlotFirst : Bool

/-- The normalised cross-correlation of sample pairs of which one side is constant, in units of 2⁻⁶⁴: the quotient of R113 has
no value there. -/
opaque flatCorrelation : List (Nat × Nat) → Int

/-- The boundary-scan cells of a ball: the cell of its level, and the cell that enables its driver. The spec gives which balls have cells
and not their order (R398). -/
opaque scanCells : Nat → Nat × Nat

end Sys2Proof.Config
end

