-- ==== Sys2Proof/Machine/Addr.lean ====
section
/-! DEFINITION. The addresses of the registers, by name (R400 and the register summary tables). An index beyond the register's
instances wraps, so that no name leads outside its block. -/

namespace Sys2Proof.Machine.A

/-- SIC_VERSION -/
abbrev sicVersion : Nat := 0x10000
/-- SIC_STATUS -/
abbrev sicStatus : Nat := 0x10004
/-- SIC_CMD -/
abbrev sicCmd : Nat := 0x10008
/-- SIC_ERR -/
abbrev sicErr : Nat := 0x1000C
/-- SIC_ACTIVE -/
abbrev sicActive : Nat := 0x10010
/-- SIC_SLOTA_STATE -/
abbrev sicSlotaState : Nat := 0x10014
/-- SIC_SLOTB_STATE -/
abbrev sicSlotbState : Nat := 0x10018
/-- SIC_EVT -/
abbrev sicEvt : Nat := 0x1001C
/-- SIC_LOAD_OFS -/
abbrev sicLoadOfs : Nat := 0x10020
/-- SIC_LOAD_DATA -/
abbrev sicLoadData : Nat := 0x10024
/-- SIC_COPY_SRC_LO -/
abbrev sicCopySrcLo : Nat := 0x10028
/-- SIC_COPY_SRC_HI -/
abbrev sicCopySrcHi : Nat := 0x1002C
/-- SIC_COPY_LEN -/
abbrev sicCopyLen : Nat := 0x10030
/-- SIC_COMMIT_TMO -/
abbrev sicCommitTmo : Nat := 0x10040
/-- SIC_PROBE_TMO -/
abbrev sicProbeTmo : Nat := 0x10044
/-- SIC_DRAIN_TMO -/
abbrev sicDrainTmo : Nat := 0x10048
/-- SIC_SERIAL_FLOOR -/
abbrev sicSerialFloor : Nat := 0x1004C
/-- SIC_SWAP_STAT -/
abbrev sicSwapStat : Nat := 0x10050
/-- SIC_SWAP_LOST -/
abbrev sicSwapLost : Nat := 0x10054
/-- SIC_SWAP_FRM0-SIC_SWAP_FRM11 -/
abbrev sicSwapFrm (i : Nat) : Nat := 0x10080 + i % 12 * 0x4
/-- SIC_PUBKEY -/
abbrev sicPubkey (i : Nat) : Nat := 0x10100 + i % 32 * 0x4
/-- SIC_KEY_STAGE0-SIC_KEY_STAGE7 -/
abbrev sicKeyStage (i : Nat) : Nat := 0x10180 + i % 8 * 0x4
/-- SIC_KEY_LOCK -/
abbrev sicKeyLock : Nat := 0x101A0
/-- SPRn_CTL -/
abbrev sprCtl (i : Nat) : Nat := 0x100000 + i % 32 * 0x4000
/-- SPRn_STATUS -/
abbrev sprStatus (i : Nat) : Nat := 0x100004 + i % 32 * 0x4000
/-- SPRn_PHY_CFG -/
abbrev sprPhyCfg (i : Nat) : Nat := 0x100008 + i % 32 * 0x4000
/-- SPRn_LANE_MAP -/
abbrev sprLaneMap (i : Nat) : Nat := 0x10000C + i % 32 * 0x4000
/-- SPRn_COMMIT -/
abbrev sprCommit (i : Nat) : Nat := 0x100010 + i % 32 * 0x4000
/-- SPRn_DSK_VAL0-SPRn_DSK_VAL3 -/
abbrev sprDskVal (i : Nat) (j : Nat) : Nat := 0x100020 + i % 32 * 0x4000 + j % 4 * 0x4
/-- SPRn_DSK_WIN0-SPRn_DSK_WIN3 -/
abbrev sprDskWin (i : Nat) (j : Nat) : Nat := 0x100030 + i % 32 * 0x4000 + j % 4 * 0x4
/-- SPRn_MAP0-SPRn_MAP7 -/
abbrev sprMap (i : Nat) (j : Nat) : Nat := 0x100040 + i % 32 * 0x4000 + j % 8 * 0x4
/-- SPRn_UDT0-SPRn_UDT7 -/
abbrev sprUdt (i : Nat) (j : Nat) : Nat := 0x100060 + i % 32 * 0x4000 + j % 8 * 0x4
/-- SPRn_LINE_LEN -/
abbrev sprLineLen (i : Nat) : Nat := 0x100080 + i % 32 * 0x4000
/-- SPRn_BLK01 -/
abbrev sprBlk01 (i : Nat) : Nat := 0x100084 + i % 32 * 0x4000
/-- SPRn_BLK23 -/
abbrev sprBlk23 (i : Nat) : Nat := 0x100088 + i % 32 * 0x4000
/-- SPRn_ASM_TMO -/
abbrev sprAsmTmo (i : Nat) : Nat := 0x10008C + i % 32 * 0x4000
/-- SPRn_TRIG_CTL -/
abbrev sprTrigCtl (i : Nat) : Nat := 0x100090 + i % 32 * 0x4000
/-- SPRn_TRIG_LAT -/
abbrev sprTrigLat (i : Nat) : Nat := 0x100094 + i % 32 * 0x4000
/-- SPRn_XRST -/
abbrev sprXrst (i : Nat) : Nat := 0x100098 + i % 32 * 0x4000
/-- SPRn_TRIG_DLY -/
abbrev sprTrigDly (i : Nat) : Nat := 0x10009C + i % 32 * 0x4000
/-- SPRn_POND_FILL -/
abbrev sprPondFill (i : Nat) : Nat := 0x1000A0 + i % 32 * 0x4000
/-- SPRn_POND_PEAK -/
abbrev sprPondPeak (i : Nat) : Nat := 0x1000A4 + i % 32 * 0x4000
/-- SPRn_POND_WM -/
abbrev sprPondWm (i : Nat) : Nat := 0x1000A8 + i % 32 * 0x4000
/-- SPRn_EVT -/
abbrev sprEvt (i : Nat) : Nat := 0x1000B0 + i % 32 * 0x4000
/-- SPRn_EVT_EN -/
abbrev sprEvtEn (i : Nat) : Nat := 0x1000B4 + i % 32 * 0x4000
/-- SPRn_CNT_ECC_CORR -/
abbrev sprCntEccCorr (i : Nat) : Nat := 0x1000C0 + i % 32 * 0x4000
/-- SPRn_CNT_ECC_UNC -/
abbrev sprCntEccUnc (i : Nat) : Nat := 0x1000C4 + i % 32 * 0x4000
/-- SPRn_CNT_CRC -/
abbrev sprCntCrc (i : Nat) : Nat := 0x1000C8 + i % 32 * 0x4000
/-- SPRn_CNT_WC -/
abbrev sprCntWc (i : Nat) : Nat := 0x1000CC + i % 32 * 0x4000
/-- SPRn_CNT_UNEXP -/
abbrev sprCntUnexp (i : Nat) : Nat := 0x1000D0 + i % 32 * 0x4000
/-- SPRn_CNT_NO_FE -/
abbrev sprCntNoFe (i : Nat) : Nat := 0x1000D4 + i % 32 * 0x4000
/-- SPRn_CNT_PHY -/
abbrev sprCntPhy (i : Nat) : Nat := 0x1000D8 + i % 32 * 0x4000
/-- SPRn_CNT_ASM -/
abbrev sprCntAsm (i : Nat) : Nat := 0x1000DC + i % 32 * 0x4000
/-- SPRn_CNT_MISSING -/
abbrev sprCntMissing (i : Nat) : Nat := 0x1000E0 + i % 32 * 0x4000
/-- SPRn_CNT_UNTRIG -/
abbrev sprCntUntrig (i : Nat) : Nat := 0x1000E4 + i % 32 * 0x4000
/-- SPRn_CNT_OVF -/
abbrev sprCntOvf (i : Nat) : Nat := 0x1000E8 + i % 32 * 0x4000
/-- SPRn_CNT_TRUNC_GRP -/
abbrev sprCntTruncGrp (i : Nat) : Nat := 0x1000EC + i % 32 * 0x4000
/-- SPRn_CNT_LINES_DROP -/
abbrev sprCntLinesDrop (i : Nat) : Nat := 0x1000F0 + i % 32 * 0x4000
/-- SPRn_LINES_LO -/
abbrev sprLinesLo (i : Nat) : Nat := 0x1000F8 + i % 32 * 0x4000
/-- SPRn_LINES_HI -/
abbrev sprLinesHi (i : Nat) : Nat := 0x1000FC + i % 32 * 0x4000
/-- SPRn_LAST_TIME_LO -/
abbrev sprLastTimeLo (i : Nat) : Nat := 0x100100 + i % 32 * 0x4000
/-- SPRn_LAST_TIME_HI -/
abbrev sprLastTimeHi (i : Nat) : Nat := 0x100104 + i % 32 * 0x4000
/-- SPRn_LAST_WP_LO -/
abbrev sprLastWpLo (i : Nat) : Nat := 0x100108 + i % 32 * 0x4000
/-- SPRn_LAST_WP_HI -/
abbrev sprLastWpHi (i : Nat) : Nat := 0x10010C + i % 32 * 0x4000
/-- SPRn_LAST_FRAME -/
abbrev sprLastFrame (i : Nat) : Nat := 0x100110 + i % 32 * 0x4000
/-- SPRn_LAST_INFO -/
abbrev sprLastInfo (i : Nat) : Nat := 0x100114 + i % 32 * 0x4000
/-- SPRn_LAST_EPOCH -/
abbrev sprLastEpoch (i : Nat) : Nat := 0x100118 + i % 32 * 0x4000
/-- SPRn_LAST_ERR -/
abbrev sprLastErr (i : Nat) : Nat := 0x100120 + i % 32 * 0x4000
/-- TWBn_CTL -/
abbrev twbCtl (i : Nat) : Nat := 0x180000 + i % 32 * 0x800
/-- TWBn_STATUS -/
abbrev twbStatus (i : Nat) : Nat := 0x180004 + i % 32 * 0x800
/-- TWBn_TIMING0 -/
abbrev twbTiming0 (i : Nat) : Nat := 0x180008 + i % 32 * 0x800
/-- TWBn_TIMING1 -/
abbrev twbTiming1 (i : Nat) : Nat := 0x18000C + i % 32 * 0x800
/-- TWBn_TMO -/
abbrev twbTmo (i : Nat) : Nat := 0x180010 + i % 32 * 0x800
/-- TWBn_XRST_WAIT -/
abbrev twbXrstWait (i : Nat) : Nat := 0x180014 + i % 32 * 0x800
/-- TWBn_CMD -/
abbrev twbCmd (i : Nat) : Nat := 0x180018 + i % 32 * 0x800
/-- TWBn_LIST_LO -/
abbrev twbListLo (i : Nat) : Nat := 0x18001C + i % 32 * 0x800
/-- TWBn_LIST_HI -/
abbrev twbListHi (i : Nat) : Nat := 0x180020 + i % 32 * 0x800
/-- TWBn_RESULT -/
abbrev twbResult (i : Nat) : Nat := 0x180024 + i % 32 * 0x800
/-- TWBn_EVT -/
abbrev twbEvt (i : Nat) : Nat := 0x180028 + i % 32 * 0x800
/-- TWBn_EVT_EN -/
abbrev twbEvtEn (i : Nat) : Nat := 0x18002C + i % 32 * 0x800
/-- TWBn_CNT_LISTS, _FAIL, _NACK, _ARB, _PROTO, _CLEAR, _STUCK -/
abbrev twbCntLists (i : Nat) (j : Nat) : Nat := 0x180030 + i % 32 * 0x800 + j % 7 * 0x4
/-- TWBn_RDBUF -/
abbrev twbRdbuf (i : Nat) (j : Nat) : Nat := 0x180100 + i % 32 * 0x800 + j % 64 * 0x4
/-- TWBn_LRAM -/
abbrev twbLram (i : Nat) (j : Nat) : Nat := 0x180400 + i % 32 * 0x800 + j % 256 * 0x4
/-- TWBT_CTL -/
abbrev twbtCtl : Nat := 0x190000
/-- TWBT_STATUS -/
abbrev twbtStatus : Nat := 0x190004
/-- TWBT_ALERT -/
abbrev twbtAlert : Nat := 0x190008
/-- TWBT_ALERT_EN -/
abbrev twbtAlertEn : Nat := 0x19000C
/-- TWBT_ERR -/
abbrev twbtErr : Nat := 0x190010
/-- TWBT_CNT_PROTO -/
abbrev twbtCntProto : Nat := 0x190014
/-- TWBT_TMO -/
abbrev twbtTmo : Nat := 0x190018
/-- TWBT_SOFT_SET -/
abbrev twbtSoftSet : Nat := 0x19001C
/-- SEAMn_OFS -/
abbrev seamOfs (i : Nat) : Nat := 0x200000 + i % 32 * 0x100
/-- SEAMn_MAG -/
abbrev seamMag (i : Nat) : Nat := 0x200004 + i % 32 * 0x100
/-- SEAMn_DLY -/
abbrev seamDly (i : Nat) : Nat := 0x200008 + i % 32 * 0x100
/-- SEAMn_CFG -/
abbrev seamCfg (i : Nat) : Nat := 0x20000C + i % 32 * 0x100
/-- SEAMn_OFS_MIN -/
abbrev seamOfsMin (i : Nat) : Nat := 0x200010 + i % 32 * 0x100
/-- SEAMn_OFS_MAX -/
abbrev seamOfsMax (i : Nat) : Nat := 0x200014 + i % 32 * 0x100
/-- SEAMn_MAG_MIN -/
abbrev seamMagMin (i : Nat) : Nat := 0x200018 + i % 32 * 0x100
/-- SEAMn_MAG_MAX -/
abbrev seamMagMax (i : Nat) : Nat := 0x20001C + i % 32 * 0x100
/-- SEAMn_DLY_MIN -/
abbrev seamDlyMin (i : Nat) : Nat := 0x200020 + i % 32 * 0x100
/-- SEAMn_DLY_MAX -/
abbrev seamDlyMax (i : Nat) : Nat := 0x200024 + i % 32 * 0x100
/-- SEAMn_OFS_NOW -/
abbrev seamOfsNow (i : Nat) : Nat := 0x200030 + i % 32 * 0x100
/-- SEAMn_MAG_NOW -/
abbrev seamMagNow (i : Nat) : Nat := 0x200034 + i % 32 * 0x100
/-- SEAMn_DLY_NOW -/
abbrev seamDlyNow (i : Nat) : Nat := 0x200038 + i % 32 * 0x100
/-- SEAMn_OFS_WANT -/
abbrev seamOfsWant (i : Nat) : Nat := 0x200040 + i % 32 * 0x100
/-- SEAMn_MAG_WANT -/
abbrev seamMagWant (i : Nat) : Nat := 0x200044 + i % 32 * 0x100
/-- SEAMn_DLY_WANT -/
abbrev seamDlyWant (i : Nat) : Nat := 0x200048 + i % 32 * 0x100
/-- SEAMn_TRK_STAT -/
abbrev seamTrkStat (i : Nat) : Nat := 0x200050 + i % 32 * 0x100
/-- SEAMn_PRESS_OFS -/
abbrev seamPressOfs (i : Nat) : Nat := 0x200054 + i % 32 * 0x100
/-- SEAMn_PRESS_MAG -/
abbrev seamPressMag (i : Nat) : Nat := 0x200058 + i % 32 * 0x100
/-- SEAMn_PRESS_DLY -/
abbrev seamPressDly (i : Nat) : Nat := 0x20005C + i % 32 * 0x100
/-- SEAM_BARb_CFG -/
abbrev seamBarCfg (i : Nat) : Nat := 0x204000 + i % 4 * 0x1000
/-- SEAM_BARb_CTL -/
abbrev seamBarCtl (i : Nat) : Nat := 0x204004 + i % 4 * 0x1000
/-- SEAM_BARb_COMMIT -/
abbrev seamBarCommit (i : Nat) : Nat := 0x204008 + i % 4 * 0x1000
/-- SEAM_BARb_CMT_STAT -/
abbrev seamBarCmtStat (i : Nat) : Nat := 0x20400C + i % 4 * 0x1000
/-- SEAM_BARb_GAIN -/
abbrev seamBarGain (i : Nat) : Nat := 0x204010 + i % 4 * 0x1000
/-- SEAM_BARb_STEP_XY -/
abbrev seamBarStepXy (i : Nat) : Nat := 0x204014 + i % 4 * 0x1000
/-- SEAM_BARb_STEP_M -/
abbrev seamBarStepM (i : Nat) : Nat := 0x204018 + i % 4 * 0x1000
/-- SEAM_BARb_QMIN -/
abbrev seamBarQmin (i : Nat) : Nat := 0x20401C + i % 4 * 0x1000
/-- SEAM_BARb_SRCH -/
abbrev seamBarSrch (i : Nat) : Nat := 0x204020 + i % 4 * 0x1000
/-- SEAM_BARb_CL0-SEAM_BARb_CL3 -/
abbrev seamBarCl (i : Nat) (j : Nat) : Nat := 0x204030 + i % 4 * 0x1000 + j % 4 * 0x4
/-- SEAM_BARb_ORDER0-SEAM_BARb_ORDER7 -/
abbrev seamBarOrder (i : Nat) (j : Nat) : Nat := 0x204040 + i % 4 * 0x1000 + j % 8 * 0x4
/-- SEAM_BARb_BUF_NEED -/
abbrev seamBarBufNeed (i : Nat) : Nat := 0x204060 + i % 4 * 0x1000
/-- SEAM_BARb_BUF_SIZE -/
abbrev seamBarBufSize (i : Nat) : Nat := 0x204064 + i % 4 * 0x1000
/-- SEAM_BARb_UNCOV -/
abbrev seamBarUncov (i : Nat) : Nat := 0x204068 + i % 4 * 0x1000
/-- SEAM_BARb_EVT -/
abbrev seamBarEvt (i : Nat) : Nat := 0x204070 + i % 4 * 0x1000
/-- SEAM_BARb_EVT_EN -/
abbrev seamBarEvtEn (i : Nat) : Nat := 0x204074 + i % 4 * 0x1000
/-- SEAM_BARb_LOG -/
abbrev seamBarLog (i : Nat) : Nat := 0x204078 + i % 4 * 0x1000
/-- SEAM_BARb_FRAME -/
abbrev seamBarFrame (i : Nat) : Nat := 0x204080 + i % 4 * 0x1000
/-- SEAM_BARb_Sk_BLEND -/
abbrev seamBarsBlend (i : Nat) (j : Nat) : Nat := 0x204100 + i % 4 * 0x1000 + j % 31 * 0x20
/-- SEAM_BARb_Sk_OVL -/
abbrev seamBarsOvl (i : Nat) (j : Nat) : Nat := 0x204104 + i % 4 * 0x1000 + j % 31 * 0x20
/-- SEAM_BARb_Sk_RES_XY -/
abbrev seamBarsResXy (i : Nat) (j : Nat) : Nat := 0x204108 + i % 4 * 0x1000 + j % 31 * 0x20
/-- SEAM_BARb_Sk_RES_M -/
abbrev seamBarsResM (i : Nat) (j : Nat) : Nat := 0x20410C + i % 4 * 0x1000 + j % 31 * 0x20
/-- SEAM_BARb_Sk_QUAL -/
abbrev seamBarsQual (i : Nat) (j : Nat) : Nat := 0x204110 + i % 4 * 0x1000 + j % 31 * 0x20
/-- SEAM_BARb_Sk_LINES -/
abbrev seamBarsLines (i : Nat) (j : Nat) : Nat := 0x204114 + i % 4 * 0x1000 + j % 31 * 0x20
/-- SEAM_GLB_EVT -/
abbrev seamGlbEvt : Nat := 0x207F00
/-- SEAM_GLB_BANKUSE -/
abbrev seamGlbBankuse : Nat := 0x207F04
/-- LE_STATUS -/
abbrev leStatus : Nat := 0x280000
/-- LE_UTIL_WIN -/
abbrev leUtilWin : Nat := 0x280004
/-- LE_UTIL -/
abbrev leUtil : Nat := 0x280008
/-- LE_IDLE_SLOTS -/
abbrev leIdleSlots : Nat := 0x28000C
/-- LE_ROUND_LO -/
abbrev leRoundLo : Nat := 0x280010
/-- LE_ROUND_HI -/
abbrev leRoundHi : Nat := 0x280014
/-- LE_EVT -/
abbrev leEvt : Nat := 0x280018
/-- LE_EVT_EN -/
abbrev leEvtEn : Nat := 0x28001C
/-- LE_CALENDAR -/
abbrev leCalendar (i : Nat) : Nat := 0x280100 + i % 64 * 0x4
/-- LE_Gg_CTL -/
abbrev legCtl (i : Nat) : Nat := 0x281000 + i % 12 * 0x100
/-- LE_Gg_STATUS -/
abbrev legStatus (i : Nat) : Nat := 0x281004 + i % 12 * 0x100
/-- LE_Gg_DEMAND -/
abbrev legDemand (i : Nat) : Nat := 0x281008 + i % 12 * 0x100
/-- LE_Gg_BACKLOG -/
abbrev legBacklog (i : Nat) : Nat := 0x28100C + i % 12 * 0x100
/-- LE_Gg_BACKLOG_PEAK -/
abbrev legBacklogPeak (i : Nat) : Nat := 0x281010 + i % 12 * 0x100
/-- LE_Gg_BACKLOG_WM -/
abbrev legBacklogWm (i : Nat) : Nat := 0x281014 + i % 12 * 0x100
/-- LE_Gg_REGION -/
abbrev legRegion (i : Nat) : Nat := 0x281018 + i % 12 * 0x100
/-- LE_Gg_LAT_BOUND -/
abbrev legLatBound (i : Nat) : Nat := 0x28101C + i % 12 * 0x100
/-- LE_Gg_LAT_MAX -/
abbrev legLatMax (i : Nat) : Nat := 0x281020 + i % 12 * 0x100
/-- LE_Gg_SLOTS_OWN -/
abbrev legSlotsOwn (i : Nat) : Nat := 0x281024 + i % 12 * 0x100
/-- LE_Gg_SLOTS_EXTRA -/
abbrev legSlotsExtra (i : Nat) : Nat := 0x281028 + i % 12 * 0x100
/-- LE_Gg_SLOTS_BLOCKED -/
abbrev legSlotsBlocked (i : Nat) : Nat := 0x28102C + i % 12 * 0x100
/-- LE_Gg_SAMPLES_LO -/
abbrev legSamplesLo (i : Nat) : Nat := 0x281030 + i % 12 * 0x100
/-- LE_Gg_SAMPLES_HI -/
abbrev legSamplesHi (i : Nat) : Nat := 0x281034 + i % 12 * 0x100
/-- LE_Gg_TRUNC -/
abbrev legTrunc (i : Nat) : Nat := 0x281038 + i % 12 * 0x100
/-- LE_Gg_LINES_DROP -/
abbrev legLinesDrop (i : Nat) : Nat := 0x28103C + i % 12 * 0x100
/-- LE_Gg_TNR_SKIP -/
abbrev legTnrSkip (i : Nat) : Nat := 0x281040 + i % 12 * 0x100
/-- LE_Gg_LAT_OVER -/
abbrev legLatOver (i : Nat) : Nat := 0x281044 + i % 12 * 0x100
/-- LE_Gg_EVT -/
abbrev legEvt (i : Nat) : Nat := 0x281048 + i % 12 * 0x100
/-- LE_Gg_EVT_EN -/
abbrev legEvtEn (i : Nat) : Nat := 0x28104C + i % 12 * 0x100
/-- COR_FF_BASE0-COR_FF_BASE31 -/
abbrev corFfBase (i : Nat) : Nat := 0x300100 + i % 32 * 0x4
/-- COR_FF_CONFLICT -/
abbrev corFfConflict : Nat := 0x300180
/-- COR_Gg_CTL -/
abbrev corCtl (i : Nat) : Nat := 0x301000 + i % 12 * 0x1000
/-- COR_Gg_COMMIT -/
abbrev corCommit (i : Nat) : Nat := 0x301004 + i % 12 * 0x1000
/-- COR_Gg_CMT_STAT -/
abbrev corCmtStat (i : Nat) : Nat := 0x301008 + i % 12 * 0x1000
/-- COR_Gg_STATUS -/
abbrev corStatus (i : Nat) : Nat := 0x30100C + i % 12 * 0x1000
/-- COR_Gg_NR_S0 -/
abbrev corNrS0 (i : Nat) : Nat := 0x301010 + i % 12 * 0x1000
/-- COR_Gg_NR_S1 -/
abbrev corNrS1 (i : Nat) : Nat := 0x301014 + i % 12 * 0x1000
/-- COR_Gg_NR_S2 -/
abbrev corNrS2 (i : Nat) : Nat := 0x301018 + i % 12 * 0x1000
/-- COR_Gg_NR_SHIFT -/
abbrev corNrShift (i : Nat) : Nat := 0x30101C + i % 12 * 0x1000
/-- COR_Gg_NR_R0-COR_Gg_NR_R7 -/
abbrev corNrR (i : Nat) (j : Nat) : Nat := 0x301020 + i % 12 * 0x1000 + j % 8 * 0x4
/-- COR_Gg_TNR_CTL -/
abbrev corTnrCtl (i : Nat) : Nat := 0x301040 + i % 12 * 0x1000
/-- COR_Gg_TNR_CMD -/
abbrev corTnrCmd (i : Nat) : Nat := 0x301044 + i % 12 * 0x1000
/-- COR_Gg_TNR_PITCH -/
abbrev corTnrPitch (i : Nat) : Nat := 0x301048 + i % 12 * 0x1000
/-- COR_Gg_TNR_THR -/
abbrev corTnrThr (i : Nat) : Nat := 0x30104C + i % 12 * 0x1000
/-- COR_Gg_TNR_SHIFT -/
abbrev corTnrShift (i : Nat) : Nat := 0x301050 + i % 12 * 0x1000
/-- COR_Gg_TNR_PIN -/
abbrev corTnrPin (i : Nat) : Nat := 0x301054 + i % 12 * 0x1000
/-- COR_Gg_TNR_N0c -/
abbrev corTnrN0 (i : Nat) (j : Nat) : Nat := 0x301060 + i % 12 * 0x1000 + j % 4 * 0x4
/-- COR_Gg_TNR_N1c -/
abbrev corTnrN1 (i : Nat) (j : Nat) : Nat := 0x301070 + i % 12 * 0x1000 + j % 4 * 0x4
/-- COR_Gg_TNR_N0_MINc -/
abbrev corTnrN0Min (i : Nat) (j : Nat) : Nat := 0x301080 + i % 12 * 0x1000 + j % 4 * 0x4
/-- COR_Gg_TNR_N0_MAXc -/
abbrev corTnrN0Max (i : Nat) (j : Nat) : Nat := 0x301090 + i % 12 * 0x1000 + j % 4 * 0x4
/-- COR_Gg_TNR_N1_MINc -/
abbrev corTnrN1Min (i : Nat) (j : Nat) : Nat := 0x3010A0 + i % 12 * 0x1000 + j % 4 * 0x4
/-- COR_Gg_TNR_N1_MAXc -/
abbrev corTnrN1Max (i : Nat) (j : Nat) : Nat := 0x3010B0 + i % 12 * 0x1000 + j % 4 * 0x4
/-- COR_Gg_TNR_SHIFT_WANT -/
abbrev corTnrShiftWant (i : Nat) : Nat := 0x3010C0 + i % 12 * 0x1000
/-- COR_Gg_TNR_SHIFT_NOW -/
abbrev corTnrShiftNow (i : Nat) : Nat := 0x3010C4 + i % 12 * 0x1000
/-- COR_Gg_TNR_N0_WANTc -/
abbrev corTnrN0Want (i : Nat) (j : Nat) : Nat := 0x3010D0 + i % 12 * 0x1000 + j % 4 * 0x4
/-- COR_Gg_TNR_N1_WANTc -/
abbrev corTnrN1Want (i : Nat) (j : Nat) : Nat := 0x3010E0 + i % 12 * 0x1000 + j % 4 * 0x4
/-- COR_Gg_TNR_N0_NOWc -/
abbrev corTnrN0Now (i : Nat) (j : Nat) : Nat := 0x3010F0 + i % 12 * 0x1000 + j % 4 * 0x4
/-- COR_Gg_TNR_N1_NOWc -/
abbrev corTnrN1Now (i : Nat) (j : Nat) : Nat := 0x301100 + i % 12 * 0x1000 + j % 4 * 0x4
/-- COR_Gg_TNR_STAT -/
abbrev corTnrStat (i : Nat) : Nat := 0x301110 + i % 12 * 0x1000
/-- COR_Gg_TNR_ROWS -/
abbrev corTnrRows (i : Nat) : Nat := 0x301114 + i % 12 * 0x1000
/-- COR_Gg_TNR_PRESS_SHIFT -/
abbrev corTnrPressShift (i : Nat) : Nat := 0x301118 + i % 12 * 0x1000
/-- COR_Gg_TNR_PRESS_NOISE -/
abbrev corTnrPressNoise (i : Nat) : Nat := 0x30111C + i % 12 * 0x1000
/-- COR_Gg_TNR_CNT_BYP -/
abbrev corTnrCntByp (i : Nat) : Nat := 0x301120 + i % 12 * 0x1000
/-- COR_Gg_TNR_CNT_OOR -/
abbrev corTnrCntOor (i : Nat) : Nat := 0x301124 + i % 12 * 0x1000
/-- COR_Gg_TNR_CNT_ECC -/
abbrev corTnrCntEcc (i : Nat) : Nat := 0x301128 + i % 12 * 0x1000
/-- COR_Gg_TNR_LOG -/
abbrev corTnrLog (i : Nat) : Nat := 0x30112C + i % 12 * 0x1000
/-- COR_Gg_WB01 -/
abbrev corWb01 (i : Nat) : Nat := 0x301140 + i % 12 * 0x1000
/-- COR_Gg_WB23 -/
abbrev corWb23 (i : Nat) : Nat := 0x301144 + i % 12 * 0x1000
/-- COR_Gg_CM0 -/
abbrev corCm0 (i : Nat) : Nat := 0x301150 + i % 12 * 0x1000
/-- COR_Gg_CM1 -/
abbrev corCm1 (i : Nat) : Nat := 0x301154 + i % 12 * 0x1000
/-- COR_Gg_CM2 -/
abbrev corCm2 (i : Nat) : Nat := 0x301158 + i % 12 * 0x1000
/-- COR_Gg_CM3 -/
abbrev corCm3 (i : Nat) : Nat := 0x30115C + i % 12 * 0x1000
/-- COR_Gg_CM4 -/
abbrev corCm4 (i : Nat) : Nat := 0x301160 + i % 12 * 0x1000
/-- COR_Gg_CM5 -/
abbrev corCm5 (i : Nat) : Nat := 0x301164 + i % 12 * 0x1000
/-- COR_Gg_CMO0-COR_Gg_CMO2 -/
abbrev corCmo (i : Nat) (j : Nat) : Nat := 0x301168 + i % 12 * 0x1000 + j % 3 * 0x4
/-- COR_Gg_TLD_CTL -/
abbrev corTldCtl (i : Nat) : Nat := 0x301180 + i % 12 * 0x1000
/-- COR_Gg_TLD_DST -/
abbrev corTldDst (i : Nat) : Nat := 0x301184 + i % 12 * 0x1000
/-- COR_Gg_TLD_COUNT -/
abbrev corTldCount (i : Nat) : Nat := 0x301188 + i % 12 * 0x1000
/-- COR_Gg_TLD_SRC_LO -/
abbrev corTldSrcLo (i : Nat) : Nat := 0x30118C + i % 12 * 0x1000
/-- COR_Gg_TLD_SRC_HI -/
abbrev corTldSrcHi (i : Nat) : Nat := 0x301190 + i % 12 * 0x1000
/-- COR_Gg_TLD_DATA -/
abbrev corTldData (i : Nat) : Nat := 0x301194 + i % 12 * 0x1000
/-- COR_Gg_TLD_STAT -/
abbrev corTldStat (i : Nat) : Nat := 0x301198 + i % 12 * 0x1000
/-- COR_Gg_EVT -/
abbrev corEvt (i : Nat) : Nat := 0x3011A0 + i % 12 * 0x1000
/-- COR_Gg_EVT_EN -/
abbrev corEvtEn (i : Nat) : Nat := 0x3011A4 + i % 12 * 0x1000
/-- FRM_Gg_SRC -/
abbrev frmSrc (i : Nat) : Nat := 0x400000 + i % 12 * 0x100
/-- FRM_Gg_REPEAT_LO -/
abbrev frmRepeatLo (i : Nat) : Nat := 0x400004 + i % 12 * 0x100
/-- FRM_Gg_REPEAT_HI -/
abbrev frmRepeatHi (i : Nat) : Nat := 0x400008 + i % 12 * 0x100
/-- FRM_Gg_ORIGIN_LO -/
abbrev frmOriginLo (i : Nat) : Nat := 0x40000C + i % 12 * 0x100
/-- FRM_Gg_ORIGIN_HI -/
abbrev frmOriginHi (i : Nat) : Nat := 0x400010 + i % 12 * 0x100
/-- FRM_Gg_COUNT_N -/
abbrev frmCountN (i : Nat) : Nat := 0x400014 + i % 12 * 0x100
/-- FRM_Gg_HOLDOFF -/
abbrev frmHoldoff (i : Nat) : Nat := 0x400018 + i % 12 * 0x100
/-- FRM_Gg_MAXLEN -/
abbrev frmMaxlen (i : Nat) : Nat := 0x40001C + i % 12 * 0x100
/-- FRM_Gg_COMMIT -/
abbrev frmCommit (i : Nat) : Nat := 0x400020 + i % 12 * 0x100
/-- FRM_Gg_CMT_STAT -/
abbrev frmCmtStat (i : Nat) : Nat := 0x400024 + i % 12 * 0x100
/-- FRM_Gg_FRAME0 -/
abbrev frmFrame0 (i : Nat) : Nat := 0x400028 + i % 12 * 0x100
/-- FRM_Gg_FRAME -/
abbrev frmFrame (i : Nat) : Nat := 0x40002C + i % 12 * 0x100
/-- FRM_Gg_LINE -/
abbrev frmLine (i : Nat) : Nat := 0x400030 + i % 12 * 0x100
/-- FRM_Gg_COUNT_LO -/
abbrev frmCountLo (i : Nat) : Nat := 0x400034 + i % 12 * 0x100
/-- FRM_Gg_COUNT_HI -/
abbrev frmCountHi (i : Nat) : Nat := 0x400038 + i % 12 * 0x100
/-- FRM_Gg_GEN -/
abbrev frmGen (i : Nat) : Nat := 0x40003C + i % 12 * 0x100
/-- FRM_Gg_EVT -/
abbrev frmEvt (i : Nat) : Nat := 0x400040 + i % 12 * 0x100
/-- FRM_Gg_EVT_EN -/
abbrev frmEvtEn (i : Nat) : Nat := 0x400044 + i % 12 * 0x100
/-- FRM_Gg_CNT_SYNTH -/
abbrev frmCntSynth (i : Nat) : Nat := 0x400048 + i % 12 * 0x100
/-- FRM_Gg_CNT_IGN -/
abbrev frmCntIgn (i : Nat) : Nat := 0x40004C + i % 12 * 0x100
/-- EXPn_PROFILE -/
abbrev expProfile (i : Nat) : Nat := 0x410000 + i % 32 * 0x1000
/-- EXPn_STATUS -/
abbrev expStatus (i : Nat) : Nat := 0x410004 + i % 32 * 0x1000
/-- EXPn_EVT -/
abbrev expEvt (i : Nat) : Nat := 0x410008 + i % 32 * 0x1000
/-- EXPn_EVT_EN -/
abbrev expEvtEn (i : Nat) : Nat := 0x41000C + i % 32 * 0x1000
/-- EXPn_CNT_LATE -/
abbrev expCntLate (i : Nat) : Nat := 0x410010 + i % 32 * 0x1000
/-- EXPn_CNT_FAIL -/
abbrev expCntFail (i : Nat) : Nat := 0x410014 + i % 32 * 0x1000
/-- EXPn_Ee_TARGET -/
abbrev expeTarget (i : Nat) (j : Nat) : Nat := 0x410400 + i % 32 * 0x1000 + j % 64 * 0x20
/-- EXPn_Ee_LIST -/
abbrev expeList (i : Nat) (j : Nat) : Nat := 0x410404 + i % 32 * 0x1000 + j % 64 * 0x20
/-- EXPn_Ee_CTL -/
abbrev expeCtl (i : Nat) (j : Nat) : Nat := 0x410408 + i % 32 * 0x1000 + j % 64 * 0x20
/-- EXPn_Ee_STAT -/
abbrev expeStat (i : Nat) (j : Nat) : Nat := 0x41040C + i % 32 * 0x1000 + j % 64 * 0x20
/-- EXPn_Ee_EFFECT -/
abbrev expeEffect (i : Nat) (j : Nat) : Nat := 0x410410 + i % 32 * 0x1000 + j % 64 * 0x20
/-- TAL_Gg_CTL -/
abbrev talCtl (i : Nat) : Nat := 0x440000 + i % 12 * 0x2000
/-- TAL_Gg_COMMIT -/
abbrev talCommit (i : Nat) : Nat := 0x440004 + i % 12 * 0x2000
/-- TAL_Gg_CMT_STAT -/
abbrev talCmtStat (i : Nat) : Nat := 0x440008 + i % 12 * 0x2000
/-- TAL_Gg_HX0 -/
abbrev talHx0 (i : Nat) : Nat := 0x44000C + i % 12 * 0x2000
/-- TAL_Gg_HX1 -/
abbrev talHx1 (i : Nat) : Nat := 0x440010 + i % 12 * 0x2000
/-- TAL_Gg_LAST_FRAME -/
abbrev talLastFrame (i : Nat) : Nat := 0x440014 + i % 12 * 0x2000
/-- TAL_Gg_LAST_LEN -/
abbrev talLastLen (i : Nat) : Nat := 0x440018 + i % 12 * 0x2000
/-- TAL_Gg_CNT_REC -/
abbrev talCntRec (i : Nat) : Nat := 0x44001C + i % 12 * 0x2000
/-- TAL_Gg_EVT -/
abbrev talEvt (i : Nat) : Nat := 0x440020 + i % 12 * 0x2000
/-- TAL_Gg_EVT_EN -/
abbrev talEvtEn (i : Nat) : Nat := 0x440024 + i % 12 * 0x2000
/-- TAL_Gg_ROIr.w0 -/
abbrev talRoiw0 (i : Nat) (j : Nat) : Nat := 0x441000 + i % 12 * 0x2000 + j % 256 * 0x10
/-- TAL_Gg_ROIr.w1 -/
abbrev talRoiw1 (i : Nat) (j : Nat) : Nat := 0x441004 + i % 12 * 0x2000 + j % 256 * 0x10
/-- TAL_Gg_ROIr.w2 -/
abbrev talRoiw2 (i : Nat) (j : Nat) : Nat := 0x441008 + i % 12 * 0x2000 + j % 256 * 0x10
/-- TAL_Gg_ROIr.w3 -/
abbrev talRoiw3 (i : Nat) (j : Nat) : Nat := 0x44100C + i % 12 * 0x2000 + j % 256 * 0x10
/-- OUT_STn_CFG -/
abbrev outCfg (i : Nat) : Nat := 0x480000 + i % 16 * 0x400
/-- OUT_STn_CTL -/
abbrev outCtl (i : Nat) : Nat := 0x480004 + i % 16 * 0x400
/-- OUT_STn_COMMIT -/
abbrev outCommit (i : Nat) : Nat := 0x480008 + i % 16 * 0x400
/-- OUT_STn_CMT_STAT -/
abbrev outCmtStat (i : Nat) : Nat := 0x48000C + i % 16 * 0x400
/-- OUT_STn_CROP_X -/
abbrev outCropX (i : Nat) : Nat := 0x480010 + i % 16 * 0x400
/-- OUT_STn_CROP_W -/
abbrev outCropW (i : Nat) : Nat := 0x480014 + i % 16 * 0x400
/-- OUT_STn_CROP_Y -/
abbrev outCropY (i : Nat) : Nat := 0x480018 + i % 16 * 0x400
/-- OUT_STn_CROP_H -/
abbrev outCropH (i : Nat) : Nat := 0x48001C + i % 16 * 0x400
/-- OUT_STn_HSTEP -/
abbrev outHstep (i : Nat) : Nat := 0x480020 + i % 16 * 0x400
/-- OUT_STn_VSTEP -/
abbrev outVstep (i : Nat) : Nat := 0x480024 + i % 16 * 0x400
/-- OUT_STn_DEC -/
abbrev outDec (i : Nat) : Nat := 0x480028 + i % 16 * 0x400
/-- OUT_STn_STATUS -/
abbrev outStatus (i : Nat) : Nat := 0x480030 + i % 16 * 0x400
/-- OUT_STn_COLS -/
abbrev outCols (i : Nat) : Nat := 0x480034 + i % 16 * 0x400
/-- OUT_STn_REC_MAX -/
abbrev outRecMax (i : Nat) : Nat := 0x480038 + i % 16 * 0x400
/-- OUT_STn_POND -/
abbrev outPond (i : Nat) : Nat := 0x48003C + i % 16 * 0x400
/-- OUT_STn_ALIVE -/
abbrev outAlive (i : Nat) : Nat := 0x480040 + i % 16 * 0x400
/-- OUT_STn_CNT_REC_LO -/
abbrev outCntRecLo (i : Nat) : Nat := 0x480044 + i % 16 * 0x400
/-- OUT_STn_CNT_REC_HI -/
abbrev outCntRecHi (i : Nat) : Nat := 0x480048 + i % 16 * 0x400
/-- OUT_STn_CNT_DROP -/
abbrev outCntDrop (i : Nat) : Nat := 0x480050 + i % 16 * 0x400
/-- OUT_STn_CNT_TRUNC -/
abbrev outCntTrunc (i : Nat) : Nat := 0x480054 + i % 16 * 0x400
/-- OUT_STn_FILL -/
abbrev outFill (i : Nat) : Nat := 0x480058 + i % 16 * 0x400
/-- OUT_STn_PEAK -/
abbrev outPeak (i : Nat) : Nat := 0x48005C + i % 16 * 0x400
/-- OUT_STn_EVT -/
abbrev outEvt (i : Nat) : Nat := 0x480060 + i % 16 * 0x400
/-- OUT_STn_EVT_EN -/
abbrev outEvtEn (i : Nat) : Nat := 0x480064 + i % 16 * 0x400
/-- OUT_GLB_EVT -/
abbrev outGlbEvt : Nat := 0x484C00
/-- OUT_GLB_EVT_EN -/
abbrev outGlbEvtEn : Nat := 0x484C04
/-- OUT_GLB_SETUSE -/
abbrev outGlbSetuse : Nat := 0x484C08
/-- MKT_STATUS -/
abbrev mktStatus : Nat := 0x500000
/-- MKT_LINK_HOLD -/
abbrev mktLinkHold : Nat := 0x500004
/-- MKT_FAILBACK -/
abbrev mktFailback : Nat := 0x500008
/-- MKT_PFC_WD -/
abbrev mktPfcWd : Nat := 0x50000C
/-- MKT_PFC_IGN -/
abbrev mktPfcIgn : Nat := 0x500010
/-- MKT_SEG -/
abbrev mktSeg : Nat := 0x500014
/-- MKT_UDP_BASE -/
abbrev mktUdpBase : Nat := 0x500018
/-- MKT_ETYPE -/
abbrev mktEtype : Nat := 0x50001C
/-- MKT_TTL -/
abbrev mktTtl : Nat := 0x500020
/-- MKT_WIN_USED -/
abbrev mktWinUsed : Nat := 0x500024
/-- MKT_EVT -/
abbrev mktEvt : Nat := 0x500028
/-- MKT_EVT_EN -/
abbrev mktEvtEn : Nat := 0x50002C
/-- MKT_CNT_BADMSG -/
abbrev mktCntBadmsg : Nat := 0x500030
/-- MKT_STALL0_SHARE-MKT_STALL7_SHARE -/
abbrev mktStallShare (i : Nat) : Nat := 0x500100 + i % 8 * 0x4
/-- XPT_STn_CTL -/
abbrev xptCtl (i : Nat) : Nat := 0x501000 + i % 16 * 0x100
/-- XPT_STn_TAG -/
abbrev xptTag (i : Nat) : Nat := 0x501004 + i % 16 * 0x100
/-- XPT_STn_CMD -/
abbrev xptCmd (i : Nat) : Nat := 0x501008 + i % 16 * 0x100
/-- XPT_STn_STATUS -/
abbrev xptStatus (i : Nat) : Nat := 0x50100C + i % 16 * 0x100
/-- XPT_STn_SESSION -/
abbrev xptSession (i : Nat) : Nat := 0x501010 + i % 16 * 0x100
/-- XPT_STn_NEXT_SEQ -/
abbrev xptNextSeq (i : Nat) : Nat := 0x501014 + i % 16 * 0x100
/-- XPT_STn_MARK -/
abbrev xptMark (i : Nat) : Nat := 0x501018 + i % 16 * 0x100
/-- XPT_STn_WIN -/
abbrev xptWin (i : Nat) : Nat := 0x50101C + i % 16 * 0x100
/-- XPT_STn_WIN_CAP -/
abbrev xptWinCap (i : Nat) : Nat := 0x501020 + i % 16 * 0x100
/-- XPT_STn_SENT_LO -/
abbrev xptSentLo (i : Nat) : Nat := 0x501024 + i % 16 * 0x100
/-- XPT_STn_SENT_HI -/
abbrev xptSentHi (i : Nat) : Nat := 0x501028 + i % 16 * 0x100
/-- XPT_STn_LIMIT_LO -/
abbrev xptLimitLo (i : Nat) : Nat := 0x50102C + i % 16 * 0x100
/-- XPT_STn_LIMIT_HI -/
abbrev xptLimitHi (i : Nat) : Nat := 0x501030 + i % 16 * 0x100
/-- XPT_STn_RTO -/
abbrev xptRto (i : Nat) : Nat := 0x501034 + i % 16 * 0x100
/-- XPT_STn_SILENT -/
abbrev xptSilent (i : Nat) : Nat := 0x501038 + i % 16 * 0x100
/-- XPT_STn_EVT -/
abbrev xptEvt (i : Nat) : Nat := 0x50103C + i % 16 * 0x100
/-- XPT_STn_EVT_EN -/
abbrev xptEvtEn (i : Nat) : Nat := 0x501040 + i % 16 * 0x100
/-- XPT_STn_CNT_RESEND -/
abbrev xptCntResend (i : Nat) : Nat := 0x501044 + i % 16 * 0x100
/-- XPT_STn_CNT_RETIRED -/
abbrev xptCntRetired (i : Nat) : Nat := 0x501048 + i % 16 * 0x100
/-- XPT_STn_CNT_GAP -/
abbrev xptCntGap (i : Nat) : Nat := 0x50104C + i % 16 * 0x100
/-- XPT_STn_CNT_FAILOVER -/
abbrev xptCntFailover (i : Nat) : Nat := 0x501050 + i % 16 * 0x100
/-- XPT_STn_CNT_UNSENT -/
abbrev xptCntUnsent (i : Nat) : Nat := 0x501054 + i % 16 * 0x100
/-- XPT_STn_CNT_BADACK -/
abbrev xptCntBadack (i : Nat) : Nat := 0x501058 + i % 16 * 0x100
/-- XPT_STn_DST_P_MAC_HI -/
abbrev xptDstPMacHi (i : Nat) : Nat := 0x501060 + i % 16 * 0x100
/-- XPT_STn_DST_P_MAC_LO -/
abbrev xptDstPMacLo (i : Nat) : Nat := 0x501064 + i % 16 * 0x100
/-- XPT_STn_DST_P_IP0-IP3 -/
abbrev xptDstPIp (i : Nat) (j : Nat) : Nat := 0x501068 + i % 16 * 0x100 + j % 4 * 0x4
/-- XPT_STn_DST_P_PORT -/
abbrev xptDstPPort (i : Nat) : Nat := 0x501078 + i % 16 * 0x100
/-- XPT_STn_DST_S_MAC_HI -/
abbrev xptDstSMacHi (i : Nat) : Nat := 0x501080 + i % 16 * 0x100
/-- XPT_STn_DST_S_MAC_LO -/
abbrev xptDstSMacLo (i : Nat) : Nat := 0x501084 + i % 16 * 0x100
/-- XPT_STn_DST_S_IP0-IP3 -/
abbrev xptDstSIp0 (i : Nat) (j : Nat) : Nat := 0x501088 + i % 16 * 0x100 + j % 4 * 0x4
/-- XPT_STn_DST_S_PORT -/
abbrev xptDstSPort (i : Nat) : Nat := 0x501098 + i % 16 * 0x100
/-- ETH_p_CTL -/
abbrev ethCtl (i : Nat) : Nat := 0x540000 + i % 4 * 0x1000
/-- ETH_p_STATUS -/
abbrev ethStatus (i : Nat) : Nat := 0x540004 + i % 4 * 0x1000
/-- ETH_p_MAXFRAME -/
abbrev ethMaxframe (i : Nat) : Nat := 0x540008 + i % 4 * 0x1000
/-- ETH_p_PFC -/
abbrev ethPfc (i : Nat) : Nat := 0x54000C + i % 4 * 0x1000
/-- ETH_p_Ll_MAC_HI -/
abbrev ethlMacHi (i : Nat) (j : Nat) : Nat := 0x540100 + i % 4 * 0x1000 + j % 4 * 0x80
/-- ETH_p_Ll_MAC_LO -/
abbrev ethlMacLo (i : Nat) (j : Nat) : Nat := 0x540104 + i % 4 * 0x1000 + j % 4 * 0x80
/-- ETH_p_Ll_IPV4 -/
abbrev ethlIpv4 (i : Nat) (j : Nat) : Nat := 0x540108 + i % 4 * 0x1000 + j % 4 * 0x80
/-- ETH_p_Ll_IPV6_0-3 -/
abbrev ethlIpv6 (i : Nat) (j : Nat) (k : Nat) : Nat := 0x54010C + i % 4 * 0x1000 + j % 4 * 0x80 + k % 4 * 0x4
/-- ETH_p_Ll_CNT_TX -/
abbrev ethlCntTx (i : Nat) (j : Nat) : Nat := 0x540140 + i % 4 * 0x1000 + j % 4 * 0x80
/-- ETH_p_Ll_CNT_RX -/
abbrev ethlCntRx (i : Nat) (j : Nat) : Nat := 0x540144 + i % 4 * 0x1000 + j % 4 * 0x80
/-- ETH_p_Ll_CNT_RX_DROP -/
abbrev ethlCntRxDrop (i : Nat) (j : Nat) : Nat := 0x540148 + i % 4 * 0x1000 + j % 4 * 0x80
/-- ETH_p_Ll_CNT_FCS -/
abbrev ethlCntFcs (i : Nat) (j : Nat) : Nat := 0x54014C + i % 4 * 0x1000 + j % 4 * 0x80
/-- ETH_p_Ll_CNT_FEC_UNC -/
abbrev ethlCntFecUnc (i : Nat) (j : Nat) : Nat := 0x540150 + i % 4 * 0x1000 + j % 4 * 0x80
/-- ETH_p_Ll_CNT_PAUSE -/
abbrev ethlCntPause (i : Nat) (j : Nat) : Nat := 0x540154 + i % 4 * 0x1000 + j % 4 * 0x80
/-- ETH_p_Ll_CNT_PFC_WD -/
abbrev ethlCntPfcWd (i : Nat) (j : Nat) : Nat := 0x540158 + i % 4 * 0x1000 + j % 4 * 0x80
/-- ETH_p_Ll_CNT_PFC_IGN -/
abbrev ethlCntPfcIgn (i : Nat) (j : Nat) : Nat := 0x54015C + i % 4 * 0x1000 + j % 4 * 0x80
/-- ETH_p_Ll_CNT_DOWN -/
abbrev ethlCntDown (i : Nat) (j : Nat) : Nat := 0x540160 + i % 4 * 0x1000 + j % 4 * 0x80
/-- LAKE_CTL -/
abbrev lakeCtl : Nat := 0x5C0000
/-- LAKE_STATUS -/
abbrev lakeStatus : Nat := 0x5C0004
/-- LAKE_CMD -/
abbrev lakeCmd : Nat := 0x5C0008
/-- LAKE_CAP_LO -/
abbrev lakeCapLo : Nat := 0x5C000C
/-- LAKE_CAP_HI -/
abbrev lakeCapHi : Nat := 0x5C0010
/-- LAKE_SCRUB_PERIOD -/
abbrev lakeScrubPeriod : Nat := 0x5C0014
/-- LAKE_SCRUB_POS -/
abbrev lakeScrubPos : Nat := 0x5C0018
/-- LAKE_SCRUB_PASSES -/
abbrev lakeScrubPasses : Nat := 0x5C001C
/-- LAKE_RETRAIN -/
abbrev lakeRetrain : Nat := 0x5C0020
/-- LAKE_CE_WM -/
abbrev lakeCeWm : Nat := 0x5C0024
/-- LAKE_EVT -/
abbrev lakeEvt : Nat := 0x5C0028
/-- LAKE_EVT_EN -/
abbrev lakeEvtEn : Nat := 0x5C002C
/-- LAKE_CNT_FENCE -/
abbrev lakeCntFence : Nat := 0x5C0030
/-- LAKE_LOG -/
abbrev lakeLog : Nat := 0x5C0034
/-- LAKE_ERRLOG_PTR -/
abbrev lakeErrlogPtr : Nat := 0x5C0038
/-- LAKE_ERRLOGe -/
abbrev lakeErrlog (i : Nat) (j : Nat) : Nat := 0x5C0100 + i % 16 * 0x10 + j % 4 * 0x4
/-- LAKE_REGr -/
abbrev lakeReg (i : Nat) (j : Nat) : Nat := 0x5C0800 + i % 64 * 0x20 + j % 5 * 0x4
/-- LAKE_CHc_STATUS -/
abbrev lakeChStatus (i : Nat) : Nat := 0x5C1000 + i % 12 * 0x100
/-- LAKE_CHc_CNT_CE -/
abbrev lakeChCntCe (i : Nat) : Nat := 0x5C1004 + i % 12 * 0x100
/-- LAKE_CHc_CNT_UE -/
abbrev lakeChCntUe (i : Nat) : Nat := 0x5C1008 + i % 12 * 0x100
/-- LAKE_CHc_TRIM -/
abbrev lakeChTrim (i : Nat) : Nat := 0x5C100C + i % 12 * 0x100
/-- LAKE_CHc_TRIM_WIN -/
abbrev lakeChTrimWin (i : Nat) : Nat := 0x5C1010 + i % 12 * 0x100
/-- LAKE_CHc_TRIM_WANT -/
abbrev lakeChTrimWant (i : Nat) : Nat := 0x5C1014 + i % 12 * 0x100
/-- LAKE_CHc_PRESS -/
abbrev lakeChPress (i : Nat) : Nat := 0x5C1018 + i % 12 * 0x100
/-- LAKE_CHc_STEPS -/
abbrev lakeChSteps (i : Nat) : Nat := 0x5C101C + i % 12 * 0x100
/-- LAKE_APs_BASE_LO -/
abbrev lakeApBaseLo (i : Nat) : Nat := 0x5C2000 + i % 8 * 0x1000
/-- LAKE_APs_BASE_HI -/
abbrev lakeApBaseHi (i : Nat) : Nat := 0x5C2004 + i % 8 * 0x1000
/-- LAKE_APs_STAT -/
abbrev lakeApStat (i : Nat) : Nat := 0x5C2008 + i % 8 * 0x1000
/-- TIM_CMD -/
abbrev timCmd : Nat := 0x580000
/-- TIM_SNAP_TBn -/
abbrev timSnapTb (i : Nat) (j : Nat) : Nat := 0x580040 + i % 4 * 0x10 + j % 3 * 0x4
/-- TIM_SNAP_WPn -/
abbrev timSnapWp (i : Nat) (j : Nat) : Nat := 0x580080 + i % 4 * 0x8 + j % 2 * 0x4
/-- TBn_CTL -/
abbrev tbCtl (i : Nat) : Nat := 0x581000 + i % 4 * 0x1000
/-- TBn_STATUS -/
abbrev tbStatus (i : Nat) : Nat := 0x581004 + i % 4 * 0x1000
/-- TBn_CMD -/
abbrev tbCmd (i : Nat) : Nat := 0x581008 + i % 4 * 0x1000
/-- TBn_NOW_LO, _HI, _EXT -/
abbrev tbNowLo (i : Nat) (j : Nat) : Nat := 0x58100C + i % 4 * 0x1000 + j % 3 * 0x4
/-- TBn_SET_LO, _HI, _EXT -/
abbrev tbSetLo (i : Nat) (j : Nat) : Nat := 0x581018 + i % 4 * 0x1000 + j % 3 * 0x4
/-- TBn_STEP_LO, _HI -/
abbrev tbStepLo (i : Nat) (j : Nat) : Nat := 0x581024 + i % 4 * 0x1000 + j % 2 * 0x4
/-- TBn_RATE -/
abbrev tbRate (i : Nat) : Nat := 0x58102C + i % 4 * 0x1000
/-- TBn_FREQ -/
abbrev tbFreq (i : Nat) : Nat := 0x581030 + i % 4 * 0x1000
/-- TBn_OFFSET -/
abbrev tbOffset (i : Nat) : Nat := 0x581034 + i % 4 * 0x1000
/-- TBn_THR -/
abbrev tbThr (i : Nat) : Nat := 0x581038 + i % 4 * 0x1000
/-- TBn_GAIN -/
abbrev tbGain (i : Nat) : Nat := 0x58103C + i % 4 * 0x1000
/-- TBn_EVT -/
abbrev tbEvt (i : Nat) : Nat := 0x581040 + i % 4 * 0x1000
/-- TBn_EVT_EN -/
abbrev tbEvtEn (i : Nat) : Nat := 0x581044 + i % 4 * 0x1000
/-- WPn_CTL -/
abbrev wpCtl (i : Nat) : Nat := 0x585000 + i % 4 * 0x1000
/-- WPn_STATUS -/
abbrev wpStatus (i : Nat) : Nat := 0x585004 + i % 4 * 0x1000
/-- WPn_NOW_LO -/
abbrev wpNowLo (i : Nat) : Nat := 0x585008 + i % 4 * 0x1000
/-- WPn_NOW_HI -/
abbrev wpNowHi (i : Nat) : Nat := 0x58500C + i % 4 * 0x1000
/-- WPn_VEL -/
abbrev wpVel (i : Nat) : Nat := 0x585010 + i % 4 * 0x1000
/-- WPn_IDX_LO, _HI -/
abbrev wpIdxLo (i : Nat) (j : Nat) : Nat := 0x585014 + i % 4 * 0x1000 + j % 2 * 0x4
/-- WPn_IDX_CNT -/
abbrev wpIdxCnt (i : Nat) : Nat := 0x58501C + i % 4 * 0x1000
/-- WPn_SIM -/
abbrev wpSim (i : Nat) : Nat := 0x585020 + i % 4 * 0x1000
/-- WPn_STALL -/
abbrev wpStall (i : Nat) : Nat := 0x585024 + i % 4 * 0x1000
/-- WPn_CNT_ERR -/
abbrev wpCntErr (i : Nat) : Nat := 0x585028 + i % 4 * 0x1000
/-- WPn_EVT -/
abbrev wpEvt (i : Nat) : Nat := 0x58502C + i % 4 * 0x1000
/-- WPn_EVT_EN -/
abbrev wpEvtEn (i : Nat) : Nat := 0x585030 + i % 4 * 0x1000
/-- PIk_CTL -/
abbrev piCtl (i : Nat) : Nat := 0x589000 + i % 4 * 0x1000
/-- PIk_PRIO -/
abbrev piPrio (i : Nat) : Nat := 0x589004 + i % 4 * 0x1000
/-- PIk_VAR -/
abbrev piVar (i : Nat) : Nat := 0x589008 + i % 4 * 0x1000
/-- PIk_INTV -/
abbrev piIntv (i : Nat) : Nat := 0x58900C + i % 4 * 0x1000
/-- PIk_CLKID_LO, _HI -/
abbrev piClkidLo (i : Nat) (j : Nat) : Nat := 0x589010 + i % 4 * 0x1000 + j % 2 * 0x4
/-- PIk_GM_LO, _HI -/
abbrev piGmLo (i : Nat) (j : Nat) : Nat := 0x589018 + i % 4 * 0x1000 + j % 2 * 0x4
/-- PIk_GM_INFO -/
abbrev piGmInfo (i : Nat) : Nat := 0x589020 + i % 4 * 0x1000
/-- PIk_CNT_MGMT -/
abbrev piCntMgmt (i : Nat) : Nat := 0x589024 + i % 4 * 0x1000
/-- PTPp_CTL -/
abbrev ptpCtl (i : Nat) : Nat := 0x58D000 + i % 4 * 0x1000
/-- PTPp_STATUS -/
abbrev ptpStatus (i : Nat) : Nat := 0x58D004 + i % 4 * 0x1000
/-- PTPp_ASYM -/
abbrev ptpAsym (i : Nat) : Nat := 0x58D008 + i % 4 * 0x1000
/-- PTPp_INGRESS, _EGRESS -/
abbrev ptpIngress (i : Nat) (j : Nat) : Nat := 0x58D00C + i % 4 * 0x1000 + j % 2 * 0x4
/-- PTPp_DELAY -/
abbrev ptpDelay (i : Nat) : Nat := 0x58D014 + i % 4 * 0x1000
/-- PTPp_DELAY_RAW -/
abbrev ptpDelayRaw (i : Nat) : Nat := 0x58D018 + i % 4 * 0x1000
/-- PTPp_DS -/
abbrev ptpDs (i : Nat) : Nat := 0x58D01C + i % 4 * 0x1000
/-- PTPp_DW -/
abbrev ptpDw (i : Nat) : Nat := 0x58D020 + i % 4 * 0x1000
/-- PTPp_CNT_TX, _RX, _DISCARD, _DS -/
abbrev ptpCntTx (i : Nat) (j : Nat) : Nat := 0x58D024 + i % 4 * 0x1000 + j % 4 * 0x4
/-- LTGb_CTL -/
abbrev ltgCtl (i : Nat) : Nat := 0x591000 + i % 4 * 0x1000
/-- LTGb_COMMIT -/
abbrev ltgCommit (i : Nat) : Nat := 0x591004 + i % 4 * 0x1000
/-- LTGb_CMT_STAT -/
abbrev ltgCmtStat (i : Nat) : Nat := 0x591008 + i % 4 * 0x1000
/-- LTGb_PITCH -/
abbrev ltgPitch (i : Nat) : Nat := 0x59100C + i % 4 * 0x1000
/-- LTGb_ORIGIN_LO, _HI -/
abbrev ltgOriginLo (i : Nat) (j : Nat) : Nat := 0x591010 + i % 4 * 0x1000 + j % 2 * 0x4
/-- LTGb_PERIOD -/
abbrev ltgPeriod (i : Nat) : Nat := 0x591018 + i % 4 * 0x1000
/-- LTGb_MIN_PERIOD -/
abbrev ltgMinPeriod (i : Nat) : Nat := 0x59101C + i % 4 * 0x1000
/-- LTGb_CNT_TRIG_LO, _HI -/
abbrev ltgCntTrigLo (i : Nat) (j : Nat) : Nat := 0x591020 + i % 4 * 0x1000 + j % 2 * 0x4
/-- LTGb_CNT_MISSING, _SKIP -/
abbrev ltgCntMissing (i : Nat) (j : Nat) : Nat := 0x591028 + i % 4 * 0x1000 + j % 2 * 0x4
/-- LTGb_EVT -/
abbrev ltgEvt (i : Nat) : Nat := 0x591030 + i % 4 * 0x1000
/-- LTGb_EVT_EN -/
abbrev ltgEvtEn (i : Nat) : Nat := 0x591034 + i % 4 * 0x1000
/-- TIM_GPIOi_CTL -/
abbrev gpioCtl (i : Nat) : Nat := 0x595000 + i % 16 * 0x1000
/-- TIM_GPIOi_STATUS -/
abbrev gpioStatus (i : Nat) : Nat := 0x595004 + i % 16 * 0x1000
/-- TIM_GPIOi_CAP_TIME_LO -/
abbrev gpioCapTimeLo (i : Nat) : Nat := 0x595008 + i % 16 * 0x1000
/-- TIM_GPIOi_CAP_TIME_HI -/
abbrev gpioCapTimeHi (i : Nat) : Nat := 0x59500C + i % 16 * 0x1000
/-- TIM_GPIOi_CAP_INFO -/
abbrev gpioCapInfo (i : Nat) : Nat := 0x595010 + i % 16 * 0x1000
/-- TIM_GPIOi_CAP_WP_LO, _HI -/
abbrev gpioCapWpLo (i : Nat) (j : Nat) : Nat := 0x595014 + i % 16 * 0x1000 + j % 2 * 0x4
/-- TIM_GPIOi_CNT_OVF -/
abbrev gpioCntOvf (i : Nat) : Nat := 0x59501C + i % 16 * 0x1000
/-- TIM_GPIOi_EVT -/
abbrev gpioEvt (i : Nat) : Nat := 0x595020 + i % 16 * 0x1000
/-- TIM_GPIOi_EVT_EN -/
abbrev gpioEvtEn (i : Nat) : Nat := 0x595024 + i % 16 * 0x1000
/-- CTL_STATUS -/
abbrev ctlStatus : Nat := 0x640000
/-- CTL_VERSION -/
abbrev ctlVersion : Nat := 0x640004
/-- CTL_PORT -/
abbrev ctlPort : Nat := 0x640008
/-- CTL_SESS_TMO -/
abbrev ctlSessTmo : Nat := 0x64000C
/-- CTL_ACC_TMO -/
abbrev ctlAccTmo : Nat := 0x640010
/-- CTL_LONG_TMO -/
abbrev ctlLongTmo : Nat := 0x640014
/-- CTL_RESET -/
abbrev ctlReset : Nat := 0x640018
/-- CTL_CNT_AUTH -/
abbrev ctlCntAuth : Nat := 0x64001C
/-- CTL_CNT_REPLAY -/
abbrev ctlCntReplay : Nat := 0x640020
/-- CTL_CNT_BADMSG -/
abbrev ctlCntBadmsg : Nat := 0x640024
/-- CTL_EVT -/
abbrev ctlEvt : Nat := 0x640028
/-- CTL_EVT_EN -/
abbrev ctlEvtEn : Nat := 0x64002C
/-- STL_s_STATUS -/
abbrev stlStatus (i : Nat) : Nat := 0x641000 + i % 8 * 0x1000
/-- STL_s_RESET -/
abbrev stlReset (i : Nat) : Nat := 0x641004 + i % 8 * 0x1000
/-- STL_s_GRP_RESET -/
abbrev stlGrpReset (i : Nat) : Nat := 0x641008 + i % 8 * 0x1000
/-- STL_s_CPL_COUNT -/
abbrev stlCplCount (i : Nat) : Nat := 0x64100C + i % 8 * 0x1000
/-- STL_s_CPL0 -/
abbrev stlCpl0 (i : Nat) : Nat := 0x641010 + i % 8 * 0x1000
/-- STL_s_CPL1-STL_s_CPL3 -/
abbrev stlCpl1 (i : Nat) (j : Nat) : Nat := 0x641014 + i % 8 * 0x1000 + j % 3 * 0x4
/-- STL_s_PWLOG_PTR -/
abbrev stlPwlogPtr (i : Nat) : Nat := 0x641020 + i % 8 * 0x1000
/-- STL_s_PWLOG_CNT -/
abbrev stlPwlogCnt (i : Nat) : Nat := 0x641024 + i % 8 * 0x1000
/-- STL_s_EVT -/
abbrev stlEvt (i : Nat) : Nat := 0x641028 + i % 8 * 0x1000
/-- STL_s_EVT_EN -/
abbrev stlEvtEn (i : Nat) : Nat := 0x64102C + i % 8 * 0x1000
/-- STL_s_CNT_NOTIFY_LOST -/
abbrev stlCntNotifyLost (i : Nat) : Nat := 0x641030 + i % 8 * 0x1000
/-- STL_s_SESSj -/
abbrev stlSess (i : Nat) (j : Nat) (k : Nat) : Nat := 0x641040 + i % 8 * 0x1000 + j % 4 * 0x8 + k % 2 * 0x4
/-- STL_s_KEY_STAGE0-7 -/
abbrev stlKeyStage (i : Nat) (j : Nat) : Nat := 0x641080 + i % 8 * 0x1000 + j % 8 * 0x4
/-- STL_s_KEY_CMD -/
abbrev stlKeyCmd (i : Nat) : Nat := 0x6410A0 + i % 8 * 0x1000
/-- STL_s_PWLOGe -/
abbrev stlPwlog (i : Nat) (j : Nat) (k : Nat) : Nat := 0x641100 + i % 8 * 0x1000 + j % 16 * 0x10 + k % 4 * 0x4
/-- STL_s_WINMAPj -/
abbrev stlWinmap (i : Nat) (j : Nat) : Nat := 0x641800 + i % 8 * 0x1000 + j % 128 * 0x4
/-- BRG_STATUS -/
abbrev brgStatus : Nat := 0x649000
/-- BRG_CNT_SIZE -/
abbrev brgCntSize : Nat := 0x649004
/-- BRG_CNT_ALIGN -/
abbrev brgCntAlign : Nat := 0x649008
/-- BRG_CNT_PERM -/
abbrev brgCntPerm : Nat := 0x64900C
/-- BRG_CNT_TMO -/
abbrev brgCntTmo : Nat := 0x649010
/-- BRG_CNT_LATE -/
abbrev brgCntLate : Nat := 0x649014
/-- BRG_EVT -/
abbrev brgEvt : Nat := 0x649018
/-- BRG_EVT_EN -/
abbrev brgEvtEn : Nat := 0x64901C
/-- PND_STATUS -/
abbrev pndStatus : Nat := 0x600000
/-- PND_EVT -/
abbrev pndEvt : Nat := 0x600004
/-- PND_EVT_EN -/
abbrev pndEvtEn : Nat := 0x600008
/-- PND_CNT_RESETS -/
abbrev pndCntResets : Nat := 0x60000C
/-- PND_INJECT -/
abbrev pndInject : Nat := 0x600010
/-- PND_p_INFO -/
abbrev pndpInfo (i : Nat) : Nat := 0x601000 + i % 212 * 0x10
/-- PND_p_FILL -/
abbrev pndpFill (i : Nat) : Nat := 0x601004 + i % 212 * 0x10
/-- PND_p_PEAK -/
abbrev pndpPeak (i : Nat) : Nat := 0x601008 + i % 212 * 0x10
/-- PND_p_RESETS -/
abbrev pndpResets (i : Nat) : Nat := 0x60100C + i % 212 * 0x10
/-- CRCk_CTL -/
abbrev crcCtl (i : Nat) : Nat := 0x620000 + i % 16 * 0x100
/-- CRCk_CMD -/
abbrev crcCmd (i : Nat) : Nat := 0x620004 + i % 16 * 0x100
/-- CRCk_STATUS -/
abbrev crcStatus (i : Nat) : Nat := 0x620008 + i % 16 * 0x100
/-- CRCk_DATA -/
abbrev crcData (i : Nat) : Nat := 0x62000C + i % 16 * 0x100
/-- CRCk_POLY_LO -/
abbrev crcPolyLo (i : Nat) : Nat := 0x620010 + i % 16 * 0x100
/-- CRCk_POLY_HI -/
abbrev crcPolyHi (i : Nat) : Nat := 0x620014 + i % 16 * 0x100
/-- CRCk_INIT_LO -/
abbrev crcInitLo (i : Nat) : Nat := 0x620018 + i % 16 * 0x100
/-- CRCk_INIT_HI -/
abbrev crcInitHi (i : Nat) : Nat := 0x62001C + i % 16 * 0x100
/-- CRCk_XOROUT_LO -/
abbrev crcXoroutLo (i : Nat) : Nat := 0x620020 + i % 16 * 0x100
/-- CRCk_XOROUT_HI -/
abbrev crcXoroutHi (i : Nat) : Nat := 0x620024 + i % 16 * 0x100
/-- CRCk_VAL_LO -/
abbrev crcValLo (i : Nat) : Nat := 0x620028 + i % 16 * 0x100
/-- CRCk_VAL_HI -/
abbrev crcValHi (i : Nat) : Nat := 0x62002C + i % 16 * 0x100
/-- CRCk_RESULT_LO -/
abbrev crcResultLo (i : Nat) : Nat := 0x620030 + i % 16 * 0x100
/-- CRCk_RESULT_HI -/
abbrev crcResultHi (i : Nat) : Nat := 0x620034 + i % 16 * 0x100
/-- CRCk_ALIVE -/
abbrev crcAlive (i : Nat) : Nat := 0x620038 + i % 16 * 0x100
/-- CRCk_BYTES -/
abbrev crcBytes (i : Nat) : Nat := 0x62003C + i % 16 * 0x100
/-- CRCk_LAKE_LO -/
abbrev crcLakeLo (i : Nat) : Nat := 0x620040 + i % 16 * 0x100
/-- CRCk_LAKE_HI -/
abbrev crcLakeHi (i : Nat) : Nat := 0x620044 + i % 16 * 0x100
/-- CRCk_LAKE_LEN -/
abbrev crcLakeLen (i : Nat) : Nat := 0x620048 + i % 16 * 0x100
/-- CRCk_EVT -/
abbrev crcEvt (i : Nat) : Nat := 0x62004C + i % 16 * 0x100
/-- CRCk_EVT_EN -/
abbrev crcEvtEn (i : Nat) : Nat := 0x620050 + i % 16 * 0x100
/-- EVC_STATUS -/
abbrev evcStatus : Nat := 0x680000
/-- EVC_HOLD -/
abbrev evcHold : Nat := 0x680004
/-- EVC_EVT -/
abbrev evcEvt : Nat := 0x680008
/-- EVC_EVT_EN -/
abbrev evcEvtEn : Nat := 0x68000C
/-- EVC_FAULT_LOG -/
abbrev evcFaultLog : Nat := 0x680010
/-- EVC_CNT_FAULT -/
abbrev evcCntFault : Nat := 0x680014
/-- EVC_SW_SET -/
abbrev evcSwSet : Nat := 0x680018
/-- EVC_CNT_SW_DENIED -/
abbrev evcCntSwDenied : Nat := 0x68001C
/-- EVC_LATCHED -/
abbrev evcLatched : Nat := 0x680020
/-- EVC_Tt_CTL -/
abbrev evctCtl (i : Nat) : Nat := 0x681000 + i % 20 * 0x100
/-- EVC_Tt_STATUS -/
abbrev evctStatus (i : Nat) : Nat := 0x681004 + i % 20 * 0x100
/-- EVC_Tt_MOD -/
abbrev evctMod (i : Nat) : Nat := 0x681008 + i % 20 * 0x100
/-- EVC_Tt_WAKE -/
abbrev evctWake (i : Nat) : Nat := 0x68100C + i % 20 * 0x100
/-- EVC_Tt_WOL_MAC_HI -/
abbrev evctWolMacHi (i : Nat) : Nat := 0x681010 + i % 20 * 0x100
/-- EVC_Tt_WOL_MAC_LO -/
abbrev evctWolMacLo (i : Nat) : Nat := 0x681014 + i % 20 * 0x100
/-- EVC_Tt_RENOTIFY -/
abbrev evctRenotify (i : Nat) : Nat := 0x681018 + i % 20 * 0x100
/-- EVC_Tt_TAKE -/
abbrev evctTake (i : Nat) : Nat := 0x68101C + i % 20 * 0x100
/-- EVC_Tt_DONE -/
abbrev evctDone (i : Nat) : Nat := 0x681020 + i % 20 * 0x100
/-- EVC_Tt_STACK_TOP -/
abbrev evctStackTop (i : Nat) : Nat := 0x681024 + i % 20 * 0x100
/-- EVC_Tt_NOTE -/
abbrev evctNote (i : Nat) : Nat := 0x681028 + i % 20 * 0x100
/-- EVC_Tt_CNT_REFUSED -/
abbrev evctCntRefused (i : Nat) : Nat := 0x68102C + i % 20 * 0x100
/-- EVC_Tt_CNT_NOTIFY -/
abbrev evctCntNotify (i : Nat) : Nat := 0x681030 + i % 20 * 0x100
/-- EVC_Tt_STACK0-EVC_Tt_STACK15 -/
abbrev evctStack (i : Nat) (j : Nat) : Nat := 0x681040 + i % 20 * 0x100 + j % 16 * 0x4
/-- EVC_Tt_PEND0-EVC_Tt_PEND23 -/
abbrev evctPend (i : Nat) (j : Nat) : Nat := 0x681080 + i % 20 * 0x100 + j % 24 * 0x4
/-- EVC_SRCn_CFG -/
abbrev evcsCfg (i : Nat) : Nat := 0x684000 + i % 768 * 0x8
/-- EVC_SRCn_STAT -/
abbrev evcsStat (i : Nat) : Nat := 0x684004 + i % 768 * 0x8
/-- TRN_STATE -/
abbrev trnState : Nat := 0x6C0000
/-- TRN_CMD -/
abbrev trnCmd : Nat := 0x6C0004
/-- TRN_CMD_STAT -/
abbrev trnCmdStat : Nat := 0x6C0008
/-- TRN_WAKE_CFG -/
abbrev trnWakeCfg : Nat := 0x6C000C
/-- TRN_POWER_CFG -/
abbrev trnPowerCfg : Nat := 0x6C0010
/-- TRN_PUP_TMO -/
abbrev trnPupTmo : Nat := 0x6C0014
/-- TRN_TMR0_CTL, TRN_TMR1_CTL -/
abbrev trnTmr0Ctl (i : Nat) : Nat := 0x6C0020 + i % 2 * 0x10
/-- TRN_TMR0_LOAD, TRN_TMR1_LOAD -/
abbrev trnTmr0Load (i : Nat) : Nat := 0x6C0024 + i % 2 * 0x10
/-- TRN_TMR0_NOW, TRN_TMR1_NOW -/
abbrev trnTmr0Now (i : Nat) : Nat := 0x6C0028 + i % 2 * 0x10
/-- TRN_EVT -/
abbrev trnEvt : Nat := 0x6C0040
/-- TRN_EVT_EN -/
abbrev trnEvtEn : Nat := 0x6C0044
/-- TRN_TMR_EVT -/
abbrev trnTmrEvt : Nat := 0x6C0048
/-- TRN_TMR_EVT_EN -/
abbrev trnTmrEvtEn : Nat := 0x6C004C
/-- TRN_REQ_EVT -/
abbrev trnReqEvt : Nat := 0x6C0050
/-- TRN_REQ_EVT_EN -/
abbrev trnReqEvtEn : Nat := 0x6C0054
/-- TRN_CNT_WAKE -/
abbrev trnCntWake : Nat := 0x6C0058
/-- KEEP_STATUS -/
abbrev keepStatus : Nat := 0x6E0000
/-- KEEP_CMD -/
abbrev keepCmd : Nat := 0x6E0004
/-- KEEP_AUTO -/
abbrev keepAuto : Nat := 0x6E0008
/-- KEEP_VERIFY -/
abbrev keepVerify : Nat := 0x6E000C
/-- KEEP_EVT -/
abbrev keepEvt : Nat := 0x6E0010
/-- KEEP_EVT_EN -/
abbrev keepEvtEn : Nat := 0x6E0014
/-- KEEP_CNT_BAD -/
abbrev keepCntBad : Nat := 0x6E0018
/-- KEEP_CNT_COMMIT -/
abbrev keepCntCommit : Nat := 0x6E001C
/-- KEEP_BANK0_WR, KEEP_BANK1_WR -/
abbrev keepBank0Wr (i : Nat) : Nat := 0x6E0020 + i % 2 * 0x4
/-- KEEP_RECk -/
abbrev keepRec (i : Nat) (j : Nat) : Nat := 0x6E0100 + i % 8 * 0x10 + j % 4 * 0x4
/-- TEL_PERIOD -/
abbrev telPeriod : Nat := 0x700000
/-- TEL_POWER -/
abbrev telPower : Nat := 0x700004
/-- TEL_POWER_LIM -/
abbrev telPowerLim : Nat := 0x700008
/-- TEL_TRIP -/
abbrev telTrip : Nat := 0x70000C
/-- TEL_EVT -/
abbrev telEvt : Nat := 0x700010
/-- TEL_EVT_EN -/
abbrev telEvtEn : Nat := 0x700014
/-- TEL_THERM_EVT -/
abbrev telThermEvt : Nat := 0x700018
/-- TEL_THERM_EVT_EN -/
abbrev telThermEvtEn : Nat := 0x70001C
/-- TEL_SUP_EVT -/
abbrev telSupEvt : Nat := 0x700020
/-- TEL_SUP_EVT_EN -/
abbrev telSupEvtEn : Nat := 0x700024
/-- TEL_Ti -/
abbrev telT (i : Nat) : Nat := 0x700100 + i % 16 * 0x8
/-- TEL_Ti_ALARM -/
abbrev telTAlarm (i : Nat) : Nat := 0x700104 + i % 16 * 0x8
/-- TEL_Vj -/
abbrev telV (i : Nat) : Nat := 0x700200 + i % 24 * 0x8
/-- TEL_Vj_LIM -/
abbrev telVLim (i : Nat) : Nat := 0x700204 + i % 24 * 0x8
/-- GLB_ID -/
abbrev glbId : Nat := 0x0
/-- GLB_VERSION -/
abbrev glbVersion : Nat := 0x4
/-- GLB_STRAP -/
abbrev glbStrap : Nat := 0x8
/-- GLB_UID_LO -/
abbrev glbUidLo : Nat := 0x10
/-- GLB_UID_HI -/
abbrev glbUidHi : Nat := 0x14
/-- SEAM_COEF -/
abbrev seamCoef (i : Nat) : Nat := 0x208000 + i % 2048 * 0x4
/-- OUT_H_COEF -/
abbrev outHCoef (i : Nat) : Nat := 0x484000 + i % 512 * 0x4
/-- OUT_V_COEF -/
abbrev outVCoef (i : Nat) : Nat := 0x484800 + i % 256 * 0x4

end Sys2Proof.Machine.A
end

