-- ==== Sys2Proof/Machine/Cells.lean ====
section
/-! DEFINITION. Sparse stores: lists of (address, value) in one canonical form (addresses strictly rising, no entry equal
to what an unlisted address reads as). The Lake, the image slots and the register file are such lists. -/

namespace Sys2Proof.Machine
open Sys2Proof

/-- What address `a` holds: its entry, or the default `d a`. -/
def cellGet {α : Type} (d : Nat → α) : List (Nat × α) → Nat → α
  | [], a => d a
  | (b, v) :: m, a => if a = b then v else cellGet d m a

/-- The store with `v` at `a`, which it does not list, in address order. -/
def cellInsert {α : Type} : List (Nat × α) → Nat → α → List (Nat × α)
  | [], a, v => [(a, v)]
  | (b, w) :: m, a, v => if a < b then (a, v) :: (b, w) :: m else (b, w) :: cellInsert m a v

/-- The store with `v` at `a`; the default value removes the entry. -/
def cellSet {α : Type} [DecidableEq α] (d : Nat → α) (m : List (Nat × α)) (a : Nat) (v : α) : List (Nat × α) :=
  if v = d a then m.filter (fun x => x.1 != a) else cellInsert (m.filter (fun x => x.1 != a)) a v

/-- The canonical form above the bound `lo`. -/
def cellWfFrom {α : Type} [DecidableEq α] (d : Nat → α) : Nat → List (Nat × α) → Bool
  | _, [] => true
  | lo, (b, v) :: m => decide (lo ≤ b) && decide (v ≠ d b) && cellWfFrom d (b + 1) m

/-- The canonical form: addresses strictly rising, no entry equal to its default. -/
def cellWf {α : Type} [DecidableEq α] (d : Nat → α) (m : List (Nat × α)) : Bool := cellWfFrom d 0 m

end Sys2Proof.Machine
end

