-- ==== Sys2Proof/Machine/Coef.lean ====
section
/-! DEFINITION. The factory coefficient tables of R195: the seam banks and the horizontal and vertical sets, computed by
its construction. Each number holds sixty-four 16-bit coefficients, the first in its low bits. -/

namespace Sys2Proof.Machine
open Sys2Proof

/-- Factory content of a seam bank: 256 phases of 8 taps (R109, R195). -/
def seamFactory : List Nat := [
  0xFFFF002FFF6E01A13FE9FE7A008BFFD5FFFF0028FF8301633FF1FEB00077FFDB00000021FF9801273FF4FEE70064FFE10000001AFFAD00EB3FF9FF1E0050FFE700000014FFC200AF3FFCFF56003CFFED0000000DFFD700743FFFFF8E0028FFF300000006FFEC003A3FFFFFC70014FFFA00000000000000004000000000000000,
  0xFFFC0068FEBE039C3F9DFCDF011EFFA8FFFD0060FED4035B3FA9FD10010DFFAEFFFD0059FEEB031A3FB5FD4200FBFFB3FFFE0052FF0102DA3FBFFD7500E8FFB9FFFE004BFF17029A3FCAFDA800D6FFBEFFFE0044FF2D025B3FD3FDDC00C3FFC4FFFF003CFF42021C3FDDFE1000B1FFC9FFFF0035FF5801DE3FE4FE45009EFFCF,
  0xFFF700A5FE0705B73F17FB6801A6FF81FFF8009DFE1E05723F2AFB950196FF86FFF90095FE35052D3F3EFBC20186FF8AFFFA008EFE4C04E93F4FFBF00175FF8FFFFA0086FE6304A63F60FC1F0164FF94FFFB007EFE7A04633F70FC4E0153FF99FFFB0077FE9104203F7FFC7E0142FF9EFFFC006FFEA703DE3F8FFCAE0130FFA3,
  0xFFF000E5FD4907F03E5AFA180221FF5FFFF100DDFD6107A73E74FA400213FF63FFF200D5FD79075F3E8EFA680204FF67FFF300CDFD9107173EA6FA9201F5FF6BFFF400C5FDA806D03EC0FABB01E5FF6FFFF500BDFDC006893ED5FAE601D6FF74FFF600B5FDD806433EEBFB1101C6FF78FFF700ADFDEF05FD3F02FB3C01B6FF7C,
  0xFFE70128FC870A433D68F8EE028FFF42FFE90120FCA009F73D88F9110282FF45FFEA0117FCB809AC3DA8F9350275FF49FFEB010FFCD009613DC9F9590267FF4CFFEC0107FCE909163DE6F97E025AFF50FFED00FEFD0108CC3E05F9A4024CFF53FFEE00F6FD1908823E22F9CA023EFF57FFEF00EEFD3108393E3DF9F10230FF5B,
  0xFFDC016EFBC30CAF3C41F7EA02EFFF2AFFDE0165FBDB0C603C68F80902E4FF2DFFDF015CFBF40C123C8FF82802D8FF30FFE10153FC0D0BC43CB4F84702CDFF33FFE2014BFC250B763CDAF86702C1FF36FFE30142FC3E0B293CFEF88802B5FF39FFE5013AFC560ADC3D22F8A902A8FF3CFFE60131FC6F0A8F3D45F8CB029CFF3F,
  0xFFCF01B4FAFE0F303AE9F70D0341FF18FFD101ABFB160EDF3B18F7260337FF1AFFD301A2FB2F0E8E3B43F741032EFF1CFFD40199FB480E3E3B70F75B0324FF1EFFD60191FB600DED3B9AF777031AFF21FFD80188FB790D9D3BC5F793030FFF23FFD9017FFB910D4E3BF0F7AF0305FF25FFDB0176FBAA0CFE3C19F7CC02FAFF28,
  0xFFC101FBFA3A11C43961F6550385FF0BFFC301F2FA5311713994F66A037DFF0CFFC501E9FA6B111E39C7F67F0375FF0EFFC701E0FA8310CB39F9F696036DFF0FFFC801D7FA9C10783A2BF6AC0365FF11FFCA01CEFAB410263A5DF6C3035CFF12FFCC01C6FACD0FD43A8BF6DB0353FF14FFCE01BDFAE50F823ABAF6F4034AFF16,
  0xFFB10241F97B146637AEF5C203BBFF02FFB30238F992141137E7F5D303B5FF03FFB50230F9AA13BD381EF5E303AFFF04FFB70227F9C213683856F5F503A8FF05FFB9021EF9DA1314388CF60703A2FF06FFBB0215F9F212BF38C3F61A039BFF07FFBD020CFA0A126B38F9F62D0394FF08FFBF0204FA221217392EF641038CFF09,
  0xFFA00286F8C1171435D0F55303E4FEFEFFA2027EF8D816BE360EF55F03DFFEFEFFA40275F8EF1668364AF56C03DBFEFFFFA6026CF90616123688F57903D6FEFFFFA80264F91D15BC36C5F58603D1FEFFFFAB025BF934156736FFF59403CCFF00FFAD0252F94C1511373AF5A303C6FF01FFAF024AF96314BC3774F5B203C1FF01,
  0xFF8E02C9F81019CA33CBF50703FFFEFEFF9002C0F8261973340FF50E03FCFEFEFF9202B8F83B191C3451F51703F9FEFEFF9502B0F85118C53492F51F03F6FEFEFF9702A8F867186F34D1F52903F3FEFEFF99029FF87E18183512F53303EFFEFEFF9B0297F89417C13552F53D03ECFEFEFF9E028FF8AB176B358FF54803E8FEFE,
  0xFF7B0308F7691C8431A4F4DC040EFF02FF7D0300F77E1C2D31ECF4DF040CFF01FF8002F8F7921BD63231F4E3040BFF01FF8202F1F7A61B7E3277F4E8040AFF00FF8402E9F7BB1B2732BCF4ED0408FF00FF8702E1F7D01AD03300F4F30406FEFFFF8902D9F7E51A793344F4F90404FEFFFF8B02D1F7FB1A213389F5000401FEFE,
  0xFF680343F6D01F3F2F5DF4D00410FF09FF6B033CF6E21EE72FA8F4CF0411FF08FF6D0335F6F51E902FF1F4D00411FF07FF6F032DF7081E39303BF4D10411FF06FF720326F71B1DE23084F4D20410FF05FF74031FF72E1D8A30CEF4D30410FF04FF760317F7421D333116F4D6040FFF03FF790310F7561CDC315BF4D8040FFF03,
  0xFF560378F64621F52CFCF4E10407FF13FF580372F657219F2D47F4DE0409FF12FF5A036BF66721482D96F4DA040BFF11FF5D0365F67820F22DE2F4D7040CFF0FFF5F035EF689209B2E2FF4D5040DFF0EFF610358F69A20442E7BF4D3040EFF0DFF640351F6AC1FED2EC7F4D1040FFF0BFF66034AF6BE1F962F12F4D00410FF0A,
  0xFF4403A7F5CE24A52A7FF50F03F4FF20FF4603A2F5DC244F2AD0F50803F7FF1EFF48039CF5EB23FA2B1FF50103FAFF1DFF4B0396F5F923A42B6FF4FB03FDFF1BFF4D0391F608234E2BBEF4F503FFFF1AFF4F038BF61722F82C0FF4EF0401FF18FF510385F62722A22C5DF4EA0404FF16FF54037EF636224C2CABF4E60406FF15,
  0xFF3303CFF56B274827EFF55603D7FF2FFF3503CAF57626F52842F54B03DCFF2DFF3703C6F58226A12894F54203DFFF2BFF3903C1F58E264C28E8F53803E3FF29FF3B03BCF59A25F8293AF52F03E7FF27FF3D03B7F5A725A3298BF52603EBFF26FF4003B2F5B4254F29DBF51E03EEFF24FF4203ADF5C124FA2A2DF51603F1FF22,
  0xFF2403EEF51E29DB254FF5B403B2FF40FF2603EBF526298B25A3F5A703B7FF3DFF2703E7F52F293A25F8F59A03BCFF3BFF2903E3F53828E8264CF58E03C1FF39FF2B03DFF542289426A1F58203C6FF37FF2D03DCF54B284226F5F57603CAFF35FF2F03D7F55627EF2748F56B03CFFF33FF3103D3F560279C279CF56003D3FF31,
  0xFF160404F4EA2C5D22A2F6270385FF51FF180401F4EF2C0F22F8F617038BFF4FFF1A03FFF4F52BBE234EF6080391FF4DFF1B03FDF4FB2B6F23A4F5F90396FF4BFF1D03FAF5012B1F23FAF5EB039CFF48FF1E03F7F5082AD0244FF5DC03A2FF46FF2003F4F50F2A7F24A5F5CE03A7FF44FF2203F1F5162A2D24FAF5C103ADFF42,
  0xFF0B040FF4D12EC71FEDF6AC0351FF64FF0D040EF4D32E7B2044F69A0358FF61FF0E040DF4D52E2F209BF689035EFF5FFF0F040CF4D72DE220F2F6780365FF5DFF11040BF4DA2D962148F667036BFF5AFF120409F4DE2D47219FF6570372FF58FF130407F4E12CFC21F5F6460378FF56FF150406F4E62CAB224CF636037EFF54,
  0xFF03040FF4D631161D33F7420317FF76FF040410F4D330CE1D8AF72E031FFF74FF050410F4D230841DE2F71B0326FF72FF060411F4D1303B1E39F708032DFF6FFF070411F4D02FF11E90F6F50335FF6DFF080411F4CF2FA81EE7F6E2033CFF6BFF090410F4D02F5D1F3FF6D00343FF68FF0A0410F4D02F121F96F6BE034AFF66,
  0xFEFF0404F4F933441A79F7E502D9FF89FEFF0406F4F333001AD0F7D002E1FF87FF000408F4ED32BC1B27F7BB02E9FF84FF00040AF4E832771B7EF7A602F1FF82FF01040BF4E332311BD6F79202F8FF80FF01040CF4DF31EC1C2DF77E0300FF7DFF02040EF4DC31A41C84F7690308FF7BFF03040FF4D8315B1CDCF7560310FF79,
  0xFEFE03ECF53D355217C1F8940297FF9BFEFE03EFF53335121818F87E029FFF99FEFE03F3F52934D1186FF86702A8FF97FEFE03F6F51F349218C5F85102B0FF95FEFE03F9F5173451191CF83B02B8FF92FEFE03FCF50E340F1973F82602C0FF90FEFE03FFF50733CB19CAF81002C9FF8EFEFE0401F50033891A21F7FB02D1FF8B,
  0xFF0103C6F5A3373A1511F94C0252FFADFF0003CCF59436FF1567F934025BFFABFEFF03D1F58636C515BCF91D0264FFA8FEFF03D6F57936881612F906026CFFA6FEFF03DBF56C364A1668F8EF0275FFA4FEFE03DFF55F360E16BEF8D8027EFFA2FEFE03E4F55335D01714F8C10286FFA0FEFE03E8F548358F176BF8AB028FFF9E,
  0xFF080394F62D38F9126BFA0A020CFFBDFF07039BF61A38C312BFF9F20215FFBBFF0603A2F607388C1314F9DA021EFFB9FF0503A8F5F538561368F9C20227FFB7FF0403AFF5E3381E13BDF9AA0230FFB5FF0303B5F5D337E71411F9920238FFB3FF0203BBF5C237AE1466F97B0241FFB1FF0103C1F5B2377414BCF963024AFFAF,
  0xFF140353F6DB3A8B0FD4FACD01C6FFCCFF12035CF6C33A5D1026FAB401CEFFCAFF110365F6AC3A2B1078FA9C01D7FFC8FF0F036DF69639F910CBFA8301E0FFC7FF0E0375F67F39C7111EFA6B01E9FFC5FF0C037DF66A39941171FA5301F2FFC3FF0B0385F655396111C4FA3A01FBFFC1FF09038CF641392E1217FA220204FFBF,
  0xFF250305F7AF3BF00D4EFB91017FFFD9FF23030FF7933BC50D9DFB790188FFD8FF21031AF7773B9A0DEDFB600191FFD6FF1E0324F75B3B700E3EFB480199FFD4FF1C032EF7413B430E8EFB2F01A2FFD3FF1A0337F7263B180EDFFB1601ABFFD1FF180341F70D3AE90F30FAFE01B4FFCFFF16034AF6F43ABA0F82FAE501BDFFCE,
  0xFF3C02A8F8A93D220ADCFC56013AFFE5FF3902B5F8883CFE0B29FC3E0142FFE3FF3602C1F8673CDA0B76FC25014BFFE2FF3302CDF8473CB40BC4FC0D0153FFE1FF3002D8F8283C8F0C12FBF4015CFFDFFF2D02E4F8093C680C60FBDB0165FFDEFF2A02EFF7EA3C410CAFFBC3016EFFDCFF2802FAF7CC3C190CFEFBAA0176FFDB,
  0xFF57023EF9CA3E220882FD1900F6FFEEFF53024CF9A43E0508CCFD0100FEFFEDFF50025AF97E3DE60916FCE90107FFECFF4C0267F9593DC90961FCD0010FFFEBFF490275F9353DA809ACFCB80117FFEAFF450282F9113D8809F7FCA00120FFE9FF42028FF8EE3D680A43FC870128FFE7FF3F029CF8CB3D450A8FFC6F0131FFE6,
  0xFF7801C6FB113EEB0643FDD800B5FFF6FF7401D6FAE63ED50689FDC000BDFFF5FF6F01E5FABB3EC006D0FDA800C5FFF4FF6B01F5FA923EA60717FD9100CDFFF3FF670204FA683E8E075FFD7900D5FFF2FF630213FA403E7407A7FD6100DDFFF1FF5F0221FA183E5A07F0FD4900E5FFF0FF5B0230F9F13E3D0839FD3100EEFFEF,
  0xFF9E0142FC7E3F7F0420FE910077FFFBFF990153FC4E3F700463FE7A007EFFFBFF940164FC1F3F6004A6FE630086FFFAFF8F0175FBF03F4F04E9FE4C008EFFFAFF8A0186FBC23F3E052DFE350095FFF9FF860196FB953F2A0572FE1E009DFFF8FF8101A6FB683F1705B7FE0700A5FFF7FF7C01B6FB3C3F0205FDFDEF00ADFFF7,
  0xFFC900B1FE103FDD021CFF42003CFFFFFFC400C3FDDC3FD3025BFF2D0044FFFEFFBE00D6FDA83FCA029AFF17004BFFFEFFB900E8FD753FBF02DAFF010052FFFEFFB300FBFD423FB5031AFEEB0059FFFDFFAE010DFD103FA9035BFED40060FFFDFFA8011EFCDF3F9D039CFEBE0068FFFCFFA30130FCAE3F8F03DEFEA7006FFFFC,
  0xFFFA0014FFC73FFF003AFFEC00060000FFF30028FF8E3FFF0074FFD7000D0000FFED003CFF563FFC00AFFFC200140000FFE70050FF1E3FF900EBFFAD001A0000FFE10064FEE73FF40127FF9800210000FFDB0077FEB03FF10163FF830028FFFFFFD5008BFE7A3FE901A1FF6E002FFFFFFFCF009EFE453FE401DEFF580035FFFF]

/-- Factory horizontal sets: 8 sets of 16 phases of 8 taps (R195). -/
def hFactory : List Nat := [
  0xFF54037EF636224C2CABF4E60406FF15FF790310F7561CDC315BF4D8040FFF03FF9E028FF8AB176B358FF54803E8FEFEFFBF0204FA221217392EF641038CFF09FFDB0176FBAA0CFE3C19F7CC02FAFF28FFEF00EEFD3108393E3DF9F10230FF5BFFFC006FFEA703DE3F8FFCAE0130FFA300000000000000004000000000000000,
  0xFFA30130FCAE3F8F03DEFEA7006FFFFCFF5B0230F9F13E3D0839FD3100EEFFEFFF2802FAF7CC3C190CFEFBAA0176FFDBFF09038CF641392E1217FA220204FFBFFEFE03E8F548358F176BF8AB028FFF9EFF03040FF4D8315B1CDCF7560310FF79FF150406F4E62CAB224CF636037EFF54FF3103D3F560279C279CF56003D3FF31,
  0xFF91FD4406481AD31CAE08AFFD6BFF48FFAFFD44052C19C51D7409F6FD94FF1EFFC9FD4F042018A31E200B47FDCEFEF0FFDDFD64032617701EB00CA1FE18FEC0FFEDFD81023F162F1F1F0E01FE75FE8FFFF8FDA5016B14E11F710F64FEE5FE5DFFFEFDCE00AC138A1FA210C8FF69FE2B0000FDFB0000122B1FB4122B0000FDFB,
  0xFE2BFF6910C81FA2138A00ACFDCEFFFEFE5DFEE50F641F7114E1016BFDA5FFF8FE8FFE750E011F1F162F023FFD81FFEDFEC0FE180CA11EB017700326FD64FFDDFEF0FDCE0B471E2018A30420FD4FFFC9FF1EFD9409F61D7419C5052CFD44FFAFFF48FD6B08AF1CAE1AD30648FD44FF91FF6FFD5107751BCC1BCA0775FD51FF6F,
  0xFF9E019409FA1376142F0B510248FF96FFA701450950130A14790BFD02ADFF97FFB200FD08A8129414B90CA70319FF9CFFBF00BD0803121514EB0D4F038CFFA6FFCE00830761118E15110DF50406FFB4FFDE005106C310FF152B0E970485FFC8FFEF0025062A106915380F35050BFFE10000000005960FCD153A0FCD05960000,
  0xFFE1050B0F3515381069062A0025FFEFFFC804850E97152B10FF06C30051FFDEFFB404060DF51511118E07610083FFCEFFA6038C0D4F14EB1215080300BDFFBFFF9C03190CA714B9129408A800FDFFB2FF9702AD0BFD1479130A09500145FFA7FF9602480B51142F137609FA0194FF9EFF9801EB0AA513D813D80AA501EBFF98,
  0x004203930A6F109A11090B5D044A0072002F033E09F7105811390BD204AA008F002002ED097E101111600C45050E00B1001402A009060FC4117F0CB6057600D7000B0258088F0F7111970D2505E001010005021408180F1A11A90D90064D012F000101D407A20EBE11B40DF806BD016200000199072E0E5D11B80E5D072E0199,
  0x016206BD0DF811B40EBE07A201D40001012F064D0D9011A90F1A081802140005010105E00D2511970F71088F0258000B00D705760CB6117F0FC4090602A0001400B1050E0C4511601011097E02ED0020008F04AA0BD21139105809F7033E002F0072044A0B5D1109109A0A6F03930042005803ED0AE710D510D30AE703ED0058,
  0x00AF04800A7D0F4D0FA00B3D052E00FC008D042D0A1C0F1C0FC20B9B05890128006E03DC09BA0EE70FE30BF705E501560052038E09570EAE0FFC0C52064401890039034308F50E7110120CAA06A401BE002402FB08920E3010210D00070601F8001002B608300DEC102D0D54076902340000027407CE0DA510320DA507CE0274,
  0x023407690D54102D0DEC083002B6001001F807060D0010210E30089202FB002401BE06A40CAA10120E7108F503430039018906440C520FFC0EAE0957038E0052015605E50BF70FE30EE709BA03DC006E012805890B9B0FC20F1C0A1C042D008D00FC052E0B3D0FA00F4D0A7D048000AF00D404D60ADE0F790F770ADE04D600D4,
  0x00F204FE0A7B0E9B0EE10B2305A6015000C704AD0A260E730EFF0B7505FC018300A0045E09D00E470F1A0BC5065301B9007A041109790E180F310C1406AD01F2005803C509220DE60F450C620707022D0038037D08CB0DB10F540CAD0762026C001B033608740D790F5F0CF707BF02AD000002F1081C0D3E0F6A0D3E081C02F1,
  0x02AD07BF0CF70F5F0D7908740336001B026C07620CAD0F540DB108CB037D0038022D07070C620F450DE6092203C5005801F206AD0C140F310E1809790411007A01B906530BC50F1A0E4709D0045E00A0018305FC0B750EFF0E730A2604AD00C7015005A60B230EE10E9B0A7B04FE00F2012005510ACF0EC00EC00ACF05510120,
  0x011E05490A770E320E6F0B1005EC018500EE04F90A290E0E0E8B0B5B063F01BD00C004AC09DA0DE70EA30BA5069401F70095045F098A0DBE0EBA0BED06E90234006C0415093A0D920ECB0C3507400273004603CC08EA0D640EDB0C7A079702B40022038408990D340EE70CBE07F002F80000033F08490D000EF00D000849033F,
  0x02F807F00CBE0EE70D3408990384002202B407970C7A0EDB0D6408EA03CC0046027307400C350ECB0D92093A0415006C023406E90BED0EBA0DBE098A045F009501F706940BA50EA30DE709DA04AC00C001BD063F0B5B0E8B0E0E0A2904F900EE018505EC0B100E6F0E320A770549011E0150059A0AC40E520E520AC4059A0150,
  0x013B05790A720DEE0E280B03061801A90107052B0A290DCD0E410B49066A01E400D604DE09DF0DAA0E580B8F06BC022000A7049209940D840E6E0BD3070F025F007A044809490D5C0E7D0C17076402A1004F03FF08FD0D320E8E0C5907B802E4002603B808B10D060E9A0C99080E032A0000037208640CD80EA40CD808640372,
  0x032A080E0C990E9A0D0608B103B8002602E407B80C590E8E0D3208FD03FF004F02A107640C170E7D0D5C09490448007A025F070F0BD30E6E0D840994049200A7022006BC0B8F0E580DAA09DF04DE00D601E4066A0B490E410DCD0A29052B010701A906180B030E280DEE0A720579013B017105C80ABB0E0C0E0C0ABB05C80171]

/-- Factory vertical sets: 8 sets of 16 phases of 4 taps (R195). -/
def vFactory : List Nat := [
  0xFDC63F6E02DDFFEFFC2B3DC50656FFBAFB243B1D0A61FF5EFAA237970EE9FEDEFA8E335B13DAFE3DFAD12E921918FD85FB5429671E84FCC1FC0024002400FC00FCC11E842967FB54FD8519182E92FAD1FE3D13DA335BFA8EFEDE0EE93797FAA2FF5E0A613B1DFB24FFBA06563DC5FC2BFFEF02DD3F6EFDC60000000040000000,
  0x0C92233F102600090AE622EE120400280952226713E9005E07D921AA15CD00B0067E20B917AA011F05431F96197801AF042A1E451B31026003331CCD1CCD033302601B311E45042A01AF19781F960543011F17AA20B9067E00B015CD21AA07D9005E13E9226709520028120422EE0AE600091026233F0C9200000E53235A0E53,
  0x0EE61EEC11BD00710D6D1E8F130E00F60C001E16145A01900AA21D80159F023F09531CD016D9030408151C07180603DE06EA1B26192304CD05D11A2F1A2F05D104CD19231B2606EA03DE18061C070815030416D91CD00953023F159F1D800AA20190145A1E160C0000F6130E1E8F0D6D007111BD1EEC0EE60000106A1F2C106A,
  0x0FA71D80123900A00E401D1C135401500CE21CA4146902110B901C18157602E20A4A1B7A167903C309101ACB177104B407E31A0B185D05B506C5193B193B06C505B5185D1A0B07E304B417711ACB091003C316791B7A0A4A02E215761C180B90021114691CA40CE2015013541D1C0E4000A012391D800FA7000011171DD21117,
  0x0FFD1CDD126E00B80E9E1C741371017D0D481BFC146C02500BFC1B74155F03310ABA1ADE1649041F09821A3A172A051A0856198818000622073618CA18CA07360622180019880856051A172A1A3A0982041F16491ADE0ABA0331155F1B740BFC0250146C1BFC0D48017D13711C740E9E00B8126E1CDD0FFD000011651D361165,
  0x102C1C85128A00C50ED11C1A137F01960D7F1BA1146C02740C361B1B1552035D0AF61A89162F045209C019EC170205520895194217CC065D0774188C188C0774065D17CC194208950552170219EC09C00452162F1A890AF6035D15521B1B0C360274146C1BA10D7F0196137F1C1A0ED100C5128A1C85102C0000118F1CE2118F,
  0x10471C51129B00CD0EEF1BE4138701A60D9F1B6C146C02890C581AE7154903780B1A1A58161E047009E619BC16EA057408BA191717AE06810799186718670799068117AE191708BA057416EA19BC09E60470161E1A580B1A037815491AE70C580289146C1B6C0D9F01A613871BE40EEF00CD129B1C511047000011A81CB011A8,
  0x10591C2E12A600D30F021BC1138D01B00DB41B48146C02980C6F1AC4154403890B321A361613048509FE199D16DB058A08D318FB1799069907B1184F184F07B10699179918FB08D3058A16DB199D09FE048516131A360B32038915441AC40C6F0298146C1B480DB401B0138D1BC10F0200D312A61C2E1059000011B81C9011B8]

/-- Word `i` (two coefficients) of a factory table. -/
def factoryWord (t : List Nat) (i : Nat) : Word := wd ((t.getD (i / 32) 0) >>> (32 * (i % 32)))

end Sys2Proof.Machine
end

