-- ==== Sys2Proof/Machine/RegTable.lean ====
section
/-! DEFINITION. The register summary tables of every block (R3, R8, R9): for each register its address, its families of
equal registers, the bits of each type code (Table 0.3), the Kept bits and the Reset column. -/

namespace Sys2Proof.Machine
open Sys2Proof

/-- One row of a register summary table. `dims` lists (count, stride) of the families the row stands for; each mask
gives the bits of one type code of Table 0.3. -/
structure RegRow where
  name : String
  base : Nat
  dims : List (Nat × Nat) := []
  rw : Nat := 0
  rws : Nat := 0
  ro : Nat := 0
  w1c : Nat := 0
  w1s : Nat := 0
  wo : Nat := 0
  rc : Nat := 0
  kept : Nat := 0
  rst : Nat := 0
  deriving DecidableEq, Repr

/-- Rows of the GLB block (GLB_ID to GLB_UID_HI). -/
def rowsGlb : List RegRow := [
  { name := "GLB_ID", base := 0, ro := 0xFFFF3FFF },
  { name := "GLB_VERSION", base := 4, ro := 0xFFFFFFFF, rst := 0x23103291 },
  { name := "GLB_STRAP", base := 8, ro := 0x13FFF },
  { name := "GLB_UID_LO", base := 0x10, ro := 0xFFFFFFFF },
  { name := "GLB_UID_HI", base := 0x14, ro := 0xFFFFFFFF }]

/-- Rows of the SIC block (SIC_VERSION to SIC_KEY_LOCK). -/
def rowsSic : List RegRow := [
  { name := "SIC_VERSION", base := 0x10000, ro := 0xFFFFFFFF, rst := 0x30002 },
  { name := "SIC_STATUS", base := 0x10004, ro := 0x7F1 },
  { name := "SIC_CMD", base := 0x10008, wo := 0xF1F },
  { name := "SIC_ERR", base := 0x1000C, ro := 0xFFFFFFFF },
  { name := "SIC_ACTIVE", base := 0x10010, ro := 7 },
  { name := "SIC_SLOTA_STATE", base := 0x10014, ro := 0xFFFF000F },
  { name := "SIC_SLOTB_STATE", base := 0x10018, ro := 0xFFFF000F },
  { name := "SIC_EVT", base := 0x1001C, w1c := 0xF },
  { name := "SIC_LOAD_OFS", base := 0x10020, rw := 0x7FFFFC },
  { name := "SIC_LOAD_DATA", base := 0x10024, wo := 0xFFFFFFFF },
  { name := "SIC_COPY_SRC_LO", base := 0x10028, rw := 0xFFFFFFC0 },
  { name := "SIC_COPY_SRC_HI", base := 0x1002C, rw := 0xFFFFFFFF },
  { name := "SIC_COPY_LEN", base := 0x10030, rw := 0xFFFFFC },
  { name := "SIC_COMMIT_TMO", base := 0x10040, rw := 0xFFFFFFFF, kept := 0xFFFFFFFF, rst := 0x2710 },
  { name := "SIC_PROBE_TMO", base := 0x10044, rw := 0xFFFFFFFF, kept := 0xFFFFFFFF, rst := 0xEA60 },
  { name := "SIC_DRAIN_TMO", base := 0x10048, rw := 0xFFFFFFFF, kept := 0xFFFFFFFF, rst := 0x64 },
  { name := "SIC_SERIAL_FLOOR", base := 0x1004C, ro := 0xFFFFFFFF, kept := 0xFFFFFFFF },
  { name := "SIC_SWAP_STAT", base := 0x10050, ro := 0xFF010FFF },
  { name := "SIC_SWAP_LOST", base := 0x10054, rc := 0xFFFFFFFF },
  { name := "SIC_SWAP_FRM0-SIC_SWAP_FRM11", base := 0x10080, dims := [(12, 4)], ro := 0xFFFFFFFF },
  { name := "SIC_PUBKEY", base := 0x10100, dims := [(32, 4)], ro := 0xFFFFFFFF, kept := 0xFFFFFFFF },
  { name := "SIC_KEY_STAGE0-SIC_KEY_STAGE7", base := 0x10180, dims := [(8, 4)], wo := 0xFFFFFFFF },
  { name := "SIC_KEY_LOCK", base := 0x101A0, ro := 0xF, kept := 0xF, rst := 1 }]

/-- Rows of the SPR block (SPRn_CTL to SPRn_CNT_ECC_UNC). -/
def rowsSpr0 : List RegRow := [
  { name := "SPRn_CTL", base := 0x100000, dims := [(32, 0x4000)], rw := 0x7FE7, kept := 0x7FE7, rst := 0x4006 },
  { name := "SPRn_STATUS", base := 0x100004, dims := [(32, 0x4000)], ro := 0xFF001F37 },
  { name := "SPRn_PHY_CFG", base := 0x100008, dims := [(32, 0x4000)], rw := 0xFF3FFF, kept := 0xFF3FFF, rst := 0x461770 },
  { name := "SPRn_LANE_MAP", base := 0x10000C, dims := [(32, 0x4000)], rw := 0xFFF, kept := 0xFFF, rst := 0xE4 },
  { name := "SPRn_COMMIT", base := 0x100010, dims := [(32, 0x4000)], wo := 0x1FFFF },
  { name := "SPRn_DSK_VAL0-SPRn_DSK_VAL3", base := 0x100020, dims := [(32, 0x4000), (4, 4)], rw := 0x100FF, ro := 0xFF80FF00, kept := 0x100FF, rst := 0x80 },
  { name := "SPRn_DSK_WIN0-SPRn_DSK_WIN3", base := 0x100030, dims := [(32, 0x4000), (4, 4)], rw := 0xFFFFF, kept := 0xFFFFF, rst := 0x4FF00 },
  { name := "SPRn_MAP0-SPRn_MAP7", base := 0x100040, dims := [(32, 0x4000), (8, 4)], rws := 0x1FF9, kept := 0x1FF9 },
  { name := "SPRn_UDT0-SPRn_UDT7", base := 0x100060, dims := [(32, 0x4000), (8, 4)], rws := 0xF7, kept := 0xF7 },
  { name := "SPRn_LINE_LEN", base := 0x100080, dims := [(32, 0x4000)], rws := 0xFFFF, kept := 0xFFFF, rst := 0x14FF },
  { name := "SPRn_BLK01", base := 0x100084, dims := [(32, 0x4000)], rws := 0xFFFFFFFF, kept := 0xFFFFFFFF },
  { name := "SPRn_BLK23", base := 0x100088, dims := [(32, 0x4000)], rws := 0xFFFFFFFF, kept := 0xFFFFFFFF },
  { name := "SPRn_ASM_TMO", base := 0x10008C, dims := [(32, 0x4000)], rw := 0xFFFF, kept := 0xFFFF, rst := 0x7D0 },
  { name := "SPRn_TRIG_CTL", base := 0x100090, dims := [(32, 0x4000)], rw := 0xFFFF002F, w1s := 0x40, kept := 0xFFFF002F, rst := 0x640000 },
  { name := "SPRn_TRIG_LAT", base := 0x100094, dims := [(32, 0x4000)], rw := 0xFFFFFFFF, kept := 0xFFFFFFFF, rst := 0x1F40000 },
  { name := "SPRn_XRST", base := 0x100098, dims := [(32, 0x4000)], rw := 0xFFFF0001, w1s := 2, kept := 0xFFFF0001, rst := 0x640001 },
  { name := "SPRn_TRIG_DLY", base := 0x10009C, dims := [(32, 0x4000)], rw := 0xFFFF, kept := 0xFFFF },
  { name := "SPRn_POND_FILL", base := 0x1000A0, dims := [(32, 0x4000)], ro := 0x1FFFFF },
  { name := "SPRn_POND_PEAK", base := 0x1000A4, dims := [(32, 0x4000)], rc := 0x1FFFFF },
  { name := "SPRn_POND_WM", base := 0x1000A8, dims := [(32, 0x4000)], rw := 0x1FFFFF, kept := 0x1FFFFF, rst := 0xC0000 },
  { name := "SPRn_EVT", base := 0x1000B0, dims := [(32, 0x4000)], w1c := 0xFFFF },
  { name := "SPRn_EVT_EN", base := 0x1000B4, dims := [(32, 0x4000)], rw := 0xFFFF, kept := 0xFFFF, rst := 0xFFFE },
  { name := "SPRn_CNT_ECC_CORR", base := 0x1000C0, dims := [(32, 0x4000)], rc := 0xFFFFFFFF },
  { name := "SPRn_CNT_ECC_UNC", base := 0x1000C4, dims := [(32, 0x4000)], rc := 0xFFFFFFFF }]

/-- Rows of the SPR block (SPRn_CNT_CRC to SPRn_LAST_ERR). -/
def rowsSpr1 : List RegRow := [
  { name := "SPRn_CNT_CRC", base := 0x1000C8, dims := [(32, 0x4000)], rc := 0xFFFFFFFF },
  { name := "SPRn_CNT_WC", base := 0x1000CC, dims := [(32, 0x4000)], rc := 0xFFFFFFFF },
  { name := "SPRn_CNT_UNEXP", base := 0x1000D0, dims := [(32, 0x4000)], rc := 0xFFFFFFFF },
  { name := "SPRn_CNT_NO_FE", base := 0x1000D4, dims := [(32, 0x4000)], rc := 0xFFFFFFFF },
  { name := "SPRn_CNT_PHY", base := 0x1000D8, dims := [(32, 0x4000)], rc := 0xFFFFFFFF },
  { name := "SPRn_CNT_ASM", base := 0x1000DC, dims := [(32, 0x4000)], rc := 0xFFFFFFFF },
  { name := "SPRn_CNT_MISSING", base := 0x1000E0, dims := [(32, 0x4000)], rc := 0xFFFFFFFF },
  { name := "SPRn_CNT_UNTRIG", base := 0x1000E4, dims := [(32, 0x4000)], rc := 0xFFFFFFFF },
  { name := "SPRn_CNT_OVF", base := 0x1000E8, dims := [(32, 0x4000)], rc := 0xFFFFFFFF },
  { name := "SPRn_CNT_TRUNC_GRP", base := 0x1000EC, dims := [(32, 0x4000)], rc := 0xFFFFFFFF },
  { name := "SPRn_CNT_LINES_DROP", base := 0x1000F0, dims := [(32, 0x4000)], rc := 0xFFFFFFFF },
  { name := "SPRn_LINES_LO", base := 0x1000F8, dims := [(32, 0x4000)], ro := 0xFFFFFFFF },
  { name := "SPRn_LINES_HI", base := 0x1000FC, dims := [(32, 0x4000)], ro := 0xFFFF },
  { name := "SPRn_LAST_TIME_LO", base := 0x100100, dims := [(32, 0x4000)], ro := 0xFFFFFFFF },
  { name := "SPRn_LAST_TIME_HI", base := 0x100104, dims := [(32, 0x4000)], ro := 0xFFFFFFFF },
  { name := "SPRn_LAST_WP_LO", base := 0x100108, dims := [(32, 0x4000)], ro := 0xFFFFFFFF },
  { name := "SPRn_LAST_WP_HI", base := 0x10010C, dims := [(32, 0x4000)], ro := 0xFFFFFFFF },
  { name := "SPRn_LAST_FRAME", base := 0x100110, dims := [(32, 0x4000)], ro := 0xFFFFFFFF },
  { name := "SPRn_LAST_INFO", base := 0x100114, dims := [(32, 0x4000)], ro := 0xFFFFFFFF },
  { name := "SPRn_LAST_EPOCH", base := 0x100118, dims := [(32, 0x4000)], ro := 0xFF },
  { name := "SPRn_LAST_ERR", base := 0x100120, dims := [(32, 0x4000)], ro := 0xFFFFFFFF }]

/-- All rows of the SPR block. -/
def rowsSpr : List RegRow := rowsSpr0 ++ rowsSpr1

/-- Rows of the TWB block (TWBn_CTL to TWBT_SOFT_SET). -/
def rowsTwb : List RegRow := [
  { name := "TWBn_CTL", base := 0x180000, dims := [(32, 0x800)], rw := 0xF7, kept := 0xF7, rst := 0x72 },
  { name := "TWBn_STATUS", base := 0x180004, dims := [(32, 0x800)], ro := 0x770077 },
  { name := "TWBn_TIMING0", base := 0x180008, dims := [(32, 0x800)], rw := 0xFFFFFFFF, kept := 0xFFFFFFFF },
  { name := "TWBn_TIMING1", base := 0x18000C, dims := [(32, 0x800)], rw := 0x3FF001F, kept := 0x3FF001F, rst := 5 },
  { name := "TWBn_TMO", base := 0x180010, dims := [(32, 0x800)], rw := 0xFFFFFFFF, kept := 0xFFFFFFFF, rst := 0x138803E8 },
  { name := "TWBn_XRST_WAIT", base := 0x180014, dims := [(32, 0x800)], rw := 0xFFFF, kept := 0xFFFF, rst := 0x3E8 },
  { name := "TWBn_CMD", base := 0x180018, dims := [(32, 0x800)], wo := 0x30F },
  { name := "TWBn_LIST_LO", base := 0x18001C, dims := [(32, 0x800)], rw := 0xFFFFFFFF },
  { name := "TWBn_LIST_HI", base := 0x180020, dims := [(32, 0x800)], rw := 0xFFFFFFFF },
  { name := "TWBn_RESULT", base := 0x180024, dims := [(32, 0x800)], ro := 0xFFFFFE3F },
  { name := "TWBn_EVT", base := 0x180028, dims := [(32, 0x800)], w1c := 0xFF },
  { name := "TWBn_EVT_EN", base := 0x18002C, dims := [(32, 0x800)], rw := 0xFF, kept := 0xFF, rst := 0xFE },
  { name := "TWBn_CNT_LISTS, _FAIL, _NACK, _ARB, _PROTO, _CLEAR, _STUCK", base := 0x180030, dims := [(32, 0x800), (7, 4)], rc := 0xFFFFFFFF },
  { name := "TWBn_RDBUF", base := 0x180100, dims := [(32, 0x800), (64, 4)], ro := 0xFFFFFFFF },
  { name := "TWBn_LRAM", base := 0x180400, dims := [(32, 0x800), (256, 4)], rw := 0xFFFFFFFF, kept := 0xFFFFFFFF },
  { name := "TWBT_CTL", base := 0x190000, rw := 0x1F017F, kept := 0x1F017F, rst := 0x5014C },
  { name := "TWBT_STATUS", base := 0x190004, ro := 0x103 },
  { name := "TWBT_ALERT", base := 0x190008, w1c := 0x3F },
  { name := "TWBT_ALERT_EN", base := 0x19000C, rw := 0x3F, kept := 0xFFFFFFFF, rst := 0x1F },
  { name := "TWBT_ERR", base := 0x190010, ro := 0xF0FFFFFF },
  { name := "TWBT_CNT_PROTO", base := 0x190014, rc := 0xFFFFFFFF },
  { name := "TWBT_TMO", base := 0x190018, rw := 0xFFFF, kept := 0xFFFF, rst := 0x15E },
  { name := "TWBT_SOFT_SET", base := 0x19001C, wo := 1 }]

/-- Rows of the SEAM block (SEAMn_OFS to SEAM_BARb_CMT_STAT). -/
def rowsSeam0 : List RegRow := [
  { name := "SEAMn_OFS", base := 0x200000, dims := [(32, 0x100)], rws := 0xFFFFFFF, kept := 0xFFFFFFF },
  { name := "SEAMn_MAG", base := 0x200004, dims := [(32, 0x100)], rws := 0x1FFFFFF, kept := 0x1FFFFFF },
  { name := "SEAMn_DLY", base := 0x200008, dims := [(32, 0x100)], rws := 0x3FFFF, kept := 0x3FFFF },
  { name := "SEAMn_CFG", base := 0x20000C, dims := [(32, 0x100)], rws := 0xF, kept := 0xF },
  { name := "SEAMn_OFS_MIN", base := 0x200010, dims := [(32, 0x100)], rws := 0xFFFFFFF, kept := 0xFFFFFFF, rst := 0x8000000 },
  { name := "SEAMn_OFS_MAX", base := 0x200014, dims := [(32, 0x100)], rws := 0xFFFFFFF, kept := 0xFFFFFFF, rst := 0x7FFFFFF },
  { name := "SEAMn_MAG_MIN", base := 0x200018, dims := [(32, 0x100)], rws := 0x1FFFFFF, kept := 0x1FFFFFF, rst := 0x1FAE148 },
  { name := "SEAMn_MAG_MAX", base := 0x20001C, dims := [(32, 0x100)], rws := 0x1FFFFFF, kept := 0x1FFFFFF, rst := 0x51EB8 },
  { name := "SEAMn_DLY_MIN", base := 0x200020, dims := [(32, 0x100)], rws := 0x3FFFF, kept := 0x3FFFF },
  { name := "SEAMn_DLY_MAX", base := 0x200024, dims := [(32, 0x100)], rws := 0x3FFFF, kept := 0x3FFFF },
  { name := "SEAMn_OFS_NOW", base := 0x200030, dims := [(32, 0x100)], ro := 0xFFFFFFF },
  { name := "SEAMn_MAG_NOW", base := 0x200034, dims := [(32, 0x100)], ro := 0x1FFFFFF },
  { name := "SEAMn_DLY_NOW", base := 0x200038, dims := [(32, 0x100)], ro := 0x3FFFF },
  { name := "SEAMn_OFS_WANT", base := 0x200040, dims := [(32, 0x100)], ro := 0xFFFFFFF },
  { name := "SEAMn_MAG_WANT", base := 0x200044, dims := [(32, 0x100)], ro := 0x1FFFFFF },
  { name := "SEAMn_DLY_WANT", base := 0x200048, dims := [(32, 0x100)], ro := 0x3FFFF },
  { name := "SEAMn_TRK_STAT", base := 0x200050, dims := [(32, 0x100)], ro := 0x3F7 },
  { name := "SEAMn_PRESS_OFS", base := 0x200054, dims := [(32, 0x100)], rc := 0xFFFFFFFF },
  { name := "SEAMn_PRESS_MAG", base := 0x200058, dims := [(32, 0x100)], rc := 0xFFFFFFFF },
  { name := "SEAMn_PRESS_DLY", base := 0x20005C, dims := [(32, 0x100)], rc := 0xFFFFFFFF },
  { name := "SEAM_BARb_CFG", base := 0x204000, dims := [(4, 0x1000)], ro := 0xDF0303FF },
  { name := "SEAM_BARb_CTL", base := 0x204004, dims := [(4, 0x1000)], rws := 0x1F37, kept := 0x1F37, rst := 5 },
  { name := "SEAM_BARb_COMMIT", base := 0x204008, dims := [(4, 0x1000)], wo := 0x1FFFF },
  { name := "SEAM_BARb_CMT_STAT", base := 0x20400C, dims := [(4, 0x1000)], ro := 0x3FFFFF }]

/-- Rows of the SEAM block (SEAM_BARb_GAIN to SEAM_COEF). -/
def rowsSeam1 : List RegRow := [
  { name := "SEAM_BARb_GAIN", base := 0x204010, dims := [(4, 0x1000)], rws := 0xFFFFFF, kept := 0xFFFFFF, rst := 0x404040 },
  { name := "SEAM_BARb_STEP_XY", base := 0x204014, dims := [(4, 0x1000)], rws := 0xFFFFFFFF, kept := 0xFFFFFFFF, rst := 0x400040 },
  { name := "SEAM_BARb_STEP_M", base := 0x204018, dims := [(4, 0x1000)], rws := 0xFFFF, kept := 0xFFFF, rst := 0x100 },
  { name := "SEAM_BARb_QMIN", base := 0x20401C, dims := [(4, 0x1000)], rws := 0xFFFF, kept := 0xFFFF, rst := 0x8000 },
  { name := "SEAM_BARb_SRCH", base := 0x204020, dims := [(4, 0x1000)], rws := 0xFF, kept := 0xFF, rst := 0x24 },
  { name := "SEAM_BARb_CL0-SEAM_BARb_CL3", base := 0x204030, dims := [(4, 0x1000), (4, 4)], rws := 0x3FFFF, kept := 0x3FFFF },
  { name := "SEAM_BARb_ORDER0-SEAM_BARb_ORDER7", base := 0x204040, dims := [(4, 0x1000), (8, 4)], rws := 0x9F9F9F9F, kept := 0x9F9F9F9F },
  { name := "SEAM_BARb_BUF_NEED", base := 0x204060, dims := [(4, 0x1000)], ro := 0xFFFFFFFF },
  { name := "SEAM_BARb_BUF_SIZE", base := 0x204064, dims := [(4, 0x1000)], ro := 0xFFFFFFFF },
  { name := "SEAM_BARb_UNCOV", base := 0x204068, dims := [(4, 0x1000)], ro := 0x3FFFF },
  { name := "SEAM_BARb_EVT", base := 0x204070, dims := [(4, 0x1000)], w1c := 0x7F },
  { name := "SEAM_BARb_EVT_EN", base := 0x204074, dims := [(4, 0x1000)], rw := 0x7F, kept := 0x7F, rst := 0x3E },
  { name := "SEAM_BARb_LOG", base := 0x204078, dims := [(4, 0x1000)], ro := 0xFF1F0301 },
  { name := "SEAM_BARb_FRAME", base := 0x204080, dims := [(4, 0x1000)], ro := 0xFFFFFFFF },
  { name := "SEAM_BARb_Sk_BLEND", base := 0x204100, dims := [(4, 0x1000), (31, 0x20)], rws := 0x83FF01FF, kept := 0x83FF01FF, rst := 0x800080 },
  { name := "SEAM_BARb_Sk_OVL", base := 0x204104, dims := [(4, 0x1000), (31, 0x20)], rws := 0x3FF, kept := 0x3FF, rst := 0x80 },
  { name := "SEAM_BARb_Sk_RES_XY", base := 0x204108, dims := [(4, 0x1000), (31, 0x20)], ro := 0xFFFFFFFF },
  { name := "SEAM_BARb_Sk_RES_M", base := 0x20410C, dims := [(4, 0x1000), (31, 0x20)], ro := 0x1FFFFFF },
  { name := "SEAM_BARb_Sk_QUAL", base := 0x204110, dims := [(4, 0x1000), (31, 0x20)], ro := 0x3FFFFFFF },
  { name := "SEAM_BARb_Sk_LINES", base := 0x204114, dims := [(4, 0x1000), (31, 0x20)], ro := 0xFFFFFF },
  { name := "SEAM_GLB_EVT", base := 0x207F00, w1c := 1 },
  { name := "SEAM_GLB_BANKUSE", base := 0x207F04, ro := 3 },
  { name := "SEAM_COEF", base := 0x208000, dims := [(2048, 4)], rw := 0xFFFFFFFF, kept := 0xFFFFFFFF }]

/-- All rows of the SEAM block. -/
def rowsSeam : List RegRow := rowsSeam0 ++ rowsSeam1

/-- Rows of the LE block (LE_STATUS to LE_Gg_TRUNC). -/
def rowsLe0 : List RegRow := [
  { name := "LE_STATUS", base := 0x280000, ro := 0xFFF001F },
  { name := "LE_UTIL_WIN", base := 0x280004, rw := 0xFFFF, kept := 0xFFFF, rst := 0x8F0D },
  { name := "LE_UTIL", base := 0x280008, ro := 0xFFFF },
  { name := "LE_IDLE_SLOTS", base := 0x28000C, ro := 0xFFFFFFFF },
  { name := "LE_ROUND_LO", base := 0x280010, ro := 0xFFFFFFFF },
  { name := "LE_ROUND_HI", base := 0x280014, ro := 0xFFFFFFFF },
  { name := "LE_EVT", base := 0x280018, w1c := 1 },
  { name := "LE_EVT_EN", base := 0x28001C, rw := 1, kept := 1 },
  { name := "LE_CALENDAR", base := 0x280100, dims := [(64, 4)], ro := 0xFFFFFFFF },
  { name := "LE_Gg_CTL", base := 0x281000, dims := [(12, 0x100)], rw := 1, kept := 1 },
  { name := "LE_Gg_STATUS", base := 0x281004, dims := [(12, 0x100)], ro := 0x1FF003F },
  { name := "LE_Gg_DEMAND", base := 0x281008, dims := [(12, 0x100)], ro := 0xFFFFFF },
  { name := "LE_Gg_BACKLOG", base := 0x28100C, dims := [(12, 0x100)], ro := 0xFFFFFF },
  { name := "LE_Gg_BACKLOG_PEAK", base := 0x281010, dims := [(12, 0x100)], rc := 0xFFFFFF },
  { name := "LE_Gg_BACKLOG_WM", base := 0x281014, dims := [(12, 0x100)], rw := 0xFFFFFF, kept := 0xFFFFFF },
  { name := "LE_Gg_REGION", base := 0x281018, dims := [(12, 0x100)], ro := 0xFFFFFF },
  { name := "LE_Gg_LAT_BOUND", base := 0x28101C, dims := [(12, 0x100)], ro := 0xFFFFFFFF },
  { name := "LE_Gg_LAT_MAX", base := 0x281020, dims := [(12, 0x100)], rc := 0xFFFFFFFF },
  { name := "LE_Gg_SLOTS_OWN", base := 0x281024, dims := [(12, 0x100)], ro := 0xFFFFFFFF },
  { name := "LE_Gg_SLOTS_EXTRA", base := 0x281028, dims := [(12, 0x100)], ro := 0xFFFFFFFF },
  { name := "LE_Gg_SLOTS_BLOCKED", base := 0x28102C, dims := [(12, 0x100)], ro := 0xFFFFFFFF },
  { name := "LE_Gg_SAMPLES_LO", base := 0x281030, dims := [(12, 0x100)], ro := 0xFFFFFFFF },
  { name := "LE_Gg_SAMPLES_HI", base := 0x281034, dims := [(12, 0x100)], ro := 0xFFFFFFFF },
  { name := "LE_Gg_TRUNC", base := 0x281038, dims := [(12, 0x100)], rc := 0xFFFFFFFF }]

/-- Rows of the LE block (LE_Gg_LINES_DROP to LE_Gg_EVT_EN). -/
def rowsLe1 : List RegRow := [
  { name := "LE_Gg_LINES_DROP", base := 0x28103C, dims := [(12, 0x100)], rc := 0xFFFFFFFF },
  { name := "LE_Gg_TNR_SKIP", base := 0x281040, dims := [(12, 0x100)], rc := 0xFFFFFFFF },
  { name := "LE_Gg_LAT_OVER", base := 0x281044, dims := [(12, 0x100)], rc := 0xFFFFFFFF },
  { name := "LE_Gg_EVT", base := 0x281048, dims := [(12, 0x100)], w1c := 0x1F },
  { name := "LE_Gg_EVT_EN", base := 0x28104C, dims := [(12, 0x100)], rw := 0x1F, kept := 0x1F, rst := 0x13 }]

/-- All rows of the LE block. -/
def rowsLe : List RegRow := rowsLe0 ++ rowsLe1

/-- Rows of the COR block (COR_FF_BASE0 to COR_Gg_TNR_SHIFT_WANT). -/
def rowsCor0 : List RegRow := [
  { name := "COR_FF_BASE0-COR_FF_BASE31", base := 0x300100, dims := [(32, 4)], rw := 0xFFFC0, kept := 0xFFFC0 },
  { name := "COR_FF_CONFLICT", base := 0x300180, ro := 0xFFFFFFFF },
  { name := "COR_Gg_CTL", base := 0x301000, dims := [(12, 0x1000)], rws := 0x77F, kept := 0x77F, rst := 0x7D },
  { name := "COR_Gg_COMMIT", base := 0x301004, dims := [(12, 0x1000)], wo := 0x1FFFF },
  { name := "COR_Gg_CMT_STAT", base := 0x301008, dims := [(12, 0x1000)], ro := 0x37FFFF },
  { name := "COR_Gg_STATUS", base := 0x30100C, dims := [(12, 0x1000)], ro := 0xF },
  { name := "COR_Gg_NR_S0", base := 0x301010, dims := [(12, 0x1000)], rws := 0x1FF01FF, kept := 0x1FF01FF, rst := 0x100 },
  { name := "COR_Gg_NR_S1", base := 0x301014, dims := [(12, 0x1000)], rws := 0x1FF01FF, kept := 0x1FF01FF },
  { name := "COR_Gg_NR_S2", base := 0x301018, dims := [(12, 0x1000)], rws := 0x1FF01FF, kept := 0x1FF01FF },
  { name := "COR_Gg_NR_SHIFT", base := 0x30101C, dims := [(12, 0x1000)], rws := 0xFFFF, kept := 0xFFFF, rst := 0x8888 },
  { name := "COR_Gg_NR_R0-COR_Gg_NR_R7", base := 0x301020, dims := [(12, 0x1000), (8, 4)], rws := 0x1FF01FF, kept := 0x1FF01FF, rst := 0x1000100 },
  { name := "COR_Gg_TNR_CTL", base := 0x301040, dims := [(12, 0x1000)], rws := 0x7F773F06, kept := 0x7F773F06, rst := 0x8041406 },
  { name := "COR_Gg_TNR_CMD", base := 0x301044, dims := [(12, 0x1000)], w1s := 1 },
  { name := "COR_Gg_TNR_PITCH", base := 0x301048, dims := [(12, 0x1000)], rws := 0xFFFFFFFF, kept := 0xFFFFFFFF, rst := 0x10000 },
  { name := "COR_Gg_TNR_THR", base := 0x30104C, dims := [(12, 0x1000)], rws := 0xFFFFFFFF, kept := 0xFFFFFFFF, rst := 0x40404040 },
  { name := "COR_Gg_TNR_SHIFT", base := 0x301050, dims := [(12, 0x1000)], rws := 0xFFFF01FF, kept := 0xFFFF01FF, rst := 0x8F80000 },
  { name := "COR_Gg_TNR_PIN", base := 0x301054, dims := [(12, 0x1000)], rws := 0xFF, kept := 0xFF },
  { name := "COR_Gg_TNR_N0c", base := 0x301060, dims := [(12, 0x1000), (4, 4)], rws := 0xFFFFFF, kept := 0xFFFFFF, rst := 0x400 },
  { name := "COR_Gg_TNR_N1c", base := 0x301070, dims := [(12, 0x1000), (4, 4)], rws := 0xFFFFFF, kept := 0xFFFFFF, rst := 0x1000 },
  { name := "COR_Gg_TNR_N0_MINc", base := 0x301080, dims := [(12, 0x1000), (4, 4)], rws := 0xFFFFFF, kept := 0xFFFFFF },
  { name := "COR_Gg_TNR_N0_MAXc", base := 0x301090, dims := [(12, 0x1000), (4, 4)], rws := 0xFFFFFF, kept := 0xFFFFFF, rst := 0xFFFFFF },
  { name := "COR_Gg_TNR_N1_MINc", base := 0x3010A0, dims := [(12, 0x1000), (4, 4)], rws := 0xFFFFFF, kept := 0xFFFFFF },
  { name := "COR_Gg_TNR_N1_MAXc", base := 0x3010B0, dims := [(12, 0x1000), (4, 4)], rws := 0xFFFFFF, kept := 0xFFFFFF, rst := 0xFFFFFF },
  { name := "COR_Gg_TNR_SHIFT_WANT", base := 0x3010C0, dims := [(12, 0x1000)], ro := 0x1FF }]

/-- Rows of the COR block (COR_Gg_TNR_SHIFT_NOW to COR_Gg_TLD_DST). -/
def rowsCor1 : List RegRow := [
  { name := "COR_Gg_TNR_SHIFT_NOW", base := 0x3010C4, dims := [(12, 0x1000)], ro := 0xFF },
  { name := "COR_Gg_TNR_N0_WANTc", base := 0x3010D0, dims := [(12, 0x1000), (4, 4)], ro := 0xFFFFFF },
  { name := "COR_Gg_TNR_N1_WANTc", base := 0x3010E0, dims := [(12, 0x1000), (4, 4)], ro := 0xFFFFFF },
  { name := "COR_Gg_TNR_N0_NOWc", base := 0x3010F0, dims := [(12, 0x1000), (4, 4)], ro := 0xFFFFFF },
  { name := "COR_Gg_TNR_N1_NOWc", base := 0x301100, dims := [(12, 0x1000), (4, 4)], ro := 0xFFFFFF },
  { name := "COR_Gg_TNR_STAT", base := 0x301110, dims := [(12, 0x1000)], ro := 0xFFFF0FF1 },
  { name := "COR_Gg_TNR_ROWS", base := 0x301114, dims := [(12, 0x1000)], ro := 0x7FFFF },
  { name := "COR_Gg_TNR_PRESS_SHIFT", base := 0x301118, dims := [(12, 0x1000)], rc := 0xFFFFFFFF },
  { name := "COR_Gg_TNR_PRESS_NOISE", base := 0x30111C, dims := [(12, 0x1000)], rc := 0xFFFFFFFF },
  { name := "COR_Gg_TNR_CNT_BYP", base := 0x301120, dims := [(12, 0x1000)], rc := 0xFFFFFFFF },
  { name := "COR_Gg_TNR_CNT_OOR", base := 0x301124, dims := [(12, 0x1000)], rc := 0xFFFFFFFF },
  { name := "COR_Gg_TNR_CNT_ECC", base := 0x301128, dims := [(12, 0x1000)], rc := 0xFFFFFFFF },
  { name := "COR_Gg_TNR_LOG", base := 0x30112C, dims := [(12, 0x1000)], ro := 0xFF00003D },
  { name := "COR_Gg_WB01", base := 0x301140, dims := [(12, 0x1000)], rws := 0xFFFFFFFF, kept := 0xFFFFFFFF, rst := 0x10001000 },
  { name := "COR_Gg_WB23", base := 0x301144, dims := [(12, 0x1000)], rws := 0xFFFFFFFF, kept := 0xFFFFFFFF, rst := 0x10001000 },
  { name := "COR_Gg_CM0", base := 0x301150, dims := [(12, 0x1000)], rws := 0xFFFFFFFF, kept := 0xFFFFFFFF, rst := 0x1000 },
  { name := "COR_Gg_CM1", base := 0x301154, dims := [(12, 0x1000)], rws := 0xFFFFFFFF, kept := 0xFFFFFFFF },
  { name := "COR_Gg_CM2", base := 0x301158, dims := [(12, 0x1000)], rws := 0xFFFFFFFF, kept := 0xFFFFFFFF, rst := 0x10000000 },
  { name := "COR_Gg_CM3", base := 0x30115C, dims := [(12, 0x1000)], rws := 0xFFFFFFFF, kept := 0xFFFFFFFF },
  { name := "COR_Gg_CM4", base := 0x301160, dims := [(12, 0x1000)], rws := 0xFFFFFFFF, kept := 0xFFFFFFFF },
  { name := "COR_Gg_CM5", base := 0x301164, dims := [(12, 0x1000)], rws := 0xFFFFFFFF, kept := 0xFFFFFFFF, rst := 0x1000 },
  { name := "COR_Gg_CMO0-COR_Gg_CMO2", base := 0x301168, dims := [(12, 0x1000), (3, 4)], rws := 0x3FFFF, kept := 0x3FFFF },
  { name := "COR_Gg_TLD_CTL", base := 0x301180, dims := [(12, 0x1000)], rw := 0x31310, w1s := 1 },
  { name := "COR_Gg_TLD_DST", base := 0x301184, dims := [(12, 0x1000)], rw := 0x1F01FFFF }]

/-- Rows of the COR block (COR_Gg_TLD_COUNT to COR_Gg_EVT_EN). -/
def rowsCor2 : List RegRow := [
  { name := "COR_Gg_TLD_COUNT", base := 0x301188, dims := [(12, 0x1000)], rw := 0x1FFFFF },
  { name := "COR_Gg_TLD_SRC_LO", base := 0x30118C, dims := [(12, 0x1000)], rw := 0xFFFFFFC0 },
  { name := "COR_Gg_TLD_SRC_HI", base := 0x301190, dims := [(12, 0x1000)], rw := 0xFFFFFFFF },
  { name := "COR_Gg_TLD_DATA", base := 0x301194, dims := [(12, 0x1000)], rw := 0xFFFFFFFF },
  { name := "COR_Gg_TLD_STAT", base := 0x301198, dims := [(12, 0x1000)], ro := 0xFC1FFFFF },
  { name := "COR_Gg_EVT", base := 0x3011A0, dims := [(12, 0x1000)], w1c := 0x3FF },
  { name := "COR_Gg_EVT_EN", base := 0x3011A4, dims := [(12, 0x1000)], rw := 0x3FF, kept := 0x3FF, rst := 0x37E }]

/-- All rows of the COR block. -/
def rowsCor : List RegRow := rowsCor0 ++ rowsCor1 ++ rowsCor2

/-- Rows of the FRM block (FRM_Gg_SRC to FRM_Gg_CNT_IGN). -/
def rowsFrm : List RegRow := [
  { name := "FRM_Gg_SRC", base := 0x400000, dims := [(12, 0x100)], ro := 0xFFC0001F },
  { name := "FRM_Gg_REPEAT_LO", base := 0x400004, dims := [(12, 0x100)], rws := 0xFFFFFFFF, kept := 0xFFFFFFFF },
  { name := "FRM_Gg_REPEAT_HI", base := 0x400008, dims := [(12, 0x100)], rws := 0xFFFF, kept := 0xFFFF },
  { name := "FRM_Gg_ORIGIN_LO", base := 0x40000C, dims := [(12, 0x100)], rws := 0xFFFFFFFF, kept := 0xFFFFFFFF },
  { name := "FRM_Gg_ORIGIN_HI", base := 0x400010, dims := [(12, 0x100)], rws := 0xFFFFFFFF, kept := 0xFFFFFFFF },
  { name := "FRM_Gg_COUNT_N", base := 0x400014, dims := [(12, 0x100)], rws := 0xFFFFFF, kept := 0xFFFFFF },
  { name := "FRM_Gg_HOLDOFF", base := 0x400018, dims := [(12, 0x100)], rws := 0xFFFFFF, kept := 0xFFFFFF },
  { name := "FRM_Gg_MAXLEN", base := 0x40001C, dims := [(12, 0x100)], rws := 0x1FFFFFF, kept := 0x1FFFFFF },
  { name := "FRM_Gg_COMMIT", base := 0x400020, dims := [(12, 0x100)], wo := 0x1FFFF },
  { name := "FRM_Gg_CMT_STAT", base := 0x400024, dims := [(12, 0x100)], ro := 0x3FFFF },
  { name := "FRM_Gg_FRAME0", base := 0x400028, dims := [(12, 0x100)], rw := 0xFFFFFFFF },
  { name := "FRM_Gg_FRAME", base := 0x40002C, dims := [(12, 0x100)], ro := 0xFFFFFFFF },
  { name := "FRM_Gg_LINE", base := 0x400030, dims := [(12, 0x100)], ro := 0x7FFFFFF },
  { name := "FRM_Gg_COUNT_LO", base := 0x400034, dims := [(12, 0x100)], ro := 0xFFFFFFFF },
  { name := "FRM_Gg_COUNT_HI", base := 0x400038, dims := [(12, 0x100)], ro := 0xFFFF },
  { name := "FRM_Gg_GEN", base := 0x40003C, dims := [(12, 0x100)], ro := 0xFFFF },
  { name := "FRM_Gg_EVT", base := 0x400040, dims := [(12, 0x100)], w1c := 0x1F },
  { name := "FRM_Gg_EVT_EN", base := 0x400044, dims := [(12, 0x100)], rw := 0x1F, kept := 0x1F, rst := 0x16 },
  { name := "FRM_Gg_CNT_SYNTH", base := 0x400048, dims := [(12, 0x100)], rc := 0xFFFFFFFF },
  { name := "FRM_Gg_CNT_IGN", base := 0x40004C, dims := [(12, 0x100)], rc := 0xFFFFFFFF }]

/-- Rows of the EXP block (EXPn_PROFILE to EXPn_Ee_EFFECT). -/
def rowsExp : List RegRow := [
  { name := "EXPn_PROFILE", base := 0x410000, dims := [(32, 0x1000)], rw := 0xFFF0003, kept := 0xFFF0003, rst := 0x100001 },
  { name := "EXPn_STATUS", base := 0x410004, dims := [(32, 0x1000)], ro := 0x7FFFFF },
  { name := "EXPn_EVT", base := 0x410008, dims := [(32, 0x1000)], w1c := 0xF },
  { name := "EXPn_EVT_EN", base := 0x41000C, dims := [(32, 0x1000)], rw := 0xF, kept := 0xF, rst := 0xE },
  { name := "EXPn_CNT_LATE", base := 0x410010, dims := [(32, 0x1000)], rc := 0xFFFFFFFF },
  { name := "EXPn_CNT_FAIL", base := 0x410014, dims := [(32, 0x1000)], rc := 0xFFFFFFFF },
  { name := "EXPn_Ee_TARGET", base := 0x410400, dims := [(32, 0x1000), (64, 0x20)], rw := 0xFFFFFFFF },
  { name := "EXPn_Ee_LIST", base := 0x410404, dims := [(32, 0x1000), (64, 0x20)], rw := 0xFFFFFFFF },
  { name := "EXPn_Ee_CTL", base := 0x410408, dims := [(32, 0x1000), (64, 0x20)], rw := 0xFFFF0000, w1s := 3 },
  { name := "EXPn_Ee_STAT", base := 0x41040C, dims := [(32, 0x1000), (64, 0x20)], ro := 0xFFC00000 },
  { name := "EXPn_Ee_EFFECT", base := 0x410410, dims := [(32, 0x1000), (64, 0x20)], ro := 0xFFFFFFFF }]

/-- Rows of the TAL block (TAL_Gg_CTL to TAL_Gg_ROIr.w3). -/
def rowsTal : List RegRow := [
  { name := "TAL_Gg_CTL", base := 0x440000, dims := [(12, 0x2000)], rws := 0x3F7771, kept := 0x3F7771, rst := 0x3F3141 },
  { name := "TAL_Gg_COMMIT", base := 0x440004, dims := [(12, 0x2000)], wo := 0x1FFFF },
  { name := "TAL_Gg_CMT_STAT", base := 0x440008, dims := [(12, 0x2000)], ro := 0x3FFFF },
  { name := "TAL_Gg_HX0", base := 0x44000C, dims := [(12, 0x2000)], rws := 0x3FFFF, kept := 0x3FFFF },
  { name := "TAL_Gg_HX1", base := 0x440010, dims := [(12, 0x2000)], rws := 0x3FFFF, kept := 0x3FFFF, rst := 0x3FFFF },
  { name := "TAL_Gg_LAST_FRAME", base := 0x440014, dims := [(12, 0x2000)], ro := 0xFFFFFFFF },
  { name := "TAL_Gg_LAST_LEN", base := 0x440018, dims := [(12, 0x2000)], ro := 0xFFFFFFFF },
  { name := "TAL_Gg_CNT_REC", base := 0x44001C, dims := [(12, 0x2000)], rc := 0xFFFFFFFF },
  { name := "TAL_Gg_EVT", base := 0x440020, dims := [(12, 0x2000)], w1c := 0xF },
  { name := "TAL_Gg_EVT_EN", base := 0x440024, dims := [(12, 0x2000)], rw := 0xF, kept := 0xF, rst := 6 },
  { name := "TAL_Gg_ROIr.w0", base := 0x441000, dims := [(12, 0x2000), (256, 0x10)], rws := 0x8003FFFF, kept := 0x8003FFFF },
  { name := "TAL_Gg_ROIr.w1", base := 0x441004, dims := [(12, 0x2000), (256, 0x10)], rws := 0x3FFFF, kept := 0x3FFFF },
  { name := "TAL_Gg_ROIr.w2", base := 0x441008, dims := [(12, 0x2000), (256, 0x10)], rws := 0xFFFFFF, kept := 0xFFFFFF },
  { name := "TAL_Gg_ROIr.w3", base := 0x44100C, dims := [(12, 0x2000), (256, 0x10)], rws := 0xFFFFFF, kept := 0xFFFFFF }]

/-- Rows of the OUT block (OUT_STn_CFG to OUT_STn_EVT_EN). -/
def rowsOut0 : List RegRow := [
  { name := "OUT_STn_CFG", base := 0x480000, dims := [(16, 0x400)], ro := 0x8EF7F0FF },
  { name := "OUT_STn_CTL", base := 0x480004, dims := [(16, 0x400)], rws := 0x1337771, kept := 0x1337771, rst := 0x10010 },
  { name := "OUT_STn_COMMIT", base := 0x480008, dims := [(16, 0x400)], wo := 0x1FFFF },
  { name := "OUT_STn_CMT_STAT", base := 0x48000C, dims := [(16, 0x400)], ro := 0x37FFFF },
  { name := "OUT_STn_CROP_X", base := 0x480010, dims := [(16, 0x400)], rws := 0x3FFFF, kept := 0x3FFFF },
  { name := "OUT_STn_CROP_W", base := 0x480014, dims := [(16, 0x400)], rws := 0x3FFFF, kept := 0x3FFFF, rst := 0x30000 },
  { name := "OUT_STn_CROP_Y", base := 0x480018, dims := [(16, 0x400)], rws := 0xFFFFFF, kept := 0xFFFFFF },
  { name := "OUT_STn_CROP_H", base := 0x48001C, dims := [(16, 0x400)], rws := 0x1FFFFFF, kept := 0x1FFFFFF },
  { name := "OUT_STn_HSTEP", base := 0x480020, dims := [(16, 0x400)], rws := 0x3FFFFF, kept := 0x3FFFFF, rst := 0x10000 },
  { name := "OUT_STn_VSTEP", base := 0x480024, dims := [(16, 0x400)], rws := 0x3FFFFF, kept := 0x3FFFFF, rst := 0x10000 },
  { name := "OUT_STn_DEC", base := 0x480028, dims := [(16, 0x400)], rws := 0x1FF, kept := 0x1FF, rst := 1 },
  { name := "OUT_STn_STATUS", base := 0x480030, dims := [(16, 0x400)], ro := 0x30107 },
  { name := "OUT_STn_COLS", base := 0x480034, dims := [(16, 0x400)], ro := 0x3FFFF },
  { name := "OUT_STn_REC_MAX", base := 0x480038, dims := [(16, 0x400)], ro := 0xFFFFFFFF },
  { name := "OUT_STn_POND", base := 0x48003C, dims := [(16, 0x400)], ro := 0xFFFFFFFF },
  { name := "OUT_STn_ALIVE", base := 0x480040, dims := [(16, 0x400)], ro := 0xFFFF },
  { name := "OUT_STn_CNT_REC_LO", base := 0x480044, dims := [(16, 0x400)], ro := 0xFFFFFFFF },
  { name := "OUT_STn_CNT_REC_HI", base := 0x480048, dims := [(16, 0x400)], ro := 0xFFFFFFFF },
  { name := "OUT_STn_CNT_DROP", base := 0x480050, dims := [(16, 0x400)], rc := 0xFFFFFFFF },
  { name := "OUT_STn_CNT_TRUNC", base := 0x480054, dims := [(16, 0x400)], rc := 0xFFFFFFFF },
  { name := "OUT_STn_FILL", base := 0x480058, dims := [(16, 0x400)], ro := 0x1FFFFFF },
  { name := "OUT_STn_PEAK", base := 0x48005C, dims := [(16, 0x400)], rc := 0x1FFFFFF },
  { name := "OUT_STn_EVT", base := 0x480060, dims := [(16, 0x400)], w1c := 0x3F },
  { name := "OUT_STn_EVT_EN", base := 0x480064, dims := [(16, 0x400)], rw := 0x3F, kept := 0x3F, rst := 0x1E }]

/-- Rows of the OUT block (OUT_H_COEF to OUT_GLB_SETUSE). -/
def rowsOut1 : List RegRow := [
  { name := "OUT_H_COEF", base := 0x484000, dims := [(512, 4)], rw := 0xFFFFFFFF, kept := 0xFFFFFFFF },
  { name := "OUT_V_COEF", base := 0x484800, dims := [(256, 4)], rw := 0xFFFFFFFF, kept := 0xFFFFFFFF },
  { name := "OUT_GLB_EVT", base := 0x484C00, w1c := 1 },
  { name := "OUT_GLB_EVT_EN", base := 0x484C04, rw := 1, kept := 1, rst := 1 },
  { name := "OUT_GLB_SETUSE", base := 0x484C08, ro := 0xFFFF }]

/-- All rows of the OUT block. -/
def rowsOut : List RegRow := rowsOut0 ++ rowsOut1

/-- Rows of the XPT block (MKT_STATUS to XPT_STn_SENT_LO). -/
def rowsXpt0 : List RegRow := [
  { name := "MKT_STATUS", base := 0x500000, ro := 0xFF },
  { name := "MKT_LINK_HOLD", base := 0x500004, rw := 0xFF, kept := 0xFF, rst := 0xA },
  { name := "MKT_FAILBACK", base := 0x500008, rw := 0xFFFF, kept := 0xFFFF, rst := 0x3E8 },
  { name := "MKT_PFC_WD", base := 0x50000C, rw := 0xFFFF, kept := 0xFFFF, rst := 0x7D0 },
  { name := "MKT_PFC_IGN", base := 0x500010, rw := 0xFFFF, kept := 0xFFFF, rst := 0x64 },
  { name := "MKT_SEG", base := 0x500014, rw := 0x3FFF, kept := 0x3FFF, rst := 0x2000 },
  { name := "MKT_UDP_BASE", base := 0x500018, rw := 0xFFFF, kept := 0xFFFF, rst := 0x5860 },
  { name := "MKT_ETYPE", base := 0x50001C, rw := 0xFFFF, kept := 0xFFFF, rst := 0x88B5 },
  { name := "MKT_TTL", base := 0x500020, rw := 0xFF, kept := 0xFF, rst := 0x40 },
  { name := "MKT_WIN_USED", base := 0x500024, ro := 0x1FFFF },
  { name := "MKT_EVT", base := 0x500028, w1c := 3 },
  { name := "MKT_EVT_EN", base := 0x50002C, rw := 3, kept := 3, rst := 1 },
  { name := "MKT_CNT_BADMSG", base := 0x500030, rc := 0xFFFFFFFF },
  { name := "MKT_STALL0_SHARE-MKT_STALL7_SHARE", base := 0x500100, dims := [(8, 4)], ro := 0x7F },
  { name := "XPT_STn_CTL", base := 0x501000, dims := [(16, 0x100)], rw := 0xFFFF0070, kept := 0xFFFF0070, rst := 0x10010040 },
  { name := "XPT_STn_TAG", base := 0x501004, dims := [(16, 0x100)], rw := 0x1EFFF, kept := 0x1EFFF },
  { name := "XPT_STn_CMD", base := 0x501008, dims := [(16, 0x100)], wo := 0xF },
  { name := "XPT_STn_STATUS", base := 0x50100C, dims := [(16, 0x100)], ro := 0x7037F },
  { name := "XPT_STn_SESSION", base := 0x501010, dims := [(16, 0x100)], ro := 0xFFFFFFFF },
  { name := "XPT_STn_NEXT_SEQ", base := 0x501014, dims := [(16, 0x100)], ro := 0xFFFFFFFF },
  { name := "XPT_STn_MARK", base := 0x501018, dims := [(16, 0x100)], ro := 0xFFFFFFFF },
  { name := "XPT_STn_WIN", base := 0x50101C, dims := [(16, 0x100)], ro := 0x1FFFF },
  { name := "XPT_STn_WIN_CAP", base := 0x501020, dims := [(16, 0x100)], ro := 0x1FFFF },
  { name := "XPT_STn_SENT_LO", base := 0x501024, dims := [(16, 0x100)], ro := 0xFFFFFFFF }]

/-- Rows of the XPT block (XPT_STn_SENT_HI to XPT_STn_DST_S_PORT). -/
def rowsXpt1 : List RegRow := [
  { name := "XPT_STn_SENT_HI", base := 0x501028, dims := [(16, 0x100)], ro := 0xFFFFFFFF },
  { name := "XPT_STn_LIMIT_LO", base := 0x50102C, dims := [(16, 0x100)], ro := 0xFFFFFFFF },
  { name := "XPT_STn_LIMIT_HI", base := 0x501030, dims := [(16, 0x100)], ro := 0xFFFFFFFF },
  { name := "XPT_STn_RTO", base := 0x501034, dims := [(16, 0x100)], rw := 0xFFFF, kept := 0xFFFF, rst := 0xC8 },
  { name := "XPT_STn_SILENT", base := 0x501038, dims := [(16, 0x100)], rw := 0xFFFF, kept := 0xFFFF, rst := 0x32 },
  { name := "XPT_STn_EVT", base := 0x50103C, dims := [(16, 0x100)], w1c := 0x3F },
  { name := "XPT_STn_EVT_EN", base := 0x501040, dims := [(16, 0x100)], rw := 0x3F, kept := 0x3F, rst := 0x3E },
  { name := "XPT_STn_CNT_RESEND", base := 0x501044, dims := [(16, 0x100)], rc := 0xFFFFFFFF },
  { name := "XPT_STn_CNT_RETIRED", base := 0x501048, dims := [(16, 0x100)], rc := 0xFFFFFFFF },
  { name := "XPT_STn_CNT_GAP", base := 0x50104C, dims := [(16, 0x100)], rc := 0xFFFFFFFF },
  { name := "XPT_STn_CNT_FAILOVER", base := 0x501050, dims := [(16, 0x100)], rc := 0xFFFFFFFF },
  { name := "XPT_STn_CNT_UNSENT", base := 0x501054, dims := [(16, 0x100)], rc := 0xFFFFFFFF },
  { name := "XPT_STn_CNT_BADACK", base := 0x501058, dims := [(16, 0x100)], rc := 0xFFFFFFFF },
  { name := "XPT_STn_DST_P_MAC_HI", base := 0x501060, dims := [(16, 0x100)], rw := 0xFFFF, kept := 0xFFFF },
  { name := "XPT_STn_DST_P_MAC_LO", base := 0x501064, dims := [(16, 0x100)], rw := 0xFFFFFFFF, kept := 0xFFFFFFFF },
  { name := "XPT_STn_DST_P_IP0-IP3", base := 0x501068, dims := [(16, 0x100), (4, 4)], rw := 0xFFFFFFFF, kept := 0xFFFFFFFF },
  { name := "XPT_STn_DST_P_PORT", base := 0x501078, dims := [(16, 0x100)], rw := 0xFFFF, kept := 0xFFFF, rst := 0x5860 },
  { name := "XPT_STn_DST_S_MAC_HI", base := 0x501080, dims := [(16, 0x100)], rw := 0xFFFF, kept := 0xFFFF },
  { name := "XPT_STn_DST_S_MAC_LO", base := 0x501084, dims := [(16, 0x100)], rw := 0xFFFFFFFF, kept := 0xFFFFFFFF },
  { name := "XPT_STn_DST_S_IP0-IP3", base := 0x501088, dims := [(16, 0x100), (4, 4)], rw := 0xFFFFFFFF, kept := 0xFFFFFFFF },
  { name := "XPT_STn_DST_S_PORT", base := 0x501098, dims := [(16, 0x100)], rw := 0xFFFF, kept := 0xFFFF, rst := 0x5860 }]

/-- All rows of the XPT block. -/
def rowsXpt : List RegRow := rowsXpt0 ++ rowsXpt1

/-- Rows of the ETH block (ETH_p_CTL to ETH_p_Ll_CNT_DOWN). -/
def rowsEth : List RegRow := [
  { name := "ETH_p_CTL", base := 0x540000, dims := [(4, 0x1000)], rw := 0x37, kept := 0x37 },
  { name := "ETH_p_STATUS", base := 0x540004, dims := [(4, 0x1000)], ro := 0xFFFF },
  { name := "ETH_p_MAXFRAME", base := 0x540008, dims := [(4, 0x1000)], rw := 0x3FFF, kept := 0x3FFF, rst := 0x2400 },
  { name := "ETH_p_PFC", base := 0x54000C, dims := [(4, 0x1000)], rw := 0xFF, kept := 0xFF, rst := 0xFF },
  { name := "ETH_p_Ll_MAC_HI", base := 0x540100, dims := [(4, 0x1000), (4, 0x80)], rw := 0xFFFF, kept := 0xFFFF },
  { name := "ETH_p_Ll_MAC_LO", base := 0x540104, dims := [(4, 0x1000), (4, 0x80)], rw := 0xFFFFFFFF, kept := 0xFFFFFFFF },
  { name := "ETH_p_Ll_IPV4", base := 0x540108, dims := [(4, 0x1000), (4, 0x80)], rw := 0xFFFFFFFF, kept := 0xFFFFFFFF },
  { name := "ETH_p_Ll_IPV6_0-3", base := 0x54010C, dims := [(4, 0x1000), (4, 0x80), (4, 4)], rw := 0xFFFFFFFF, kept := 0xFFFFFFFF },
  { name := "ETH_p_Ll_CNT_TX", base := 0x540140, dims := [(4, 0x1000), (4, 0x80)], rc := 0xFFFFFFFF },
  { name := "ETH_p_Ll_CNT_RX", base := 0x540144, dims := [(4, 0x1000), (4, 0x80)], rc := 0xFFFFFFFF },
  { name := "ETH_p_Ll_CNT_RX_DROP", base := 0x540148, dims := [(4, 0x1000), (4, 0x80)], rc := 0xFFFFFFFF },
  { name := "ETH_p_Ll_CNT_FCS", base := 0x54014C, dims := [(4, 0x1000), (4, 0x80)], rc := 0xFFFFFFFF },
  { name := "ETH_p_Ll_CNT_FEC_UNC", base := 0x540150, dims := [(4, 0x1000), (4, 0x80)], rc := 0xFFFFFFFF },
  { name := "ETH_p_Ll_CNT_PAUSE", base := 0x540154, dims := [(4, 0x1000), (4, 0x80)], rc := 0xFFFFFFFF },
  { name := "ETH_p_Ll_CNT_PFC_WD", base := 0x540158, dims := [(4, 0x1000), (4, 0x80)], rc := 0xFFFFFFFF },
  { name := "ETH_p_Ll_CNT_PFC_IGN", base := 0x54015C, dims := [(4, 0x1000), (4, 0x80)], rc := 0xFFFFFFFF },
  { name := "ETH_p_Ll_CNT_DOWN", base := 0x540160, dims := [(4, 0x1000), (4, 0x80)], rc := 0xFFFFFFFF }]

/-- Rows of the TIM block (TIM_CMD to WPn_SIM). -/
def rowsTim0 : List RegRow := [
  { name := "TIM_CMD", base := 0x580000, wo := 1 },
  { name := "TIM_SNAP_TBn", base := 0x580040, dims := [(4, 0x10), (3, 4)], ro := 0xFFFFFFFF },
  { name := "TIM_SNAP_WPn", base := 0x580080, dims := [(4, 8), (2, 4)], ro := 0xFFFFFFFF },
  { name := "TBn_CTL", base := 0x581000, dims := [(4, 0x1000)], rw := 0x31, kept := 0x31 },
  { name := "TBn_STATUS", base := 0x581004, dims := [(4, 0x1000)], ro := 0xFF0707F0, kept := 0xFF000000 },
  { name := "TBn_CMD", base := 0x581008, dims := [(4, 0x1000)], wo := 0xFF },
  { name := "TBn_NOW_LO, _HI, _EXT", base := 0x58100C, dims := [(4, 0x1000), (3, 4)], ro := 0xFFFFFFFF },
  { name := "TBn_SET_LO, _HI, _EXT", base := 0x581018, dims := [(4, 0x1000), (3, 4)], rw := 0xFFFFFFFF },
  { name := "TBn_STEP_LO, _HI", base := 0x581024, dims := [(4, 0x1000), (2, 4)], rw := 0xFFFFFFFF },
  { name := "TBn_RATE", base := 0x58102C, dims := [(4, 0x1000)], rw := 0xFFFFFFFF },
  { name := "TBn_FREQ", base := 0x581030, dims := [(4, 0x1000)], ro := 0xFFFFFFFF },
  { name := "TBn_OFFSET", base := 0x581034, dims := [(4, 0x1000)], ro := 0xFFFFFFFF },
  { name := "TBn_THR", base := 0x581038, dims := [(4, 0x1000)], rw := 0xFFFFFFFF, kept := 0xFFFFFFFF, rst := 0xA03E8 },
  { name := "TBn_GAIN", base := 0x58103C, dims := [(4, 0x1000)], rw := 0xF0F, kept := 0xF0F, rst := 0x206 },
  { name := "TBn_EVT", base := 0x581040, dims := [(4, 0x1000)], w1c := 0x1FF },
  { name := "TBn_EVT_EN", base := 0x581044, dims := [(4, 0x1000)], rw := 0x1FF, kept := 0x1FF, rst := 0x1BE },
  { name := "WPn_CTL", base := 0x585000, dims := [(4, 0x1000)], rw := 0x3F1F, kept := 0x3F1F, rst := 0x501 },
  { name := "WPn_STATUS", base := 0x585004, dims := [(4, 0x1000)], ro := 7 },
  { name := "WPn_NOW_LO", base := 0x585008, dims := [(4, 0x1000)], ro := 0xFFFFFFFF },
  { name := "WPn_NOW_HI", base := 0x58500C, dims := [(4, 0x1000)], ro := 0xFFFFFFFF },
  { name := "WPn_VEL", base := 0x585010, dims := [(4, 0x1000)], ro := 0xFFFFFFFF },
  { name := "WPn_IDX_LO, _HI", base := 0x585014, dims := [(4, 0x1000), (2, 4)], ro := 0xFFFFFFFF },
  { name := "WPn_IDX_CNT", base := 0x58501C, dims := [(4, 0x1000)], ro := 0xFFFFFFFF },
  { name := "WPn_SIM", base := 0x585020, dims := [(4, 0x1000)], rw := 0xFFFFFFFF, kept := 0xFFFFFFFF }]

/-- Rows of the TIM block (WPn_STALL to LTGb_CMT_STAT). -/
def rowsTim1 : List RegRow := [
  { name := "WPn_STALL", base := 0x585024, dims := [(4, 0x1000)], rw := 0xFFFF, kept := 0xFFFF, rst := 0x3E8 },
  { name := "WPn_CNT_ERR", base := 0x585028, dims := [(4, 0x1000)], rc := 0xFFFFFFFF },
  { name := "WPn_EVT", base := 0x58502C, dims := [(4, 0x1000)], w1c := 0x1F },
  { name := "WPn_EVT_EN", base := 0x585030, dims := [(4, 0x1000)], rw := 0x1F, kept := 0x1F, rst := 3 },
  { name := "PIk_CTL", base := 0x589000, dims := [(4, 0x1000)], rw := 0xFF77, kept := 0xFF77 },
  { name := "PIk_PRIO", base := 0x589004, dims := [(4, 0x1000)], rw := 0xFFFFFFFF, kept := 0xFFFFFFFF, rst := 0xFEF880F8 },
  { name := "PIk_VAR", base := 0x589008, dims := [(4, 0x1000)], rw := 0xFFFF, kept := 0xFFFF, rst := 0xFFFF },
  { name := "PIk_INTV", base := 0x58900C, dims := [(4, 0x1000)], rw := 0xFFFFFFFF, kept := 0xFFFFFFFF, rst := 0x30000FD },
  { name := "PIk_CLKID_LO, _HI", base := 0x589010, dims := [(4, 0x1000), (2, 4)], rw := 0xFFFFFFFF, kept := 0xFFFFFFFF },
  { name := "PIk_GM_LO, _HI", base := 0x589018, dims := [(4, 0x1000), (2, 4)], ro := 0xFFFFFFFF },
  { name := "PIk_GM_INFO", base := 0x589020, dims := [(4, 0x1000)], ro := 0xFFFFFFFF },
  { name := "PIk_CNT_MGMT", base := 0x589024, dims := [(4, 0x1000)], rc := 0xFFFFFFFF },
  { name := "PTPp_CTL", base := 0x58D000, dims := [(4, 0x1000)], rw := 0x377, kept := 0x377 },
  { name := "PTPp_STATUS", base := 0x58D004, dims := [(4, 0x1000)], ro := 0x1F },
  { name := "PTPp_ASYM", base := 0x58D008, dims := [(4, 0x1000)], rw := 0xFFFFFFFF, kept := 0xFFFFFFFF },
  { name := "PTPp_INGRESS, _EGRESS", base := 0x58D00C, dims := [(4, 0x1000), (2, 4)], rw := 0xFFFFFF, kept := 0xFFFFFF },
  { name := "PTPp_DELAY", base := 0x58D014, dims := [(4, 0x1000)], ro := 0xFFFFFFFF },
  { name := "PTPp_DELAY_RAW", base := 0x58D018, dims := [(4, 0x1000)], ro := 0xFFFFFFFF },
  { name := "PTPp_DS", base := 0x58D01C, dims := [(4, 0x1000)], rw := 0xFFFFFFFF, kept := 0xFFFFFFFF, rst := 0xC80032 },
  { name := "PTPp_DW", base := 0x58D020, dims := [(4, 0x1000)], rw := 0xF, kept := 0xF, rst := 4 },
  { name := "PTPp_CNT_TX, _RX, _DISCARD, _DS", base := 0x58D024, dims := [(4, 0x1000), (4, 4)], rc := 0xFFFFFFFF },
  { name := "LTGb_CTL", base := 0x591000, dims := [(4, 0x1000)], rws := 0x33, kept := 0x33 },
  { name := "LTGb_COMMIT", base := 0x591004, dims := [(4, 0x1000)], wo := 0x1FFFF },
  { name := "LTGb_CMT_STAT", base := 0x591008, dims := [(4, 0x1000)], ro := 0x3FFFF }]

/-- Rows of the TIM block (LTGb_PITCH to TIM_GPIOi_EVT_EN). -/
def rowsTim2 : List RegRow := [
  { name := "LTGb_PITCH", base := 0x59100C, dims := [(4, 0x1000)], rws := 0xFFFFFFFF, kept := 0xFFFFFFFF, rst := 0x10000 },
  { name := "LTGb_ORIGIN_LO, _HI", base := 0x591010, dims := [(4, 0x1000), (2, 4)], rws := 0xFFFFFFFF, kept := 0xFFFFFFFF },
  { name := "LTGb_PERIOD", base := 0x591018, dims := [(4, 0x1000)], rws := 0xFFFFFF, kept := 0xFFFFFF, rst := 0x1388 },
  { name := "LTGb_MIN_PERIOD", base := 0x59101C, dims := [(4, 0x1000)], rws := 0xFFFF, kept := 0xFFFF, rst := 0x1388 },
  { name := "LTGb_CNT_TRIG_LO, _HI", base := 0x591020, dims := [(4, 0x1000), (2, 4)], ro := 0xFFFFFFFF },
  { name := "LTGb_CNT_MISSING, _SKIP", base := 0x591028, dims := [(4, 0x1000), (2, 4)], rc := 0xFFFFFFFF },
  { name := "LTGb_EVT", base := 0x591030, dims := [(4, 0x1000)], w1c := 7 },
  { name := "LTGb_EVT_EN", base := 0x591034, dims := [(4, 0x1000)], rw := 7, kept := 7, rst := 3 },
  { name := "TIM_GPIOi_CTL", base := 0x595000, dims := [(16, 0x1000)], rw := 0xFFFF03F3, kept := 0xFFFF03F3, rst := 0x64000000 },
  { name := "TIM_GPIOi_STATUS", base := 0x595004, dims := [(16, 0x1000)], ro := 0x1F },
  { name := "TIM_GPIOi_CAP_TIME_LO", base := 0x595008, dims := [(16, 0x1000)], rc := 0xFFFFFFFF },
  { name := "TIM_GPIOi_CAP_TIME_HI", base := 0x59500C, dims := [(16, 0x1000)], ro := 0xFFFFFFFF },
  { name := "TIM_GPIOi_CAP_INFO", base := 0x595010, dims := [(16, 0x1000)], ro := 0xFFFFFFFF },
  { name := "TIM_GPIOi_CAP_WP_LO, _HI", base := 0x595014, dims := [(16, 0x1000), (2, 4)], ro := 0xFFFFFFFF },
  { name := "TIM_GPIOi_CNT_OVF", base := 0x59501C, dims := [(16, 0x1000)], rc := 0xFFFFFFFF },
  { name := "TIM_GPIOi_EVT", base := 0x595020, dims := [(16, 0x1000)], w1c := 3 },
  { name := "TIM_GPIOi_EVT_EN", base := 0x595024, dims := [(16, 0x1000)], rw := 3, kept := 3, rst := 2 }]

/-- All rows of the TIM block. -/
def rowsTim : List RegRow := rowsTim0 ++ rowsTim1 ++ rowsTim2

/-- Rows of the LAKE block (LAKE_CTL to LAKE_CHc_PRESS). -/
def rowsLake0 : List RegRow := [
  { name := "LAKE_CTL", base := 0x5C0000, rw := 0x77, kept := 0x77, rst := 0x77 },
  { name := "LAKE_STATUS", base := 0x5C0004, ro := 0xFE000FFF },
  { name := "LAKE_CMD", base := 0x5C0008, wo := 0x80000FFF },
  { name := "LAKE_CAP_LO", base := 0x5C000C, ro := 0xFFFFFFFF },
  { name := "LAKE_CAP_HI", base := 0x5C0010, ro := 0xFFFFFFFF },
  { name := "LAKE_SCRUB_PERIOD", base := 0x5C0014, rw := 0xFF, kept := 0xFF, rst := 0x18 },
  { name := "LAKE_SCRUB_POS", base := 0x5C0018, ro := 0xFFFF },
  { name := "LAKE_SCRUB_PASSES", base := 0x5C001C, ro := 0xFFFFFFFF },
  { name := "LAKE_RETRAIN", base := 0x5C0020, rw := 0xFFFF00FF, kept := 0xFFFF00FF, rst := 0x3C000A },
  { name := "LAKE_CE_WM", base := 0x5C0024, rw := 0xFFFFFFFF, kept := 0xFFFFFFFF, rst := 0x3E8 },
  { name := "LAKE_EVT", base := 0x5C0028, w1c := 0xFF },
  { name := "LAKE_EVT_EN", base := 0x5C002C, rw := 0xFF, kept := 0xFF, rst := 0xBF },
  { name := "LAKE_CNT_FENCE", base := 0x5C0030, rc := 0xFFFFFFFF },
  { name := "LAKE_LOG", base := 0x5C0034, ro := 0xFF0F0101 },
  { name := "LAKE_ERRLOG_PTR", base := 0x5C0038, ro := 0xF },
  { name := "LAKE_ERRLOGe", base := 0x5C0100, dims := [(16, 0x10), (4, 4)], ro := 0xFFFFFFFF },
  { name := "LAKE_REGr", base := 0x5C0800, dims := [(64, 0x20), (5, 4)], ro := 0xFFFFFFFF },
  { name := "LAKE_CHc_STATUS", base := 0x5C1000, dims := [(12, 0x100)], ro := 0xF0FF07 },
  { name := "LAKE_CHc_CNT_CE", base := 0x5C1004, dims := [(12, 0x100)], rc := 0xFFFFFFFF },
  { name := "LAKE_CHc_CNT_UE", base := 0x5C1008, dims := [(12, 0x100)], rc := 0xFFFFFFFF },
  { name := "LAKE_CHc_TRIM", base := 0x5C100C, dims := [(12, 0x100)], rw := 0xFFFF, kept := 0xFFFF },
  { name := "LAKE_CHc_TRIM_WIN", base := 0x5C1010, dims := [(12, 0x100)], rw := 0x30FFFF00, kept := 0x30FFFF00, rst := 0xE02000 },
  { name := "LAKE_CHc_TRIM_WANT", base := 0x5C1014, dims := [(12, 0x100)], ro := 0xFFFF },
  { name := "LAKE_CHc_PRESS", base := 0x5C1018, dims := [(12, 0x100)], rc := 0xFFFFFFFF }]

/-- Rows of the LAKE block (LAKE_CHc_STEPS to LAKE_APs_STAT). -/
def rowsLake1 : List RegRow := [
  { name := "LAKE_CHc_STEPS", base := 0x5C101C, dims := [(12, 0x100)], rc := 0xFFFFFFFF },
  { name := "LAKE_APs_BASE_LO", base := 0x5C2000, dims := [(8, 0x1000)], rw := 0xFFFFC000 },
  { name := "LAKE_APs_BASE_HI", base := 0x5C2004, dims := [(8, 0x1000)], rw := 0xFFFFFFFF },
  { name := "LAKE_APs_STAT", base := 0x5C2008, dims := [(8, 0x1000)], ro := 0xFFFF0001 }]

/-- All rows of the LAKE block. -/
def rowsLake : List RegRow := rowsLake0 ++ rowsLake1

/-- Rows of the PND block (PND_STATUS to PND_p_RESETS). -/
def rowsPnd : List RegRow := [
  { name := "PND_STATUS", base := 0x600000, ro := 0x1FF },
  { name := "PND_EVT", base := 0x600004, w1c := 1 },
  { name := "PND_EVT_EN", base := 0x600008, rw := 1, kept := 1, rst := 1 },
  { name := "PND_CNT_RESETS", base := 0x60000C, rc := 0xFFFFFFFF },
  { name := "PND_INJECT", base := 0x600010, wo := 0xFFFF00FF },
  { name := "PND_p_INFO", base := 0x601000, dims := [(212, 0x10)], ro := 0xC1FFFFFF },
  { name := "PND_p_FILL", base := 0x601004, dims := [(212, 0x10)], ro := 0x1FFFFFF },
  { name := "PND_p_PEAK", base := 0x601008, dims := [(212, 0x10)], rc := 0x1FFFFFF },
  { name := "PND_p_RESETS", base := 0x60100C, dims := [(212, 0x10)], rc := 0xFFFFFFFF }]

/-- Rows of the CRC block (CRCk_CTL to CRCk_EVT_EN). -/
def rowsCrc : List RegRow := [
  { name := "CRCk_CTL", base := 0x620000, dims := [(16, 0x100)], rw := 0x133F, rst := 0x31F },
  { name := "CRCk_CMD", base := 0x620004, dims := [(16, 0x100)], wo := 0xF },
  { name := "CRCk_STATUS", base := 0x620008, dims := [(16, 0x100)], ro := 0xF0000003 },
  { name := "CRCk_DATA", base := 0x62000C, dims := [(16, 0x100)], wo := 0xFFFFFFFF },
  { name := "CRCk_POLY_LO", base := 0x620010, dims := [(16, 0x100)], rw := 0xFFFFFFFF, rst := 0x1EDC6F41 },
  { name := "CRCk_POLY_HI", base := 0x620014, dims := [(16, 0x100)], rw := 0xFFFFFFFF },
  { name := "CRCk_INIT_LO", base := 0x620018, dims := [(16, 0x100)], rw := 0xFFFFFFFF, rst := 0xFFFFFFFF },
  { name := "CRCk_INIT_HI", base := 0x62001C, dims := [(16, 0x100)], rw := 0xFFFFFFFF },
  { name := "CRCk_XOROUT_LO", base := 0x620020, dims := [(16, 0x100)], rw := 0xFFFFFFFF, rst := 0xFFFFFFFF },
  { name := "CRCk_XOROUT_HI", base := 0x620024, dims := [(16, 0x100)], rw := 0xFFFFFFFF },
  { name := "CRCk_VAL_LO", base := 0x620028, dims := [(16, 0x100)], rw := 0xFFFFFFFF, rst := 0xFFFFFFFF },
  { name := "CRCk_VAL_HI", base := 0x62002C, dims := [(16, 0x100)], rw := 0xFFFFFFFF },
  { name := "CRCk_RESULT_LO", base := 0x620030, dims := [(16, 0x100)], ro := 0xFFFFFFFF },
  { name := "CRCk_RESULT_HI", base := 0x620034, dims := [(16, 0x100)], ro := 0xFFFFFFFF },
  { name := "CRCk_ALIVE", base := 0x620038, dims := [(16, 0x100)], rw := 0xFFFF },
  { name := "CRCk_BYTES", base := 0x62003C, dims := [(16, 0x100)], rw := 0xFFFFFFFF },
  { name := "CRCk_LAKE_LO", base := 0x620040, dims := [(16, 0x100)], rw := 0xFFFFFFFF },
  { name := "CRCk_LAKE_HI", base := 0x620044, dims := [(16, 0x100)], rw := 0xFFFFFFFF },
  { name := "CRCk_LAKE_LEN", base := 0x620048, dims := [(16, 0x100)], rw := 0xFFFFFFFF },
  { name := "CRCk_EVT", base := 0x62004C, dims := [(16, 0x100)], w1c := 7 },
  { name := "CRCk_EVT_EN", base := 0x620050, dims := [(16, 0x100)], rw := 7, kept := 7, rst := 6 }]

/-- Rows of the CTL block (CTL_STATUS to STL_s_SESSj). -/
def rowsCtl0 : List RegRow := [
  { name := "CTL_STATUS", base := 0x640000, ro := 0x13F },
  { name := "CTL_VERSION", base := 0x640004, ro := 0xFFFF, rst := 0x2310 },
  { name := "CTL_PORT", base := 0x640008, rw := 0xFFFF, kept := 0xFFFF, rst := 0x5848 },
  { name := "CTL_SESS_TMO", base := 0x64000C, rw := 0xFFFF, kept := 0xFFFF, rst := 0x2710 },
  { name := "CTL_ACC_TMO", base := 0x640010, rw := 0xFFFF, kept := 0xFFFF, rst := 0x64 },
  { name := "CTL_LONG_TMO", base := 0x640014, rw := 0xFFFF, kept := 0xFFFF, rst := 0x3E8 },
  { name := "CTL_RESET", base := 0x640018, wo := 0xFFFF0001 },
  { name := "CTL_CNT_AUTH", base := 0x64001C, rc := 0xFFFFFFFF },
  { name := "CTL_CNT_REPLAY", base := 0x640020, rc := 0xFFFFFFFF },
  { name := "CTL_CNT_BADMSG", base := 0x640024, rc := 0xFFFFFFFF },
  { name := "CTL_EVT", base := 0x640028, w1c := 3 },
  { name := "CTL_EVT_EN", base := 0x64002C, rw := 3, kept := 3, rst := 1 },
  { name := "STL_s_STATUS", base := 0x641000, dims := [(8, 0x1000)], ro := 0x1FF7 },
  { name := "STL_s_RESET", base := 0x641004, dims := [(8, 0x1000)], w1s := 1 },
  { name := "STL_s_GRP_RESET", base := 0x641008, dims := [(8, 0x1000)], wo := 0xFFF },
  { name := "STL_s_CPL_COUNT", base := 0x64100C, dims := [(8, 0x1000)], ro := 0x1F },
  { name := "STL_s_CPL0", base := 0x641010, dims := [(8, 0x1000)], rc := 0xFFFFFFFF },
  { name := "STL_s_CPL1-STL_s_CPL3", base := 0x641014, dims := [(8, 0x1000), (3, 4)], ro := 0xFFFFFFFF },
  { name := "STL_s_PWLOG_PTR", base := 0x641020, dims := [(8, 0x1000)], ro := 0xF },
  { name := "STL_s_PWLOG_CNT", base := 0x641024, dims := [(8, 0x1000)], rc := 0xFFFFFFFF },
  { name := "STL_s_EVT", base := 0x641028, dims := [(8, 0x1000)], w1c := 0x1F },
  { name := "STL_s_EVT_EN", base := 0x64102C, dims := [(8, 0x1000)], rw := 0x1F, kept := 0x1F, rst := 3 },
  { name := "STL_s_CNT_NOTIFY_LOST", base := 0x641030, dims := [(8, 0x1000)], rc := 0xFFFFFFFF },
  { name := "STL_s_SESSj", base := 0x641040, dims := [(8, 0x1000), (4, 8), (2, 4)], ro := 0xFFFFFFFF }]

/-- Rows of the CTL block (STL_s_KEY_STAGE0 to BRG_EVT_EN). -/
def rowsCtl1 : List RegRow := [
  { name := "STL_s_KEY_STAGE0-7", base := 0x641080, dims := [(8, 0x1000), (8, 4)], wo := 0xFFFFFFFF },
  { name := "STL_s_KEY_CMD", base := 0x6410A0, dims := [(8, 0x1000)], w1s := 3 },
  { name := "STL_s_PWLOGe", base := 0x641100, dims := [(8, 0x1000), (16, 0x10), (4, 4)], ro := 0xFFFFFFFF },
  { name := "STL_s_WINMAPj", base := 0x641800, dims := [(8, 0x1000), (128, 4)], ro := 0xFFFFFFFF },
  { name := "BRG_STATUS", base := 0x649000, ro := 0x7F3F, rst := 0x4000 },
  { name := "BRG_CNT_SIZE", base := 0x649004, rc := 0xFFFFFFFF },
  { name := "BRG_CNT_ALIGN", base := 0x649008, rc := 0xFFFFFFFF },
  { name := "BRG_CNT_PERM", base := 0x64900C, rc := 0xFFFFFFFF },
  { name := "BRG_CNT_TMO", base := 0x649010, rc := 0xFFFFFFFF },
  { name := "BRG_CNT_LATE", base := 0x649014, rc := 0xFFFFFFFF },
  { name := "BRG_EVT", base := 0x649018, w1c := 1 },
  { name := "BRG_EVT_EN", base := 0x64901C, rw := 1, kept := 1, rst := 1 }]

/-- All rows of the CTL block. -/
def rowsCtl : List RegRow := rowsCtl0 ++ rowsCtl1

/-- Rows of the EVC block (EVC_STATUS to EVC_Tt_PEND0). -/
def rowsEvc0 : List RegRow := [
  { name := "EVC_STATUS", base := 0x680000, ro := 0x3FF0001 },
  { name := "EVC_HOLD", base := 0x680004, rw := 1 },
  { name := "EVC_EVT", base := 0x680008, w1c := 0xF },
  { name := "EVC_EVT_EN", base := 0x68000C, rw := 0xF, kept := 0xF, rst := 1 },
  { name := "EVC_FAULT_LOG", base := 0x680010, ro := 0xFF1F03FF },
  { name := "EVC_CNT_FAULT", base := 0x680014, rc := 0xFFFFFFFF },
  { name := "EVC_SW_SET", base := 0x680018, wo := 0x3FF },
  { name := "EVC_CNT_SW_DENIED", base := 0x68001C, rc := 0xFFFFFFFF },
  { name := "EVC_LATCHED", base := 0x680020, ro := 0xFFFFF },
  { name := "EVC_Tt_CTL", base := 0x681000, dims := [(20, 0x100)], rw := 3 },
  { name := "EVC_Tt_STATUS", base := 0x681004, dims := [(20, 0x100)], ro := 0xF11F1F0F },
  { name := "EVC_Tt_MOD", base := 0x681008, dims := [(20, 0x100)], rw := 0xFFFFFF, kept := 0xFFFFFF, rst := 0xA },
  { name := "EVC_Tt_WAKE", base := 0x68100C, dims := [(20, 0x100)], rw := 0xFFFF331F, kept := 0xFFFF331F, rst := 0x640010 },
  { name := "EVC_Tt_WOL_MAC_HI", base := 0x681010, dims := [(20, 0x100)], rw := 0xFFFF, kept := 0xFFFF },
  { name := "EVC_Tt_WOL_MAC_LO", base := 0x681014, dims := [(20, 0x100)], rw := 0xFFFFFFFF, kept := 0xFFFFFFFF },
  { name := "EVC_Tt_RENOTIFY", base := 0x681018, dims := [(20, 0x100)], rw := 0xFFFF, kept := 0xFFFF, rst := 0x64 },
  { name := "EVC_Tt_TAKE", base := 0x68101C, dims := [(20, 0x100)], wo := 0x3FF },
  { name := "EVC_Tt_DONE", base := 0x681020, dims := [(20, 0x100)], wo := 0x3FF },
  { name := "EVC_Tt_STACK_TOP", base := 0x681024, dims := [(20, 0x100)], ro := 0x800F03FF },
  { name := "EVC_Tt_NOTE", base := 0x681028, dims := [(20, 0x100)], ro := 0xFFFFFFFF },
  { name := "EVC_Tt_CNT_REFUSED", base := 0x68102C, dims := [(20, 0x100)], rc := 0xFFFFFFFF },
  { name := "EVC_Tt_CNT_NOTIFY", base := 0x681030, dims := [(20, 0x100)], rc := 0xFFFFFFFF },
  { name := "EVC_Tt_STACK0-EVC_Tt_STACK15", base := 0x681040, dims := [(20, 0x100), (16, 4)], ro := 0x800F03FF },
  { name := "EVC_Tt_PEND0-EVC_Tt_PEND23", base := 0x681080, dims := [(20, 0x100), (24, 4)], w1c := 0xFFFFFFFF }]

/-- Rows of the EVC block (EVC_SRCn_CFG to EVC_SRCn_STAT). -/
def rowsEvc1 : List RegRow := [
  { name := "EVC_SRCn_CFG", base := 0x684000, dims := [(768, 8)], rw := 0x1EFFFFFF, ro := 0x1000000, kept := 0x1E000000 },
  { name := "EVC_SRCn_STAT", base := 0x684004, dims := [(768, 8)], rw := 0xFF, ro := 0xF9F00000, kept := 0xFF }]

/-- All rows of the EVC block. -/
def rowsEvc : List RegRow := rowsEvc0 ++ rowsEvc1

/-- Rows of the TRN block (TRN_STATE to TRN_CNT_WAKE). -/
def rowsTrn : List RegRow := [
  { name := "TRN_STATE", base := 0x6C0000, ro := 0x3FF7F10F },
  { name := "TRN_CMD", base := 0x6C0004, wo := 0xF },
  { name := "TRN_CMD_STAT", base := 0x6C0008, ro := 0xF000000F },
  { name := "TRN_WAKE_CFG", base := 0x6C000C, rw := 7, kept := 7, rst := 7 },
  { name := "TRN_POWER_CFG", base := 0x6C0010, rw := 3, kept := 3, rst := 3 },
  { name := "TRN_PUP_TMO", base := 0x6C0014, rw := 0xFF, kept := 0xFF, rst := 0xA },
  { name := "TRN_TMR0_CTL, TRN_TMR1_CTL", base := 0x6C0020, dims := [(2, 0x10)], rw := 3 },
  { name := "TRN_TMR0_LOAD, TRN_TMR1_LOAD", base := 0x6C0024, dims := [(2, 0x10)], rw := 0xFFFFFFFF, kept := 0xFFFFFFFF },
  { name := "TRN_TMR0_NOW, TRN_TMR1_NOW", base := 0x6C0028, dims := [(2, 0x10)], ro := 0xFFFFFFFF },
  { name := "TRN_EVT", base := 0x6C0040, w1c := 0x1F },
  { name := "TRN_EVT_EN", base := 0x6C0044, rw := 0x1F, kept := 0x1F, rst := 0x1E },
  { name := "TRN_TMR_EVT", base := 0x6C0048, w1c := 3 },
  { name := "TRN_TMR_EVT_EN", base := 0x6C004C, rw := 3, kept := 3, rst := 3 },
  { name := "TRN_REQ_EVT", base := 0x6C0050, w1c := 7 },
  { name := "TRN_REQ_EVT_EN", base := 0x6C0054, rw := 6, ro := 1, kept := 7, rst := 7 },
  { name := "TRN_CNT_WAKE", base := 0x6C0058, rc := 0xFFFFFFFF }]

/-- Rows of the KEEP block (KEEP_STATUS to KEEP_RECk). -/
def rowsKeep : List RegRow := [
  { name := "KEEP_STATUS", base := 0x6E0000, ro := 0x3F },
  { name := "KEEP_CMD", base := 0x6E0004, wo := 0xF },
  { name := "KEEP_AUTO", base := 0x6E0008, rw := 0xFFFF, kept := 0xFFFF, rst := 0x3E8 },
  { name := "KEEP_VERIFY", base := 0x6E000C, rw := 0xFF, kept := 0xFF, rst := 0x18 },
  { name := "KEEP_EVT", base := 0x6E0010, w1c := 0xF },
  { name := "KEEP_EVT_EN", base := 0x6E0014, rw := 0xF, kept := 0xF, rst := 0xE },
  { name := "KEEP_CNT_BAD", base := 0x6E0018, rc := 0xFFFFFFFF },
  { name := "KEEP_CNT_COMMIT", base := 0x6E001C, rc := 0xFFFFFFFF },
  { name := "KEEP_BANK0_WR, KEEP_BANK1_WR", base := 0x6E0020, dims := [(2, 4)], ro := 0xFFFFFFFF },
  { name := "KEEP_RECk", base := 0x6E0100, dims := [(8, 0x10), (4, 4)], ro := 0xFFFFFFFF }]

/-- Rows of the TEL block (TEL_PERIOD to TEL_Vj_LIM). -/
def rowsTel : List RegRow := [
  { name := "TEL_PERIOD", base := 0x700000, rw := 0xFFFF, kept := 0xFFFF, rst := 0x3E8 },
  { name := "TEL_POWER", base := 0x700004, ro := 0xFFFFF },
  { name := "TEL_POWER_LIM", base := 0x700008, rw := 0xFFFFF, kept := 0xFFFFF, rst := 0x13880 },
  { name := "TEL_TRIP", base := 0x70000C, ro := 0xFFFF, rst := 0xA00 },
  { name := "TEL_EVT", base := 0x700010, w1c := 3 },
  { name := "TEL_EVT_EN", base := 0x700014, rw := 3, kept := 3, rst := 2 },
  { name := "TEL_THERM_EVT", base := 0x700018, w1c := 0xFFFF },
  { name := "TEL_THERM_EVT_EN", base := 0x70001C, rw := 0xFFFF, kept := 0xFFFF, rst := 0xFFFF },
  { name := "TEL_SUP_EVT", base := 0x700020, w1c := 0xFFFFFF },
  { name := "TEL_SUP_EVT_EN", base := 0x700024, rw := 0xFFFFFF, kept := 0xFFFFFF, rst := 0xFFFFFF },
  { name := "TEL_Ti", base := 0x700100, dims := [(16, 8)], ro := 0xFFFF },
  { name := "TEL_Ti_ALARM", base := 0x700104, dims := [(16, 8)], rw := 0xFFFF, kept := 0xFFFF, rst := 0x8C0 },
  { name := "TEL_Vj", base := 0x700200, dims := [(24, 8)], ro := 0xFFFF },
  { name := "TEL_Vj_LIM", base := 0x700204, dims := [(24, 8)], rw := 0xFFFFFFFF, kept := 0xFFFFFFFF }]

/-- The rows of the block whose range holds an address. -/
def rowsAt (a : Nat) : List RegRow :=
  if a < 0x10000 then rowsGlb
  else if a < 0x20000 then rowsSic
  else if a < 0x180000 then rowsSpr
  else if a < 0x1A0000 then rowsTwb
  else if a < 0x210000 then rowsSeam
  else if a < 0x290000 then rowsLe
  else if a < 0x310000 then rowsCor
  else if a < 0x410000 then rowsFrm
  else if a < 0x430000 then rowsExp
  else if a < 0x458000 then rowsTal
  else if a < 0x485000 then rowsOut
  else if a < 0x502000 then rowsXpt
  else if a < 0x544000 then rowsEth
  else if a < 0x5A5000 then rowsTim
  else if a < 0x5F0000 then rowsLake
  else if a < 0x602000 then rowsPnd
  else if a < 0x621000 then rowsCrc
  else if a < 0x64A000 then rowsCtl
  else if a < 0x685800 then rowsEvc
  else if a < 0x6E0000 then rowsTrn
  else if a < 0x700000 then rowsKeep
  else if a < 0x740000 then rowsTel
  else []

/-- All rows. -/
def allRows : List RegRow :=
  rowsGlb ++ rowsSic ++ rowsSpr ++ rowsTwb ++ rowsSeam ++ rowsLe ++ rowsCor ++ rowsFrm ++ rowsExp ++ rowsTal ++ rowsOut ++ rowsXpt ++ rowsEth ++ rowsTim ++ rowsLake ++ rowsPnd ++ rowsCrc ++ rowsCtl ++ rowsEvc ++ rowsTrn ++ rowsKeep ++ rowsTel

end Sys2Proof.Machine
end

