-- ==== Sys2Proof/Machine/Regs.lean ====
section
/-! DEFINITION. The register tables as functions of the address: the row of an address, its reset value and its masks. -/

namespace Sys2Proof.Machine
open Sys2Proof

/-- An offset lies on one register of a row with these families. -/
def covers : List (Nat × Nat) → Nat → Bool
  | [], r => r == 0
  | (c, st) :: ds, r => decide (r / st < c) && covers ds (r % st)

/-- The row of a register summary table that an address falls on. -/
def rowOf (a : Nat) : Option RegRow := (rowsAt a).find? (fun r => decide (r.base ≤ a) && covers r.dims (a - r.base))

/-- Factory limits of TEL_Vj_LIM (Table 16.4): HIGH in the upper half, LOW in the lower. -/
def supplyLimits (j : Nat) : Nat × Nat :=
  if j < 12 then (855, 945) else if j < 18 then (1140, 1260) else if j < 22 then (1045, 1155) else (1710, 1890)

/-- Fail threshold of supply monitor j, mV (Table 16.4). -/
def supplyFailMv (j : Nat) : Nat := if j < 12 then 810 else if j < 18 then 1080 else if j < 22 then 990 else 1620

/-- The HI (offset 0) or LO (offset 4) word of a MAC in the layout of Table 10.9. -/
def macWord (m : BitVec 48) (off : Nat) : Word := if off = 0 then wd (m.toNat / 2 ^ 32) else wd m.toNat

/-- The LO (offset 0) or HI (offset 4) word of the clockIdentity made from a MAC: FF FE between its halves, as an EUI-64 (Table 12.10;
PRESUMED from IEEE 1588). -/
def clkIdWord (m : BitVec 48) (off : Nat) : Word :=
  let v := m.toNat / 2 ^ 24 * 2 ^ 40 + 0xFFFE * 2 ^ 24 + m.toNat % 2 ^ 24
  if off = 0 then wd v else wd (v / 2 ^ 32)

/-- Reset values that differ from one register of a family to the next (R9). -/
def resetOverride (a : Nat) : Option Word :=
  if 0x300100 ≤ a ∧ a < 0x300180 then some (wd ((a - 0x300100) / 4 * 0x8000))
  else if 0x700200 ≤ a ∧ a < 0x7002C0 ∧ (a - 0x700200) % 8 = 4 then
    let l := supplyLimits ((a - 0x700200) / 8); some (wd (l.2 * 65536 + l.1))
  else if 0x684000 ≤ a ∧ a < 0x685800 then
    let n := (a - 0x684000) / 8
    if (a - 0x684000) % 8 = 0 then (if 243 ≤ n ∧ n ≤ 246 then some (wd 0x08800000) else some (wd 0x00800000))
    else (if 256 ≤ n ∧ n ≤ 275 then some 4#32 else some 0#32)
  else if 0x208000 ≤ a ∧ a < 0x20A000 then some (factoryWord seamFactory ((a - 0x208000) / 4 % 1024))
  else if 0x484000 ≤ a ∧ a < 0x484800 then some (factoryWord hFactory ((a - 0x484000) / 4))
  else if 0x484800 ≤ a ∧ a < 0x484C00 then some (factoryWord vFactory ((a - 0x484800) / 4))
  else if 0x10100 ≤ a ∧ a < 0x10120 then some (Config.aelzenKey ((a - 0x10100) / 4))
  else if 0x540100 ≤ a ∧ a < 0x544000 ∧ (a % 0x80 = 0 ∨ a % 0x80 = 4) ∧ 0x100 ≤ a % 0x1000 ∧ a % 0x1000 < 0x300 then
    let p := (a - 0x540000) / 0x1000
    let l := (a % 0x1000 - 0x100) / 0x80
    if p < 2 ∨ l = 0 then some (macWord (Config.linkMac 0 (if p < 2 then 4 * p + l else 6 + p)) (a % 0x80)) else none
  else if 0x589010 ≤ a ∧ a < 0x58D010 ∧ ((a - 0x589010) % 0x1000 = 0 ∨ (a - 0x589010) % 0x1000 = 4) then
    some (clkIdWord (Config.linkMac 0 0) ((a - 0x589010) % 0x1000))
  else if a = 0x10 then some (Config.dieId 0)
  else if a = 0x14 then some (Config.dieId 1)
  else none

/-- The Reset column of an address (R9); an address without a register reads 0 (R7). -/
def regDef (a : Nat) : Word :=
  match resetOverride a with
  | some w => w
  | none => match rowOf a with
    | some r => wd r.rst
    | none => 0#32

/-- Registers that the SYSTEM record holds: the public keys, their locks and the floor. No Kept value of an image or of the KEPT record
changes them (R36, R37, R404, Table 16.5). -/
def sysReg (a : Nat) : Bool := a == 0x1004C || (decide (0x10100 ≤ a) && decide (a < 0x10180)) || a == 0x101A0

/-- Fields with a stated range of values: the register's row, the field's bits, its least and its greatest value. Ranges that a write
saturates to are in `saturate`. -/
def statedRanges : List (Nat × Nat × Nat × Nat × Nat) := [
  (A.sicCommitTmo, 31, 0, 1, 600000), (A.sicProbeTmo, 31, 0, 1, 3600000), (A.sicDrainTmo, 31, 0, 1, 10000),
  (A.sprPhyCfg 0, 13, 0, 80, 9000), (A.sprPhyCfg 0, 23, 16, 1, 255), (A.sprDskWin 0 0, 19, 16, 1, 15), (A.sprLineLen 0, 15, 0, 0, 32767),
  (A.sprAsmTmo 0, 15, 0, 1, 65535), (A.sprTrigCtl 0, 31, 16, 1, 65535), (A.sprXrst 0, 31, 16, 1, 65535),
  (A.twbTmo 0, 31, 16, 1, 65535), (A.twbTmo 0, 15, 0, 1, 65535), (A.seamBarSrch 0, 3, 0, 1, 8), (A.seamBarsBlend 0 0, 25, 16, 1, 512),
  (A.leUtilWin, 15, 0, 1, 65535), (A.corTnrCtl 0, 30, 24, 1, 64), (A.corTnrCtl 0, 18, 16, 1, 6), (A.corTnrCtl 0, 11, 8, 1, 8),
  (A.outCropW 0, 17, 0, 1, 196608), (A.outHstep 0, 21, 0, 65536, 2097152), (A.outVstep 0, 21, 0, 65536, 2097152), (A.outDec 0, 8, 0, 1, 256),
  (A.mktLinkHold, 7, 0, 1, 255), (A.mktFailback, 15, 0, 1, 65535), (A.mktPfcWd, 15, 0, 1, 65535), (A.xptRto 0, 15, 0, 1, 65535),
  (A.xptSilent 0, 15, 0, 1, 65535), (A.xptCtl 0, 31, 24, 1, 255), (A.lakeScrubPeriod, 7, 0, 1, 168), (A.lakeRetrain, 31, 16, 1, 65535),
  (A.lakeRetrain, 7, 0, 1, 255), (A.tbThr 0, 31, 16, 1, 65535), (A.tbThr 0, 15, 0, 1, 65535), (A.wpStall 0, 15, 0, 1, 65535),
  (A.ltgPeriod 0, 23, 0, 1000, 16777215), (A.ltgMinPeriod 0, 15, 0, 1000, 65535), (A.gpioCtl 0, 31, 24, 1, 255),
  (A.ctlSessTmo, 15, 0, 1, 65535), (A.evctWake 0, 31, 16, 1, 65535), (A.trnPupTmo, 7, 0, 1, 255), (A.keepVerify, 7, 0, 1, 168)]

/-- An address lies in a block range (R400). -/
def inBlock (a : Nat) : Bool :=
  (a < 0x10200) || (0x100000 ≤ a && a < 0x180000) || (0x180000 ≤ a && a < 0x190100) ||
  (0x200000 ≤ a && a < 0x20C000) || (0x280000 ≤ a && a < 0x281C00) || (0x300000 ≤ a && a < 0x30D000) ||
  (0x400000 ≤ a && a < 0x400C00) || (0x410000 ≤ a && a < 0x430000) || (0x440000 ≤ a && a < 0x458000) ||
  (0x480000 ≤ a && a < 0x485000) || (0x500000 ≤ a && a < 0x502000) || (0x540000 ≤ a && a < 0x544000) ||
  (0x580000 ≤ a && a < 0x5A5000) || (0x5C0000 ≤ a && a < 0x5F0000) || (0x600000 ≤ a && a < 0x601D40) ||
  (0x620000 ≤ a && a < 0x621000) || (0x640000 ≤ a && a < 0x64A000) || (0x680000 ≤ a && a < 0x685800) ||
  (0x6C0000 ≤ a && a < 0x740000)

/-- The new value of a register written with `v` by the type codes of Table 0.3: RW bits are replaced, W1C bits that are
written 1 clear, W1S bits that are written 1 set; RO, RC, WO and reserved bits keep what they hold (R3, R6). -/
def writeByCodes (r : RegRow) (old v : Word) : Word :=
  let o := old.toNat
  let x := v.toNat
  let keep := o &&& (0xFFFFFFFF ^^^ (r.rw ||| r.w1c ||| r.w1s))
  wd (keep ||| (x &&& r.rw) ||| ((o &&& r.w1c) &&& (0xFFFFFFFF ^^^ x)) ||| (o &&& r.w1s) ||| (x &&& r.w1s))

/-- Saturation of a field `[hi:lo]` to `[a, b]` inside a word. -/
def satFld (w : Word) (hi lo a b : Nat) : Word := setFld w hi lo (clampN a b (fld w hi lo))

/-- Values that a field's Summary or Meaning column says saturate when they are written (R11, R31). -/
def saturate (a : Nat) (w : Word) : Word :=
  match rowOf a with
  | none => w
  | some r =>
    if r.base = A.seamMag 0 then
      let m := clampI (-335544) 335544 (sx 25 (fld w 24 0)); setFld w 24 0 (lowBits 25 m)
    else if r.base = A.seamBarSrch 0 then satFld (satFld w 7 4 0 4) 3 0 0 8
    else if r.base = A.seamBarsOvl 0 0 then satFld w 9 0 16 512
    else if r.base = A.corNrR 0 0 then satFld (satFld w 24 16 0 256) 8 0 0 256
    else if r.base = A.corTnrShift 0 then
      let v := clampI (-48) 48 (sx 8 (fld w 7 0))
      let mx := clampI (-48) 48 (sx 8 (fld w 31 24))
      let mn := clampI (-48) 48 (sx 8 (fld w 23 16))
      setFld (setFld (setFld w 7 0 (lowBits 8 v)) 31 24 (lowBits 8 mx)) 23 16 (lowBits 8 mn)
    else if r.base = A.frmMaxlen 0 then satFld w 24 0 0 16777216
    else if r.base = A.outCropW 0 then satFld w 17 0 0 196608
    else if r.base = A.outCropH 0 then satFld w 24 0 0 16777216
    else if r.base = A.outDec 0 then satFld w 8 0 0 256
    else if r.base = A.mktSeg then setFld w 13 0 (clampN 256 9088 (fld w 13 0) / 64 * 64)
    else if r.base = A.ethMaxframe 0 then satFld w 13 0 1518 9216
    else if r.base = A.ptpDw 0 then satFld w 3 0 0 8
    else if r.base = A.piIntv 0 then
      let f := fun (hi lo : Nat) (x y : Int) (w : Word) => setFld w hi lo (lowBits 8 (clampI x y (sx 8 (fld w hi lo))))
      satFld (f 23 16 (-7) 5 (f 15 8 (-3) 4 (f 7 0 (-7) 1 w))) 31 24 2 255
    else w

end Sys2Proof.Machine
end

