-- ==== Sys2Proof/Machine/State.lean ====
section
/-! DEFINITION. The state of the FL632 as plain data: registers, image slots and structure, the hidden state of every
block, the retained store, the Lake, the log of what the device sent, and the queue of waiting commands. -/

namespace Sys2Proof.Machine
open Sys2Proof

/-- Why a step stops with a fault. No rule of the spec stops the device, so nothing raises one. -/
inductive Fault where
  /-- Raised by no command of this model; kept so that the outcome type has a fault side. Safe. -/
  | none
  deriving DecidableEq, Repr

/-- Why a step refuses a command. -/
inductive Refusal where
  /-- A command whose meaning has not been written, by its mnemonic. Safe: nothing is claimed of it. -/
  | notModelled (mnemonic : String)
  deriving DecidableEq, Repr

/-! Palxo images (R31 to R53). -/

/-- State of an image slot (Table 2.9). -/
inductive SlotState where
  | empty | loading | loaded | checking | valid | invalid | active | armed | probation
  deriving DecidableEq, Repr

/-- One image slot of the retained store: its state, its bytes (unlisted bytes are 0) and the bytes loaded; `cut` tells that a load, a copy
or a check of it was cut short and left it INVALID (R39). -/
structure Slot where
  state : SlotState := .empty
  cut : Bool := false
  bytes : List Host.Cell := []
  loaded : Nat := 0
  deriving DecidableEq, Repr

/-- Frame mark source of a group (R167 to R169, Table 8.9). -/
inductive MarkSource where
  /-- The encoder repeat: web-position base, repeat length (u32.16) and origin (48.16). -/
  | encoder (wp : Nat) (rep : Nat) (origin : Nat)
  /-- A mark-sensor input and its edge (true: falling). -/
  | sensor (gpio : Nat) (falling : Bool)
  /-- A fixed line count per frame. -/
  | count (n : Nat)
  | none
  deriving DecidableEq, Repr

/-- One GROUPS record (Table 2.2). A group with no Spring is not defined. -/
structure GroupRec where
  springs : List Nat := []
  inline : Bool := false
  /-- Free-running, with its reference Spring (R67). -/
  free : Bool := false
  refSpring : Nat := 0
  channels : Nat := 3
  /-- Active columns of its sensors, overlaps included; and, for a bar, the columns of its stitched line. -/
  columns : Nat := 0
  width : Nat := 0
  mark : MarkSource := .none
  rate : Nat := 0
  depth : Nat := 0
  deriving DecidableEq, Repr

/-- One LAKE region (Table 2.2, Table 11.2). -/
structure LakeRegion where
  kind : Nat
  owner : Nat
  base : Nat
  size : Nat
  deriving DecidableEq, Repr

/-- How a stream treats loss (Table 2.2, R220). -/
inductive StreamMode where
  | reliable | lossy | lossyPressure
  deriving DecidableEq, Repr

/-- One STREAMS record (Table 2.2). -/
structure StreamRec where
  exists_ : Bool := false
  stall : Nat := 0
  group : Nat := 0
  tap : Nat := 0
  stats : Bool := false
  mode : StreamMode := .lossy
  primary : Nat := 0
  standby : Option Nat := none
  window : Nat := 0
  pond : Nat := 0
  format : Nat := 1
  region : Option Nat := none
  deriving DecidableEq, Repr

/-- One STALLS record (Table 2.2). `pages` lists (page, permission) pairs; an unlisted page has permission 0. -/
structure StallRec where
  pages : List (Nat × Nat) := []
  allPages : Bool := false
  share : Nat := 0
  springs : List Nat := []
  twb : List Nat := []
  crc : List Nat := []
  chans : Nat := 0
  deriving DecidableEq, Repr

/-- One EVENTS record (Table 2.2). -/
structure EventRec where
  targets : Nat := 0x10001
  prio : Nat := 8
  level : Bool := true
  deriving DecidableEq, Repr

/-- One KEPT entry (Table 2.2). -/
structure KeptRec where
  addr : Nat
  value : Word
  force : Bool
  deriving DecidableEq, Repr

/-- What an image fixes (Table 2.2). Lists shorter than the block's count stand for undefined or default records. -/
structure Structure where
  bare : Bool := true
  serial : Nat := 0
  groups : List GroupRec := []
  calendar : List (Option Nat) := []
  sram : List (Nat × Nat) := []
  lake : List LakeRegion := []
  streams : List StreamRec := []
  stalls : List StallRec := []
  events : List EventRec := []
  kept : List KeptRec := []
  demand : Nat := 0
  deriving DecidableEq, Repr

/-- Phase of a structure commit (Table 2.8). -/
inductive SwapPhase where
  | idle | prepare | armed | switch | settle | probation
  deriving DecidableEq, Repr

/-- A resource that a swap moves (R44): a group's lines, a stream's records. -/
inductive SwapRes where
  | group (g : Nat) | stream (n : Nat)
  deriving DecidableEq, Repr

/-- Which SIC command is under way (R52). -/
inductive SicBusy where
  | none | erase (slotB : Bool) | copy (slotB : Bool) | check (slotB : Bool) | installKey (key : Nat)
  deriving DecidableEq, Repr

/-- The structure image controller beyond its registers. -/
structure Sic where
  slotA : Slot := {}
  slotB : Slot := {}
  /-- The slot whose structure runs (true: B). -/
  activeB : Bool := false
  /-- The slot the boot pointer names. -/
  bootB : Bool := false
  busy : SicBusy := .none
  phase : SwapPhase := .idle
  /-- The slot named by the commit under way. -/
  target : Bool := false
  force : Bool := false
  probation : Bool := false
  /-- The commit under way is the revert of R48. -/
  revert : Bool := false
  /-- Code reported when the revert starts by ABORT or by expiry. -/
  since : Nat := 0
  probeSince : Nat := 0
  /-- The shadow structure set (R42, Prepare). -/
  next : Structure := {}
  affG : List Nat := []
  affS : List Nat := []
  /-- Affected streaming groups that have not yet passed their mark. -/
  awaiting : List Nat := []
  /-- The swap instant has fallen. -/
  instant : Bool := false
  /-- Resources not yet passed to their new use (R44). -/
  settling : List SwapRes := []
  keyStage : List Word := List.replicate 8 0#32
  /-- The key that INSTALL_KEY is writing. -/
  keyNew : List Word := []
  /-- The load offset, which the field of SIC_LOAD_OFS shows, and the slot of the last BEGIN_LOAD or COPY. -/
  loadOfs : Nat := 0
  loadB : Bool := false
  /-- Lake address and length of the copy under way. -/
  copySrc : Nat := 0
  copyLen : Nat := 0
  /-- The structure under which frames that began before their group's mark finish (R42). -/
  old : Structure := {}
  /-- First frame of each affected group under the new structure. -/
  marks : List (Nat × Nat) := []
  deriving DecidableEq, Repr

/-! Sessions, stalls and the Bridge (R280 to R310). -/

/-- An open ICP session (R282 to R285). -/
structure Session where
  number : Nat
  stall : Nat
  place : Nat
  version : Nat
  key : Bytes
  chans : Nat
  mgmtPort : Nat
  peer : Peer
  provisioning : Bool
  /-- SEQs accepted, latest first. -/
  lastSeq : Option Nat
  /-- The last four non-posted SEQs accepted with their cached RSPs. -/
  cache : List (Nat × Bytes)
  devSeq : Nat
  lastMsg : Nat
  deriving DecidableEq, Repr

/-- A long operation (R294, R295). -/
structure LongOp where
  opid : Nat
  stall : Nat
  session : Nat
  write : Bool
  lake : Nat
  len : Nat
  tag : Nat
  /-- LAKE_READ: bytes sent. -/
  sent : Nat
  /-- LAKE_WRITE: ranges (offset, length) still missing. -/
  missing : List (Nat × Nat)
  lastBulk : Nat
  /-- Its session as it last was (R284: a long operation outlives its session). -/
  via : Session
  deriving DecidableEq, Repr

/-- A completion item (Table 13.9). -/
structure CplItem where
  w0 : Word
  w1 : Word
  w2 : Word
  w3 : Word
  deriving DecidableEq, Repr

/-- One stall beyond its registers. -/
structure Stall where
  cpl : List CplItem := []
  /-- Completion slots taken (R295). -/
  taken : Nat := 0
  keyStage : List Word := []
  key : Option Bytes := none
  /-- Key being written to the retained store. -/
  installing : Option Bytes := none
  resetSince : Option Nat := none
  deriving DecidableEq, Repr

/-- What waits for an access to the data fabric: a read on its own, the operation of a session, or a whole REQ. -/
inductive SplitFor where
  | read
  | op (session : Nat) (o : IcpOp)
  | req (session : Nat) (h : IcpHead) (ops : List IcpOp)
  deriving DecidableEq, Repr

/-- An access to the data fabric without a response yet (R305): the stall, the aperture offset, 64 bits or 32, the cycle of issue, and
what waits for it. -/
structure Split where
  stall : Fin 8
  ofs : Nat
  wide : Bool
  at_ : Nat
  waits : SplitFor := .read
  deriving DecidableEq, Repr

/-- Control-side state shared by all stalls. -/
structure Ctl where
  sessions : List Session := []
  nextSession : Nat := 1
  nextOpid : Nat := 0
  longOps : List LongOp := []
  /-- Split accesses of the second bridge (R305). It holds the first 32; later ones wait. -/
  split : List Split := []
  /-- Accesses that timed out and whose response is still to come. -/
  late : List Nat := []
  /-- Completion items that wait on the data side for a credit of pond 84, each with its stall (R304). -/
  waitCpl : List (Fin 8 × CplItem) := []
  deriving DecidableEq, Repr

/-! The event controller (R328 to R349). -/

/-- State of a source (Table 15.2). -/
inductive SrcPhase where
  | idle | pending | assigned | active
  deriving DecidableEq, Repr

/-- One event source beyond its two words. -/
structure Source where
  phase : SrcPhase := .idle
  refire : Bool := false
  target : Nat := 0
  /-- Pin sources: the input after the filter. -/
  level : Bool := false
  /-- The asynchronous edge latch (R347). -/
  latched : Bool := false
  /-- Edge sources: the cycle of the last active edge that found the source ASSIGNED, and the cycle in which host action returned it to IDLE,
  with whether that was a completion (Table 15.4). -/
  edgeAt : Option Nat := none
  goneAt : Option (Nat × Bool) := none
  deriving DecidableEq, Repr

/-- One event target beyond its registers. -/
structure Target where
  /-- The in-service stack, top first: (source, priority). -/
  stack : List (Nat × Nat) := []
  /-- Sources whose set bit no notification has counted yet (NEW of R335). -/
  unseen : List Nat := []
  /-- Sources whose set bit has been notified (R339). -/
  told : List Nat := []
  lastNotify : Nat := 0
  notified : Bool := false
  asleep : Bool := false
  takeCause : Nat := 0
  /-- A re-fired source has just been completed (R336, R342). -/
  refired : Bool := false
  waking : Bool := false
  wolSent : Nat := 0
  wolLast : Nat := 0
  /-- The management port of the session that last held the channel (R344). -/
  lastPort : Nat := 0
  deriving DecidableEq, Repr

/-! Power states, the Tarn and the retained store (R350 to R370). -/

/-- Where the device is (R25). Ready and Run are both `on`: they differ only in whether a group is active. -/
inductive PState where
  | off | still | doze | on
  deriving DecidableEq, Repr

/-- Entry to a lower state under way (R351). -/
inductive Entering where
  | none | doze | still
  deriving DecidableEq, Repr

/-- The fields of a record header, as the store holds them (Table 16.6). -/
structure RecHead where
  magic : Nat := 0
  kind : Nat := 0
  ver : Nat := 0
  len : Nat := 0
  gen : Nat := 0
  serial : Nat := 0
  round : Nat := 0
  pcrc : Nat := 0
  reserved : Nat := 0
  hcrc : Nat := 0
  deriving DecidableEq, Repr

/-- The content of a record kind (Table 16.5), as typed data: their byte layouts are Aelzen's own (R361). -/
inductive RecContent where
  | empty
  | system (bootB : Bool) (lock : Nat) (keys : List Word) (floor : Nat)
  | keys (ks : List (Option Bytes))
  /-- Kept register values that differ from their factory values. -/
  | kept (m : List (Nat × Word))
  | flatfield (m : List (Nat × Word)) (bases : List (Nat × Word))
  | tables (defect tone : List (Nat × Word)) (coef : List (Nat × Word))
  | lake (baseline : List (Nat × Nat)) (pop : List Nat)
  | time (epochs : List Nat)
  deriving DecidableEq, Repr

/-- One copy of a record: whether anything has been written to its place, its header and its payload as they stand in the store, and what
the payload was written with (R361). -/
structure RecCopy where
  written : Bool := false
  head : RecHead := {}
  payload : Bytes := []
  content : RecContent := .empty
  deriving DecidableEq, Repr

/-- The two copies of one record kind: bank 0 and bank 1. -/
structure RecPair where
  b0 : RecCopy := {}
  b1 : RecCopy := {}
  deriving DecidableEq, Repr

/-- The retained-store controller. -/
structure Keep where
  recs : List RecPair := List.replicate 7 {}
  /-- The kinds that the commit under way has captured (R362). -/
  captured : List Nat := []
  /-- The commit under way: (kind, captured content). -/
  writing : List (Nat × RecContent) := []
  busy : Bool := false
  /-- A further commit asked for while one is under way (R362). -/
  again : List Nat := []
  verifying : Bool := false
  firstChange : Option Nat := none
  lastChange : Nat := 0
  lastVerify : Nat := 0
  bank0Wr : Nat := 0
  bank1Wr : Nat := 0
  factoryStart : Bool := false
  factoryUsed : Bool := false
  serialMismatch : Bool := false
  deriving DecidableEq, Repr

/-- A wake timer (R359): the Tarn time at which it was started. -/
structure WakeTimer where
  start : Nat := 0
  deriving DecidableEq, Repr

/-- A device start under way, until the Lake has trained and the selection of R50 is made: at a wake from Still, with its wake
source (R355, R389). -/
structure Boot where
  still : Bool := false
  src : Nat := 0
  /-- The start instant (R389). -/
  at_ : Nat := 0
  deriving DecidableEq, Repr

/-- The TAP (R398): the instruction in force (0 EXTEST, 1 SAMPLE/PRELOAD, 2 IDCODE, 3 HIGHZ, 4 CLAMP, 31 BYPASS), the boundary-scan
values last preloaded, and the bypass register. -/
structure Jtag where
  ir : Nat := 2
  cells : List Bool := []
  bypass : Bool := false
  deriving DecidableEq, Repr

/-- The power-state machine and the Tarn. -/
structure Power where
  st : PState := .on
  entering : Entering := .none
  /-- RESET_L is low. -/
  resetLow : Bool := false
  pwrOk : Bool := true
  lastOff : Nat := 0
  wakeFrom : Nat := 3
  wakeSrc : Nat := 0
  resumed : Bool := false
  /-- Tarn time of a thermal trip; it blocks other wake sources (R360). -/
  trip : Option Nat := none
  tripPending : Bool := false
  pupFail : Bool := false
  /-- Waiting for the supplies at a wake from Still, since this Tarn time. -/
  supplyWait : Option Nat := none
  tmr0 : WakeTimer := {}
  tmr1 : WakeTimer := {}
  /-- Tarn time from which the crystal times the Tarn (R395). -/
  crystalAt : Option Nat := none
  /-- Monitors below their fail thresholds, ascending (Table 16.4, R356). -/
  low : List Nat := []
  /-- Tarn time at the point of no return. -/
  pointTarn : Nat := 0
  /-- VDD_TARN within range since the last start (R355). -/
  vddTarn : Bool := true
  popAtEntry : List Nat := []
  devid : Nat := 0
  factoryL : Bool := true
  stepping : Nat := 3
  /-- Sensors over TEL_TRIP, each with the Tarn time since which it has been. -/
  hot : List (Nat × Nat) := []
  lastTelRec : Nat := 0
  /-- Alarms armed: temperature sensors, supply monitors, power. -/
  armedT : Nat := 0xFFFF
  armedV : Nat := 0xFFFFFF
  armedP : Bool := true
  /-- The internal reset is asserted, from a device reset to the start instant (R307, R389). -/
  held : Bool := false
  boot : Option Boot := none
  /-- The slot under which the device entered Still. -/
  slotAtEntry : Option Bool := none
  /-- Telemetry (R369): what reads have cleared from each class of counters, each class at the last payload, and links that went
  down since. -/
  telBase : List Nat := List.replicate 20 0
  telPrev : List Nat := List.replicate 20 0
  telDown : Nat := 0
  jtag : Jtag := {}
  deriving DecidableEq, Repr

/-! The Time Unit (R256 to R278). -/

/-- A servo state (Table 12.7). -/
inductive ServoSt where
  | free | unlocked | locked | holdover | delaySuspect
  deriving DecidableEq, Repr

/-- An authorised step that waits (R271): its amount (none: the servo offset) in 2⁻⁴⁸ ns and its bar. -/
structure PendStep where
  amount : Option Int
  bar : Nat
  deriving DecidableEq, Repr

/-- A time base. Its value is held exactly, in units of 2⁻⁴⁸ ns, at the time-clock cycle `at_`; it advances by
2⁴⁸ + RATE + SL of these per cycle in both formats (R256). -/
structure TimeBase where
  val : Nat := 0
  at_ : Nat := 0
  /-- RATE in force, units of 2⁻⁴⁸. -/
  rate : Int := 0
  /-- The value written to TBn_RATE, which is RATE while SRC is 2 (R257). -/
  softRate : Int := 0
  /-- Slew still to be applied at `at_`, in units of 2⁻⁴⁸ ns (R260). -/
  slew : Int := 0
  epoch : Nat := 0
  st : ServoSt := .free
  /-- Frequency term i, units of 2⁻⁴⁸. -/
  freq : Int := 0
  gmStep : Bool := false
  gmDir : Bool := false
  fail : Nat := 0
  pend : Option PendStep := none
  /-- The last offset d in 2⁻⁴⁸ ns and the cycle of its sample. -/
  lastD : Int := 0
  lastAt : Option Nat := none
  /-- What the phase correction p had applied between that sample and `phaseAt`, and the rate at which it is applied since, in units of 2⁻⁴⁸
  (R271). -/
  phaseDone : Int := 0
  phaseAt : Nat := 0
  phaseRate : Int := 0
  /-- The first Sync sample after UNLOCKED: (t1, t2) in 2⁻⁴⁸ ns. -/
  first : Option (Int × Int) := none
  deriving DecidableEq, Repr

/-- A web-position base (R261 to R263). The count is kept modulo 2⁴⁸. -/
structure WebPos where
  count : Nat := 0
  /-- An edge that will count has come at the balls and has not passed the filter yet (R262). -/
  atBalls : Bool := false
  /-- Cycle of the last count edge and the interval between the last two in one direction. -/
  te : Nat := 0
  delta : Option Nat := none
  back : Bool := false
  moved : Bool := false
  stopped : Bool := false
  /-- The fraction held while stopped. -/
  held : Nat := 0
  a : Bool := false
  b : Bool := false
  /-- Simulated motion since the last count, in units of 1 / 256,000,000 count (R263). -/
  simAcc : Nat := 0
  deriving DecidableEq, Repr

/-- A line trigger generator (R274 to R276). -/
structure Ltg where
  /-- The next trigger position, a 48.16 web position. -/
  next : Option Nat := none
  last : Option Nat := none
  /-- Cycle from which the period of time mode runs. -/
  from_ : Nat := 0
  trigs : Nat := 0
  deriving DecidableEq, Repr

/-- A GPIO capture (R277). -/
structure Capture where
  time : Nat
  timex : Nat
  epoch : Nat
  falling : Bool
  pos : Nat
  deriving DecidableEq, Repr

/-- A GPIO of the Time Unit. -/
structure Gpio where
  fifo : List Capture := []
  /-- Cycle at which the running pulse output began. -/
  pulse : Option Nat := none
  /-- Whole seconds of the base that need no pulse any more: those it had passed at the last pulse, at the last write of CTL, or by steps
  since (R278). -/
  lastSec : Int := 0
  deriving DecidableEq, Repr

/-- A PTP port (R265 to R273). Times are in units of 2⁻⁴⁸ ns. -/
structure PtpPort where
  state : Nat := 0
  /-- The best Announce heard, and the cycle at which it came. -/
  best : Option AnnounceDs := none
  annAt : Nat := 0
  syncAt : Nat := 0
  /-- A two-step Sync waiting for its Follow_Up: sequence, t2, correction. -/
  sync : Option (Nat × Int × Int) := none
  /-- The cycles at which the port last sent a Sync, an Announce and a delay request (R264). -/
  syncSent : Option Nat := none
  annSent : Option Nat := none
  reqSent : Option Nat := none
  /-- A complete Sync has come since the port became slave (R267). -/
  synced : Bool := false
  /-- The last complete Sync: t1 with correction, and t2. -/
  t1 : Int := 0
  t2 : Int := 0
  /-- The delay request sent: sequence and its transmit time. -/
  req : Option (Nat × Int) := none
  /-- A two-step Pdelay_Resp waiting for its Follow_Up: t2, t4. -/
  pd : Option (Int × Int) := none
  dm : Int := 0
  dmValid : Bool := false
  suspect : Bool := false
  runRef : Int := 0
  runStart : Nat := 0
  runSum : Int := 0
  runN : Nat := 0
  dsLong : Bool := false
  /-- ASYM in use (R273), s16.16 ns. -/
  asym : Int := 0
  /-- Neighbour rate ratio under profile 2, minus 1, units of 2⁻⁴⁸. -/
  nrr : Int := 0
  lastPd : Option (Int × Int) := none
  seq : Nat := 0
  linkUp : Bool := false
  deriving DecidableEq, Repr

/-! Lines, Springs, frames and the exposure calendar (R54 to R77, R167 to R180). -/

/-- The tags of a line (R21). -/
structure LineTag where
  frame : Nat := 0
  line : Nat := 0
  gen : Nat := 0
  count : Nat := 0
  opening : Bool := false
  synth : Bool := false
  long : Bool := false
  /-- Time tag in the form of R200, with TIMEX, base number and epoch. -/
  time : Nat := 0
  timex : Nat := 0
  tb : Nat := 0
  epoch : Nat := 0
  /-- Web position 48.16 and base number. -/
  pos : Nat := 0
  wp : Nat := 0
  /-- The time-clock cycle of the line's trigger, or of the reference start-of-transmission. -/
  cycle : Nat := 0
  deriving DecidableEq, Repr

/-- A line item of an ingress pond, or a truncation marker (R69, R70). -/
structure Item where
  /-- The tags of the line itself, and those of its trigger or reference line. -/
  tag : LineTag := {}
  trig : LineTag := {}
  marker : Bool := false
  /-- Flags CRC, LEN, PART, FILL in bits 0 to 3. -/
  flags : Nat := 0
  /-- Samples per channel, column order. -/
  chans : List (List Nat) := []
  /-- Samples whose raw value was 2^W − 1, per channel (R182). -/
  satIn : List Nat := []
  size : Nat := 64
  /-- Its samples are complete (R314). -/
  done : Bool := true
  /-- Its frame and line numbers are known (R67), and its place among the Spring's lines since the group's start. -/
  numbered : Bool := true
  place : Nat := 0
  /-- The cycle from which the consumer sees its notice (R315). -/
  seen : Nat := 0
  deriving DecidableEq, Repr

/-- A queued trigger (R66). -/
structure TrigEntry where
  cycle : Nat
  tag : LineTag
  deriving DecidableEq, Repr

/-- A trigger edge that SPRn_TRIG_DLY still delays (R73): its cycle, its Spring, the frame logic's tags and the position. -/
structure Edge where
  cycle : Nat
  spring : Nat
  tag : LineTag
  deriving DecidableEq, Repr

/-- The line a Spring is assembling (R63). `drop`: it has no pond item (untriggered or truncated). -/
structure OpenLine where
  tag : LineTag
  trig : LineTag
  start : Nat
  drop : Bool := false
  /-- Map entries that have delivered their packet. -/
  got : List Nat := []
  flags : Nat := 0
  /-- Its frame and line numbers are known, and its place if not (R67). -/
  numbered : Bool := true
  place : Nat := 0
  chans : List (List Nat) := []
  satIn : List Nat := [0, 0, 0, 0]
  clash : Bool := false
  /-- RWS values of the Spring that changed after the line began: the line keeps the values before (R77). -/
  vals : List (Nat × Word) := []
  deriving DecidableEq, Repr

/-- One Spring beyond its registers. -/
structure Spring where
  /-- 0 DISABLED, 1 IDLE, 2 DESKEW, 3 RUN (Table 3.7). -/
  st : Nat := 0
  lanes : Nat := 0
  /-- Lanes locked (bit mask); lanes that have completed an initial deskew, or need none (R58). -/
  lock : Nat := 0
  deskewed : Nat := 0
  /-- PHY_CFG and LANE_MAP as the PHY sampled them (R55). -/
  phyCfg : Word := 0#32
  laneMap : Word := 0#32
  /-- Sensor frames open, one bit per virtual channel (R64). -/
  frameOpen : Nat := 0
  queue : List TrigEntry := []
  cur : Option OpenLine := none
  pond : List Item := []
  /-- Free-running: lines started since the group's start (R67). -/
  started : Nat := 0
  /-- Frame of the last line associated. -/
  lastFrame : Option Nat := none
  errClass : Nat := 0
  /-- Trigger pulses on the pin, under way or still delayed: start and end cycle, oldest first; and the end of the software pulse. -/
  pulses : List (Nat × Nat) := []
  softEnd : Option Nat := none
  /-- Start of the running SPn_XRST_L pulse. -/
  xrstPulse : Option Nat := none
  /-- Calendar entries that a full queue refused, offered again at every trigger (R177). -/
  offered : List Nat := []
  overWm : Bool := false
  deriving DecidableEq, Repr

/-- A truncated frame at the ingress ponds (R70): the frame, the lowest line L, the Spring that caused it, the
association time, and whether the group's discard still lasts. -/
structure Cut where
  frame : Nat
  l : Nat
  spring : Nat
  at_ : Nat
  /-- Running line count of line L. -/
  count : Nat
  /-- Virtual channel and data type of the packet whose line found no room (R68). -/
  vc : Nat := 0
  dt : Nat := 0
  active : Bool := true
  passed : Bool := false
  /-- A swap wait caused the overflow (R44). -/
  swap : Bool := false
  deriving DecidableEq, Repr

/-- A line that found no room before it had its number: its place among the lines since the group's start, its Spring, the virtual channel
and data type of its first packet, and its association time (R67, R70). -/
structure LostLine where
  place : Nat
  spring : Nat
  vc : Nat
  dt : Nat
  at_ : Nat
  deriving DecidableEq, Repr

/-- What is known of a frame at its first line (R179, Table 8.4). -/
structure FrameInfo where
  frame : Nat
  gen : Nat
  sgens : List Nat
  late : Bool
  first : LineTag
  deriving DecidableEq, Repr

/-- Frame logic and ingress state of one group (R27, R70, R129, R167 to R179). -/
structure Group where
  active : Bool := false
  /-- A frame has begun since device reset. -/
  begun : Bool := false
  openNext : Bool := true
  opening : Bool := false
  synth : Bool := false
  /-- Lines of the current frame so far. -/
  lines : Nat := 0
  /-- Running line count of the next line. -/
  count : Nat := 0
  /-- The next encoder mark, a 48.16 position, and the position of the current frame's first line. -/
  nextMark : Option Nat := none
  firstPos : Nat := 0
  /-- Cycles of mark-sensor edges not yet consumed. -/
  edges : List Nat := []
  /-- The furthest web position of a trigger since the opening frame, which tells whether an issue point has passed (R177), and the
  last trigger: its cycle, position and pitch (R176). -/
  far : Option Nat := none
  trig : Option (Nat × Nat × Nat) := none
  cuts : List Cut := []
  infos : List FrameInfo := []
  /-- Free-running: tags of the reference Spring's lines, by place, not yet taken by every other Spring. -/
  refTags : List (Nat × LineTag) := []
  refLines : Nat := 0
  /-- Free-running lines lost before they had numbers. -/
  lost : List LostLine := []
  deriving DecidableEq, Repr

/-! The Line Engine, the Seam Unit, the correction chain and the Tally (R100 to R166, R181 to R185). -/

/-- One Spring's part of a group line. -/
structure Part where
  spring : Nat
  tag : LineTag
  flags : Nat
  chans : List (List Nat)
  satIn : List Nat
  deriving DecidableEq, Repr

/-- A group line (R126), or a truncation marker of frame `tag.frame` at line `tag.line`. -/
structure GLine where
  tag : LineTag
  marker : Bool := false
  /-- Cause of a marker (Table 9.7). -/
  cause : Nat := 1
  parts : List Part := []
  /-- Cycle at which its data were complete. -/
  at_ : Nat := 0
  deriving DecidableEq, Repr

/-- The engine's context of one group (R126 to R138). -/
structure EngG where
  /-- Group lines in the Lake region, oldest first; the first `served` are retained for stitching only. -/
  region : List GLine := []
  served : Nat := 0
  /-- A copy that the Lake has not yet accepted (R405). -/
  copying : List GLine := []
  /-- Discard after a full region: frame, L and the running count of L (R135). -/
  full : Option (Nat × Nat × Nat) := none
  /-- Samples of the current line already served. -/
  pos : Nat := 0
  /-- Sample ranges of the current line whose accumulator samples were late (R132). -/
  skip : List (Nat × Nat) := []
  /-- Raw lines before the current one, nearest first, since the start or a truncation. -/
  hist : List GLine := []
  /-- Accumulator samples arrived, by running count of the line (R132). -/
  arrived : List (Nat × Nat) := []
  /-- Sample ranges of a raw line whose Lake read had an uncorrectable error, by the running count of the line (Table 11.3). -/
  eccBad : List (Nat × Nat × Nat) := []
  /-- The same of accumulator rows: the group's newest frame at the read, the row, the range (R150). -/
  accBad : List (Nat × Nat × Nat × Nat) := []
  /-- Segments of the current line served so far: the sample ranges that a slot took (R128, R150). -/
  segs : List (Nat × Nat) := []
  /-- The instant at which each ready line became ready, by running count (R136). -/
  ready : List (Nat × Nat) := []
  blocked : Bool := false
  /-- The backlog is at or above its watermark (R134). -/
  overWm : Bool := false
  /-- Frame of the last group line that entered the chain. -/
  frame : Option Nat := none
  own : Nat := 0
  extra : Nat := 0
  blk : Nat := 0
  deriving DecidableEq, Repr

/-- The engine as a whole. -/
structure Engine where
  /-- The next slot of the round; 256 once every slot has begun. -/
  slot : Nat := 0
  rounds : Nat := 0
  idle : Nat := 0
  samples : Nat := 0
  deriving DecidableEq, Repr

/-- A line as a stage or a tap sees it: tags, flags (Table 9.5), channels of columns. -/
structure TapLine where
  tag : LineTag
  flags : Nat := 0
  chans : List (List Nat) := []
  deriving DecidableEq, Repr

/-- A line that waits for the Seam Unit: the sensor lines of one trigger after defect replacement, each with its flags,
and the settings of the later stages (R142); or a truncation marker. -/
structure SeamLine where
  tag : LineTag
  marker : Bool := false
  cause : Nat := 1
  parts : List Part := []
  post : List Word := []
  at_ : Nat := 0
  /-- The cycle from which the Seam Unit sees its notice (R315). -/
  seen : Nat := 0
  deriving DecidableEq, Repr

/-- A window, pin or tracker result that has not yet come into force: Spring, frame, (OFS, MAG, DLY) and pressing bits. -/
structure TrackUpd where
  spring : Nat
  frame : Nat
  ofs : Int
  mag : Int
  dly : Int
  press : Nat
  deriving DecidableEq, Repr

/-- One measured line at one seam (R113): the contributions of A over the measured columns, those of B over the same
columns with the search margin on both sides, and the overlap width. -/
structure MeasRow where
  seam : Nat
  a : List Nat
  b : List Nat
  overlap : Nat
  line : Nat
  deriving DecidableEq, Repr

/-- The measurement rows of a frame. -/
structure MeasFrame where
  frame : Nat
  rows : List MeasRow := []
  /-- Overlap width of each seam on the frame's last stitched line. -/
  overlaps : List Nat := []
  /-- Geometry in force for the frame: per position Spring, OFS, MAG, DLY. -/
  geo : List Word := []
  deriving DecidableEq, Repr

/-- The Seam Unit of one bar. -/
structure SeamBar where
  inq : List SeamLine := []
  /-- Lines since the group's start or the last truncation, latest first (at most D_b + 2). -/
  hist : List SeamLine := []
  /-- Lines seen since the group's start or reset, or the last truncation. -/
  seen : Nat := 0
  lastFrame : Option Nat := none
  /-- Measurement rows of the current frame, and of frames that wait for SEAM_MEASUREMENT_DONE. -/
  meas : Option MeasFrame := none
  done_ : List MeasFrame := []
  updates : List TrackUpd := []
  /-- Measured results of the last frames, for the Tally: frame, per seam RES_XY, RES_M, QUAL, LINES; per position
  Spring, OFS, MAG, DLY. -/
  results : List (Nat × List Word) := []
  openRaised : Option Nat := none
  /-- Frame whose further lines are discarded after a reset of the line buffer (Table 14.5). -/
  cut : Option Nat := none
  deriving DecidableEq, Repr

/-- Level bins of one channel: count, Σa, Σd² (R152). -/
structure NoiseBin where
  n : Nat := 0
  a : Nat := 0
  d2 : Nat := 0
  deriving DecidableEq, Repr

/-- A TNR update not yet in force: the frame, SHIFT, N0, N1 per channel, and pressing bits. -/
structure TnrUpd where
  frame : Nat
  /-- Per quantity (0 SHIFT, 1 N0, 2 N1) and channel: the value, none under a pin, and whether it presses. -/
  vals : List (Nat × Nat × Option Int × Bool)
  deriving DecidableEq, Repr

/-- The settings under which a frame's estimates are gathered and evaluated: those in force at its first line. -/
structure TnrOwn where
  kw : Nat := 1
  conv : Nat := 1
  mch : Nat := 1
  shift : Int := 0
  n1 : List Nat := []
  noiseTrk : Bool := false
  shiftTrk : Bool := false
  deriving DecidableEq, Repr

/-- What the TNR stage gathered in a frame that has ended (R152, R153). -/
structure TnrEnded where
  frame : Nat
  i : Nat
  bins : List NoiseBin
  sums : List (Int × Nat)
  lines : Nat
  own : TnrOwn := {}
  /-- Quantities (q, channel) that a commit wrote since: their updates are discarded (R154). -/
  drop : List (Nat × Nat) := []
  deriving DecidableEq, Repr

/-- The TNR stage of one bar. -/
structure Tnr where
  /-- Valid rows, ascending. -/
  valid : List Nat := []
  /-- Repeat index i of the current frame; the frame it belongs to. -/
  i : Nat := 0
  frame : Option Nat := none
  /-- No frame has reached the stage since the last reset: the next one has i = 0 (R149). -/
  fresh : Bool := true
  resetPend : Bool := false
  /-- The accumulator restarts at the first frame of the new structure (R45). -/
  swapPend : Bool := false
  own : TnrOwn := {}
  /-- Web position of line 0 of the current frame, when it reached the stage, and the last row. -/
  line0 : Option Nat := none
  lastRow : Option Int := none
  bins : List NoiseBin := []
  sums : List (Int × Nat) := []
  shiftLines : Nat := 0
  /-- Gathered data of frames that have ended, and the want values (SHIFT_WANT, N0 and N1 per channel). -/
  ended : List TnrEnded := []
  wantShift : Nat := 0
  wantN0 : List Nat := [0, 0, 0, 0]
  wantN1 : List Nat := [0, 0, 0, 0]
  /-- PRESSING bits of COR_Gg_TNR_STAT. -/
  press : Nat := 0
  updates : List TnrUpd := []
  /-- A reset took effect in this frame. -/
  resetFrame : Option Nat := none
  /-- W(n) of the last line that reached the stage (R142, R155). -/
  widths : List Nat := []
  /-- Quantities that a commit wrote at the end of the frame being gathered: its estimates of them are discarded (R154). -/
  drop : List (Nat × Nat) := []
  deriving DecidableEq, Repr

/-- Sums of one ROI: index, samples (columns × lines), Σx and Σx² per channel. -/
structure RoiAcc where
  n : Nat := 0
  s1 : List Nat := []
  s2 : List Nat := []
  deriving DecidableEq, Repr

/-- What the Tally gathers for one frame (R182). -/
structure TallyAcc where
  info : FrameInfo
  ctl : Word
  hx0 : Nat
  hx1 : Nat
  /-- Enabled ROIs: index and its four words. -/
  rois : List (Nat × List Nat)
  changed : Bool
  hist : List (List Nat) := []
  prof : List (List Nat) := []
  /-- Samples per channel gathered in each band. -/
  profN : List Nat := []
  long : Bool := false
  roi : List RoiAcc := []
  satIn : List Nat := [0, 0, 0, 0]
  satHi : List Nat := [0, 0, 0, 0]
  byp : List Nat := [0, 0, 0, 0]
  /-- Lines with CRC, LEN, PART, FILL, ALIGN, TNR_SKIP, GEN_MIX, TNR_CONV. -/
  flags : List Nat := [0, 0, 0, 0, 0, 0, 0, 0]
  lines : Nat := 0
  /-- Lines of the frame that reached the stage, for ROI SHORT. -/
  last : Nat := 0
  /-- The truncation that stands: L, its cause, and the running line count of line L. -/
  trunc : Option (Nat × Nat × Nat) := none
  /-- Lines dropped, once a group reset has fixed them; else they follow from the next frame's first line. -/
  dropped : Option Nat := none
  conv : Bool := false
  reset : Bool := false
  /-- The frame's end has passed the pre-stitch points and the stitched points. -/
  endPre : Bool := false
  endPost : Bool := false
  deriving DecidableEq, Repr

/-- A closed statistics record. -/
structure StatRec where
  frame : Nat
  bytes : Bytes
  at_ : Nat
  /-- Statistics streams that it has not yet entered. -/
  todo : List Nat
  tag : LineTag
  flags : Nat
  /-- The cycle from which the statistics streams see its notice (R315). -/
  seen : Nat := 0
  deriving DecidableEq, Repr

/-- The Tally of one group. -/
structure Tally where
  accs : List TallyAcc := []
  changed : Bool := false
  closed : List StatRec := []
  deriving DecidableEq, Repr

/-- A load port (R164). -/
structure LoadPort where
  active : Bool := false
  ctl : Word := 0#32
  dst : Word := 0#32
  count : Nat := 0
  src : Nat := 0
  moved : Nat := 0
  stall : Nat := 0
  slot : Bool := false
  deriving DecidableEq, Repr

/-! Output streams and the Market (R187 to R238). -/

/-- A record in an output pond or a resend window. -/
structure Rec where
  bytes : Bytes
  type : Nat := 0
  tag : LineTag := {}
  alive : Nat := 0
  /-- The cycle from which the Market sees its notice (R315). -/
  seen : Nat := 0
  /-- Of a truncation record: the running line count from which DROPPED counts, none with only statistics records lost, and LAST_FRAME. -/
  cover : Option (Option Nat × Nat) := none
  deriving DecidableEq, Repr

/-- An input line of a stream after crop, binning and horizontal scaling (R189 to R191), with its number in the frame, which does not
wrap. -/
structure HLine where
  tag : LineTag
  y : Nat
  flags : Nat
  /-- Output columns per channel. -/
  cols : List (List Nat)
  x0 : Nat
  hpos0 : Nat
  hstep : Nat
  chsel : Nat
  deriving DecidableEq, Repr

/-- An output line formed (R192, R193). -/
structure OLine where
  line : HLine
  flags : Nat
  m : Nat
  vpos : Nat
  vstep : Nat
  fmt : Nat
  recfmt : Nat
  deriving DecidableEq, Repr

/-- A pending truncation record (R204). -/
structure PendTrunc where
  frame : Nat
  line : Nat
  last : Nat
  cause : Nat
  /-- Running line count of the input line at FRAME, LINE, from which DROPPED counts; none while only statistics records were
  lost (cause 5). -/
  count : Option Nat
  merged : Bool := false
  /-- Line record format of FRAME. -/
  fmt : Nat := 1
  tag : Option LineTag
  /-- DROPPED, once the last frame covered has ended at the tap. -/
  dropped : Option Nat := none
  deriving DecidableEq, Repr

/-- One output stream beyond its registers. -/
structure Stream where
  /-- Window lines at the tap, oldest first. -/
  lines : List HLine := []
  /-- Frame being scaled, next output line, and whether it has ended at the tap (marker or reset). -/
  m : Nat := 0
  endedFrame : Option Nat := none
  /-- Frame of the last line that reached the tap; the tags of that line. -/
  tapFrame : Option Nat := none
  tapTag : Option LineTag := none
  /-- The number of that line in its frame, which does not wrap. -/
  tapY : Nat := 0
  /-- Frames that have ended at the tap, latest first: each with its last line there and the running line count of the next frame's first
  line. -/
  ends : List (Nat × Option LineTag × Nat) := []
  formed : List OLine := []
  /-- Frame of the last TYPE 0 record completed (for SOF). -/
  sofFrame : Option Nat := none
  pond : List Rec := []
  alive : Nat := 0
  /-- A swap affects the stream: ALIVE starts at 0 with its first new-frame record (R202). -/
  aliveRestart : Bool := false
  pend : Option PendTrunc := none
  /-- Frame whose remaining records are discarded (R205). -/
  discard : Option Nat := none
  /-- Input waits for the next frame start (stream enabled by a commit, stall reset). -/
  await : Bool := true
  recfmt : Nat := 0
  recfmtNext : Option Nat := none
  /-- Telemetry payloads waiting. -/
  tel : List Bytes := []
  deriving DecidableEq, Repr

/-- A record held in a resend window (R222). -/
structure Held where
  seq : Nat
  record : Rec
  acked : Bool := false
  /-- End of its last transmission. -/
  sentAt : Option Nat := none
  /-- When RESEND_NOW last resent it. -/
  nowAt : Option Nat := none
  deriving DecidableEq, Repr

/-- A gap record in its slot (R227, R228). -/
structure Gap where
  first : Nat
  last : Nat
  retired : Nat
  cause : Nat
  tag : LineTag
  alive : Nat
  lastFrame : Nat
  lastLine : Nat
  /-- Line record format of the first record retired. -/
  fmt : Nat := 1
  sent : Bool := false
  resend : Bool := false
  sentAt : Option Nat := none
  /-- Cycle of its last resend by RESEND_NOW (R224). -/
  nowAt : Option Nat := none
  /-- The record as it stands in the gap slot (R228). -/
  bytes : Bytes := []
  deriving DecidableEq, Repr

/-- What a stream is transmitting: the gap record, a resend or a new record, and the next offset. -/
structure Tx where
  gap : Bool
  seq : Nat
  bytes : Bytes
  resend : Bool
  offset : Nat
  link : Nat
  /-- XPT_STn_CTL, XPT_STn_TAG and the destination words in use for this record. -/
  via : List Word := []
  deriving DecidableEq, Repr

/-- The Market's side of one stream. -/
structure Xpt where
  session : Option Nat := none
  lastSession : Nat := 0
  recfmt : Nat := 0
  standby : Bool := false
  seq : Nat := 0
  held : List Held := []
  /-- SEQs to resend, and new records to send, in order. -/
  resendQ : List Nat := []
  newQ : List (Nat × Rec) := []
  gap : Option Gap := none
  gapDue : Bool := false
  tx : Option Tx := none
  sent : Nat := 0
  limit : Nat := 0
  lastAck : Nat := 0
  silent : Bool := false
  winFull : Bool := false
  noLink : Bool := false
  /-- Deficits of the stream by link code. -/
  deficits : List (Nat × Nat) := []
  failbackDue : Bool := false
  /-- Bytes of records written to the window so far, each rounded up to 64 (R222). -/
  written : Nat := 0
  deriving DecidableEq, Repr

/-- A window that a swap removed or moved, until its drain ends (R45, R229). -/
structure Drain where
  stream : Nat
  /-- The key of the carrier: stream + 16 j, with j from 1 on, another for each window of a stream under drain. -/
  key : Nat
  /-- The old window's region of the Lake. -/
  region : Option LakeRegion := none
  xpt : Xpt
  rec_ : StreamRec
  /-- CTL, TAG and destination words at Switch, of the primary and of the standby destination: the old binding (R229). -/
  viaP : List Word := []
  viaS : List Word := []
  from_ : Nat
  /-- SIC_DRAIN_TMO has passed; what was held is retired. -/
  ended : Bool := false
  gapSent : Option Nat := none
  deriving DecidableEq, Repr

/-- A pause of one priority: when it began without a break, and when its quanta expire. -/
structure Pause where
  from_ : Nat
  until_ : Nat
  deriving DecidableEq, Repr

/-- One stream link (R213, R231). -/
structure Link where
  aligned : Bool := false
  lfault : Bool := false
  rfault : Bool := false
  /-- Declared up; cycle of the last change of the up conditions. -/
  up : Bool := false
  badFrom : Option Nat := none
  upFrom : Nat := 0
  pauses : List (Nat × Pause) := []
  ignore : List (Nat × Nat) := []
  /-- The last trip of each priority's pause watchdog: the priority and the cycle (R378). -/
  trips : List (Nat × Nat) := []
  /-- Stall deficits. -/
  deficits : List (Nat × Nat) := []
  lastStall : Nat := 0
  deriving DecidableEq, Repr

/-! Two-wire controllers and the board target (R78 to R99). -/

/-- A queued transaction list (R86). -/
structure TwList where
  calendar : Bool
  entry : Nat := 0
  lake : Bool := false
  addr : Nat := 0
  stall : Nat := 0
  /-- A completion slot was taken for it (R295). -/
  slot : Bool := false
  deriving DecidableEq, Repr

/-- A running list: its copied steps, the current step, and what it has read. -/
structure TwRun where
  list : TwList
  steps : List Word := []
  pc : Nat := 0
  open_ : Bool := false
  /-- Step index of the transaction's first START and restarts made (R83). -/
  txStart : Nat := 0
  retries : Nat := 0
  rd : Bytes := []
  rdAtTx : Nat := 0
  /-- Cycle at which the list began, restarted or ended its last DELAY. -/
  from_ : Nat := 0
  deriving DecidableEq, Repr

/-- One two-wire controller beyond its registers. -/
structure TwoWire where
  /-- 0 DISABLED, 1 IDLE, 2 ACTIVE, 3 CLEARING, 4 STUCK, 5 WAIT_XRST. -/
  st : Nat := 0
  calQ : List TwList := []
  swQ : List TwList := []
  run : Option TwRun := none
  attempt : Nat := 0
  /-- End of the retry pulse of SPn_XRST_L. -/
  xrstEnd : Nat := 0
  /-- What the bus shows to a check, as last given with a command. -/
  hold : BusCheck := {}
  /-- Cycle since which the list at the head of the queue waits. -/
  waitFrom : Nat := 0
  deriving DecidableEq, Repr

/-- An action on a two-wire bus, as a watcher sees it. -/
inductive BusAct where
  | start (addr : Nat) (rd : Bool) | write (b : Byte) | read (b : Byte) (ack : Bool) | stop | clearPulses (n : Nat)
  deriving DecidableEq, Repr

/-! The Lake (R240 to R255). -/

/-- The DIMM of a channel as training detects it: capacity in GiB, ranks, and the density code of Table 11.9. -/
structure Dimm where
  gib : Nat := 32
  ranks : Nat := 1
  density : Nat := 1
  deriving DecidableEq, Repr

/-- One Lake channel beyond its registers. -/
structure LakeChan where
  /-- STATE of Table 11.9: 0 OFF, 1 TRAINING, 2 READY, 3 SELFREF, 4 FAILED, 5 EXCLUDED. -/
  st : Nat := 2
  dimm : Option Dimm := some {}
  /-- Training baseline in use (an identifier of the trained delays), none before a full training. -/
  baseline : Option Nat := none
  mr4 : Nat := 0
  /-- MR4 reports a class above its nominal range. -/
  hot : Bool := false
  refAt : Nat := 0
  /-- PHY temperature and cycle of the last retraining step. -/
  stepTemp : Int := 0
  stepAt : Nat := 0
  /-- The retraining step that follows a wake from Doze is due (R252). -/
  wakeStep : Bool := false
  /-- Trims pressing: bit 0 RD_TRIM, bit 1 WR_TRIM. -/
  press : Nat := 0
  deriving DecidableEq, Repr

/-- The Lake controller beyond its registers. -/
structure LakeCtl where
  /-- SET of Table 11.6. -/
  set_ : Nat := 1
  /-- SPEED in use, a code of LAKE_CTL (R241). -/
  speed : Nat := 4
  chans : Vector LakeChan 12 := .replicate 12 {}
  /-- Channels under training, as a mask. -/
  training : Nat := 0
  cmdErr : Nat := 0
  /-- Next codeword of the scrub pass. -/
  scrubPos : Nat := 0
  /-- Cycle of the last scrub read. -/
  scrubAt : Nat := 0
  passes : Nat := 0
  errPtr : Nat := 0
  deriving DecidableEq, Repr

/-! Check-value units (R320 to R325). -/

/-- A Lake feed under way: its stall, address and length as they stood when it began (R324). -/
structure CrcFeed where
  stall : Nat
  addr : Nat
  len : Nat
  deriving DecidableEq, Repr

/-- A general CRC unit beyond its registers: the configuration taken at the last INIT or context restore, and the Lake feed
under way. -/
structure CrcUnit where
  ctl : Word := 0x31F#32
  poly : Nat := 0x1EDC6F41
  xorout : Nat := 0xFFFFFFFF
  feed : Option CrcFeed := none
  deriving DecidableEq, Repr

/-! What the device sends, and the whole state. -/

/-- Something the device put on one of its interfaces, in the order in which it did. -/
inductive Out where
  /-- The value a register read returned, with its access status (Table 13.6). -/
  | value (status : Nat) (v : Nat)
  /-- The result of an operation run on its own for a session: status, items done, and the data that follows (R289). -/
  | result (status done : Nat) (data : Bytes)
  /-- An ICP message handed to a management port (0 MA, 1 MB). -/
  | icp (port : Nat) (peer : Peer) (msg : Bytes)
  /-- An Ethernet frame handed to a link: code 0-7 on XA and XB, 8 MA, 9 MB. -/
  | frame (link : Nat) (bytes : Bytes)
  /-- Activity on the bus of two-wire controller n. -/
  | bus (n : Nat) (acts : List BusAct)
  /-- The Lake controller rewrites a corrected codeword, at its address (R249, R251). -/
  | rewrite (a : Nat)
  /-- Bytes returned through TWT, and how many data bytes were acknowledged. -/
  | twt (bytes : Bytes) (acked : Nat)
  /-- A trigger pulse on SPn_TRIG: delayed start cycle, width and active level (true: high). -/
  | trig (n : Nat) (at_ width : Nat) (high : Bool)
  /-- A pulse on GPIOi: start cycle and width. -/
  | pps (i : Nat) (at_ width : Nat)
  /-- A PTP message on PTP port p: its kind, sequence number, time (2⁻⁴⁸ ns) and correction, its multicast destination, whether its times
  are of the ARB timescale, and the data set an Announce gives. -/
  | ptp (port : Nat) (domain : Nat) (kind : Nat) (seq : Nat) (time : Int) (corr : Int) (dest : Nat) (arb : Bool) (ann : Option AnnounceDs)
  /-- The data register that JTAG shifts out, least significant bit first. -/
  | jtag (bits : List Bool)
  deriving DecidableEq, Repr

/-- A packet of a pond 64 to 85 (R314): the length in its length slot, the cycle from which its consumer sees its notice (R315), the bytes of
a segment that the Market wrote for a link, and the completion item that crosses to a stall (R304). -/
structure Packet64 where
  len : Nat
  seen : Nat := 0
  frame : Option Bytes := none
  cpl : Option (Fin 8 × CplItem) := none
  deriving DecidableEq, Repr

/-- A release of an SRAM pond that its producer does not see yet: the pond, the bytes, and the cycle from which it is seen (R315). -/
structure Release where
  pond : Nat
  bytes : Nat
  at_ : Nat
  deriving DecidableEq, Repr

/-- The state of the FL632. -/
structure State where
  /-- Commands that wait, first in, first out. -/
  pending : List Instr := []
  /-- Cycles of the 1.0 GHz time clock that have run (R259). -/
  now : Nat := 0
  /-- Nanoseconds of Tarn time, which runs in every state but Off. -/
  tarn : Nat := 0
  /-- Values in force of the registers that differ from their reset value, by address. -/
  regs : List (Nat × Word) := []
  /-- Values written to RWS registers since their block's last commit took effect (R5, R300). -/
  staged : List (Nat × Word) := []
  /-- Commits that wait, by block: tag and boundary (R300). -/
  commits : List (Nat × (Nat × Bool)) := []
  /-- Companion words latched by the last read of a low word (R292). -/
  latch : List (Nat × Word) := []
  power : Power := {}
  keep : Keep := {}
  sic : Sic := {}
  str : Structure := {}
  ctl : Ctl := {}
  stalls : Vector Stall 8 := .replicate 8 {}
  sources : Vector Source 768 := .replicate 768 {}
  targets : Vector Target 20 := .replicate 20 {}
  tb : Vector TimeBase 4 := .replicate 4 {}
  wp : Vector WebPos 4 := .replicate 4 {}
  ltg : Vector Ltg 4 := .replicate 4 {}
  gpio : Vector Gpio 16 := .replicate 16 {}
  ptp : Vector PtpPort 4 := .replicate 4 {}
  spr : Vector Spring 32 := .replicate 32 {}
  grp : Vector Group 12 := .replicate 12 {}
  /-- Trigger edges that have not yet reached their Springs, in order of cycle. -/
  edges : List Edge := []
  twb : Vector TwoWire 32 := .replicate 32 {}
  engs : Vector EngG 12 := .replicate 12 {}
  engine : Engine := {}
  seam : Vector SeamBar 4 := .replicate 4 {}
  tnr : Vector Tnr 4 := .replicate 4 {}
  tally : Vector Tally 12 := .replicate 12 {}
  load : Vector LoadPort 12 := .replicate 12 {}
  /-- Entries of the flat-field, defect and tone tables that differ from the factory content (Table 7.3). -/
  tables : List (Nat × Word) := []
  out : Vector Stream 16 := .replicate 16 {}
  xpt : Vector Xpt 16 := .replicate 16 {}
  drains : List Drain := []
  links : Vector Link 8 := .replicate 8 {}
  /-- MODE in force of each Ethernet port (R212). -/
  portMode : Vector Nat 4 := .replicate 4 0
  lakeCtl : LakeCtl := {}
  /-- Check-value units (R320 to R325). -/
  crc : Vector CrcUnit 16 := .replicate 16 {}
  /-- The packets in ponds 64 to 85, oldest first. -/
  netPonds : Vector (List Packet64) 22 := .replicate 22 []
  /-- Bytes released from each SRAM pond: its read pointer, before it wraps at the pond's size (R313). -/
  readPtr : Vector Nat 86 := .replicate 86 0
  /-- Releases that their producers do not see yet (R315). -/
  releases : List Release := []
  /-- Resets of SRAM ponds: each pond with the cycle of the last detection and the cycle at which the reset completes (R317). -/
  resets : List (Nat × Nat × Nat) := []
  /-- Items in chain ponds 158 to 211, head first. -/
  chains : Vector (List (BitVec 128)) 54 := .replicate 54 []
  /-- The Lake's bytes; an unlisted byte reads 0. -/
  lake : List Host.Cell := []
  /-- Draws made from the free values (the model's own). -/
  draws : Nat := 0
  /-- What the device has sent, latest first (the model's own). -/
  sent : List Out := []
  deriving DecidableEq, Repr

/-- The machine right after device reset: Ready in the bare structure, every register at its Reset column (R9, R50). -/
def State.reset : State := {}

end Sys2Proof.Machine
end

