-- ==== Sys2Proof/Machine/Ops.lean ====
section
/-! DEFINITION. The named operations over the state: registers, fields, events and counters, the Lake's bytes, the log of
what was sent, free values, and the image's records. -/

namespace Sys2Proof.Machine
open Sys2Proof

/-! Registers. -/

/-- The value in force of the register at `a`. -/
def State.rd (s : State) (a : Nat) : Word := cellGet regDef s.regs a

/-- The register at `a` takes the value `v` in force. -/
def State.wr (s : State) (a : Nat) (v : Word) : State := { s with regs := cellSet regDef s.regs a v }

/-- Bits `[hi:lo]` of the register at `a`. -/
def State.f (s : State) (a hi lo : Nat) : Nat := fld (s.rd a) hi lo

/-- Bit `i` of the register at `a`. -/
def State.b (s : State) (a i : Nat) : Bool := bit (s.rd a) i

/-- Bits `[hi:lo]` of the register at `a` take the value `v`. -/
def State.setF (s : State) (a hi lo v : Nat) : State := s.wr a (setFld (s.rd a) hi lo v)

/-- Bit `i` of the register at `a` is set or cleared. -/
def State.setB (s : State) (a i : Nat) (v : Bool) : State := s.wr a (setBit (s.rd a) i v)

/-- An event bit of an event register is raised (R3, R328). -/
def State.raise (s : State) (a i : Nat) : State := s.setB a i true

/-- A counter grows by `n`, saturating at 0xFFFF_FFFF. -/
def State.inc (s : State) (a : Nat) (n : Nat := 1) : State :=
  s.wr a (wd (min 0xFFFFFFFF ((s.rd a).toNat + n)))

/-- A counter in bits `[hi:lo]` grows by `n`, saturating. -/
def State.incF (s : State) (a hi lo : Nat) (n : Nat := 1) : State :=
  s.setF a hi lo (min (2 ^ (hi + 1 - lo) - 1) (s.f a hi lo + n))

/-- A peak register takes the larger of what it holds and `v`. -/
def State.peak (s : State) (a v : Nat) : State := s.wr a (wd (max (s.rd a).toNat v))

/-- A 64-bit counter in two words grows by `n`, modulo 2^64. -/
def State.inc64 (s : State) (lo hi n : Nat) : State :=
  let v := ((s.rd hi).toNat * 2 ^ 32 + (s.rd lo).toNat + n) % 2 ^ 64
  (s.wr lo (wd v)).wr hi (wd (v / 2 ^ 32))

/-- The staged value of an RWS register: what was last written, else the value in force (R3, R5). -/
def State.shadow (s : State) (a : Nat) : Word :=
  match s.staged.lookup a with
  | some v => v
  | none => s.rd a

/-- The staged value at `a` becomes `v`, and `a` counts as written (R300). -/
def State.stage (s : State) (a : Nat) (v : Word) : State :=
  { s with staged := (a, v) :: s.staged.filter (fun x => x.1 != a) }

/-- A Kept value in force changed at this moment (R362). -/
def State.touch (s : State) : State :=
  { s with keep := { s.keep with
      firstChange := some (s.keep.firstChange.getD s.tarn), lastChange := s.tarn } }

/-- A register that is Kept takes a value in force: as `wr`, and the change is noted for R362. -/
def State.wrK (s : State) (a : Nat) (v : Word) : State :=
  if s.rd a = v then s else (s.wr a v).touch

/-- A field of a Kept register takes a value in force. -/
def State.setFK (s : State) (a hi lo v : Nat) : State := s.wrK a (setFld (s.rd a) hi lo v)

/-! The device's condition. -/

/-- The fast clocks run, the device is out of reset and its start is complete: Ready or Run (R25). -/
def State.on (s : State) : Bool := s.power.st == .on && !s.power.resetLow && !s.power.held && s.power.boot.isNone

/-- Some group is active (R129): the device is in Run, else in Ready. -/
def State.running (s : State) : Bool := s.grp.toList.any (·.active)

/-- What comes before the point of no return cancels an entry to Doze or Still (R351). -/
def State.haltEntry (s : State) : State :=
  if s.power.entering = .none then s
  else { s with power := { s.power with entering := .none } }.setF A.trnCmdStat 31 28 2

/-- TRN_STATE.STATE changes between Ready and Run when the first group starts and when the last one stops (R25, Table 16.10); a group
that becomes active cancels an entry (R351). -/
def State.noteRun (s old : State) : State :=
  if s.running = old.running then s else (if s.running then s.haltEntry else s).raise A.trnEvt 0

/-- What a command on the clocked part of the device does: nothing while its clocks stand or it is in reset. -/
def State.whenOn (s : State) (f : State → State) : State := if s.on then f s else s

/-- Something is sent. -/
def State.emit (s : State) (o : Out) : State := { s with sent := o :: s.sent }

/-- A fresh free word (the model's own counter advances). -/
def State.draw (s : State) : BitVec 32 × State := (Config.freeWord s.draws, { s with draws := s.draws + 1 })

/-- A fresh free number below `k` (0 when `k` is 0). -/
def State.choose (s : State) (k : Nat) : Nat × State :=
  (Config.freeNat s.draws % (if k = 0 then 1 else k), { s with draws := s.draws + 1 })

/-- The round count LE_ROUND (R123). -/
def State.round (s : State) : Nat := (s.rd A.leRoundHi).toNat * 2 ^ 32 + (s.rd A.leRoundLo).toNat

/-- Microseconds and milliseconds of the time clock. -/
abbrev us (n : Nat) : Nat := n * 1000
/-- Milliseconds of the time clock. -/
abbrev ms (n : Nat) : Nat := n * 1000000

/-! The Lake's bytes. -/

/-- What a byte of the Lake that nothing has written reads as. -/
def lakeDef (_ : Nat) : Byte := 0#8

/-- The byte of the Lake at `a`. -/
def State.lakeGet (s : State) (a : Nat) : Byte := cellGet lakeDef s.lake a

/-- The byte of the Lake at `a` becomes `v`. -/
def State.lakeSet (s : State) (a : Nat) (v : Byte) : State := { s with lake := cellSet lakeDef s.lake a v }

/-- `n` bytes of the Lake from `a`. -/
def State.lakeRead (s : State) (a n : Nat) : Bytes := (List.range n).map (fun i => s.lakeGet (a + i))

/-- Bytes stored in the Lake from `a`. -/
def lakeStore : List Host.Cell → Nat → Bytes → List Host.Cell
  | m, _, [] => m
  | m, a, b :: bs => lakeStore (cellSet lakeDef m a b) (a + 1) bs

/-- Bytes written to the Lake from `a`. -/
def State.lakeWrite (s : State) (a : Nat) (bs : Bytes) : State := { s with lake := lakeStore s.lake a bs }

/-- The Lake's list is in its canonical form. -/
def Memory.wf (m : List Host.Cell) : Bool := cellWf lakeDef m

/-! The structure in force. -/

/-- The GROUPS record of group `g`. -/
def State.group (s : State) (g : Nat) : GroupRec := s.str.groups.getD g {}
/-- Group `g` is defined: it has a Spring. -/
def State.defined (s : State) (g : Nat) : Bool := !(s.group g).springs.isEmpty
/-- The STREAMS record of stream `n`. -/
def State.stream (s : State) (n : Nat) : StreamRec := s.str.streams.getD n {}
/-- The group a Spring belongs to. -/
def State.groupOf (s : State) (n : Nat) : Option Nat := (List.range 12).find? (fun g => (s.group g).springs.contains n)
/-- The in-line bar. -/
def State.inlineBar (s : State) : Option Nat := (List.range 4).find? (fun g => s.defined g && (s.group g).inline)
/-- Group `g` is the in-line bar. -/
def State.isInline (s : State) (g : Nat) : Bool := s.inlineBar == some g
/-- The STALLS record of stall `t`; in the bare structure stall 0 reaches every page (R50). -/
def State.stallRec (s : State) (t : Nat) : StallRec :=
  if s.str.bare then { allPages := t == 0, chans := 3 } else s.str.stalls.getD t {}
/-- The EVENTS record of a source; the bare structure routes every source to EC0 and IRQ0_L at priority 8 (R50). -/
def State.eventRec (s : State) (n : Nat) : EventRec :=
  if s.str.bare then { level := decide (n < 256) } else s.str.events.getD n {}
/-- The stall to which the image assigns Spring `n`. -/
def State.springOwner (s : State) (n : Nat) : Option Nat :=
  if s.str.bare then some 0 else (List.range 8).find? (fun t => (s.stallRec t).springs.contains n)
/-- The stall to which the image assigns two-wire controller `n`. -/
def State.twbOwner (s : State) (n : Nat) : Option Nat :=
  if s.str.bare then some 0 else (List.range 8).find? (fun t => (s.stallRec t).twb.contains n)
/-- The stall to which the image assigns CRC unit `k`. -/
def State.crcOwner (s : State) (k : Nat) : Option Nat :=
  if s.str.bare then some 0 else (List.range 8).find? (fun t => (s.stallRec t).crc.contains k)
/-- The image assigns every Spring of group `g` to stall `t`. -/
def State.ownsGroup (s : State) (t g : Nat) : Bool := (s.group g).springs.all (fun n => s.springOwner n == some t)
/-- The region of a kind with an owner. -/
def State.region (s : State) (kind owner : Nat) : Option LakeRegion :=
  s.str.lake.find? (fun r => r.kind == kind && r.owner == owner)
/-- The Lake regions of a kind with an owner, in a structure. -/
def Structure.regions (t : Structure) (kind owner : Nat) : List LakeRegion := t.lake.filter (fun r => r.kind == kind && r.owner == owner)
/-- The resend-window region that stream `n` names, in a structure (Table 2.2). -/
def Structure.windowOf (t : Structure) (n : Nat) : Option LakeRegion := ((t.streams.getD n {}).region).bind (fun k => t.lake[k]?)
/-- The size of an SRAM pond that the image gives (Table 2.2). -/
def State.sramSize (s : State) (p : Nat) : Nat := (s.str.sram.lookup p).getD 0

/-! Updates of one member of a family. -/

/-- Spring `n` changes. -/
def State.onSpr (s : State) (n : Fin 32) (f : Spring → Spring) : State := { s with spr := vupd s.spr n f }
/-- Group `g` changes. -/
def State.onGrp (s : State) (g : Fin 12) (f : Group → Group) : State := { s with grp := vupd s.grp g f }
/-- Two-wire controller `n` changes. -/
def State.onTwb (s : State) (n : Fin 32) (f : TwoWire → TwoWire) : State := { s with twb := vupd s.twb n f }
/-- Stall `t` changes. -/
def State.onStall (s : State) (t : Fin 8) (f : Stall → Stall) : State := { s with stalls := vupd s.stalls t f }
/-- Source `n` changes. -/
def State.onSrc (s : State) (n : Fin 768) (f : Source → Source) : State := { s with sources := vupd s.sources n f }
/-- Target `t` changes. -/
def State.onTgt (s : State) (t : Fin 20) (f : Target → Target) : State := { s with targets := vupd s.targets t f }
/-- Time base `n` changes. -/
def State.onTb (s : State) (n : Fin 4) (f : TimeBase → TimeBase) : State := { s with tb := vupd s.tb n f }
/-- Web-position base `n` changes. -/
def State.onWp (s : State) (n : Fin 4) (f : WebPos → WebPos) : State := { s with wp := vupd s.wp n f }
/-- Generator `b` changes. -/
def State.onLtg (s : State) (b : Fin 4) (f : Ltg → Ltg) : State := { s with ltg := vupd s.ltg b f }
/-- GPIO `i` changes. -/
def State.onGpio (s : State) (i : Fin 16) (f : Gpio → Gpio) : State := { s with gpio := vupd s.gpio i f }
/-- PTP port `p` changes. -/
def State.onPtp (s : State) (p : Fin 4) (f : PtpPort → PtpPort) : State := { s with ptp := vupd s.ptp p f }

/-- Engine context of group `g` changes. -/
def State.onEng (s : State) (g : Fin 12) (f : EngG → EngG) : State := { s with engs := vupd s.engs g f }
/-- Seam Unit of bar `b` changes. -/
def State.onSeam (s : State) (b : Fin 4) (f : SeamBar → SeamBar) : State := { s with seam := vupd s.seam b f }
/-- TNR stage of bar `b` changes. -/
def State.onTnr (s : State) (b : Fin 4) (f : Tnr → Tnr) : State := { s with tnr := vupd s.tnr b f }
/-- Tally of group `g` changes. -/
def State.onTally (s : State) (g : Fin 12) (f : Tally → Tally) : State := { s with tally := vupd s.tally g f }
/-- Load port of group `g` changes. -/
def State.onLoad (s : State) (g : Fin 12) (f : LoadPort → LoadPort) : State := { s with load := vupd s.load g f }
/-- Stream `n` changes. -/
def State.onOut (s : State) (n : Fin 16) (f : Stream → Stream) : State := { s with out := vupd s.out n f }
/-- The Market's side of stream `n` changes. -/
def State.onXpt (s : State) (n : Fin 16) (f : Xpt → Xpt) : State := { s with xpt := vupd s.xpt n f }
/-- Link `l` changes. -/
def State.onLink (s : State) (l : Fin 8) (f : Link → Link) : State := { s with links := vupd s.links l f }

/-- Run `f` over a list of numbers that are indexes of a family of `k`, in order. -/
def forFin {k : Nat} (f : Fin k → State → State) : List Nat → State → State
  | [], s => s
  | n :: ns, s => forFin f ns (match fin? k n with
    | some i => f i s
    | none => s)

/-- Run `f` over a list, in order. -/
def forAll {α : Type} (f : α → State → State) : List α → State → State
  | [], s => s
  | a :: l, s => forAll f l (f a s)

/-- Take a completion slot for an operation started with NOTIFY: whether one was free; if not, the loss is counted (R295). -/
def State.takeNotify (s : State) (t : Fin 8) : Bool × State :=
  if (s.stalls[t]).taken < 16 then (true, s.onStall t (fun x => { x with taken := x.taken + 1 }))
  else (false, (s.inc (A.stlCntNotifyLost t)).raise (A.stlEvt t) 4)

/-- Tap width of a tap point of group `g` (Table 9.1). -/
def State.tapWidth (s : State) (g tap : Nat) : Nat :=
  if g < 4 ∧ 2 ≤ tap ∧ tap ≤ 4 then (s.group g).width
  else (s.group g).springs.foldl (fun a n => a + s.f (A.sprLineLen n) 15 0 + 1) 0

/-! What the producer of an SRAM pond sees (R313, R315). -/

/-- Period in picoseconds of the clock of the producer of SRAM pond `p`: a Spring's byte clock, the core's, or the fabric's
(Tables 1.2 and 14.4). The word clock of a link's SerDes is not stated; ponds 74 to 83 take the fabric's. -/
def State.producerPs (s : State) (p : Nat) : Nat :=
  match fin? 32 p with
  | some n => 8000000 / atLeast1 (fld (s.spr[n]).phyCfg 13 0)
  | none => if p < 64 then 834 else 1250

/-- The consumer of SRAM pond `p` releases bytes: the read pointer passes them, and the producer sees the room 1 to 3 of its cycles
later, which of them is free (R313, R315). -/
def State.release (s : State) (p bytes : Nat) : State :=
  if bytes = 0 then s
  else
    let c := s.choose 3
    let at_ := s.now + ((c.1 + 1) * s.producerPs p + 999) / 1000
    forFin (fun (i : Fin 86) s => { s with
      readPtr := vupd s.readPtr i (· + bytes)
      releases := s.releases.filter (fun r => decide (s.now < r.at_)) ++ [{ pond := p, bytes := bytes, at_ := at_ }] }) [p] c.2

/-- Bytes released from SRAM pond `p` that its producer still counts as occupied (R315). -/
def State.unseen (s : State) (p : Nat) : Nat :=
  s.releases.foldl (fun a r => if r.pond = p ∧ s.now < r.at_ then a + r.bytes else a) 0

/-- Period in picoseconds of the clock of the consumer of SRAM pond `p`: the core's or the fabric's (Tables 1.2 and 14.4); a link's, which
is not stated, is taken as the fabric's (DESIGN CHOICE, assumption 71). -/
def consumerPs (p : Nat) : Nat := if p < 36 then 834 else if p < 52 then 1250 else if p < 64 then 834 else 1250

/-- The cycle at which a reset of SRAM pond `p` that is under way completes; 0 with none (R317). -/
def State.resetUntil (s : State) (p : Nat) : Nat := ((s.resets.lookup p).map (·.2)).getD 0

/-- A packet of SRAM pond `p` is complete: the cycle from which its consumer sees the notice, 1 to 3 of its cycles later, which of them is
free; a notice waits for a reset of the pond to complete (R314, R315, R317). -/
def State.notice (s : State) (p : Nat) : Nat × State :=
  let c := s.choose 3
  (max s.now (s.resetUntil p) + ((c.1 + 1) * consumerPs p + 999) / 1000, c.2)

/-- The pointers of SRAM pond `p`, in both copies, stand at 0; the reset completes within 4 cycles of the slower of the pond's two clocks, how
soon is free (R317). -/
def State.zeroPointers (s : State) (p : Nat) : State :=
  let c := s.choose 4
  let end_ := s.now + ((c.1 + 1) * max (s.producerPs p) (consumerPs p) + 999) / 1000
  forFin (fun (i : Fin 86) s => { s with
    readPtr := vupd s.readPtr i (fun _ => 0), releases := s.releases.filter (fun r => r.pond != p)
    resets := (p, s.now, end_) :: s.resets.filter (fun r => r.1 != p && decide (s.now < r.2.2)) }) [p] c.2

/-- Bytes that packets take in an SRAM pond (R313). -/
def packFill (l : List Packet64) : Nat := l.foldl (fun a p => a + (p.len + 63) / 64 * 64) 0

/-- Size of SRAM pond 64 + `p` (Table 14.4). -/
def netSize (p : Nat) : Nat := if p < 8 then 131072 else if p < 20 then 65536 else 4096

/-- A packet of `len` bytes has room in pond 64 + `p`, as its producer sees it (R315, R316). -/
def State.packRoom (s : State) (p : Fin 22) (len : Nat) : Bool :=
  decide (packFill (s.netPonds[p]) + (len + 63) / 64 * 64 + s.unseen (64 + p) ≤ netSize p)

/-- A packet of `len` bytes is complete in pond 64 + `p` (R314). -/
def State.addPacket (s : State) (p : Fin 22) (len : Nat) (frame : Option Bytes) (cpl : Option (Fin 8 × CplItem) := none) : State :=
  let c := s.notice (64 + p)
  let l := s.netPonds[p] ++ [{ len := len, seen := c.1, frame := frame, cpl := cpl }]
  ({ c.2 with netPonds := vupd c.2.netPonds p (fun _ => l) } : State).peak (A.pndpPeak (64 + p)) (packFill l)

/-- An item joins the completion pond of stall `t` (R295). -/
def State.takeCpl (s : State) (t : Fin 8) (it : CplItem) : State :=
  let s1 := s.onStall t (fun x => { x with cpl := x.cpl ++ [it] })
  (s1.raise (A.stlEvt t) 0).peak (A.pndpPeak (86 + t)) (s1.stalls[t]).cpl.length

/-- Credits of pond 84 that are free, of the 64 that the second bridge reserves for posted traffic of the data fabric (R22, R304). -/
def State.credits (s : State) : Nat := 64 - packFill (s.netPonds[(20 : Fin 22)]) / 64

/-- A completion item crosses to the control fabric: it takes a credit, a place of pond 84, or waits on the data side for one
(R295, R304, Table 13.9). -/
def State.postCpl (s : State) (t : Fin 8) (w0 w1 w2 : Nat) : State :=
  let it : CplItem := { w0 := wd w0, w1 := wd w1, w2 := wd w2, w3 := s.rd A.leRoundLo }
  if s.ctl.waitCpl.isEmpty && decide (0 < s.credits) then s.addPacket 20 64 none (some (t, it))
  else { s with ctl := { s.ctl with waitCpl := s.ctl.waitCpl ++ [(t, it)] } }

/-- Items that wait for a credit of pond 84 take those that are free (R304). -/
def State.takeCredits (s : State) : State :=
  let n := min s.ctl.waitCpl.length s.credits
  forAll (fun (x : Fin 8 × CplItem) s => s.addPacket 20 64 none (some x)) (s.ctl.waitCpl.take n)
    { s with ctl := { s.ctl with waitCpl := s.ctl.waitCpl.drop n } }

end Sys2Proof.Machine
end

