-- ==== Sys2Proof/Machine/Keep.lean ====
section
/-! DEFINITION. The correction tables as a store, and the retained store: what each record holds, commits and
verification (R361 to R366). -/

namespace Sys2Proof.Machine
open Sys2Proof

/-! The correction tables (Table 7.3): flat-field entry e of bank k at k × 2²⁰ + e, defect entry e of Spring n at
2²¹ + k × 2¹³ + 256 n + e, tone entry i of group g at 2²² + k × 2¹⁸ + g × 2¹⁴ + i. -/

/-- The factory content of the tables (Table 7.3). -/
def tblDef (a : Nat) : Word := if a < 2 ^ 21 then 0x40000000#32 else if a < 2 ^ 22 then 0#32 else wd (16 * (a % 4096))

/-- A table entry. -/
def State.tbl (s : State) (a : Nat) : Word := cellGet tblDef s.tables a

/-- A table entry is written. -/
def State.tblSet (s : State) (a : Nat) (v : Word) : State := { s with tables := cellSet tblDef s.tables a v }

/-- Key of flat-field entry `e` of a bank. -/
def ffKey (bank e : Nat) : Nat := bank * 2 ^ 20 + e
/-- Key of defect entry `e`, numbered Spring × 256 + entry, of a bank. -/
def defKey (bank e : Nat) : Nat := 2 ^ 21 + bank * 2 ^ 13 + e
/-- Key of tone entry `i` of group `g` of a bank. -/
def toneKey (bank g i : Nat) : Nat := 2 ^ 22 + bank * 2 ^ 18 + g * 2 ^ 14 + i

/-- Table banks in force of group `g` (Table 7.6). -/
def State.ffBank (s : State) (g : Nat) : Nat := s.f (A.corCtl g) 8 8
/-- The defect bank in force. -/
def State.defBank (s : State) (g : Nat) : Nat := s.f (A.corCtl g) 9 9
/-- The tone bank in force. -/
def State.toneBank (s : State) (g : Nat) : Nat := s.f (A.corCtl g) 10 10

/-- The flat-field range of Spring `n`: its first entry and its length W(n) × CH(g) (R158). -/
def State.ffRange (s : State) (n : Nat) : Nat × Nat :=
  let ch := match s.groupOf n with
    | some g => (s.group g).channels
    | none => 0
  ((s.rd (A.corFfBase n)).toNat, (s.f (A.sprLineLen n) 15 0 + 1) * ch)

/-- Keys of a bank and their numbers from a base, for entries with a property. -/
def State.tblPart (s : State) (lo hi : Nat) (p : Nat → Bool) : List (Nat × Word) :=
  (s.tables.filter (fun x => decide (lo ≤ x.1) && decide (x.1 < hi) && p (x.1 - lo))).map (fun x => (x.1 - lo, x.2))

/-- The defined groups. -/
def State.definedGroups (s : State) : List Nat := (List.range 12).filter s.defined

/-- The register fields that the KEPT record holds: Kept, and in no other record of Table 16.5. -/
def inKept (a : Nat) : Bool :=
  !(sysReg a || (decide (0x300100 ≤ a) && decide (a < 0x300180)) || (decide (0x208000 ≤ a) && decide (a < 0x20C000)) ||
    (decide (0x484000 ≤ a) && decide (a < 0x485000)))

/-- Kept values in force that differ from the factory values, in ascending address order (Table 16.5). -/
def State.keptValues (s : State) : List (Nat × Word) :=
  s.regs.filterMap (fun x => match rowOf x.1 with
    | some r =>
      let v := wd (x.2.toNat &&& r.kept)
      if inKept x.1 && r.kept != 0 && v != wd ((regDef x.1).toNat &&& r.kept) then some (x.1, v) else none
    | none => none)

/-- Registers of a range that differ from their reset values. -/
def State.regRange (s : State) (lo hi : Nat) : List (Nat × Word) :=
  s.regs.filter (fun x => decide (lo ≤ x.1) && decide (x.1 < hi))

/-- The channels of a population set by its code (Tables 11.1 and 11.6). -/
def setChannels (code : Nat) : List Nat :=
  match code with
  | 1 => List.range 12
  | 2 => [0, 2, 4, 6, 8, 10]
  | 3 => [1, 3, 5, 7, 9, 11]
  | 4 => [0, 3, 6, 9]
  | 5 => [1, 4, 7, 10]
  | 6 => [2, 5, 8, 11]
  | _ => []

/-- The content of a record kind 1 to 7 as it stands (Table 16.5). -/
def State.content (s : State) (kind : Nat) : RecContent :=
  match kind with
  | 1 => .system s.sic.bootB (s.rd A.sicKeyLock).toNat ((List.range 24).map (fun i => s.rd (A.sicPubkey (8 + i))))
      (s.rd A.sicSerialFloor).toNat
  | 2 => .keys (s.stalls.toList.map (·.key))
  | 3 => .kept s.keptValues
  | 4 =>
    let part := fun (g : Nat) => (s.group g).springs.flatMap (fun n =>
      let r := s.ffRange n
      s.tblPart (ffKey (s.ffBank g) 0) (ffKey (s.ffBank g) (2 ^ 20)) (fun e => decide (r.1 ≤ e) && decide (e < r.1 + r.2)))
    .flatfield (s.definedGroups.flatMap part) (s.regRange 0x300100 0x300180)
  | 5 =>
    let defects := s.definedGroups.flatMap (fun g => (s.group g).springs.flatMap (fun n =>
      s.tblPart (defKey (s.defBank g) 0) (defKey (s.defBank g) (2 ^ 13)) (fun e => e / 256 == n)))
    let tone := s.definedGroups.flatMap (fun g =>
      s.tblPart (toneKey (s.toneBank g) 0 0) (toneKey (s.toneBank g) 0 (2 ^ 18)) (fun i => i / 2 ^ 14 == g))
    .tables defects tone (s.regRange 0x208000 0x20C000 ++ s.regRange 0x484000 0x485000)
  | 6 => .lake ((List.range 12).filterMap (fun c => match fin? 12 c with
      | some i => (s.lakeCtl.chans[i]).baseline.map (fun b => (c, b))
      | none => none)) (setChannels s.lakeCtl.set_)
  | 7 => .time (s.tb.toList.map (·.epoch))
  | _ => .empty

/-- MAGIC of a record header: bytes 0x4B, 0x52, 0x45, 0x43 (Table 16.6). -/
def recMagic : Nat := 0x4345524B

/-- The header up to HCRC (Table 16.6). -/
def RecHead.front (h : RecHead) : Bytes :=
  leBytes 4 h.magic ++ leBytes 2 h.kind ++ leBytes 2 h.ver ++ leBytes 4 h.len ++ leBytes 4 h.gen ++ leBytes 4 h.serial ++
    leBytes 8 h.round ++ leBytes 4 h.pcrc ++ leBytes 28 h.reserved

/-- The header that 64 bytes spell (Table 16.6). -/
def readHead (b : Bytes) : RecHead :=
  { magic := leAt b 0 4, kind := leAt b 4 2, ver := leAt b 6 2, len := leAt b 8 4, gen := leAt b 12 4, serial := leAt b 16 4
    round := leAt b 20 8, pcrc := leAt b 28 4, reserved := leAt b 32 28, hcrc := leAt b 60 4 }

/-- A copy in the position of a kind is valid (R361). -/
def RecCopy.valid (c : RecCopy) (kind : Nat) : Bool :=
  c.head.magic == recMagic && c.head.kind == kind && c.head.hcrc == crc32c c.head.front &&
    c.head.pcrc == crc32c (c.payload.take c.head.len)

/-- What a position holds: 0 nothing, 1 a valid copy, 2 a bad one (Table 16.11). -/
def RecCopy.state (c : RecCopy) (kind : Nat) : Nat := if !c.written then 0 else if c.valid kind then 1 else 2

/-- The bank of the newest valid copy (R364). -/
def RecPair.newest (p : RecPair) (kind : Nat) : Option Bool :=
  match p.b0.state kind == 1, p.b1.state kind == 1 with
  | true, true => some (isLater 32 p.b1.head.gen p.b0.head.gen)
  | true, false => some false
  | false, true => some true
  | false, false => none

/-- The copy in a bank. -/
def RecPair.bank (p : RecPair) (bank1 : Bool) : RecCopy := if bank1 then p.b1 else p.b0

/-- The copy in a bank changes. -/
def RecPair.onBank (p : RecPair) (bank1 : Bool) (f : RecCopy → RecCopy) : RecPair :=
  if bank1 then { p with b1 := f p.b1 } else { p with b0 := f p.b0 }

/-- The records of a kind. -/
def State.recPair (s : State) (kind : Nat) : RecPair := s.keep.recs.getD (kind - 1) {}

/-- The bank of the newest valid copy of a kind (R364). -/
def State.newestOf (s : State) (kind : Nat) : Option Bool := (s.recPair kind).newest kind

/-- The newest valid copy of a kind (R364). -/
def State.validOf (s : State) (kind : Nat) : Option RecCopy := (s.newestOf kind).map (s.recPair kind).bank

/-- The factory content of a kind; that of SYSTEM, KEYS, LAKE and TIME is what a device without records holds (R364), for the LAKE record
no baseline and the full population set. -/
def factoryContent (kind : Nat) : RecContent :=
  match kind with
  | 1 => .system false 1 (List.replicate 24 0#32) 0
  | 2 => .keys (List.replicate 8 none)
  | 3 => .kept []
  | 4 => .flatfield [] []
  | 5 => .tables [] [] []
  | 6 => .lake [] (setChannels 1)
  | 7 => .time [0, 0, 0, 0]
  | _ => .empty

/-- A kind differs from its newest record (R362). -/
def State.kindDirty (s : State) (kind : Nat) : Bool :=
  match s.validOf kind with
  | some c => c.content != s.content kind
  | none => factoryContent kind != s.content kind

/-- Every record kind (Table 16.5). -/
def allKinds : List Nat := [1, 2, 3, 4, 5, 6, 7]

/-- KEEP_STATUS.DIRTY: a Kept value, or a content of Table 16.5, differs from its newest record (R362). -/
def State.dirty (s : State) : Bool := allKinds.any s.kindDirty

/-- The largest payload of a record kind (Table 16.5). -/
def largestPayload (kind : Nat) : Nat :=
  match kind with
  | 1 | 2 | 7 => 4096
  | 3 | 6 => 262144
  | 4 => 4194432
  | _ => 524288

/-- What a commit of some record kinds captures: each whose content differs from its newest valid copy (R362, R363). -/
def State.capture (s : State) (kinds : List Nat) : List (Nat × RecContent) :=
  (kinds.filter (fun k => match s.validOf k with
    | some c => c.content != s.content k
    | none => true)).map (fun k => (k, s.content k))

/-- Start a retained-store commit for some record kinds (R362, R363). -/
def State.startCommit (s : State) (kinds : List Nat) : State :=
  { s with keep := { s.keep with
      busy := true, again := [], firstChange := if kinds.contains 3 then none else s.keep.firstChange
      captured := kinds, writing := s.capture kinds } }

/-- A retained-store commit for some record kinds is asked for; while one is under way that has captured none of them it joins that one,
and otherwise it runs directly after (R362). -/
def State.requestCommitOf (s : State) (kinds : List Nat) : State :=
  if !s.keep.busy then s.startCommit kinds
  else if kinds.any s.keep.captured.contains then { s with keep := { s.keep with again := (s.keep.again ++ kinds).eraseDups } }
  else { s with keep := { s.keep with
      firstChange := if kinds.contains 3 then none else s.keep.firstChange
      captured := s.keep.captured ++ kinds, writing := s.keep.writing ++ s.capture kinds } }

/-- A retained-store commit of every record kind is asked for (R362). -/
def State.requestCommit (s : State) : State := s.requestCommitOf allKinds

/-- A whole copy of a kind with a generation and a payload, as a commit writes it (R361, R363). -/
def newCopy (kind gen serial round : Nat) (payload : Bytes) (c : RecContent) : RecCopy :=
  let h : RecHead := { magic := recMagic, kind := kind, ver := 1, len := payload.length, gen := gen % 2 ^ 32, serial := serial, round := round
                       pcrc := crc32c payload }
  { written := true, head := { h with hcrc := crc32c h.front }, payload := payload, content := c }

/-- The payload of a record written now: its bytes are the store's own (R361). -/
def State.payloadNow (s : State) (kind : Nat) : Bytes := (Config.recordBytes kind s.draws).take (largestPayload kind)

/-- Write one copy of a record into a bank (R361, R363, R366). -/
def State.writeCopy (s : State) (kind : Nat) (bank1 : Bool) (c : RecCopy) : State :=
  ({ s with
    draws := s.draws + 1
    keep := { s.keep with
      recs := updAt s.keep.recs (kind - 1) (fun p => p.onBank bank1 (fun _ => c))
      bank0Wr := if bank1 then s.keep.bank0Wr else min 0xFFFFFFFF (s.keep.bank0Wr + 1)
      bank1Wr := if bank1 then min 0xFFFFFFFF (s.keep.bank1Wr + 1) else s.keep.bank1Wr } }).inc A.keepCntCommit

/-- The bank and the generation of the next copy of a kind (R363). -/
def State.nextCopy (s : State) (kind : Nat) : Bool × Nat :=
  match s.newestOf kind with
  | none => (false, 1)
  | some b => (!b, ((s.recPair kind).bank b).head.gen + 1)

/-- Write the new copy of a captured record: into the bank without the newest valid copy, GEN one more (R363). -/
def State.writeRecord (s : State) (kind : Nat) (c : RecContent) : State :=
  let x := s.nextCopy kind
  s.writeCopy kind x.1 (newCopy kind x.2 (if s.str.bare then 0 else s.str.serial) s.round (s.payloadNow kind) c)

/-- The SYSTEM record is written at once, as it stands: a copy captured before gives way to it (R42, R48). -/
def State.writeSystem (s : State) : State :=
  ({ s with keep := { s.keep with writing := s.keep.writing.filter (fun x => x.1 != 1) } }).writeRecord 1 (s.content 1)

/-- COMMIT_DONE: every record of the commit is written (R362). -/
def execCommitDone (s : State) : Host.Outcome State Fault Refusal :=
  .next (s.whenOn fun s =>
    if !s.keep.busy then s
    else
      let s1 := forAll (fun (x : Nat × RecContent) s => s.writeRecord x.1 x.2) s.keep.writing s
      let s2 := { s1 with keep := { s1.keep with busy := false, captured := [], writing := [] } }.raise A.keepEvt 0
      if s2.keep.again.isEmpty then s2 else s2.startCommit s2.keep.again)

/-- A commit that power loss, reset or a thermal trip cuts short: some records are whole, of one more a part of the payload is written under
the old header, and the rest are untouched; how far the commit has come is free (R361, R363). -/
def State.cutCommit (s : State) : State :=
  if !s.keep.busy then s
  else
    let w := s.keep.writing
    let c := s.choose (w.length + 1)
    let s1 := forAll (fun (x : Nat × RecContent) s => s.writeRecord x.1 x.2) (w.take c.1) c.2
    let s2 := match w[c.1]? with
      | none => s1
      | some (k, _) =>
        let new := s1.payloadNow k
        let n := s1.choose (new.length + 1)
        let part := fun (x : RecCopy) => { x with written := true, payload := new.take n.1 ++ x.payload.drop n.1 }
        { n.2 with keep := { n.2.keep with recs := updAt n.2.keep.recs (k - 1) (fun p => p.onBank (s1.nextCopy k).1 part) } }
    { s2 with keep := { s2.keep with busy := false, again := [], captured := [], writing := [] } }

/-- KEEP_COMMIT: KEEP_CMD COMMIT (R362). -/
def execKeepCommit (s : State) : Host.Outcome State Fault Refusal := .next (s.whenOn fun s => s.requestCommit)

/-- KEEP_AUTO_COMMIT: DELAY has passed since the last Kept change, or ten times DELAY since the first (R362). -/
def execKeepAutoCommit (s : State) : Host.Outcome State Fault Refusal :=
  .next (s.whenOn fun s =>
    let d := ms (s.f A.keepAuto 15 0)
    match s.keep.firstChange with
    | none => s
    | some t => if d ≠ 0 ∧ (s.keep.lastChange + d ≤ s.tarn ∨ t + 10 * d ≤ s.tarn) then s.requestCommit else s)

/-- A verification of the retained store begins (R366). -/
def State.startVerify (s : State) : State := { s with keep := { s.keep with verifying := true, lastVerify := s.tarn } }

/-- KEEP_VERIFY: KEEP_CMD VERIFY (R366). -/
def execKeepVerify (s : State) : Host.Outcome State Fault Refusal := .next (s.whenOn fun s => s.startVerify)

/-- KEEP_VERIFY_PERIOD: KEEP_VERIFY hours have passed (R366). -/
def execKeepVerifyPeriod (s : State) : Host.Outcome State Fault Refusal :=
  .next (s.whenOn fun s =>
    let h := clampN 1 168 (s.f A.keepVerify 7 0)
    if s.keep.lastVerify + h * 3600 * 10 ^ 9 ≤ s.tarn then s.startVerify else s)

/-- A byte of a copy as the store has come to hold it: offset `o` from the start of its header, changed in the bits of `m`. -/
def RecCopy.flip (c : RecCopy) (o : Nat) (m : Byte) : RecCopy :=
  if o < 64 then { c with head := readHead (updAt (c.head.front ++ leBytes 4 c.head.hcrc) o (· ^^^ m)) }
  else { c with payload := updAt c.payload (o - 64) (· ^^^ m) }

/-- Repair a bad copy from its valid partner, as that stands (R366). -/
def State.repair (s : State) (kind : Nat) (bank1 : Bool) : State :=
  let p := s.recPair kind
  let good := p.bank (!bank1)
  if (p.bank bank1).state kind ≠ 2 ∨ good.state kind ≠ 1 then s
  else (s.writeCopy kind bank1 (newCopy kind (good.head.gen + 1) good.head.serial good.head.round (good.payload.take good.head.len)
    good.content)).raise A.keepEvt 3

/-- VERIFY_DONE: every copy has been read; `lost` gives the bytes that the store has come to hold otherwise since they were written: kind,
bank, offset and changed bits (R366). -/
def execVerifyDone (lost : List (Fin 7 × Bool × Nat × Byte)) (s : State) : Host.Outcome State Fault Refusal :=
  .next (s.whenOn fun s =>
    if !s.keep.verifying then s
    else
      let spoilt := forAll (fun (x : Fin 7 × Bool × Nat × Byte) (s : State) =>
        { s with keep := { s.keep with recs := updAt s.keep.recs x.1 (fun p => p.onBank x.2.1 (fun c => c.flip x.2.2.1 x.2.2.2)) } }) lost s
      let found := (allKinds.flatMap (fun k => [(k, false), (k, true)])).filter (fun x =>
        ((spoilt.recPair x.1).bank x.2).state x.1 == 2)
      let s1 := forAll (fun (_ : Nat × Bool) s => (s.inc A.keepCntBad).raise A.keepEvt 1) found spoilt
      let s2 := forAll (fun (x : Nat × Bool) s => s.repair x.1 x.2) found s1
      { s2 with keep := { s2.keep with verifying := false } })

end Sys2Proof.Machine
end

