-- ==== Sys2Proof/Machine/Time.lean ====
section
/-! DEFINITION. The Time Unit: time bases, slews and steps, web-position bases, captures and pulses (R256 to R263, R271,
R277, R278). -/

namespace Sys2Proof.Machine
open Sys2Proof

/-- 200 ppm and 500 ppm in units of 2⁻⁴⁸ (R257, R260). -/
abbrev ppm200 : Int := 56294995
/-- 500 ppm in units of 2⁻⁴⁸. -/
abbrev ppm500 : Int := 140737488
/-- One nanosecond in the units of a base's value. -/
abbrev oneNs : Nat := 2 ^ 48
/-- One second in the units of a base's value. -/
abbrev oneS : Nat := 10 ^ 9 * 2 ^ 48

/-- The base runs in binary format (Table 12.6). -/
def State.tbBinary (s : State) (n : Nat) : Bool := s.b (A.tbCtl n) 0

/-- SRC of the base: 0 free-running, 1 PTP, 2 software; 3 is treated as 0 (Table 12.6). -/
def State.tbSrc (s : State) (n : Nat) : Nat :=
  let v := s.f (A.tbCtl n) 5 4; if v = 3 then 0 else v

/-- Where a base's value wraps: 2⁴⁸ seconds in PTP format, 2³² seconds in binary format (Table 12.1). -/
def tbModulus (binary : Bool) : Nat := if binary then 2 ^ 32 * oneS else 2 ^ 48 * oneS

/-- The slew applied in `dt` cycles of a remainder `r` (R260). -/
def slewPart (r : Int) (dt : Nat) : Int :=
  if 0 ≤ r then min r ((dt : Int) * ppm200) else max r (-((dt : Int) * ppm200))

/-- The value of a base at time-clock cycle `c`, exactly (R256). -/
def TimeBase.valueAt (t : TimeBase) (c : Nat) : Int :=
  let dt := c - t.at_
  (t.val : Int) + (dt : Int) * ((oneNs : Int) + t.rate) + slewPart t.slew dt

/-- The base with its value brought up to cycle `c`. -/
def TimeBase.sync (t : TimeBase) (c : Nat) (binary : Bool) : TimeBase :=
  let dt := c - t.at_
  { t with val := (t.valueAt c % (tbModulus binary : Int)).toNat, at_ := max c t.at_, slew := t.slew - slewPart t.slew dt }

/-- A base's value in the 64-bit form of R200, with TIMEX. -/
def timeForm (binary : Bool) (v : Nat) : Nat × Nat :=
  if binary then (v / (10 ^ 9 * 2 ^ 16) % 2 ^ 64, 0)
  else
    let sec := v / oneS
    let ns := v / oneNs % 10 ^ 9
    let fr := v / 2 ^ 32 % 2 ^ 16
    (sec % 2 ^ 32 * 2 ^ 32 + ns * 4 + fr / 2 ^ 14, sec / 2 ^ 32 % 2 ^ 16 + fr % 2 ^ 14 * 2 ^ 16)

/-- The value that a time in the form of R200 with TIMEX stands for. -/
def ofTimeForm (binary : Bool) (lo hi ext : Nat) : Nat :=
  if binary then (hi * 2 ^ 32 + lo) * (10 ^ 9 * 2 ^ 16)
  else
    let sec := ext % 2 ^ 16 * 2 ^ 32 + hi
    let fr := lo % 4 * 2 ^ 14 + ext / 2 ^ 16 % 2 ^ 14
    sec * oneS + lo / 4 * oneNs + fr * 2 ^ 32

/-- Value, TIMEX and epoch of base `n` at cycle `c` (R200, R256). -/
def State.timeAt (s : State) (n : Fin 4) (c : Nat) : Nat × Nat × Nat :=
  let t := s.tb[n]
  let m := tbModulus (s.tbBinary n)
  let r := timeForm (s.tbBinary n) ((t.valueAt c % (m : Int)).toNat)
  (r.1, r.2, t.epoch)

/-- Raise STEP_FAIL with its cause (R271, Table 12.7). -/
def State.stepFail (s : State) (n : Fin 4) (cause : Nat) : State :=
  (s.onTb n (fun t => { t with fail := cause })).raise (A.tbEvt n) 7

/-- Cancel a pending step because of another step of the base (R271). -/
def State.cancelPend (s : State) (n : Fin 4) : State :=
  match (s.tb[n]).pend with
  | some _ => (s.onTb n (fun t => { t with pend := none })).stepFail n 2
  | none => s

/-- Whole seconds of base `n` at this cycle. -/
def State.wholeSec (s : State) (n : Fin 4) : Int := ((s.tb[n]).valueAt s.now % (tbModulus (s.tbBinary n) : Int)) / (oneS : Int)

/-- A step of base `n` to value `v`: between two cycles, EPOCH + 1, STEP raised, the epoch recorded (R258). -/
def State.stepTb (s : State) (n : Fin 4) (v : Int) : State :=
  let bin := s.tbBinary n
  let m : Int := tbModulus bin
  let before := s.wholeSec n
  let s1 := s.onTb n (fun t => { (t.sync s.now bin) with val := (v % m).toNat, epoch := (t.epoch + 1) % 256 })
  let s2 := forFin (fun (i : Fin 16) s => if s.f (A.gpioCtl i) 7 6 = n.val then
    s.onGpio i (fun g => { g with lastSec := g.lastSec + (s1.wholeSec n - before) }) else s) (List.range 16) s1
  (s2.raise (A.tbEvt n) 1).requestCommitOf [7]

/-- The slew of base `n` runs (R260). -/
def State.slewing (s : State) (n : Fin 4) : Bool :=
  let t := s.tb[n]
  decide (t.slew - slewPart t.slew (s.now - t.at_) ≠ 0)

/-- RATE of base `n` takes a new value at this cycle (R257). -/
def State.setRate (s : State) (n : Fin 4) (r : Int) : State :=
  s.onTb n (fun t => { (t.sync s.now (s.tbBinary n)) with rate := clampI (-ppm500) ppm500 r })

/-- A write of TBn_RATE with SRC 2 (R257). -/
def State.writeRate (s : State) (n : Fin 4) (r : Int) : State :=
  (s.setRate n r).onTb n (fun t => { t with softRate := clampI (-ppm500) ppm500 r })

/-- The s48.16 ns amount in TBn_STEP, in units of 2⁻⁴⁸ ns. -/
def State.stepAmount (s : State) (n : Fin 4) : Int :=
  sx 64 ((s.rd (A.tbStepLo n 1)).toNat * 2 ^ 32 + (s.rd (A.tbStepLo n 0)).toNat) * 2 ^ 32

/-- The servo's offset for a step: the last d less what p has applied since that sample (R271). -/
def State.servoOffset (s : State) (n : Fin 4) : Int :=
  let t := s.tb[n]
  t.lastD - t.phaseDone - t.phaseRate * ((s.now - t.phaseAt : Nat) : Int)

/-- From now on the phase correction p is no longer applied; what it has done since the last sample stands. -/
def State.endPhase (s : State) (n : Fin 4) : State :=
  s.onTb n (fun t => { t with phaseDone := t.lastD - s.servoOffset n, phaseAt := s.now, phaseRate := 0 })

/-- Nanoseconds of an interval of 2^`e` seconds. -/
def pow2s (e : Int) : Nat := if 0 ≤ e then 10 ^ 9 * 2 ^ e.toNat else 10 ^ 9 / 2 ^ (-e).toNat

/-- Interval `i` of an instance's messages in nanoseconds: 0 Sync, 1 Announce, 2 delay requests; values beyond Table 12.2 saturate (R264,
PIk_INTV). -/
def State.ptpInterval (s : State) (k i : Nat) : Nat :=
  pow2s (clampI (if i = 1 then -3 else -7) (if i = 0 then 1 else if i = 1 then 4 else 5) (sx 8 (s.f (A.piIntv k) (8 * i + 7) (8 * i))))

/-- Carry out an authorised step of base `n` at this moment (R271). -/
def State.authorisedStep (s : State) (n : Fin 4) (amount : Option Int) : State :=
  let t := s.tb[n]
  let done := fun (a : Int) => ((s.stepTb n (t.valueAt s.now + a)).onTb n (fun t => { t with gmStep := false, pend := none }))
  match amount with
  | some a => done a
  | none =>
    let syncNs := s.ptpInterval n 0
    if t.st ≠ .locked then (s.onTb n (fun t => { t with pend := none })).stepFail n 5
    else match t.lastAt with
      | none => (s.onTb n (fun t => { t with pend := none })).stepFail n 3
      | some a =>
        if 4 * syncNs < s.now - a then (s.onTb n (fun t => { t with pend := none })).stepFail n 3
        else done (s.servoOffset n)

/-- The steps that wait for the next frame start of bar `b` fall now (R271). -/
def State.stepsAtFrame (s : State) (b : Nat) : State :=
  forFin (fun (n : Fin 4) s => match (s.tb[n]).pend with
    | some p => if p.bar = b then s.authorisedStep n p.amount else s
    | none => s) [0, 1, 2, 3] s

/-! Web-position bases. -/

/-- WPn counts by its simulator (R263). -/
def State.wpSimulated (s : State) (n : Nat) : Bool := s.b (A.wpCtl n) 4

/-- The interpolation fraction of an encoder base at cycle `c`; while an edge at the balls has not passed the filter it holds at 65,535
(R262). -/
def WebPos.frac (w : WebPos) (c : Nat) : Nat :=
  if w.stopped then w.held
  else match w.delta with
    | none => 0
    | some d => if w.atBalls then 65535 else min ((c - w.te) * 65536 / atLeast1 d) 65535

/-- The 48.16 web position of base `n` at cycle `c` (R262), modulo 2⁶⁴. -/
def State.wpAt (s : State) (n : Fin 4) (c : Nat) : Nat :=
  let w := s.wp[n]
  let f := w.frac c
  lowBits 64 ((w.count : Int) * 65536 + (if w.back then -(f : Int) else (f : Int)))

/-- The velocity of base `n`, counts per ms in s24.8 (R263). -/
def State.wpVel (s : State) (n : Fin 4) : Int :=
  let w := s.wp[n]
  if w.stopped then 0
  else match w.delta with
    | none => 0
    | some d => let v := rdiv (256 * 10 ^ 6) (atLeast1 d); if w.back then -v else v

/-- `k` count edges of base `n` in a direction, the last timed at cycle `te` (R261, R262). An encoder gives one at a time. -/
def State.countEdges (s : State) (n : Fin 4) (back : Bool) (k te : Nat) : State :=
  let w := s.wp[n]
  let reversal := w.moved && w.back != back
  let w' : WebPos := { w with
    count := lowBits 48 ((w.count : Int) + (if back then -(k : Int) else (k : Int)))
    delta := if w.moved && w.back == back then some ((te - w.te) / atLeast1 k) else none
    te := te, back := back, moved := true, stopped := false, held := 0, atBalls := false }
  let s1 := s.onWp n (fun _ => w')
  let s2 := if w.stopped then s1.raise (A.wpEvt n) 2 else s1
  if reversal then s2.raise (A.wpEvt n) 3 else s2

/-- One cycle of the simulator of a base with SRC 1: it moves by WPn_SIM, and whole counts passed are count edges (R263). -/
def State.simulate (s : State) (n : Fin 4) : State :=
  if !(s.wpSimulated n && s.b (A.wpCtl n) 0) then s
  else
    let unit : Int := 256 * 10 ^ 6
    let x : Int := ((s.wp[n]).simAcc : Int) + sx 32 (s.rd (A.wpSim n)).toNat
    let q := x / unit
    let s1 := s.onWp n (fun w => { w with simAcc := (x % unit).toNat })
    if q = 0 then s1 else s1.countEdges n (decide (q < 0)) q.natAbs s.now

/-- A write of WPn_CTL: a base that turns to the simulator counts from where it stands (R263). -/
def State.writeWpCtl (s : State) (n : Fin 4) (v : Word) : State :=
  let s1 := s.wrK (A.wpCtl n) (wd (v.toNat &&& 0x3F1F))
  if s1.wpSimulated n && !s.wpSimulated n then s1.onWp n (fun w => { w with simAcc := 0 }) else s1

/-- FILT of an encoder in ns (Table 12.9). -/
def State.wpFilt (s : State) (n : Nat) : Nat := s.f (A.wpCtl n) 11 8

/-- The cycle at which an edge that the filter of base `n` now passes fell at the balls: FILT and the fixed delay of the input, at most
5 ns, ago (R262). -/
def State.ballTime (s : State) (n delay : Nat) : Nat := s.now - (min delay 5 + s.wpFilt n)

/-- The levels `a` and `b` of ENCn_A and ENCn_B would count on base `n`, and whether forward (R261, Table 12.9). -/
def State.edgeCounts (s : State) (n : Fin 4) (a b : Bool) : Option Bool :=
  let w := s.wp[n]
  if (w.a != a) == (w.b != b) || !s.b (A.wpCtl n) 0 then none
  else
    let onA := w.a != a
    let d := s.f (A.wpCtl n) 2 1
    if (if d = 1 then onA else if d = 2 then onA && a else true) then some ((if onA then a != b else a == b) != s.b (A.wpCtl n) 3) else none

/-- ENCODER_EDGE: ENCn_A and ENCn_B have held the levels `a` and `b` behind the input's fixed delay for `held` ns; the filter passes them
once that is FILT; until then an edge stands at the balls (R261, R262). In Doze the levels are followed and nothing is counted (R352). -/
def execEncoderEdge (n : Fin 4) (a b : Bool) (delay held : Nat) (s : State) : Host.Outcome State Fault Refusal :=
  .next (if s.power.st = .doze then s.onWp n (fun w => { w with a := a, b := b }) else s.whenOn fun s =>
    if held < s.wpFilt n then
      (if s.wpSimulated n then s else s.onWp n (fun w => { w with atBalls := (s.edgeCounts n a b).isSome }))
    else
      let w := s.wp[n]
      let s1 := s.onWp n (fun w => { w with a := a, b := b, atBalls := false })
      if s.wpSimulated n then s1
      else if w.a != a && w.b != b then ((s1.inc (A.wpCntErr n)).raise (A.wpEvt n) 0)
      else match s.edgeCounts n a b with
        | some fwd => s1.countEdges n (!fwd) 1 (s.ballTime n delay)
        | none => s1)

/-- ENCODER_INDEX: an edge of ENCn_I, whose new level has stood behind the input's fixed delay for `held` ns, passes the filter once that is
FILT (R262, R263). -/
def execEncoderIndex (n : Fin 4) (rising : Bool) (delay held : Nat) (s : State) : Host.Outcome State Fault Refusal :=
  .next (s.whenOn fun s =>
    let i := s.f (A.wpCtl n) 13 12
    if s.wpSimulated n ∨ held < s.wpFilt n then s
    else if (i = 1 ∧ rising = true) ∨ (i = 2 ∧ rising = false) then
      let p := s.wpAt n (s.ballTime n delay)
      ((((s.wr (A.wpIdxLo n 0) (wd p)).wr (A.wpIdxLo n 1) (wd (p / 2 ^ 32))).wr (A.wpIdxCnt n)
        (s.rd (A.wpIdxCnt n) + 1#32))).raise (A.wpEvt n) 4
    else s)

/-- ENCODER_STALL: no edge for WPn_STALL makes the base stopped (R262). -/
def execEncoderStall (n : Fin 4) (s : State) : Host.Outcome State Fault Refusal :=
  .next (s.whenOn fun s =>
    let w := s.wp[n]
    if w.stopped || decide (s.now - w.te < us (atLeast1 (s.f (A.wpStall n) 15 0))) then s
    else (s.onWp n (fun w => { w with stopped := true, held := w.frac s.now })).raise (A.wpEvt n) 1)

/-! Time base commands. -/

/-- What `execTbSet` does. -/
def State.tbSet (s : State) (n : Fin 4) : State :=
  if s.tbSrc n = 1 then s.stepFail n 5
  else
    let v := ofTimeForm (s.tbBinary n) (s.rd (A.tbSetLo n 0)).toNat (s.rd (A.tbSetLo n 1)).toNat
      (s.rd (A.tbSetLo n 2)).toNat
    (s.cancelPend n).stepTb n v

/-- TB_SET: TBn_CMD SET steps the base to the value in TBn_SET; refused on a base with SRC 1 (R258, R271). -/
def execTbSet (n : Fin 4) (s : State) : Host.Outcome State Fault Refusal :=
  .next (s.whenOn fun s => s.tbSet n)

/-- What `execTbStep` does. -/
def State.tbStep (s : State) (n : Fin 4) (useReg atFrame : Bool) (bar : Fin 4) : State :=
  if useReg && s.tbSrc n == 1 then s.stepFail n 5
  else
    let amount := if useReg then some (s.stepAmount n) else none
    let s1 := match (s.tb[n]).pend with
      | some _ => (s.onTb n (fun t => { t with pend := none })).stepFail n 1
      | none => s
    if atFrame then
      if s1.defined bar then s1.onTb n (fun t => { t with pend := some { amount := amount, bar := bar } })
      else s1.stepFail n 4
    else s1.authorisedStep n amount

/-- TB_STEP: TBn_CMD STEP authorises one step, at once or at the next frame start of a bar (R271). -/
def execTbStep (n : Fin 4) (useReg atFrame : Bool) (bar : Fin 4) (s : State) : Host.Outcome State Fault Refusal :=
  .next (s.whenOn fun s => s.tbStep n useReg atFrame bar)

/-- What `execTbSlew` does. -/
def State.tbSlew (s : State) (n : Fin 4) : State :=
  if s.tbSrc n = 2 then s.onTb n (fun t => { (t.sync s.now (s.tbBinary n)) with slew := s.stepAmount n }) else s

/-- TB_SLEW: TBn_CMD SLEW applies TBn_STEP at ±200 ppm without a step, on a base with SRC 2 (R260). -/
def execTbSlew (n : Fin 4) (s : State) : Host.Outcome State Fault Refusal :=
  .next (s.whenOn fun s => s.tbSlew n)

/-- SLEW_DONE: the slew amount is fully applied and SL is 0 again (R260). -/
def execSlewDone (n : Fin 4) (s : State) : Host.Outcome State Fault Refusal :=
  .next (s.whenOn fun s =>
    if s.slewing n then s else s.onTb n (fun t => t.sync s.now (s.tbBinary n)))

/-- What `execTbCancel` does. -/
def State.tbCancel (s : State) (n : Fin 4) : State :=
  s.onTb n (fun t => { t with pend := none })

/-- TB_CANCEL: TBn_CMD CANCEL cancels a pending step without STEP_FAIL (R271). -/
def execTbCancel (n : Fin 4) (s : State) : Host.Outcome State Fault Refusal :=
  .next (s.whenOn fun s => s.tbCancel n)

/-- What `execTbRelock` does. -/
def State.tbRelock (s : State) (n : Fin 4) : State :=
  if s.tbSrc n = 1 then s.onTb n (fun t => { t with st := .unlocked, first := none }) else s

/-- TB_RELOCK: TBn_CMD RELOCK returns a base with SRC 1 to UNLOCKED (R269). -/
def execTbRelock (n : Fin 4) (s : State) : Host.Outcome State Fault Refusal :=
  .next (s.whenOn fun s => s.tbRelock n)

/-- A write of TBn_CTL: a change of FMT steps the base to 0 in the new format, and a change of SRC sets the servo state
and RATE of the new source (R257, R258, R268). -/
def State.writeTbCtl (s : State) (n : Fin 4) (v : Word) : State :=
  let oldFmt := s.tbBinary n
  let oldSrc := s.tbSrc n
  let s0 := s.onTb n (fun t => t.sync s.now oldFmt)
  let s1 := s0.wrK (A.tbCtl n) (wd (v.toNat &&& 0x31))
  let s2 := if s1.tbBinary n = oldFmt then s1 else
    let s' := (s1.cancelPend n).stepTb n 0
    if s'.tbSrc n = 1 then s'.onTb n (fun t => { t with st := .unlocked, first := none }) else s'
  let src := s2.tbSrc n
  if src = oldSrc then s2
  else if src = 1 then s2.onTb n (fun t => { t with st := .unlocked, first := none })
  else (s2.setRate n (if src = 2 then (s.tb[n]).softRate else 0)).onTb n (fun t => { t with st := .free })

/-- TB_FORMAT_CHANGE: a write of TBn_CTL that changes FMT steps the base to 0 in the new format (R258). -/
def execTbFormatChange (n : Fin 4) (binary : Bool) (s : State) : Host.Outcome State Fault Refusal :=
  .next (s.whenOn fun s => s.writeTbCtl n (setBit (s.rd (A.tbCtl n)) 0 binary))

/-- What `execTimSnap` does. -/
def State.timSnap (s : State) : State :=
  let s1 := forFin (fun (n : Fin 4) s =>
    let t := s.timeAt n s.now
    ((s.wr (A.timSnapTb n 0) (wd t.1)).wr (A.timSnapTb n 1) (wd (t.1 / 2 ^ 32))).wr (A.timSnapTb n 2) (wd t.2.1))
    [0, 1, 2, 3] s
  forFin (fun (n : Fin 4) s =>
    let p := s.wpAt n s.now
    (s.wr (A.timSnapWp n 0) (wd p)).wr (A.timSnapWp n 1) (wd (p / 2 ^ 32))) [0, 1, 2, 3] s1

/-- TIM_SNAP: TIM_CMD SNAP latches all time bases and web positions on one cycle (R260). -/
def execTimSnap (s : State) : Host.Outcome State Fault Refusal :=
  .next (s.whenOn fun s => s.timSnap)

/-! GPIO captures and pulses. -/

/-- The base number in a two-bit field. -/
def two (v : Nat) : Fin 4 := ⟨v % 4, Nat.mod_lt _ (by decide)⟩

/-- GPIO_EDGE: an edge of GPIOi whose new level has stood for `held` ns passes the filter once that is FILT; it is captured and passed to
every group whose mark sensor it is (R168, R277). -/
def execGpioEdge (i : Fin 16) (falling : Bool) (held : Nat) (s : State) : Host.Outcome State Fault Refusal :=
  .next (s.whenOn fun s =>
    if held < s.f (A.gpioCtl i) 23 16 then s else
    let e := s.f (A.gpioCtl i) 5 4
    let sel := e ≥ 2 || (e == 1) == falling
    let s1 :=
      if s.f (A.gpioCtl i) 1 0 = 1 && sel then
        let tbn := two (s.f (A.gpioCtl i) 7 6)
        let wpn := two (s.f (A.gpioCtl i) 9 8)
        let t := s.timeAt tbn s.now
        if (s.gpio[i]).fifo.length < 16 then
          let c := Capture.mk t.1 t.2.1 t.2.2 falling (s.wpAt wpn s.now)
          (s.onGpio i (fun g => { g with fifo := g.fifo ++ [c] })).raise (A.gpioEvt i) 0
        else (s.inc (A.gpioCntOvf i)).raise (A.gpioEvt i) 1
      else s
    forFin (fun (g : Fin 12) s => match (s.group g).mark with
      | .sensor input fall => if input = i ∧ fall = falling then
          s.onGrp g (fun x => { x with edges := x.edges ++ [s.now] }) else s
      | _ => s) (List.range 12) s1)

/-- TIM_GPIOi_CTL has been written: where FUNC or TB changed, only seconds that pass from now on give pulses, and a pin whose FUNC is
no longer 2 ends its pulse (R278). -/
def State.gpioSwitch (s old : State) (i : Fin 16) : State :=
  if s.rd (A.gpioCtl i) = old.rd (A.gpioCtl i) then s
  else s.onGpio i (fun g => { g with
    lastSec := if s.f (A.gpioCtl i) 1 0 = old.f (A.gpioCtl i) 1 0 ∧ s.f (A.gpioCtl i) 7 6 = old.f (A.gpioCtl i) 7 6 then g.lastSec
      else s.wholeSec (two (s.f (A.gpioCtl i) 7 6))
    pulse := if s.f (A.gpioCtl i) 1 0 = 2 then g.pulse else none })

/-- The value a read of TIM_GPIOi_CAP_TIME_LO returns, and the state after it (R277). -/
def State.capRead (s : State) (i : Fin 16) : Word × State :=
  match (s.gpio[i]).fifo with
  | [] => (0#32, (((s.wr (A.gpioCapTimeHi i) 0#32).wr (A.gpioCapInfo i) 0#32).wr (A.gpioCapWpLo i 0) 0#32).wr
      (A.gpioCapWpLo i 1) 0#32)
  | c :: rest =>
    let info := 2 ^ 31 + (if c.falling then 2 ^ 30 else 0) + c.epoch % 256 * 2 ^ 16 + c.timex % 2 ^ 16
    (wd c.time,
      (((((s.onGpio i (fun g => { g with fifo := rest })).wr (A.gpioCapTimeHi i) (wd (c.time / 2 ^ 32))).wr
        (A.gpioCapInfo i) (wd info)).wr (A.gpioCapWpLo i 0) (wd c.pos)).wr (A.gpioCapWpLo i 1) (wd (c.pos / 2 ^ 32))))

/-- CAPTURE_READ: a read of TIM_GPIOi_CAP_TIME_LO returns and removes the oldest capture (R277). -/
def execCaptureRead (i : Fin 16) (s : State) : Host.Outcome State Fault Refusal :=
  .next (s.whenOn fun s => let r := s.capRead i; r.2.emit (.value 0 r.1.toNat))

/-- PPS_PULSE: GPIOi with FUNC 2 pulses as its base crosses a whole second; a step over the boundary gives none (R278). -/
def execPpsPulse (i : Fin 16) (s : State) : Host.Outcome State Fault Refusal :=
  .next (s.whenOn fun s =>
    let n := two (s.f (A.gpioCtl i) 7 6)
    let sec := s.wholeSec n
    if s.f (A.gpioCtl i) 1 0 ≠ 2 ∨ sec = (s.gpio[i]).lastSec then s
    else (s.onGpio i (fun g => { g with pulse := some s.now, lastSec := sec })).emit
      (.pps i s.now (us (atLeast1 (s.f (A.gpioCtl i) 31 24)))))

/-- PPS_PULSE_END: WIDTH µs after its start the pulse ends (R278). -/
def execPpsPulseEnd (i : Fin 16) (s : State) : Host.Outcome State Fault Refusal :=
  .next (s.whenOn fun s =>
    match (s.gpio[i]).pulse with
    | some t => if us (atLeast1 (s.f (A.gpioCtl i) 31 24)) ≤ s.now - t then
        s.onGpio i (fun g => { g with pulse := none }) else s
    | none => s)

end Sys2Proof.Machine
end

