-- ==== Sys2Proof/Machine/Ptp.lean ====
section
/-! DEFINITION. The PTP engine and the servo (R264 to R273). Times are in units of 2⁻⁴⁸ ns. -/

namespace Sys2Proof.Machine
open Sys2Proof

/-- portState numbers of IEEE 1588-2019. -/
abbrev psFaulty : Nat := 2
/-- portState DISABLED. -/
abbrev psDisabled : Nat := 3
/-- portState LISTENING. -/
abbrev psListening : Nat := 4
/-- portState MASTER. -/
abbrev psMaster : Nat := 6
/-- portState PASSIVE. -/
abbrev psPassive : Nat := 7
/-- portState SLAVE. -/
abbrev psSlave : Nat := 9

/-- The instance that a PTP port belongs to (R265). -/
def State.ptpInst (s : State) (p : Nat) : Fin 4 := two (s.f (A.ptpCtl p) 2 1)

/-- The port and its instance are enabled (Table 12.10). -/
def State.ptpOn (s : State) (p : Nat) : Bool := s.b (A.ptpCtl p) 0 && s.b (A.piCtl (s.ptpInst p)) 0

/-- PROFILE of an instance. -/
def State.ptpProfile (s : State) (k : Nat) : Nat := s.f (A.piCtl k) 2 1

/-- The port measures peer to peer: forced by the profile (R265). -/
def State.ptpP2p (s : State) (p : Nat) : Bool := s.ptpProfile (s.ptpInst p) ≠ 0

/-- The transport in force: profile 2 forces L2 (R265). -/
def State.ptpTransport (s : State) (p : Nat) : Nat :=
  if s.ptpProfile (s.ptpInst p) = 2 then 0 else s.f (A.ptpCtl p) 5 4

/-- The port accepts a message: enabled, up, its domain and transport match. -/
def State.ptpAccepts (s : State) (p : Fin 4) (m : PtpMsg) : Bool :=
  s.ptpOn p && (s.ptp[p]).linkUp && m.domain == s.f (A.piCtl (s.ptpInst p)) 15 8 && m.transport == s.ptpTransport p

/-- A message that the port accepts is counted and acted on; any other is counted as discarded (R216). -/
def State.ptpGate (s : State) (p : Fin 4) (m : PtpMsg) (f : State → State) : State :=
  if s.ptpAccepts p m then f (s.inc (A.ptpCntTx p 1)) else s.inc (A.ptpCntTx p 2)

/-- The local time of a port's base at this cycle, plus a board latency field (R266). -/
def State.ptpLocal (s : State) (p : Fin 4) (latency : Nat) : Int :=
  (s.tb[s.ptpInst p]).valueAt s.now + sx 24 (s.f (A.ptpIngress p latency) 23 0) * 2 ^ 40

/-- The time that a port sends as that of this cycle, plus a board latency field: the value of its base, of a binary base its count of 2⁻³² s
(R265, R266). -/
def State.ptpStamp (s : State) (p : Fin 4) (latency : Nat) : Int :=
  let v := s.ptpLocal p latency
  if s.tbBinary (s.ptpInst p) then v - (s.tb[s.ptpInst p]).valueAt s.now % (10 ^ 9 * 2 ^ 16) else v

/-- A number of units of 2⁻¹⁶ ns in units of 2⁻⁴⁸ ns. -/
abbrev up32 (x : Int) : Int := x * 2 ^ 32

/-- The multicast destination of a message kind on a transport (R265): a MAC, IPv4 or IPv6 address; kinds 2, 3 and 10 measure peer delay. -/
def ptpDest (transport kind : Nat) : Nat :=
  let peer := kind == 2 || kind == 3 || kind == 10
  if transport = 1 then (if peer then 0xE000006B else 0xE0000181)
  else if transport = 2 then (if peer then 0xFF02 * 2 ^ 112 + 0x6B else 0xFF0E * 2 ^ 112 + 0x181)
  else if peer then 0x0180C200000E else 0x011B19000000

/-- Send a PTP message of the instance's domain: it is counted and put on the port (R264, R265). -/
def State.ptpSend (s : State) (p : Fin 4) (kind seq : Nat) (time corr : Int) (ann : Option AnnounceDs := none) : State :=
  (s.inc (A.ptpCntTx p 0)).emit (.ptp p (s.f (A.piCtl (s.ptpInst p)) 15 8) kind seq time corr (ptpDest (s.ptpTransport p) kind) (s.tbBinary (s.ptpInst p)) ann)

/-- Raise LOCK and enter LOCKED. -/
def State.servoLock (s : State) (n : Fin 4) : State :=
  (s.onTb n (fun t => { t with st := .locked })).raise (A.tbEvt n) 0

/-- The servo of base `n` on an offset d, with t1 (correction included) and t2 of the sample (R268). -/
def State.servo (s : State) (n : Fin 4) (d t1 t2 : Int) : State :=
  let t := s.tb[n]
  let stepThr : Int := atLeast1 (s.f (A.tbThr n) 15 0) * oneNs
  let gmThr : Int := atLeast1 (s.f (A.tbThr n) 31 16) * 1000 * oneNs
  let absd : Int := if d < 0 then -d else d
  if s.tbSrc n ≠ 1 then s
  else match t.st with
  | .unlocked =>
    match t.first with
    | none => s.onTb n (fun t => { t with first := some (t1, t2) })
    | some (a1, a2) =>
      let dt2 := t2 - a2
      let fr : Int := if dt2 ≤ 0 then 0 else rdiv (((t1 - a1) - dt2) * 2 ^ 48) dt2.toNat
      let s1 := if stepThr < absd then (s.cancelPend n).stepTb n ((s.tb[n]).valueAt s.now + d) else s
      (s1.onTb n (fun t => { t with freq := clampI (-(2 ^ 31)) (2 ^ 31 - 1) fr, gmStep := false, first := none })).servoLock n
  | .holdover => (s.onTb n (fun t => { t with st := .locked }))
  | .locked =>
    let sgn : Int := if d < 0 then -1 else 1
    let wasGm := t.gmStep
    let s1 := if gmThr < absd then
        let s' := if wasGm then s else s.raise (A.tbEvt n) 2
        s'.onTb n (fun t => { t with gmStep := true, gmDir := decide (0 < d) })
      else if absd * 2 ≤ gmThr then s.onTb n (fun t => { t with gmStep := false })
      else s
    let g := (s1.tb[n]).gmStep
    let i := if g then t.freq
      else clampI (-ppm500) ppm500 (t.freq + rdiv d (10 ^ 9 * 2 ^ (s.f (A.tbGain n) 3 0)))
    let p := if g then sgn * ppm200
      else clampI (-ppm200) ppm200 (rdiv d (10 ^ 9 * 2 ^ (s.f (A.tbGain n) 11 8)))
    let s2 := s1.setRate n (i + p)
    s2.onTb n (fun t => { t with freq := i, phaseAt := s.now, phaseRate := t.rate - i })
  | _ => s

/-- An offset between a master's time and a binary base, which holds the time modulo 2³² s (R256, R265). -/
def State.baseDiff (s : State) (n : Fin 4) (d : Int) : Int :=
  if s.tbBinary n then
    let m : Int := tbModulus true
    (d + m / 2) % m - m / 2
  else d

/-- A complete Sync sample on a slave port, taken when the Sync came: the offset d is formed, reported and given to the servo (R267, R268);
on a delay-suspect port it yields no servo update (R272). What p has applied since the sample counts against d (R271). -/
def State.syncSample (s : State) (p : Fin 4) (t1 t2 : Int) : State :=
  let n := s.ptpInst p
  let asym := if (s.ptp[p]).suspect then (s.ptp[p]).asym else sx 32 (s.rd (A.ptpAsym p)).toNat
  let dm := (s.ptp[p]).dm
  let d := s.baseDiff n (t1 + dm + up32 asym - t2)
  let at_ := (s.ptp[p]).syncAt
  let s0 := s.onPtp p (fun x => { x with t1 := t1, t2 := t2, asym := asym, synced := true, sync := none })
  let s1 := s0.onTb n (fun t => { t with
    lastD := d, lastAt := some at_, phaseDone := t.phaseRate * ((s.now - max at_ t.phaseAt : Nat) : Int), phaseAt := s.now })
  let s2 := s1.wr (A.tbOffset n) (wd (lowBits 32 (clampI (-2147483647) 2147483647 (rdiv d oneNs))))
  if (s.ptp[p]).suspect then s2 else s2.servo n d t1 t2

/-- PTP_SYNC: a received Sync is timestamped; a one-step Sync forms d at once (R267, R268). -/
def execPtpSync (p : Fin 4) (m : PtpMsg) (s : State) : Host.Outcome State Fault Refusal :=
  .next (s.whenOn fun s => s.ptpGate p m fun s =>
    if (s.ptp[p]).state ≠ psSlave then s
    else
      let t2 := s.ptpLocal p 0
      let s1 := s.onPtp p (fun x => { x with syncAt := s.now })
      if m.twoStep then s1.onPtp p (fun x => { x with sync := some (m.seq, t2, m.corr) })
      else s1.syncSample p (up32 (m.time + m.corr)) t2)

/-- PTP_FOLLOW_UP: a received Follow_Up supplies t1 of a two-step Sync (R267). -/
def execPtpFollowUp (p : Fin 4) (m : PtpMsg) (s : State) : Host.Outcome State Fault Refusal :=
  .next (s.whenOn fun s => s.ptpGate p m fun s =>
    match (s.ptp[p]).sync with
    | some (q, t2, c) => if q = m.seq then s.syncSample p (up32 (m.time + m.corr + c)) t2 else s
    | none => s)


/-- PTP_DELAY_REQ: a master port timestamps a Delay_Req and answers with Delay_Resp (R264, R266). -/
def execPtpDelayReq (p : Fin 4) (m : PtpMsg) (s : State) : Host.Outcome State Fault Refusal :=
  .next (s.whenOn fun s => s.ptpGate p m fun s =>
    if (s.ptp[p]).state = psMaster ∧ s.ptpP2p p = false then s.ptpSend p 9 m.seq (s.ptpStamp p 0) (up32 m.corr) else s)

/-- Leave delay-suspect: the servo returns to LOCKED and a waiting ASYM takes effect (R272, R273). -/
def State.leaveSuspect (s : State) (p : Fin 4) : State :=
  let n := s.ptpInst p
  let s1 := s.onPtp p (fun x => { x with suspect := false, asym := sx 32 (s.rd (A.ptpAsym p)).toNat })
  if (s1.tb[n]).st = .delaySuspect then s1.onTb n (fun t => { t with st := .locked }) else s1

/-- A new run of raw delays begins with r (R272). -/
def PtpPort.newRun (x : PtpPort) (r : Int) (now : Nat) : PtpPort :=
  { x with runRef := r, runStart := now, runSum := r, runN := 1, dsLong := false }

/-- A raw mean path delay r of a slave port: it is filtered, or handled as delay-suspect (R267, R272). -/
def State.delayResult (s : State) (p : Fin 4) (r : Int) : State :=
  let n := s.ptpInst p
  let x := s.ptp[p]
  let thr : Int := atLeast1 (s.f (A.ptpDs p) 15 0) * oneNs
  let hold := atLeast1 (s.f (A.ptpDs p) 31 16) * 10000000
  let far := fun (a b : Int) => decide (thr < (if a < b then b - a else a - b))
  let s := s.wr (A.ptpDelayRaw p) (wd (satU 32 (rdiv r (2 ^ 40))))
  let show_ := fun (s : State) => s.wr (A.ptpDelay p) (wd (satU 32 (rdiv (s.ptp[p]).dm (2 ^ 40))))
  if !x.dmValid then show_ (s.onPtp p (fun x => { x with dm := r, dmValid := true }))
  else if !x.suspect then
    if far r x.dm then
      let s1 := s.onPtp p (fun x => ({ x with suspect := true, asym := sx 32 (s.rd (A.ptpAsym p)).toNat } : PtpPort).newRun r s.now)
      let s2 := if s.tbSrc n = 1 then ((s1.endPhase n).setRate n (s.tb[n]).freq).onTb n (fun t => { t with
          st := if t.st = .locked then .delaySuspect else t.st }) else s1
      s2.raise (A.tbEvt n) 5
    else show_ (s.onPtp p (fun x => { x with dm := x.dm + rshr (r - x.dm) (s.f (A.ptpDw p) 3 0) }))
  else if !far r x.dm then (s.leaveSuspect p).inc (A.ptpCntTx p 3)
  else if far r x.runRef then
    s.onPtp p (fun x => x.newRun r s.now)
  else
    let sum := x.runSum + r
    let k := x.runN + 1
    if hold ≤ s.now - x.runStart then
      show_ (((s.onPtp p (fun x => { x with dm := rdiv sum k })).leaveSuspect p).raise (A.tbEvt n) 6)
    else s.onPtp p (fun x => { x with runSum := sum, runN := k })

/-- PTP_DELAY_RESP: a received Delay_Resp completes an end-to-end measurement, with t1 and t2 of the last Sync since the port became slave
(R267). -/
def execPtpDelayResp (p : Fin 4) (m : PtpMsg) (s : State) : Host.Outcome State Fault Refusal :=
  .next (s.whenOn fun s => s.ptpGate p m fun s =>
    match (s.ptp[p]).req with
    | some (q, t3) =>
      if q = m.seq ∧ (s.ptp[p]).state = psSlave ∧ (s.ptp[p]).synced = true ∧ s.ptpP2p p = false then
        let x := s.ptp[p]
        (s.onPtp p (fun x => { x with req := none })).delayResult p
          (rdiv ((x.t2 - x.t1) + (up32 (m.time - m.corr) - t3)) 2)
      else s
    | none => s)

/-- PTP_PDELAY_REQ: a received Pdelay_Req is answered with Pdelay_Resp and its Follow_Up, or with ONESTEP by one message that carries the
time spent in its correction (R264). -/
def execPtpPdelayReq (p : Fin 4) (m : PtpMsg) (s : State) : Host.Outcome State Fault Refusal :=
  .next (s.whenOn fun s => s.ptpGate p m fun s =>
    if !s.ptpP2p p then s
    else if s.b (A.piCtl (s.ptpInst p)) 6 then s.ptpSend p 3 m.seq 0 (up32 m.corr + (s.ptpLocal p 1 - s.ptpLocal p 0))
    else (s.ptpSend p 3 m.seq (s.ptpStamp p 0) 0).ptpSend p 10 m.seq (s.ptpStamp p 1) (up32 m.corr))

/-- PTP_PDELAY_RESP: a received Pdelay_Resp (time t2 in `m`) and its Follow_Up (time `t3`) complete a peer delay
measurement, scaled by the neighbour rate ratio under profile 2 (R267). -/
def execPtpPdelayResp (p : Fin 4) (m : PtpMsg) (t3 : Int) (s : State) : Host.Outcome State Fault Refusal :=
  .next (s.whenOn fun s => s.ptpGate p m fun s =>
    match (s.ptp[p]).req with
    | some (q, t1) =>
      if q = m.seq ∧ s.ptpP2p p = true then
        let x := s.ptp[p]
        let t4 := s.ptpLocal p 0
        let u3 := up32 (t3 + m.corr)
        let nrr : Int := if !m.twoStep then x.nrr else match x.lastPd with
          | some (o3, o4) => if t4 - o4 ≤ 0 then 0 else rdiv (((u3 - o3) - (t4 - o4)) * 2 ^ 48) (t4 - o4).toNat
          | none => 0
        let r0 := rdiv ((t4 - t1) - (u3 - up32 m.time)) 2
        let r := if s.ptpProfile (s.ptpInst p) = 2 then r0 + rdiv (r0 * nrr) (2 ^ 48) else r0
        let s1 := s.onPtp p (fun x => { x with req := none, lastPd := if m.twoStep then some (u3, t4) else x.lastPd, nrr := nrr })
        if x.state = psSlave then s1.delayResult p r else s1
      else s
    | none => s)

/-- DS_LONG: a delay-suspect run that has lasted 60 s raises DS_LONG once (R272). -/
def execDsLong (p : Fin 4) (s : State) : Host.Outcome State Fault Refusal :=
  .next (s.whenOn fun s =>
    let x := s.ptp[p]
    if x.suspect && !x.dsLong && decide (ms 60000 ≤ s.now - x.runStart) then
      (s.onPtp p (fun x => { x with dsLong := true })).raise (A.tbEvt (s.ptpInst p)) 8
    else s)

/-- Data set `a` is better than `b` (the data set comparison of the BMCA, R264). -/
def dsBetter (a b : AnnounceDs) : Bool :=
  let lex := fun (l : List (Nat × Nat)) => (l.find? (fun x => x.1 ≠ x.2)).map (fun x => decide (x.1 < x.2))
  if a.gm = b.gm then (lex [(a.steps, b.steps), (a.sender, b.sender)]).getD false
  else (lex [(a.prio1, b.prio1), (a.clockClass, b.clockClass), (a.accuracy, b.accuracy), (a.variance, b.variance),
    (a.prio2, b.prio2), (a.gm, b.gm)]).getD false

/-- Data set `a` is better than `b` by the priority vectors of 802.1AS-2020 (R264). -/
def dsBetterAs (a b : AnnounceDs) : Bool :=
  (([(a.prio1, b.prio1), (a.clockClass, b.clockClass), (a.accuracy, b.accuracy), (a.variance, b.variance), (a.prio2, b.prio2),
    (a.gm, b.gm), (a.steps, b.steps), (a.sender, b.sender)].find? (fun x => x.1 ≠ x.2)).map (fun x => decide (x.1 < x.2))).getD false

/-- Data set `a` is better than `b` by topology alone, as a clock `me` that receives both judges it: one grandmaster, and paths too alike to
tell more than which is shorter (the data set comparison of 1588-2019). -/
def byTopology (a b : AnnounceDs) (me : Nat) : Bool :=
  a.gm == b.gm && (a.steps == b.steps || (a.steps + 1 == b.steps && decide (b.sender < me)))

/-- The instance's own data set (PIk_PRIO, PIk_VAR, PIk_CLKID). -/
def State.ownDs (s : State) (k : Nat) : AnnounceDs :=
  let id := (s.rd (A.piClkidLo k 1)).toNat * 2 ^ 32 + (s.rd (A.piClkidLo k 0)).toNat
  { gm := id, prio1 := s.f (A.piPrio k) 7 0, prio2 := s.f (A.piPrio k) 15 8, clockClass := s.f (A.piPrio k) 23 16,
    accuracy := s.f (A.piPrio k) 31 24, variance := s.f (A.piVar k) 15 0, steps := 0, sender := id }

/-- The comparison of data sets that instance `k` makes: that of its profile (R264, Table 12.2). -/
def State.better (s : State) (k : Nat) (a b : AnnounceDs) : Bool := if s.ptpProfile k = 2 then dsBetterAs a b else dsBetter a b

/-- announceReceiptTimeout of an instance. -/
def State.annTimeout (s : State) (k : Nat) : Nat := clampN 2 255 (s.f (A.piIntv k) 31 24)

/-- The best of the masters that the ports of an instance hear, with its port. -/
def State.bestMaster (s : State) (k : Fin 4) : Option (Fin 4 × AnnounceDs) :=
  ([0, 1, 2, 3] : List (Fin 4)).foldl (fun (acc : Option (Fin 4 × AnnounceDs)) (p : Fin 4) =>
    if s.ptpOn p && s.ptpInst p == k && (s.ptp[p]).linkUp then
      match (s.ptp[p]).best, acc with
      | some d, some (q, e) => if s.better k d e then some (p, d) else some (q, e)
      | some d, none => some (p, d)
      | none, _ => acc
    else acc) none

/-- Put a port in a portState; becoming slave, its delay filter starts afresh and its Syncs are awaited from now on (R267, R269); a port
that was delay-suspect no longer is, nor is its base; one that listens waits for an Announce from now on. -/
def State.setPortState (s : State) (p : Fin 4) (st : Nat) : State :=
  if (s.ptp[p]).state = st then s
  else
    let s1 := if (s.ptp[p]).suspect then s.leaveSuspect p else s
    s1.onPtp p (fun x => { x with state := st, dmValid := if st = psSlave then false else x.dmValid,
                                  synced := x.synced && st != psSlave, annAt := if st = psListening then s.now else x.annAt
                                  syncAt := if st = psSlave then s.now else x.syncAt })

/-- The servo enters HOLDOVER: RATE takes i, and HOLDOVER is raised (R269). -/
def State.holdover (s : State) (n : Fin 4) : State :=
  if s.tbSrc n = 1 ∧ ((s.tb[n]).st = .locked ∨ (s.tb[n]).st = .delaySuspect) then
    (((s.endPhase n).setRate n (s.tb[n]).freq).onTb n (fun t => { t with st := .holdover })).raise (A.tbEvt n) 4
  else s

/-- The grandmaster that the registers report changes, and GM_CHANGE is raised if it is another one (R269). -/
def State.setGm (s : State) (k : Fin 4) (d : AnnounceDs) (steps : Nat) : State :=
  let old := (s.rd (A.piGmLo k 1)).toNat * 2 ^ 32 + (s.rd (A.piGmLo k 0)).toNat
  let s1 := (((s.wr (A.piGmLo k 0) (wd d.gm)).wr (A.piGmLo k 1) (wd (d.gm / 2 ^ 32))).wr (A.piGmInfo k)
    (wd (d.utc % 65536 * 65536 + steps % 65536)))
  if old = d.gm ∨ old = 0 then s1 else s1.raise (A.tbEvt k) 3

/-- A port that hears no master: one that listens goes on until announceReceiptTimeout has passed, any other is MASTER (R264). -/
def State.unheard (s : State) (p : Fin 4) : Nat :=
  let k := s.ptpInst p
  if (s.ptp[p]).state = psListening ∧ s.now < (s.ptp[p]).annAt + s.annTimeout k * s.ptpInterval k 1 then psListening else psMaster

/-- The best master clock algorithm of instance `k` (R264), under profile 2 that of 802.1AS-2020: the port states, the grandmaster and, with
no slave port, HOLDOVER (R269). -/
def State.bmca (s : State) (k : Fin 4) : State :=
  let own := s.ownDs k
  let slaveOnly := s.f (A.piCtl k) 5 4 == 0
  let s1 := match s.bestMaster k with
    | none =>
      let s' := forFin (fun (p : Fin 4) s =>
        if s.ptpOn p && s.ptpInst p == k && (s.ptp[p]).linkUp then
          s.setPortState p (if slaveOnly then psListening else s.unheard p) else s) [0, 1, 2, 3] s
      if slaveOnly then s' else s'.setGm k own 0
    | some (q, d) =>
      let as := decide (s.ptpProfile k = 2)
      let follow := slaveOnly || (s.better k d own && (as || decide (127 < own.clockClass)))
      let sent : AnnounceDs := { d with steps := d.steps + 1, sender := own.sender }
      let s' := forFin (fun (p : Fin 4) s =>
        if s.ptpOn p && s.ptpInst p == k && (s.ptp[p]).linkUp then
          let heard := (s.ptp[p]).best
          let st :=
            if follow then
              (if p = q then psSlave
               else if slaveOnly then psListening
               else match heard with
                | some e => if (if as then dsBetterAs e sent else byTopology d e own.sender) then psPassive else psMaster
                | none => s.unheard p)
            else match heard with
              | some e => if s.better k e own then psPassive else psMaster
              | none => s.unheard p
          s.setPortState p st
        else s) [0, 1, 2, 3] s
      if follow then s'.setGm k d (d.steps + 1) else s'.setGm k own 0
  if ([0, 1, 2, 3] : List (Fin 4)).any (fun p => s1.ptpInst p == k && (s1.ptp[p]).state == psSlave) then s1
  else s1.holdover k

/-- PTP_ANNOUNCE: a received Announce feeds the BMCA (R264, R269). -/
def execPtpAnnounce (p : Fin 4) (m : PtpMsg) (d : AnnounceDs) (s : State) : Host.Outcome State Fault Refusal :=
  .next (s.whenOn fun s => s.ptpGate p m fun s =>
    let s1 := if ((s.ptp[p]).best.all fun e => e.sender == d.sender || s.better (s.ptpInst p) d e) = true then
      s.onPtp p (fun x => { x with best := some d, annAt := s.now }) else s
    s1.bmca (s.ptpInst p))

/-- PTP_MANAGEMENT: a received management message is ignored and counted (R264, Table 12.2). -/
def execPtpManagement (p : Fin 4) (s : State) : Host.Outcome State Fault Refusal :=
  .next (s.whenOn fun s => if s.ptpOn p then s.inc (A.piCntMgmt (s.ptpInst p)) else s.inc (A.ptpCntTx p 2))

/-- PTP_SYNC_TIMEOUT: no Sync for announceReceiptTimeout Sync intervals puts the servo in HOLDOVER (R269). -/
def execPtpSyncTimeout (k : Fin 4) (s : State) : Host.Outcome State Fault Refusal :=
  .next (s.whenOn fun s =>
    let lim := s.annTimeout k * s.ptpInterval k 0
    let fresh := ([0, 1, 2, 3] : List (Fin 4)).any (fun p => s.ptpInst p == k && (s.ptp[p]).state == psSlave &&
      decide (s.now - (s.ptp[p]).syncAt < lim))
    if fresh then s else s.holdover k)

/-- ANNOUNCE_RECEIPT_TIMEOUT: no Announce for announceReceiptTimeout intervals; the BMCA selects again, and a port that listened listens no
longer (R264, R269). -/
def execAnnounceReceiptTimeout (p : Fin 4) (s : State) : Host.Outcome State Fault Refusal :=
  .next (s.whenOn fun s =>
    let k := s.ptpInst p
    let lim := s.annTimeout k * s.ptpInterval k 1
    if ((s.ptp[p]).best.isSome || (s.ptp[p]).state == psListening) && decide (lim ≤ s.now - (s.ptp[p]).annAt) then
      (s.onPtp p (fun x => { x with best := none })).bmca k
    else s)

/-- The data set that instance `k` announces: its grandmaster's, one step further on, or its own (R264). -/
def State.announced (s : State) (k : Fin 4) : AnnounceDs :=
  let own := s.ownDs k
  if ([0, 1, 2, 3] : List (Fin 4)).any (fun p => s.ptpInst p == k && (s.ptp[p]).state == psSlave) then
    match s.bestMaster k with
    | some (_, d) => { d with steps := d.steps + 1, sender := own.sender }
    | none => own
  else own

/-- Message `kind` of port `p` is due: its interval has passed since the last one, or none has been sent (R264). -/
def State.ptpDue (s : State) (p : Fin 4) (kind : Nat) : Bool :=
  let x := s.ptp[p]
  match (if kind = 0 then x.syncSent else if kind = 1 then x.annSent else x.reqSent) with
  | some t => decide (t + s.ptpInterval (s.ptpInst p) kind ≤ s.now)
  | none => true

/-- PTP_MESSAGE_SEND: a message interval expires and the port sends Sync (`kind` 0), Announce (1) or a delay request (2)
(R264, R265). -/
def execPtpMessageSend (p : Fin 4) (kind : Nat) (s : State) : Host.Outcome State Fault Refusal :=
  .next (s.whenOn fun s =>
    let k := s.ptpInst p
    let x := s.ptp[p]
    let t := s.ptpLocal p 1
    if !(s.ptpOn p && x.linkUp && s.ptpDue p kind) then s
    else
      let s1 := s.onPtp p (fun x => { x with
        seq := (x.seq + 1) % 65536
        syncSent := if kind = 0 then some s.now else x.syncSent
        annSent := if kind = 1 then some s.now else x.annSent
        reqSent := if kind = 2 then some s.now else x.reqSent })
      if kind = 0 ∧ x.state = psMaster then
        let s2 := s1.ptpSend p 0 x.seq (s.ptpStamp p 1) 0
        if s.b (A.piCtl k) 6 then s2 else s2.ptpSend p 8 x.seq (s.ptpStamp p 1) 0
      else if kind = 1 ∧ x.state = psMaster then s1.ptpSend p 11 x.seq (s.ptpStamp p 1) 0 (some (s.announced k))
      else if kind = 2 ∧ s.ptpP2p p = true then
        (s1.onPtp p (fun y => { y with req := some (x.seq, t) })).ptpSend p 2 x.seq t 0
      else if kind = 2 ∧ x.state = psSlave then
        (s1.onPtp p (fun y => { y with req := some (x.seq, t) })).ptpSend p 1 x.seq t 0
      else s)

/-- A PTP port's link comes up or goes down: it leaves or takes the portState FAULTY (R265). -/
def State.ptpLink (s : State) (p : Fin 4) (up : Bool) : State :=
  if up then
    let s1 := s.onPtp p (fun x => { x with linkUp := true })
    (s1.setPortState p (if s1.ptpOn p then psListening else psDisabled)).bmca (s.ptpInst p)
  else
    let s1 := (s.onPtp p (fun x => { x with linkUp := false, best := none, sync := none, req := none })).setPortState p psFaulty
    s1.bmca (s.ptpInst p)

/-- MA (0) or MB (1) runs RS(528,514): FEC 1 in 25GBASE-R (Table 10.14). -/
def State.mgmtFec (s : State) (m : Fin 2) : Bool := s.portMode.toList.getD (2 + m) 0 == 0 && s.f (A.ethCtl (2 + m)) 5 4 == 1

/-- MANAGEMENT_LINK_DOWN: MA (0) or MB (1) loses its link, with or without alignment and a fault signalled, and its PTP port takes
FAULTY (R265, Table 10.13). The FEC locks on an aligned link of 25GBASE-R that uses it (Table 10.14). -/
def execManagementLinkDown (m : Fin 2) (aligned lfault rfault : Bool) (s : State) : Host.Outcome State Fault Refusal :=
  .next (s.whenOn fun s =>
    let s0 := { s with power := { s.power with telDown := s.power.telDown ||| 2 ^ (8 + m.val) } }
    let s1 := if s0.b (A.ethCtl (2 + m)) 0 then s0.wr (A.ethStatus (2 + m)) (wd ((if lfault then 16 else 0) + (if rfault then 256 else 0)
      + (if aligned && s0.mgmtFec m then 4096 else 0))) else s0
    if m = 0 then s1.ptpLink 2 false else s1.ptpLink 3 false)

/-- MANAGEMENT_LINK_UP: MA (0) or MB (1) regains its link, and its PTP port leaves FAULTY (R265). -/
def execManagementLinkUp (m : Fin 2) (s : State) : Host.Outcome State Fault Refusal :=
  .next (s.whenOn fun s =>
    if s.b (A.ethCtl (2 + m)) 0 then
      let s1 := s.wr (A.ethStatus (2 + m)) (wd (1 + (if s.mgmtFec m then 4096 else 0)))
      if m = 0 then s1.ptpLink 2 true else s1.ptpLink 3 true
    else s)

end Sys2Proof.Machine
end

