-- ==== Sys2Proof/Machine/Commit.lean ====
section
/-! DEFINITION. Staged registers and commits, shared by every block (R5, R300 to R303). A block is named by the address of
its commit register. -/

namespace Sys2Proof.Machine
open Sys2Proof

/-- The block, by its commit register, to which an RWS register at `a` belongs (R300). -/
def State.blockOf (s : State) (a : Nat) : Option Nat :=
  if 0x100000 ≤ a ∧ a < 0x180000 then some (A.sprCommit ((a - 0x100000) / 0x4000))
  else if 0x200000 ≤ a ∧ a < 0x202000 then
    match s.groupOf ((a - 0x200000) / 0x100) with
    | some g => if g < 4 then some (A.seamBarCommit g) else none
    | none => none
  else if 0x204000 ≤ a ∧ a < 0x207F00 then some (A.seamBarCommit ((a - 0x204000) / 0x1000))
  else if 0x301000 ≤ a ∧ a < 0x30D000 then some (A.corCommit ((a - 0x301000) / 0x1000))
  else if 0x400000 ≤ a ∧ a < 0x400C00 then some (A.frmCommit ((a - 0x400000) / 0x100))
  else if 0x440000 ≤ a ∧ a < 0x458000 then some (A.talCommit ((a - 0x440000) / 0x2000))
  else if 0x480000 ≤ a ∧ a < 0x484000 then some (A.outCommit ((a - 0x480000) / 0x400))
  else if 0x591000 ≤ a ∧ a < 0x595000 then some (A.ltgCommit ((a - 0x591000) / 0x1000))
  else none

/-- The CMT_STAT register of a block; the Springs have none (R300, Table 3.5). -/
def cmtStatOf (blk : Nat) : Option Nat := if blk < 0x180000 then none else some (blk + 4)

/-- The commit that waits in a block: its tag and whether it names a line boundary. -/
def State.waiting (s : State) (blk : Nat) : Option (Nat × Bool) := s.commits.lookup blk

/-- The values written to a block since its last commit that took effect (R300). -/
def State.written (s : State) (blk : Nat) : List (Nat × Word) := s.staged.filter (fun x => s.blockOf x.1 == some blk)

/-- Update bits of a block's CMT_STAT. -/
def State.cmtStat (s : State) (blk : Nat) (f : Word → Word) : State :=
  match cmtStatOf blk with
  | some a => s.wr a (f (s.rd a))
  | none => s

/-- The group to whose boundaries a block's commits refer. -/
def State.blockGroup (s : State) (blk : Nat) : Option Nat :=
  if blk < 0x180000 then s.groupOf ((blk - 0x100000) / 0x4000)
  else if blk < 0x300000 then some ((blk - 0x204000) / 0x1000)
  else if blk < 0x400000 then some ((blk - 0x301000) / 0x1000)
  else if blk < 0x440000 then some ((blk - 0x400000) / 0x100)
  else if blk < 0x480000 then some ((blk - 0x440000) / 0x2000)
  else if blk < 0x500000 then some (s.stream ((blk - 0x480000) / 0x400)).group
  else some ((blk - 0x591000) / 0x1000)

/-- The bit of the block's event register that reports a replaced commit, with the register (Tables 5.8, 7.10, 8.6, 8.8,
9.12 and 12.10). A Spring has none. -/
def replacedEvt (blk : Nat) : Option (Nat × Nat) :=
  if blk < 0x180000 then none
  else if blk < 0x300000 then some (A.seamBarEvt ((blk - 0x204000) / 0x1000), 4)
  else if blk < 0x400000 then some (A.corEvt ((blk - 0x301000) / 0x1000), 3)
  else if blk < 0x440000 then some (A.frmEvt ((blk - 0x400000) / 0x100), 4)
  else if blk < 0x480000 then some (A.talEvt ((blk - 0x440000) / 0x2000), 3)
  else if blk < 0x500000 then some (A.outEvt ((blk - 0x480000) / 0x400), 4)
  else some (A.ltgEvt ((blk - 0x591000) / 0x1000), 2)

/-- A commit write: it sets WAITING, or replaces a waiting commit (R300, R303). -/
def State.writeCommit (s : State) (blk : Nat) (v : Word) : State :=
  let s1 := { s with commits := (blk, fld v 15 0, bit v 16) :: s.commits.filter (fun x => x.1 != blk) }
  match s.waiting blk with
  | none => s1.cmtStat blk (fun w => setFld (setFld (setBit w 16 true) 18 17 0) 21 20 0)
  | some _ =>
    let s2 := s1.cmtStat blk (fun w => setFld (setBit (setBit (setBit w 16 true) 17 true) 18 false) 21 20 0)
    match replacedEvt blk with
    | some (a, i) => s2.raise a i
    | none => s2

/-- Put the written fields of a block into force; fields not written keep their values (R300, R118). -/
def State.takeStaged (s : State) (blk : Nat) : State :=
  match s.waiting blk with
  | none => s
  | some (tag, _) =>
    let w := s.written blk
    let s1 := forAll (fun (x : Nat × Word) s => s.wrK x.1 x.2) w s
    let s2 := { s1 with
      staged := s1.staged.filter (fun x => s.blockOf x.1 != some blk)
      commits := s1.commits.filter (fun x => x.1 != blk) }
    s2.cmtStat blk (fun x => setBit (setFld x 15 0 tag) 16 false)

/-- A block check refuses a waiting commit with a cause: the written fields stay as they are (R300). -/
def State.refuseCommit (s : State) (blk cause : Nat) : State :=
  ({ s with commits := s.commits.filter (fun x => x.1 != blk) }).cmtStat blk
    (fun x => setFld (setBit (setBit x 16 false) 18 true) 21 20 cause)

/-- A waiting commit of the block that this boundary concerns: any at a frame start, one of the line kind otherwise. -/
def State.commitDue (s : State) (blk : Nat) (frameStart : Bool) : Bool :=
  match s.waiting blk with
  | some (_, line) => frameStart || line
  | none => false

/-- Discard what a block has waiting and staged (R46, R210): whether a commit was waiting, and the state after it. -/
def State.dropCommit (s : State) (blk : Nat) : Bool × State :=
  ((s.waiting blk).isSome,
    ({ s with
      staged := s.staged.filter (fun x => s.blockOf x.1 != some blk)
      commits := s.commits.filter (fun x => x.1 != blk) }).cmtStat blk (fun x => setBit x 16 false))

/-! Old and new structures during a swap (R42 to R44). -/

/-- The first frame of group `g` under the new structure, while a commit is under way. -/
def State.swapFrame (s : State) (g : Nat) : Option Nat :=
  match s.sic.phase with
  | .idle | .prepare | .probation => none
  | _ => s.sic.marks.lookup g

/-- Switch has been made and the old structure's last frames are not all through yet (R42 steps 3 and 4). -/
def State.passing (s : State) : Bool := s.sic.phase == .switch || s.sic.phase == .settle

/-- Frame `f` of group `g` began before the group's mark and finishes under the old structure (R42). -/
def State.oldFrame (s : State) (g f : Nat) : Bool :=
  s.passing && (match s.swapFrame g with
    | some m => isLater 32 m f
    | none => s.sic.awaiting.contains g)

/-- Lines of old frames of group `g` are still in its ponds or queues. -/
def State.pondsOld (s : State) (g : Fin 12) : Bool :=
  s.passing && (s.sic.old.groups.getD g.val {}).springs.any (fun n => match fin? 32 n with
    | some n => (s.spr[n]).pond.any (fun i => s.oldFrame g i.tag.frame) || (s.spr[n]).queue.any (fun q => s.oldFrame g q.tag.frame)
    | none => false)

/-- Lines of old frames of group `g` are still on their way to the chain, so that the engine works on the group under the old
structure. -/
def State.engOld (s : State) (g : Fin 12) : Bool :=
  s.passing && (s.pondsOld g ||
    (s.engs[g]).copying.any (fun l => s.oldFrame g l.tag.frame) ||
    ((s.engs[g]).region.drop (s.engs[g]).served).any (fun l => s.oldFrame g l.tag.frame))

/-- Lines of old frames of group `g` are still in its ponds, region, engine or Seam Unit. -/
def State.oldLines (s : State) (g : Fin 12) : Bool :=
  s.engOld g || (s.sic.awaiting.contains g.val && (s.grp[g]).active) ||
  ((s.sic.old.groups.getD g.val {}).springs.any (fun n => match fin? 32 n with
    | some n => (s.spr[n]).cur.any (fun o => s.oldFrame g o.tag.frame)
    | none => false)) ||
  (match fin? 4 g.val with
    | some b => (s.seam[b]).inq.any (fun l => s.oldFrame g l.tag.frame) ||
        (((s.seam[b]).hist.take (min (s.seam[b]).seen (s.sic.old.groups.getD g.val {}).depth)).any (fun l => !l.marker && s.oldFrame g l.tag.frame))
    | none => false)

/-- A new Lake region of group `g` overlaps an old one, of that group or of another, that is not yet free (R44). -/
def State.regionHeld (s : State) (g : Nat) : Bool :=
  (s.sic.next.regions 2 g).any (fun b => s.sic.old.lake.any (fun a =>
    (a.kind == 1 || a.kind == 2) && s.sic.settling.contains (.group a.owner) && a != b && decide (a.base < b.base + b.size) &&
      decide (b.base < a.base + a.size)))

/-- New-frame lines of group `g` wait for a resource that old frames still use: before Switch, every one; in Settle, while the group's seam
buffer has changed and its old one is not yet free, or its Lake region overlaps an old one that is not (R42, R44). -/
def State.swapHold (s : State) (g f : Nat) : Bool :=
  match s.swapFrame g with
  | none => false
  | some m =>
    if isLater 32 m f then false
    else if s.passing then
      let t := s.sic.next
      let inline := (t.groups.getD g {}).inline && decide (g < 4)
      (inline && s.sic.settling.contains (.group g) && (s.sic.old.sram.lookup (32 + g)) != t.sram.lookup (32 + g)) ||
        (!inline && s.regionHeld g)
    else true

/-- SIC_SWAP_STAT.WAITED is set (R44). -/
def State.waited (s : State) : State := s.setB A.sicSwapStat 16 true

/-- Run an operation on a line of frame `f` of group `g` under the structure of its frame. -/
def State.underFrame (s : State) (g f : Nat) (op : State → State) : State :=
  if s.oldFrame g f then { op { s with str := s.sic.old } with str := s.str } else op s

/-- Run an operation on what stream `n` makes of frame `f` under the structure of that frame. -/
def State.underStream (s : State) (n f : Nat) (op : State → State) : State := s.underFrame (s.sic.old.streams.getD n {}).group f op

end Sys2Proof.Machine
end

