-- ==== Sys2Proof/Machine/Exposure.lean ====
section
/-! DEFINITION. The exposure calendar (R175 to R179). -/

namespace Sys2Proof.Machine
open Sys2Proof

/-- STATE of an entry (Table 8.11): 0 EMPTY, 1 ARMED, 2 ISSUED, 3 MADE, 4 IN_FORCE, 5 FAILED, 6 CANCELLED. -/
def State.entrySt (s : State) (n e : Nat) : Nat := s.f (A.expeStat n e) 31 28

/-- GEN of an entry. -/
def State.entryGen (s : State) (n e : Nat) : Nat := s.f (A.expeCtl n e) 31 16

/-- An entry takes a state; ARM reads 1 only in ARMED (Table 8.10), and only an ARMED entry is offered again (R177). -/
def State.setEntry (s : State) (n e st : Nat) : State :=
  let s1 := (s.setF (A.expeStat n e) 31 28 st).setB (A.expeCtl n e) 0 (st == 1)
  forFin (fun (n : Fin 32) s => if (s.spr[n]).offered.contains e then
    s.onSpr n (fun x => { x with offered := x.offered.filter (· != e) }) else s) [n] s1

/-- SGEN of Spring `n` (R174). -/
def State.sgen (s : State) (n : Nat) : Nat := s.f (A.expStatus n) 15 0

/-- The number of the group's next frame (R172). -/
def State.nextFrame (s : State) (g : Fin 12) : Nat :=
  if (s.grp[g]).begun then ((s.rd (A.frmFrame g)).toNat + 1) % 2 ^ 32 else (s.rd (A.frmFrame0 g)).toNat

/-- The list of an entry ended: MADE with its effect frame on OK, else FAILED with the code (R177, R178). -/
def State.entryResult (s : State) (n e code : Nat) : State :=
  if s.entrySt n e ≠ 2 then s
  else
    let s0 := s.setF (A.expeStat n e) 26 22 code
    if code ≠ 0 then ((s0.setEntry n e 5).inc (A.expCntFail n)).raise (A.expEvt n) 2
    else
      let first := match (s.groupOf n).bind (fin? 12) with
        | some g => s.nextFrame g
        | none => 0
      let eff := (first + s.f (A.expProfile n) 1 0) % 2 ^ 32
      let s1 := (s0.setEntry n e 3).wr (A.expeEffect n e) (wd eff)
      if isLater 32 eff (s.rd (A.expeTarget n e)).toNat then
        ((s1.setB (A.expeStat n e) 27 true).inc (A.expCntLate n)).raise (A.expEvt n) 1
      else s1

/-- The word of TWBn_RESULT for a list (Table 4.7). -/
def resultWord (l : TwList) (code step rdCount : Nat) : Nat :=
  code % 32 * 2 ^ 27 + (if l.calendar then 2 ^ 26 else 0) + (if code = 0 then 0 else step % 256) * 2 ^ 18
    + rdCount % 512 * 2 ^ 9 + (if l.calendar then l.entry % 64 else 0)

/-- Word `k` of the bytes that TWBn_RDBUF shows after a list (R88). -/
def bufWord (rd : Bytes) (k : Nat) : Word := wd (leAt rd (4 * k) 4)

/-- A list of controller `n` ends with a result (R87, R88): the result word, the counters and events, the read buffer or
the calendar entry, and the completion item of a list started with NOTIFY. -/
def State.twEnd (s : State) (n : Fin 32) (l : TwList) (code step : Nat) (rd : Bytes) : State :=
  let w := resultWord l code step rd.length
  let s1 := (s.wr (A.twbResult n) (wd w)).inc (A.twbCntLists n 0)
  let s2 := if code = 0 then s1.raise (A.twbEvt n) 0 else (s1.inc (A.twbCntLists n 1)).raise (A.twbEvt n) 1
  let s3 := if code = 1 ∨ code = 2 then s2.inc (A.twbCntLists n 2) else s2
  let s4 := if l.calendar then s3.entryResult n l.entry code
    else forAll (fun k s => s.wr (A.twbRdbuf n k) (bufWord rd k)) (List.range 64) s3
  match l.slot, fin? 8 l.stall with
  | true, some t => s4.postCpl t (3 * 2 ^ 28 + n.val) 0 w
  | _, _ => s4

/-- The oldest queued list in the order of R86: calendar lists first. -/
def TwoWire.next (t : TwoWire) : Option TwList := match t.calQ with
  | l :: _ => some l
  | [] => t.swQ.head?

/-- The controller without the list at the head of its queue. -/
def TwoWire.pop (t : TwoWire) : TwoWire := match t.calQ with
  | _ :: q => { t with calQ := q }
  | [] => { t with swQ := t.swQ.drop 1 }

/-- Every queued list fails with a code and drives nothing (R90, Table 4.6). -/
def State.twFailAll : Nat → Fin 32 → Nat → State → State
  | 0, _, _, s => s
  | k + 1, n, code, s => match (s.twb[n]).next with
    | none => s
    | some l => State.twFailAll k n code ((s.onTwb n (fun t => t.pop)).twEnd n l code 0 [])

/-- A list joins a queue of controller `n`. A disabled controller fails it with ABORTED, a stuck one with STUCK (R90). -/
def State.twQueue (s : State) (n : Fin 32) (l : TwList) : State :=
  let s0 := s.onTwb n (fun t => { t with
    calQ := if l.calendar then t.calQ ++ [l] else t.calQ
    swQ := if l.calendar then t.swQ else t.swQ ++ [l]
    waitFrom := if t.run.isNone && t.calQ.isEmpty && t.swQ.isEmpty then s.now else t.waitFrom })
  let s1 := (s0.peak (A.pndpPeak (94 + n)) (s0.twb[n]).calQ.length).peak (A.pndpPeak (126 + n)) (s0.twb[n]).swQ.length
  let st := (s.twb[n]).st
  if s.b (A.twbCtl n) 0 = false then s1.twFailAll 8 n 8
  else if st = 4 ∨ st = 5 then s1.twFailAll 8 n 6
  else s1

/-- Hand an entry's list to the calendar queue; a full queue answers QUEUE_FULL and leaves it ARMED, to be offered again
(R86, R177). -/
def State.issueEntry (s : State) (n : Fin 32) (e : Nat) : State :=
  let w := s.rd (A.expeList n e)
  let l : TwList := { calendar := true, entry := e, lake := bit w 31, stall := (s.springOwner n).getD 0,
                      addr := if bit w 31 then fld w 30 0 else fld w 7 0 }
  if (s.twb[n]).calQ.length ≥ 4 then
    (s.wr (A.twbResult n) (wd (resultWord l 9 0 0))).onSpr n (fun x => { x with
      offered := if x.offered.contains e then x.offered else e :: x.offered })
  else (s.setEntry n e 2).twQueue n l

/-- Lines to the first line of frame `f` in a line-count group, at a trigger with `l` lines of frame `cur` before it. -/
def linesTo (n l : Nat) (d : Int) : Int := (n : Int) - (l : Int) + (d - 1) * (n : Int)

/-- The issue point of an ARMED entry is reached or passed at this trigger (R175, R177). `pos` is the furthest web position of the
mark source's base that a trigger has seen, `pitch` that of the driving generator. -/
def State.issueDue (s : State) (g : Fin 12) (n e pos pitch : Nat) : Bool :=
  let t := (s.rd (A.expeTarget n e)).toNat
  let k := s.f (A.expProfile n) 1 0
  let lead := s.f (A.expProfile n) 27 16
  let cur := (s.rd (A.frmFrame g)).toNat
  let x := s.grp[g]
  let d := wrapDiff 32 ((t + 2 ^ 32 - k) % 2 ^ 32) cur
  if !isLater 32 t cur then true
  else if d ≤ 0 then true
  else match (s.group g).mark, (s.group g).free with
  | .count _, _ =>
    let c := s.f (A.frmCountN g) 23 0 + 1
    let mx := s.f (A.frmMaxlen g) 24 0
    let n' := if mx = 0 then c else min c mx
    decide (linesTo n' (x.lines - 1) d ≤ (lead : Int))
  | .encoder _ _ _, false =>
    match x.nextMark with
    | some m =>
      let rep := max 65536 ((s.rd (A.frmRepeatHi g)).toNat % 2 ^ 16 * 2 ^ 32 + (s.rd (A.frmRepeatLo g)).toNat)
      let p : Int := Int.ofNat m + (d - 1) * Int.ofNat rep - Int.ofNat (lead * pitch)
      decide (0 ≤ wrapDiff 64 pos (lowBits 64 p))
    | none => false
  | _, _ => decide (d ≤ 1)

/-- The later of two web positions (R12). -/
def furthest (a : Option Nat) (pos : Nat) : Nat := match a with
  | some p => if isLater 64 p pos then p else pos
  | none => pos

/-- At a trigger of group `g`, the ARMED entries that are due, and those that a full queue has refused, are issued in entry-number order
(R176, R177). -/
def State.issueEntries (s : State) (g : Fin 12) (pos pitch : Nat) : State :=
  let far := furthest (s.grp[g]).far pos
  forFin (fun (n : Fin 32) s =>
    forAll (fun (e : Nat) s => if s.entrySt n e = 1 ∧ (s.issueDue g n e far pitch || (s.spr[n]).offered.contains e) = true
        then s.issueEntry n e else s)
      (List.range 64) s) (s.group g).springs (s.onGrp g (fun x => { x with far := some far, trig := some (s.now, far, pitch) }))

/-- Generations that are complete for group `g`: every Spring that holds an entry with it, in any state but EMPTY or
CANCELLED, holds an IN_FORCE entry with it (R179). -/
def State.completeGens (s : State) (g : Nat) : List Nat :=
  let sp := (s.group g).springs
  let held := fun (n gen : Nat) => (List.range 64).any (fun e =>
    s.entryGen n e == gen && s.entrySt n e != 0 && s.entrySt n e != 6)
  let inForce := fun (n gen : Nat) => (List.range 64).any (fun e => s.entryGen n e == gen && s.entrySt n e == 4)
  let gens := sp.flatMap (fun n => ((List.range 64).filter (fun e => s.entrySt n e == 4)).map (fun e => s.entryGen n e))
  gens.filter (fun gen => sp.all (fun n => !held n gen || inForce n gen))

/-- At the first trigger of frame `f`: MADE entries go IN_FORCE and the group generation advances (R179). The result
tells whether a late entry took effect. -/
def State.generationUpdate (s : State) (g : Fin 12) (f : Nat) : Bool × State :=
  let due := (s.group g).springs.flatMap (fun n => ((List.range 64).filter (fun e =>
    s.entrySt n e == 3 && (s.rd (A.expeEffect n e)).toNat == f)).map (fun e => (n, e)))
  let late := due.any (fun x => s.b (A.expeStat x.1 x.2) 27)
  let s1 := forAll (fun (x : Nat × Nat) s =>
    ((s.setEntry x.1 x.2 4).setF (A.expStatus x.1) 15 0 (s.entryGen x.1 x.2)).raise (A.expEvt x.1) 0) due s
  let cur := s1.f (A.frmGen g) 15 0
  match (s1.completeGens g).filter (fun x => isLater 16 x cur) with
  | [] => (late, s1)
  | c :: cs => (late, s1.wr (A.frmGen g) (wd (cs.foldl (fun m x => if isLater 16 x m then x else m) c)))

/-- An entry in ARMED, ISSUED or MADE: writes to TARGET, LIST and GEN are discarded (R178). -/
def State.entryBusy (s : State) (n e : Nat) : Bool := let st := s.entrySt n e; st == 1 || st == 2 || st == 3

/-- Arm an entry (Table 8.1): it has no effect frame yet, and one armed in the cycle of a trigger that is or follows its issue point is
issued at once after it (R176, Table 8.2). -/
def State.armEntry (s : State) (n e : Nat) : State :=
  if s.entryBusy n e then s
  else
    let s1 := ((s.setEntry n e 1).setB (A.expeStat n e) 27 false).wr (A.expeEffect n e) 0#32
    match (s.groupOf n).bind (fin? 12) with
    | none => s1
    | some g => match (s.grp[g]).trig with
      | some (c, pos, pitch) =>
        if c = s.now ∧ s1.issueDue g n e pos pitch = true then forFin (fun (n : Fin 32) s => s.issueEntry n e) [n] s1 else s1
      | none => s1

/-- Switch of a swap that affects group `g`: its ARMED entries are cancelled (Table 8.1). -/
def State.cancelArmed (s : State) (springs : List Nat) : State :=
  forAll (fun n s => forAll (fun (e : Nat) s => if s.entrySt n e = 1 then s.setEntry n e 6 else s) (List.range 64) s) springs s

/-- EXPn_STATUS: the armed entries and SGEN (Table 8.7). -/
def State.expStatusWord (s : State) (n : Nat) : Word :=
  setFld (s.rd (A.expStatus n)) 22 16 ((List.range 64).countP (fun e => s.entrySt n e == 1))

/-- Cancel an entry in ARMED (R178). -/
def State.cancelEntry (s : State) (n e : Nat) : State := if s.entrySt n e = 1 then s.setEntry n e 6 else s

/-- ENTRY_ARM: setting ARM arms an entry that is not ARMED, ISSUED or MADE (R176). -/
def execEntryArm (n : Fin 32) (e : Fin 64) (s : State) : Host.Outcome State Fault Refusal :=
  .next (s.whenOn fun s => if (s.groupOf n).isSome then s.armEntry n e else s)

/-- ENTRY_CANCEL: setting CANCEL cancels an entry in ARMED (R178). -/
def execEntryCancel (n : Fin 32) (e : Fin 64) (s : State) : Host.Outcome State Fault Refusal :=
  .next (s.whenOn fun s => s.cancelEntry n e)

/-- A write of EXPn_Ee_TARGET, LIST or CTL, whose GEN it writes: those of an entry in use are discarded with ENTRY_BUSY; then the commands of
CTL act (R178). STAT and EFFECT keep what they hold (R3). -/
def State.writeEntry (s : State) (n e k : Nat) (v : Word) : State :=
  let busy := s.entryBusy n e
  let a := A.expeTarget n e + 4 * k
  if k < 2 then (if busy then s.raise (A.expEvt n) 3 else s.wr a v)
  else if 2 < k then s
  else
    let s1 := if busy then s.raise (A.expEvt n) 3 else s.setF a 31 16 (fld v 31 16)
    let s2 := if bit v 1 then s1.cancelEntry n e else s1
    if bit v 0 then s2.armEntry n e else s2

end Sys2Proof.Machine
end

