-- ==== Sys2Proof/Machine/Frames.lean ====
section
/-! DEFINITION. Frame marks, frame and line numbering, and what happens at the first line of a frame (R27, R28, R42, R43,
R129, R167 to R173). -/

namespace Sys2Proof.Machine
open Sys2Proof

/-- REPEAT in force, in units of 2⁻¹⁶ counts; below one count it is one count (R167). -/
def State.markRepeat (s : State) (g : Nat) : Nat :=
  max 65536 ((s.rd (A.frmRepeatHi g)).toNat % 2 ^ 16 * 2 ^ 32 + (s.rd (A.frmRepeatLo g)).toNat)

/-- The first M_j beyond a position (R167). -/
def State.markBeyond (s : State) (g pos : Nat) : Nat :=
  let org : Nat := (s.rd (A.frmOriginHi g)).toNat * 2 ^ 32 + (s.rd (A.frmOriginLo g)).toNat
  let rep : Nat := s.markRepeat g
  lowBits 64 (Int.ofNat org + (wrapDiff 64 pos org / Int.ofNat rep + 1) * Int.ofNat rep)

/-- The tags of Spring `n` at a time-clock cycle: time and web position of the bases that SPRn_CTL selects (R65). -/
def State.stamp (s : State) (n cycle : Nat) (t : LineTag) : LineTag :=
  let tb := two (s.f (A.sprCtl n) 9 8)
  let wp := two (s.f (A.sprCtl n) 11 10)
  let v := s.timeAt tb cycle
  { t with time := v.1, timex := v.2.1, epoch := v.2.2, tb := tb, wp := wp, pos := s.wpAt wp cycle, cycle := cycle }

/-- Some Spring of the group is enabled. -/
def State.anyEnabled (s : State) (g : Nat) : Bool := (s.group g).springs.any (fun n => s.b (A.sprCtl n) 0)

/-- The position that the mark source of a group sees at this cycle (R167). -/
def State.markPos (s : State) (g : Nat) : Nat :=
  match (s.group g).mark with
  | .encoder wp _ _ => s.wpAt (two wp) s.now
  | _ => 0

/-- A frame start of an affected group in a structure commit: the swap instant (R42, R43). `mark` tells a mark of the
group's source from a synthetic or opening start. With FORCE a group that starts after COMMIT has its mark too. -/
def State.swapMark (s : State) (g frame : Nat) (mark : Bool) : State :=
  let c := s.sic
  let live := c.phase == .armed || s.passing
  let joins := c.force && c.phase == .armed && c.affG.contains g && (c.marks.lookup g).isNone
  if live && (joins || (c.awaiting.contains g && (c.force || mark))) then
    let left := c.awaiting.filter (· != g)
    ({ s with sic := { c with awaiting := left, marks := c.marks ++ [(g, frame)],
                              instant := c.instant || !c.force || left.isEmpty } }).wr (A.sicSwapFrm g) (wd frame)
  else s

/-- Ignored mark-sensor edges are counted (R168). -/
def State.ignoreEdges (s : State) (g : Fin 12) : State :=
  let k := (s.grp[g]).edges.length
  if k = 0 then s
  else ((s.onGrp g (fun x => { x with edges := [] })).inc (A.frmCntIgn g) k).raise (A.frmEvt g) 3

/-- A Spring's error class is counted, raises its event and is recorded (R68, Tables 3.3 and 3.15): the class from 1, and the
virtual channel, data type and line number, each 0 where the error has none. -/
def State.sprErr (s : State) (n : Fin 32) (cls vc dt line : Nat) : State :=
  let ev := [0, 0, 15, 1, 2, 3, 4, 5, 6, 7, 8, 9].getD cls 0
  let s1 := ((s.inc (A.sprCntEccCorr n + 4 * (cls - 1))).raise (A.sprEvt n) ev).wr (A.sprLastErr n)
    (wd (line % 2 ^ 24 * 256 + vc % 4 * 64 + dt % 64))
  s1.onSpr n (fun x => { x with errClass := cls })

/-- A discard that ends, with its frame's cause, at a frame mark or a group reset: the counters of R70 step 4, and the group lines that a
swap wait lost (R44). -/
def State.endCuts (s : State) (g : Fin 12) : State :=
  let ends := (s.grp[g]).cuts.filter (·.active)
  let s0 := forAll (fun (c : Cut) s => if c.swap then s.inc A.sicSwapLost (((s.grp[g]).count + 2 ^ 48 - c.count) % 2 ^ 48) else s) ends s
  let s1 := forAll (fun (c : Cut) s =>
    forAll (fun (n : Nat) s =>
      if n = c.spring then (match fin? 32 n with
        | some n => s.sprErr n 11 c.vc c.dt c.l
        | none => s)
      else (s.inc (A.sprCntTruncGrp n)).raise (A.sprEvt n) 10) (s.group g).springs s) ends s0
  s1.onGrp g (fun x => { x with cuts := x.cuts.map (fun c => { c with active := false }) })

/-- A group at the first line of a frame. -/
def Group.newFrame (y : Group) (opening synth : Bool) (pos : Nat) : Group :=
  { y with begun := true, openNext := false, opening := opening, synth := synth, lines := 0, firstPos := pos, edges := []
           far := if opening then none else y.far }

/-- The frame logic at a line of group `g` on this cycle: whether it starts a frame, its numbers, and everything that
happens at a frame's first line. The answer gives the line's tags (time and position still unset), none while the group is
not active and no Spring of it is enabled. -/
def State.frameStep (s : State) (g : Fin 12) : Option LineTag × Bool × State :=
  if !s.anyEnabled g then (none, false, s)
  else
    let s0 := if (s.grp[g]).active then s else (s.onGrp g (fun x => { x with active := true, openNext := true })).noteRun s
    let x := s0.grp[g]
    let pos := s0.markPos g
    let due : Bool := match (s0.group g).mark with
      | .encoder _ _ _ => match x.nextMark with
        | some m => decide (0 ≤ wrapDiff 64 pos m)
        | none => false
      | .sensor _ _ => !x.edges.isEmpty && decide (s0.f (A.frmHoldoff g) 23 0 < x.lines)
      | .count _ => decide (s0.f (A.frmCountN g) 23 0 + 1 ≤ x.lines)
      | .none => false
    let mx := s0.f (A.frmMaxlen g) 24 0
    let mark := !x.openNext && due
    let synth := !x.openNext && !due && decide (mx ≠ 0) && decide (mx ≤ x.lines)
    let start := x.openNext || mark || synth
    let s1 :=
      if !start then
        (match (s0.group g).mark with
          | .sensor _ _ => s0.ignoreEdges g
          | _ => s0)
      else
        let frame := s0.nextFrame g
        let s1 := ((if mark || x.openNext then s0 else s0.ignoreEdges g).endCuts g).onGrp g (fun y => y.newFrame x.openNext synth pos)
        let s2 := (s1.wr (A.frmFrame g) (wd frame))
        let s3 := if s2.commitDue (A.frmCommit g) true then s2.takeStaged (A.frmCommit g) else s2
        let s4 := s3.onGrp g (fun y => { y with nextMark := some (s3.markBeyond g pos) })
        let s5 := if synth then (s4.inc (A.frmCntSynth g)).raise (A.frmEvt g) 1 else s4
        let s6 := if mark then s5.raise (A.frmEvt g) 0 else s5
        (s6.stepsAtFrame g).swapMark g frame mark
    let y := s1.grp[g]
    let frame := (s1.rd (A.frmFrame g)).toNat
    let s2 := if start then
        let r := s1.generationUpdate g frame
        let sg := (List.range 32).map (fun n => if (r.2.group g).springs.contains n then r.2.sgen n else 0)
        let info : FrameInfo := { frame := frame, gen := r.2.f (A.frmGen g) 15 0, sgens := sg, late := r.1, first := {} }
        r.2.onGrp g (fun z => { z with infos := z.infos ++ [info] })
      else s1
    let long := decide (2 ^ 24 ≤ y.lines)
    let s3 := if y.lines = 2 ^ 24 then s2.raise (A.frmEvt g) 2 else s2
    let tag : LineTag := { frame := frame, line := y.lines % 2 ^ 24, gen := s3.f (A.frmGen g) 15 0, count := y.count,
                           opening := y.opening, synth := y.synth, long := long }
    let s4 := s3.onGrp g (fun z => { z with lines := z.lines + 1, count := (z.count + 1) % 2 ^ 48 })
    let s5 := ((s4.wr (A.frmLine g) (wd (tag.line + (if long then 2 ^ 24 else 0) + (if y.opening then 2 ^ 25 else 0)
      + (if y.synth then 2 ^ 26 else 0)))).wr (A.frmCountLo g) (wd y.count)).wr (A.frmCountHi g) (wd (y.count / 2 ^ 32))
    (some tag, start, s5)

/-- The tags of the group's line become those of its frame's record when it is the first line (Table 8.4). -/
def State.noteFirst (s : State) (g : Fin 12) (start : Bool) (t : LineTag) : State :=
  if start then s.onGrp g (fun x => { x with
    infos := x.infos.map (fun i => if i.frame = t.frame then { i with first := t } else i) }) else s

end Sys2Proof.Machine
end

