-- ==== Sys2Proof/Machine/Lanes.lean ====
section
/-! DEFINITION. From ball pairs to packets: lane order, polarity, descrambling, the packet header and its ECC (R55, R59). The spec names
CSI-2 for the header, its ECC and the scrambler; their bits are CSI-2's (PRESUMED, assumption 87). -/

namespace Sys2Proof.Machine
open Sys2Proof

/-- Ball pair of logical lane `i` in SPRn_LANE_MAP (Table 3.8). -/
def laneOf (w : Word) (i : Nat) : Nat := fld w (2 * i + 1) (2 * i)

/-- The bytes of logical lane `i`: those of the ball pair that SPRn_LANE_MAP gives it, P and N swapped where PNSWAP says so (R55). -/
def laneBytes (map : Word) (pairs : List Bytes) (i : Nat) : Bytes :=
  let p := laneOf map i
  let bs := pairs.getD p []
  if bit map (8 + p) then bs.map (fun b => ~~~b) else bs

/-- The scrambler's register after one bit: x¹⁶ + x⁵ + x⁴ + x³ + 1. -/
def scrambleBit (q : Nat) : Nat := (q * 2 % 2 ^ 16) ^^^ (if 2 ^ 15 ≤ q then 0x39 else 0)

/-- The next byte of the scrambling sequence, first bit least significant, and the register after it. -/
def scrambleByte (q : Nat) : Nat × Nat :=
  (List.range 8).foldl (fun a k => (a.1 + (if 2 ^ 15 ≤ a.2 then 2 ^ k else 0), scrambleBit a.2)) (0, q)

/-- One lane scrambled or descrambled from a seed (R59). -/
def scramble : Nat → Bytes → Bytes
  | _, [] => []
  | q, b :: bs => let r := scrambleByte q; (b ^^^ BitVec.ofNat 8 r.1) :: scramble r.2 bs

/-- The seed of a lane, at each start-of-transmission. -/
def laneSeed (i : Nat) : Nat := [0x0810, 0x0990, 0x0A51, 0x0BD0].getD i 0

/-- The bytes of a transmission, logical lane 0 first (R55). -/
def mergeLanes (lanes : List Bytes) : Bytes :=
  let ls := lanes.map (·.toArray)
  (List.range ((lanes.headD []).length)).flatMap (fun k => ls.filterMap (fun l => l[k]?))

/-- The syndrome of each of the 26 header bits: the words of six bits with three ones, then those with five, in order. -/
def eccColumns : List Nat :=
  let ones := fun (x : Nat) => (List.range 6).countP (fun i => x.testBit i)
  (List.range 64).filter (fun x => ones x == 3) ++ (List.range 64).filter (fun x => ones x == 5)

/-- The 6-bit ECC of the 26 header bits. -/
def headerEcc (d : Nat) : Nat :=
  (List.range 26).foldl (fun a i => if d.testBit i then a ^^^ eccColumns.getD i 0 else a) 0

/-- A packet header checked against its ECC: the outcome (0 clean, 1 one bit corrected, 2 uncorrectable) and the header bits (R59, R68). -/
def checkHeader (d ecc : Nat) : Nat × Nat :=
  let syn := headerEcc d ^^^ ecc
  if syn = 0 then (0, d)
  else match eccColumns.findIdx? (· == syn) with
    | some i => (1, d ^^^ 2 ^ i)
    | none => if (List.range 6).any (fun i => syn == 2 ^ i) then (1, d) else (2, d)

/-- A packet as decoded: the outcome of the header ECC, the header's fields, the payload and the CRC received (none: cut short). -/
structure Packet where
  ecc : Nat
  vc : Nat
  vcx : Nat
  dt : Nat
  wc : Nat
  payload : Bytes
  crc : Option Nat
  deriving DecidableEq, Repr

/-- The packet that the bytes of a transmission spell (R59): data identifier, word count, ECC with VCX, payload, CRC. -/
def parsePacket (bs : Bytes) : Packet :=
  let b := fun (i : Nat) => (bs.getD i 0#8).toNat
  let r := checkHeader (b 0 + 256 * (b 1 + 256 * b 2) + 2 ^ 24 * (b 3 / 64)) (b 3 % 64)
  let wc := r.2 / 256 % 2 ^ 16
  let tail := bs.drop (4 + wc)
  { ecc := r.1, vc := r.2 / 64 % 4, vcx := r.2 / 2 ^ 24, dt := r.2 % 64, wc := wc, payload := (bs.drop 4).take wc
    crc := match tail with
      | x :: y :: _ => some (x.toNat + 256 * y.toNat)
      | _ => none }

/-- The packet that ball pairs carry to a Spring with `lanes` lanes, under its sampled lane map (R55, R59). -/
def readPacket (lanes : Nat) (map : Word) (scrambled : Bool) (pairs : List Bytes) : Packet :=
  parsePacket (mergeLanes ((List.range lanes).map (fun i =>
    let l := laneBytes map pairs i
    if scrambled then scramble (laneSeed i) l else l)))

end Sys2Proof.Machine
end

