-- ==== Sys2Proof/Machine/Fabric.lean ====
section
/-! DEFINITION. The Lake as its requesters see it: channels and capacity, errors and their log, regions and who may reach
them (R242, R247 to R250). -/

namespace Sys2Proof.Machine
open Sys2Proof

/-- Lake channel `c` changes. -/
def State.onChan (s : State) (c : Fin 12) (f : LakeChan → LakeChan) : State :=
  { s with lakeCtl := { s.lakeCtl with chans := vupd s.lakeCtl.chans c f } }

/-- Channels of the set in use. -/
def State.lakeSetOf (s : State) : List Nat := setChannels s.lakeCtl.set_

/-- GiB of a channel's DIMM. -/
def State.chanGib (s : State) (c : Nat) : Nat :=
  match fin? 12 c with
  | some i => ((s.lakeCtl.chans[i]).dimm.map (·.gib)).getD 0
  | none => 0

/-- Capacity of the Lake in bytes (R242). -/
def State.lakeCap (s : State) : Nat :=
  match s.lakeSetOf with
  | [] => 0
  | c :: cs => (c :: cs).length * (cs.foldl (fun a d => min a (s.chanGib d)) (s.chanGib c)) * 2 ^ 30

/-- The data rate of a SPEED code in MT/s; 5 to 7 are treated as 4 (Table 11.6). -/
def speedRate (c : Nat) : Nat := [4800, 5200, 5600, 6000].getD c 6400

/-- The sustained bandwidth of the population set in use, in bytes/s: 80 % of 8 bytes at the data rate for each channel (R241, R242). -/
def State.lakeSustained (s : State) : Nat := s.lakeSetOf.length * (speedRate s.lakeCtl.speed * 6400000)

/-- The channel of a Lake address, and the address within it (R247). -/
def State.lakeChannel (s : State) (a : Nat) : Nat × Nat :=
  let set := s.lakeSetOf
  let k := atLeast1 set.length
  let g := a / 256
  (set.getD (g % k) 0, g / k * 256 + a % 256)

/-! Errors (R249, R250). -/

/-- An ECC error at a Lake address is counted and logged; `src` is the SOURCE of Table 11.7 (R250). A codeword that the
scrubber found, or with DEMAND_WB a demand read, is rewritten corrected (R249, R251). -/
def State.lakeErr (s : State) (a src : Nat) (ecc : Ecc) : State :=
  let ch := s.lakeChannel a
  let log := fun (s : State) (ue : Bool) (dev : Nat) =>
    let p := s.lakeCtl.errPtr
    let w := 2 ^ 31 + (if ue then 2 ^ 30 else 0) + src * 2 ^ 28 + ch.1 * 2 ^ 24 + a / 64 % 2 * 2 ^ 23
      + (Config.dramPlace (ch.2 / 64)).toNat * 2 ^ 17 + dev * 2 ^ 13
    let s1 := (((s.wr (A.lakeErrlog p 0) (wd a)).wr (A.lakeErrlog p 1) (wd (a / 2 ^ 32 % 2 ^ 16))).wr (A.lakeErrlog p 2)
      (wd w)).wr (A.lakeErrlog p 3) (s.rd A.leRoundLo)
    { s1 with lakeCtl := { s1.lakeCtl with errPtr := (p + 1) % 16 } }
  match ecc with
  | .clean => s
  | .corrected dev =>
    let before := (s.rd (A.lakeChCntCe ch.1)).toNat
    let wm := (s.rd A.lakeCeWm).toNat
    let s1 := (log s false dev).inc (A.lakeChCntCe ch.1)
    let s2 := if before < wm ∧ wm ≤ (s1.rd (A.lakeChCntCe ch.1)).toNat then s1.raise A.lakeEvt 0 else s1
    if src = 1 ∨ (src = 0 ∧ s.b A.lakeCtl 2 = true) then s2.emit (.rewrite (a / 64 * 64)) else s2
  | .bad => ((log s true 15).inc (A.lakeChCntUe ch.1)).raise A.lakeEvt 1

/-- The first codeword of a fetch that the ECC outcomes call uncorrectable, by its number from the fetch's first codeword. -/
def firstBad (ecc : List (Nat × Ecc)) : Option Nat :=
  ecc.foldl (fun a e => if e.2 == .bad then some (match a with
    | some b => min b e.1
    | none => e.1) else a) none

/-- A fetch of `n` bytes at `a` by a controller of the device, whose codewords had the outcomes `ecc`, by their number from
the fetch's first codeword; it ends at the first uncorrectable one. Answers the bytes delivered before it (R249, R250). -/
def State.fetchLake (s : State) (a n : Nat) (ecc : List (Nat × Ecc)) : Nat × State :=
  let at_ := fun (j : Nat) => 64 * (a / 64 + j)
  let here := ecc.filter (fun e => decide (at_ e.1 < a + n))
  let bad := firstBad here
  let got := match bad with
    | some j => at_ j - a
    | none => n
  let seen := here.filter (fun e => match bad with
    | some j => decide (e.1 ≤ j)
    | none => true)
  (got, seen.foldl (fun s e => s.lakeErr (at_ e.1) 0 e.2) s)

/-- A write of `b` at `a` whose partly covered codewords had the outcomes `ecc`, by their number from the first: a bad one is left
unchanged. Answers the addresses of those (R249). -/
def State.lakeWriteEcc (s : State) (a : Nat) (b : Bytes) (ecc : List (Nat × Ecc)) : List Nat × State :=
  let stop := a + b.length
  let at_ := fun (j : Nat) => 64 * (a / 64 + j)
  let seen := ecc.filter (fun e => decide (at_ e.1 < stop) && (decide (at_ e.1 < a) || decide (stop < at_ e.1 + 64)))
  let s1 := seen.foldl (fun s e => s.lakeErr (at_ e.1) 2 e.2) s
  let bad := (seen.filter (fun e => e.2 == .bad)).map (fun e => at_ e.1)
  let lo := bad.foldl (fun m x => if x ≤ a then max m (x + 64) else m) a
  let hi := bad.foldl (fun m x => if stop < x + 64 then min m x else m) stop
  (bad, if lo < hi then s1.lakeWrite lo ((b.drop (lo - a)).take (hi - lo)) else s1)

/-- A posted write that failed is entered in the stall's log (R306). -/
def State.postErr (s : State) (t : Fin 8) (addr code seq session : Nat) : State :=
  let p := s.f (A.stlPwlogPtr t) 3 0
  let s1 := ((((s.wr (A.stlPwlog t p 0) (wd (code % 16 * 2 ^ 28 + t * 2 ^ 24 + addr % 2 ^ 24))).wr (A.stlPwlog t p 1)
    (wd seq)).wr (A.stlPwlog t p 2) (wd session)).wr (A.stlPwlog t p 3) (s.rd A.leRoundLo)).wr (A.stlPwlogPtr t)
    (wd ((p + 1) % 16))
  (s1.inc (A.stlPwlogCnt t)).raise (A.stlEvt t) 1

/-! Regions and requests (R248, Table 11.2). -/

/-- A region contains a range of addresses. -/
def LakeRegion.holds (r : LakeRegion) (a n : Nat) : Bool := decide (r.base ≤ a) && decide (a + n ≤ r.base + r.size)

/-- A requester may reach a region, to write it or to read it (Table 11.2). -/
def mayReach (q : LakeReq) (write : Bool) (r : LakeRegion) : Bool :=
  match q with
  | .tnr b => r.kind == 1 && r.owner == b.val
  | .copyIn g => r.kind == 2 && r.owner == g.val && write
  | .raw g => r.kind == 2 && r.owner == g.val && !write
  | .market n => r.kind == 3 && r.owner == n.val
  | .twoWire t => r.kind == 4 && r.owner == t.val && !write
  | .bulk t => r.kind == 5 && r.owner == t.val && !write
  | .aperture t => ((r.kind == 5 || (write && r.kind == 4)) && r.owner == t.val) || (t.val == 0 && !write)

/-- A request of `n` bytes at `a` is served (R248, R253). -/
def State.lakeAllowed (s : State) (q : LakeReq) (write : Bool) (a n : Nat) : Bool :=
  s.str.lake.any (fun r => mayReach q write r && r.holds a n) ||
    (s.str.bare && q == .aperture 0 && decide (a + n ≤ s.lakeCap))

/-- A refused request is counted (R248). -/
def State.fence (s : State) : State := (s.inc A.lakeCntFence).raise A.lakeEvt 5

/-! Samples in poisoned codewords (Table 11.3). -/

/-- A sample index lies in one of the ranges. -/
def inRanges (l : List (Nat × Nat)) (i : Nat) : Bool := l.any (fun r => decide (r.1 ≤ i) && decide (i < r.2))

/-- Sample offsets of the parts of a line. -/
def partOffsets : Nat → List Part → List (Nat × Part)
  | _, [] => []
  | o, p :: ps => (o, p) :: partOffsets (o + (p.chans.foldl (fun a c => a + c.length) 0)) ps

/-- Samples of a line in poisoned codewords read 0, and the parts that they lie in carry CRC (Table 11.3). -/
def poisonParts (parts : List Part) (bad : List (Nat × Nat)) : List Part :=
  if bad.isEmpty then parts
  else (partOffsets 0 parts).map (fun o =>
    let ch := o.2.chans.length
    let hit := fun (c u : Nat) => inRanges bad (o.1 + u * ch + c)
    { o.2 with
      flags := o.2.flags ||| (if bad.any (fun r => decide (r.1 < o.1 + o.2.chans.foldl (fun a c => a + c.length) 0) && decide (o.1 < r.2))
        then 1 else 0)
      chans := o.2.chans.mapIdx (fun c xs => xs.mapIdx (fun u x => if hit c u then 0 else x)) })

end Sys2Proof.Machine
end

