-- ==== Sys2Proof/Machine/Tables.lean ====
section
/-! DEFINITION. The correction tables: flat-field ranges and conflicts, the load ports, accumulator geometry and resets
(R145, R155, R158, R163 to R165). -/

namespace Sys2Proof.Machine
open Sys2Proof

/-- A length rounded up to a multiple of 64 (R313). -/
def up64 (n : Nat) : Nat := (n + 63) / 64 * 64

/-- Columns per packet of Spring `n` (R61). -/
def State.sprCols (s : State) (n : Nat) : Nat := s.f (A.sprLineLen n) 15 0 + 1

/-! Flat-field ranges (R158). -/

/-- Springs of defined groups. -/
def State.ownedSprings (s : State) : List Nat := (List.range 32).filter (fun n => (s.groupOf n).isSome)

/-- Spring `n` is in conflict by its range and those of lower-numbered Springs. -/
def State.ffBad (s : State) (n : Nat) : Bool :=
  let r := s.ffRange n
  decide (2 ^ 20 < r.1 + r.2) || (s.ownedSprings.filter (· < n)).any (fun m =>
    let q := s.ffRange m
    decide (r.1 < q.1 + q.2) && decide (q.1 < r.1 + r.2))

/-- The ranges are checked again: COR_FF_CONFLICT, and FF_CONFLICT for a Spring that enters conflict. -/
def State.ffCheck (s : State) : State :=
  let old := s.rd A.corFfConflict
  let bad := s.ownedSprings.filter s.ffBad
  let s1 := s.wr A.corFfConflict (wd (bad.foldl (fun v n => v + 2 ^ n) 0))
  forAll (fun n s => match s.groupOf n with
    | some g => if bit old n then s else s.raise (A.corEvt g) 9
    | none => s) bad s1

/-- The owner writes COR_FF_BASEn (R158). -/
def State.writeFfBase (s : State) (n : Nat) (v : Word) : State :=
  (s.wrK (A.corFfBase n) (wd (fld v 19 0 / 64 * 64))).ffCheck

/-- FF_BASE_WRITE. -/
def execFfBaseWrite (n : Fin 32) (v : Word) (s : State) : Host.Outcome State Fault Refusal :=
  .next (s.whenOn fun s => s.writeFfBase n v)

/-! The accumulator of a bar (R145, R155). -/

/-- Samples of a group line, positions, columns and channels in that order (R145). -/
def State.lineSamples (s : State) (g : Nat) : Nat := (s.group g).springs.foldl (fun a n => a + s.sprCols n * (s.group g).channels) 0

/-- Bytes of a row of the accumulator of bar `b` (R145). -/
def State.rowBytes (s : State) (b : Nat) : Nat := up64 (2 * s.lineSamples b)

/-- COR_Gg_TNR_ROWS (R145). -/
def State.tnrRows (s : State) (g : Nat) : Nat :=
  if 4 ≤ g then 0 else match s.region 1 g with
    | some r => min 262144 (r.size / atLeast1 (s.rowBytes g))
    | none => 0

/-- The bar has an accumulator region, so that TNR can apply. -/
def State.tnrRegion (s : State) (g : Nat) : Bool := decide (g < 4) && s.defined g && (s.region 1 g).isSome

/-- TNR applies to group `g` (R145, Table 7.1). -/
def State.tnrOn (s : State) (g : Nat) : Bool := s.tnrRegion g && s.b (A.corCtl g) 1

/-- The accumulator of bar `b` is reset: every row invalid, and i = 0 at the next frame (R155). -/
def State.tnrReset (s : State) (b : Fin 4) : State :=
  (s.onTnr b (fun t => { t with valid := [], fresh := true })).raise (A.corEvt b) 7

/-- A commit of Spring `n` takes effect; a change of W(n) rechecks the flat-field ranges (R77, R158). The bar's accumulator is reset by the
first line of the new width that reaches it (R142, R155). -/
def State.sprTake (s : State) (n : Nat) : State :=
  let s1 := s.takeStaged (A.sprCommit n)
  if s1.sprCols n = s.sprCols n then s1 else s1.ffCheck

/-! Load ports (R163, R164). -/

/-- An entry of a table addressed through the load port of a group: its key, and the bits that it holds. -/
def loadKey (table bank g e : Nat) : Nat :=
  if table = 0 then ffKey bank e else if table = 1 then defKey bank e else toneKey bank g e

/-- Bits of an entry that a table holds (Table 7.3). -/
def entryMask (table : Nat) (v : Word) : Word := if table = 0 then v else if table = 1 then v &&& 0x8FFF7FFF#32 else v &&& 0xFFFF#32

/-- Number of the first entry that a TLD_DST value names (Table 7.5). -/
def State.loadFirst (s : State) (table : Nat) (dst : Word) : Nat :=
  if table = 0 then (s.rd (A.corFfBase (fld dst 28 24))).toNat + fld dst 16 0
  else if table = 1 then fld dst 28 24 * 256 + fld dst 7 0
  else fld dst 13 0

/-- The flat-field entries from `p` on, `k` of them, lie in ranges of Springs of the group that are not in conflict. -/
def State.ffInside (s : State) (g : Nat) : Nat → Nat → Nat → Bool
  | 0, _, k => k == 0
  | fuel + 1, p, k =>
    if k = 0 then true
    else match (s.group g).springs.find? (fun n =>
        let r := s.ffRange n
        !s.b A.corFfConflict n && decide (r.1 ≤ p) && decide (p < r.1 + r.2)) with
      | none => false
      | some n =>
        let r := s.ffRange n
        let step := min k (r.1 + r.2 - p)
        State.ffInside s g fuel (p + step) (k - step)

/-- The first check of R164: every entry lies within the group's own. -/
def State.loadInside (s : State) (g table : Nat) (first count : Nat) : Bool :=
  if count = 0 then false
  else if table = 0 then s.ffInside g 64 first count
  else if table = 1 then
    decide (first + count ≤ 8192) &&
      (List.range 32).all (fun n => decide (first + count ≤ 256 * n) || decide (256 * (n + 1) ≤ first) || (s.group g).springs.contains n)
  else if table = 2 then decide (first + count ≤ 16384)
  else false

/-- A bank is locked for group `g`: in force, or named by a waiting commit (R163). -/
def State.bankLocked (s : State) (g table bank : Nat) : Bool :=
  let i := 8 + table
  bank == s.f (A.corCtl g) i i ||
    ((s.waiting (A.corCommit g)).isSome && bank == (if bit (s.shadow (A.corCtl g)) i then 1 else 0))

/-- MODE of a TLD_CTL value. -/
def loadMode (ctl : Word) : Nat := if fld ctl 9 8 = 3 then 0 else fld ctl 9 8

/-- The load of group `g` ends with a code (R164). -/
def State.loadEnd (s : State) (g : Fin 12) (code : Nat) : State :=
  let p := s.load[g]
  let s1 := s.onLoad g (fun _ => {})
  let stat := setBit (setFld (setFld (s1.rd (A.corTldStat g)) 31 28 code) 20 0 p.moved) 27 false
  let s2 := (s1.wr (A.corTldStat g) stat).setB (A.corTldCtl g) 0 false
  let s3 := s2.raise (A.corEvt g) (if code = 0 then 0 else 1)
  match p.slot, fin? 8 p.stall with
  | true, some t => s3.postCpl t (2 * 2 ^ 28 + g.val) 0 stat.toNat
  | _, _ => s3

/-- A write of START by stall `t` (R164). -/
def State.loadStart (s : State) (g : Fin 12) (t : Fin 8) : State :=
  if (s.load[g]).active then s.setB (A.corTldStat g) 26 true
  else
    let ctl := s.rd (A.corTldCtl g)
    let table := fld ctl 17 16
    let bank := fld ctl 12 12
    let first := s.loadFirst table (s.rd (A.corTldDst g))
    let count := s.f (A.corTldCount g) 20 0
    let refuse := fun (code : Nat) =>
      let s1 := (((s.setF (A.corTldStat g) 31 28 code).setF (A.corTldStat g) 20 0 0).setB (A.corTldStat g) 27 false).setB (A.corTldCtl g) 0 false
      let s2 := s1.raise (A.corEvt g) 1
      if code = 2 then s2.raise (A.corEvt g) 2 else s2
    if !s.loadInside g table first count then refuse 1
    else if loadMode ctl != 2 && s.bankLocked g table bank then refuse 2
    else
      let src := (s.rd (A.corTldSrcHi g)).toNat * 2 ^ 32 + (s.rd (A.corTldSrcLo g)).toNat / 64 * 64
      let (slot, s1) := if bit ctl 4 then s.takeNotify t else (false, s)
      ((s1.onLoad g (fun _ => { active := true, ctl := ctl, dst := wd first, count := count, src := src, moved := 0, stall := t.val,
                                slot := slot })).wr (A.corTldStat g) (wd (2 ^ 27))).setB (A.corTldCtl g) 0 true

/-- TABLE_LOAD_START: stall `t` sets START. -/
def execTableLoadStart (g : Fin 12) (t : Fin 8) (s : State) : Host.Outcome State Fault Refusal :=
  .next (s.whenOn fun s => if s.defined g then s.loadStart g t else s)

/-- One entry has moved; the load ends with OK once all have. -/
def State.loadStep (s : State) (g : Fin 12) : State :=
  let s1 := s.onLoad g (fun p => { p with moved := p.moved + 1 })
  let s2 := s1.setF (A.corTldStat g) 20 0 ((s1.load[g]).moved)
  if (s2.load[g]).count ≤ (s2.load[g]).moved then s2.loadEnd g 0 else s2

/-- Store entry `i` of the load under way. -/
def State.loadStore (s : State) (g : Fin 12) (i : Nat) (v : Word) : State :=
  let p := s.load[g]
  let table := fld p.ctl 17 16
  s.tblSet (loadKey table (fld p.ctl 12 12) g (p.dst.toNat + i)) (entryMask table v)

/-- A write of TLD_DATA (R164). -/
def State.loadWrite (s : State) (g : Fin 12) (v : Word) : State :=
  let p := s.load[g]
  if p.active && loadMode p.ctl == 0 then (s.loadStore g p.moved v).loadStep g else s

/-- TABLE_LOAD_DATA_WRITE. -/
def execTableLoadDataWrite (g : Fin 12) (v : Word) (s : State) : Host.Outcome State Fault Refusal :=
  .next (s.whenOn fun s => s.loadWrite g v)

/-- A read of TLD_DATA: the entry, and the state after it (R164). -/
def State.loadRead (s : State) (g : Fin 12) : Word × State :=
  let p := s.load[g]
  if p.active && loadMode p.ctl == 2 then
    (s.tbl (loadKey (fld p.ctl 17 16) (fld p.ctl 12 12) g (p.dst.toNat + p.moved)), s.loadStep g)
  else (0#32, s)

/-- TABLE_LOAD_DATA_READ: the value returned goes to the reader. -/
def execTableLoadDataRead (g : Fin 12) (s : State) : Host.Outcome State Fault Refusal :=
  .next (s.whenOn fun s => (s.loadRead g).2.emit (.value 0 (s.loadRead g).1.toNat))

/-- Entries of a copy whose words lie in a readout buffer region of the stall that has the group. -/
def State.copyInside (s : State) (g : Nat) (src count : Nat) : Nat :=
  match s.str.lake.find? (fun r => r.kind == 5 && decide (r.base ≤ src) && decide (src < r.base + r.size) && s.ownsGroup r.owner g) with
  | some r => min count ((r.base + r.size - src) / 4)
  | none => 0

/-- Copy entries from the Lake. -/
def State.loadCopy : Nat → Fin 12 → State → State
  | 0, _, s => s
  | k + 1, g, s =>
    let p := s.load[g]
    let v := wd (ofLe (s.lakeRead (p.src + 4 * p.moved) 4))
    State.loadCopy k g ((s.loadStore g p.moved v).onLoad g (fun p => { p with moved := p.moved + 1 }))

/-- TABLE_LOAD_DONE: a copy of MODE 1 ends: with OK, or with LAKE_ERR at the end of its region, where the request is refused
and counted, or at a codeword with an uncorrectable error; `ecc` gives the outcomes of the codewords read (R164, R248 to
R250). -/
def execTableLoadDone (g : Fin 12) (ecc : List (Nat × Ecc)) (s : State) : Host.Outcome State Fault Refusal :=
  .next (s.whenOn fun s =>
    let p := s.load[g]
    if !p.active || loadMode p.ctl != 1 then s
    else
      let room := s.copyInside g p.src p.count
      let r := s.fetchLake p.src (4 * min room p.count) ecc
      let n := r.1 / 4
      let s1 := if n = room ∧ n < p.count then r.2.fence else r.2
      (s1.loadCopy n g).loadEnd g (if n < p.count then 3 else 0))

end Sys2Proof.Machine
end

