-- ==== Sys2Proof/Machine/Unpack.lean ====
section
/-! DEFINITION. CSI-2 payloads: packing of the data types of Table 3.2, the payload CRC, black level and column order
(R59 to R62, R68). -/

namespace Sys2Proof.Machine
open Sys2Proof

/-- How a long packet is decoded: width W, channels K, interleaved, two bytes per sample, RGB888. -/
structure PackFmt where
  w : Nat
  k : Nat := 1
  inter : Bool := false
  two : Bool := false
  rgb : Bool := false
  deriving DecidableEq, Repr

/-- The format of a data type (Table 3.2), `udt` giving SPRn_UDTm; none for a type that is not accepted. -/
def packFmt (dt : Nat) (udt : Nat → Word) : Option PackFmt :=
  if dt = 0x24 then some { w := 8, k := 3, inter := true, rgb := true }
  else if dt = 0x2A then some { w := 8 }
  else if dt = 0x2B then some { w := 10 }
  else if dt = 0x2C then some { w := 12 }
  else if dt = 0x2D then some { w := 14 }
  else if dt = 0x2E then some { w := 16 }
  else if 0x30 ≤ dt ∧ dt ≤ 0x37 then
    let u := udt (dt - 0x30)
    let w := fld u 2 0
    if w > 4 then none
    else some { w := 8 + 2 * w, k := fld u 5 4 + 1, inter := bit u 6, two := bit u 7 }
  else none

/-- Bytes of `n` samples in the packing of a format (R61). -/
def packBytes (f : PackFmt) (n : Nat) : Nat := if f.two then n * 2 else n * f.w / 8

/-- Sample `i` of a payload; `b j` is byte j. -/
def packSample (f : PackFmt) (b : Nat → Nat) (i : Nat) : Nat :=
  if f.two then (b (2 * i) + 256 * b (2 * i + 1)) % 2 ^ f.w
  else if f.w = 8 then b i
  else if f.w = 10 then
    let q := i / 4 * 5
    b (q + i % 4) * 4 + b (q + 4) / 4 ^ (i % 4) % 4
  else if f.w = 12 then
    let q := i / 2 * 3
    b (q + i % 2) * 16 + b (q + 2) / 16 ^ (i % 2) % 16
  else if f.w = 14 then
    let q := i / 4 * 7
    let low := b (q + 4) + 256 * b (q + 5) + 65536 * b (q + 6)
    b (q + i % 4) * 64 + low / 64 ^ (i % 4) % 64
  else b (2 * i) * 256 + b (2 * i + 1)

/-- The raw samples per channel of a payload of `c` columns; absent bytes read 0 (R60, R61). RGB888 sends blue first. -/
def unpackRaw (f : PackFmt) (c : Nat) (bs : Bytes) : List (List Nat) :=
  let a := bs.toArray
  let b := fun (j : Nat) => (a.getD j 0#8).toNat
  (List.range f.k).map (fun ch => (List.range c).map (fun col =>
    let i := if f.rgb then col * 3 + (2 - ch) else if f.inter then col * f.k + ch else ch * c + col
    packSample f b i))

/-- Left-justification to u16.0 and black level (R62). -/
def blackLevel (w black s : Nat) : Nat := s * 2 ^ (16 - w) - black

/-- CSI-2 payload CRC: x¹⁶ + x¹² + x⁵ + 1, reflected, initial value 0xFFFF (Tables 3.3, 14.7). -/
def crc16 (bs : Bytes) : Nat :=
  bs.foldl (fun c b => (List.range 8).foldl (fun c _ => if c % 2 = 1 then (c / 2) ^^^ 0x8408 else c / 2) (c ^^^ b.toNat)) 0xFFFF

end Sys2Proof.Machine
end

