-- ==== Sys2Proof/Machine/Springs.lean ====
section
/-! DEFINITION. Springs: deskew, packets, lines, trigger association, ingress ponds and truncation (R54 to R77). -/

namespace Sys2Proof.Machine
open Sys2Proof

/-- Size of an ingress pond (R70, Table 14.4). -/
abbrev ingressSize : Nat := 2 ^ 20

/-- Size of a line item of Spring `n` in a group of `ch` channels (Ingress ponds). -/
def State.itemSize (s : State) (n ch : Nat) : Nat := up64 (64 + 2 * s.sprCols n * ch)

/-- Fill of an ingress pond, bytes. -/
def pondFill (p : List Item) : Nat := p.foldl (fun a i => a + i.size) 0

/-- An ingress pond changes: its peak and watermark follow (Ingress ponds). A fill equal to SPRn_POND_WM counts as above it
(DESIGN CHOICE, assumption 103). -/
def State.setPond (s : State) (n : Fin 32) (p : List Item) : State :=
  let fill := pondFill p
  let above := decide (s.f (A.sprPondWm n) 20 0 ≤ fill)
  let s1 := ((s.onSpr n (fun x => { x with pond := p, overWm := above })).peak (A.sprPondPeak n) fill).peak (A.pndpPeak n) fill
  if above && !(s.spr[n]).overWm then s1.raise (A.sprEvt n) 13 else s1

/-- Items leave an ingress pond: the watermark follows, and the room is released (R315). -/
def State.shrinkPond (s : State) (n : Fin 32) (p : List Item) : State :=
  (s.onSpr n (fun x => { x with pond := p, overWm := decide (s.f (A.sprPondWm n) 20 0 ≤ pondFill p) })).release n
    (pondFill (s.spr[n]).pond - pondFill p)

/-- A line of the cut's frame is numbered at or above its L (R70 step 1), told by the running line count, which orders the lines of one
frame as their 24-bit numbers do while R13 lets those decide (R12, R28). -/
def Cut.covers (c : Cut) (t : LineTag) : Bool := c.frame == t.frame && !isLater 48 c.count t.count

/-- A cut covers a line (R70 step 1). -/
def Group.isCut (x : Group) (t : LineTag) : Bool := x.cuts.any (fun c => c.covers t)

/-- The line at the head of the pond of Spring `n` waits for a swap (R44). -/
def State.frontHeld (s : State) (g : Fin 12) (n : Fin 32) : Bool :=
  match (s.spr[n]).pond.find? (fun i => !i.marker) with
  | some i => s.swapHold g i.tag.frame
  | none => false

/-- An ingress overflow on Spring `n` of the line with the tags `t`, associated at cycle `at_` (R70): the group is in discard, the lowest L
stands, of several overflows with one L the earliest association is the cause, and the marker takes the 64 reserved bytes. -/
def State.overflow (s : State) (g : Fin 12) (n : Fin 32) (t : LineTag) (vc dt at_ : Nat) : State :=
  let mk : Item := { tag := t, trig := t, marker := true, size := 64 }
  let new : Cut := {
    frame := t.frame, l := t.line, spring := n, at_ := at_, count := t.count, vc := vc, dt := dt, swap := s.frontHeld g n }
  match (s.grp[g]).cuts.find? (fun c => c.frame == t.frame) with
  | none => (s.onGrp g (fun x => { x with cuts := x.cuts ++ [new] })).setPond n ((s.spr[n]).pond ++ [mk])
  | some c =>
    if isLater 48 c.count t.count then
      let u : Cut := { new with active := c.active, passed := c.passed }
      let s1 := s.onGrp g (fun x => { x with cuts := x.cuts.map (fun d => if d.frame == t.frame then u else d) })
      s1.setPond n ((s.spr[n]).pond ++ [mk])
    else if t.count = c.count ∧ (at_ < c.at_ ∨ (at_ = c.at_ ∧ n.val < c.spring)) then
      s.onGrp g (fun x => { x with cuts := x.cuts.map (fun d =>
        if d.frame == t.frame then { d with spring := n, vc := vc, dt := dt, at_ := at_ } else d) })
    else s

/-- The registers that describe the last line written (Table 3.5). -/
def State.lastLine (s : State) (n : Fin 32) (t : LineTag) (flags : Nat) : State :=
  let c := (s.rd (A.sprLinesHi n)).toNat % 2 ^ 16 * 2 ^ 32 + (s.rd (A.sprLinesLo n)).toNat + 1
  let s1 := (s.wr (A.sprLinesLo n) (wd c)).wr (A.sprLinesHi n) (wd (c / 2 ^ 32 % 2 ^ 16))
  let s2 := (s1.wr (A.sprLastTimeLo n) (wd t.time)).wr (A.sprLastTimeHi n) (wd (t.time / 2 ^ 32))
  let s3 := (s2.wr (A.sprLastWpLo n) (wd t.pos)).wr (A.sprLastWpHi n) (wd (t.pos / 2 ^ 32))
  ((s3.wr (A.sprLastFrame n) (wd t.frame)).wr (A.sprLastInfo n)
    (wd (t.line % 2 ^ 24 * 256 + t.tb % 4 * 64 + t.wp % 4 * 16 + flags % 16))).wr (A.sprLastEpoch n) (wd (t.epoch % 256))

/-- Space for a line item is reserved at association, if the line is not cut and fits (R70): whether it was. A line that
is not `numbered` yet and finds no room is lost at its place (R67). -/
def State.reserveItem (s : State) (g : Fin 12) (n : Fin 32) (vc dt : Nat) (it : Item) : Bool × State :=
  let p := (s.spr[n]).pond
  let fits := decide (pondFill p + s.unseen n + it.size + 64 ≤ ingressSize)
  if it.numbered && (s.grp[g]).isCut it.tag then (false, if fits then s else s.overflow g n it.tag vc dt s.now)
  else
    if !fits then
      (false, if it.numbered then s.overflow g n it.tag vc dt s.now
        else s.onGrp g (fun y => { y with lost := y.lost ++ [{ place := it.place, spring := n, vc := vc, dt := dt, at_ := s.now }] }))
    else
      let c := if it.done && it.numbered then s.notice n else (0, s)
      (true, c.2.setPond n (p ++ [{ it with seen := c.1 }]))

/-- The values in force of the registers that a commit of Spring `n` changes. -/
def State.valsBefore (s : State) (n : Nat) : List (Nat × Word) := (s.written (A.sprCommit n)).map (fun x => (x.1, s.rd x.1))

/-- RWS fields of a Spring take effect at the association of a line; a line that is open goes on under the values before (R77). -/
def State.sprBoundary (s : State) (n : Fin 32) (frame : Nat) : State :=
  let start := (s.spr[n]).lastFrame != some frame
  let s1 := if s.commitDue (A.sprCommit n) start then
      (s.sprTake n).onSpr n (fun x => { x with cur := x.cur.map (fun o => { o with vals := o.vals ++ s.valsBefore n }) })
    else s
  s1.onSpr n (fun x => { x with lastFrame := some frame })

/-- The values under which the open line of Spring `n` is decoded, where a later line's commit has changed them (R77). -/
def State.lineVals (s : State) (n : Fin 32) : List (Nat × Word) := ((s.spr[n]).cur.map (·.vals)).getD []

/-- Registers take values, the first of each address standing. -/
def State.withVals (s : State) (l : List (Nat × Word)) : State := forAll (fun (x : Nat × Word) s => s.wr x.1 x.2) l.reverse s

/-- The state with the values under which the open line of Spring `n` is decoded. -/
def State.lineView (s : State) (n : Fin 32) : State := s.withVals (s.lineVals n)

/-- Run an operation on the open line of Spring `n` under the values of that line (R77). -/
def State.underLine (s : State) (n : Fin 32) (op : State → State) : State :=
  let now := (s.lineVals n).map (fun x => (x.1, s.rd x.1))
  (op (s.lineView n)).withVals now

/-- The frame at whose boundary a filler line of Spring `n` with the tags `t` stands (R77): its own, or for a Spring of a free-running group
other than its reference Spring the reference Spring's current frame; none for a frame before that of a line associated already. -/
def State.fillerFrame (s : State) (g : Fin 12) (n : Fin 32) (t : LineTag) : Option Nat :=
  let f := if s.f (A.sprCtl n) 13 12 = 1 ∧ n.val ≠ (s.group g).refSpring then (s.rd (A.frmFrame g)).toNat else t.frame
  match (s.spr[n]).lastFrame with
  | some l => if isLater 32 l f then none else some f
  | none => some f

/-- A filler line of Spring `n` for a trigger or a reference line (R66, R76). -/
def State.filler (s : State) (g : Fin 12) (n : Fin 32) (t : LineTag) : State :=
  let s0 := match s.fillerFrame g n t with
    | some f => s.sprBoundary n f
    | none => s
  let ch := (s0.group g).channels
  let c := s0.sprCols n
  let it : Item := { tag := t, trig := t, flags := 8, chans := List.replicate ch (List.replicate c 0),
                     satIn := [0, 0, 0, 0], size := s0.itemSize n ch }
  let r := s0.reserveItem g n 0 0 it
  if r.1 then (r.2.sprErr n 9 0 0 t.line).lastLine n t 8 else r.2

/-- The oldest queued trigger leaves as a filler line (R66). -/
def State.dropOldest (s : State) (n : Fin 32) : State :=
  match (s.spr[n]).queue with
  | [] => s
  | e :: q =>
    let s1 := s.onSpr n (fun x => { x with queue := q })
    match (s1.groupOf n).bind (fin? 12) with
    | some g => s1.filler g n e.tag
    | none => s1

/-- Every queued trigger leaves as a filler line (R76). -/
def State.dropQueue : Nat → Fin 32 → State → State
  | 0, _, s => s
  | k + 1, n, s => if (s.spr[n]).queue.isEmpty then s else State.dropQueue k n (s.dropOldest n)

/-- A trigger of the group reaches Spring `n`: it is queued, or yields a filler while the Spring is disabled (R66, R76). -/
def State.queueTrigger (s : State) (g : Fin 12) (n : Fin 32) (t : LineTag) : State :=
  if s.b (A.sprCtl n) 0 then
    let s1 := if (s.spr[n]).queue.length < 16 then s else s.dropOldest n
    s1.onSpr n (fun x => { x with queue := x.queue ++ [{ cycle := t.cycle, tag := t }] })
  else s.filler g n t

/-- The ORDER fields that a reader of the registers gives for bar `b`, when they keep R101: its Springs by position. -/
def orderOf (rd : Nat → Word) (b : Nat) (sp : List Nat) : Option (List Nat) :=
  let entry := fun (k : Nat) => let w := rd (A.seamBarOrder b (k / 4)); fld w (8 * (k % 4) + 7) (8 * (k % 4))
  let o := (List.range sp.length).map entry
  let rest := (List.range 32).all (fun k => decide (k < sp.length) || decide (entry k < 128))
  if rest && o.all (fun v => decide (128 ≤ v)) && sp.all (fun n => (o.map (· % 32)).countP (· == n) == 1) then some (o.map (· % 32))
  else none

/-- The Springs of a group in position order: the order in force for a bar, the default order where it breaks R101, else
the image's order (R100, R101). -/
def State.order (s : State) (g : Nat) : List Nat :=
  let sp := (s.group g).springs
  if 4 ≤ g then sp
  else match orderOf s.rd g sp with
    | some o => o
    | none => (List.range 32).filter (fun n => sp.contains n)

/-- A Spring of a free-running group yields a filler for every reference line begun that it has not started and that `p` picks (R75, R76). -/
def State.fillFree (s : State) (g : Fin 12) (n : Fin 32) (p : LineTag → Bool) : State :=
  forAll (fun (r : Nat × LineTag) s => (s.filler g n r.2).onSpr n (fun x => { x with started := r.1 + 1 }))
    ((s.grp[g]).refTags.filter (fun r => decide ((s.spr[n]).started ≤ r.1) && p r.2)) s

/-- A delayed trigger edge reaches its Spring: the time of the entry is that of the edge, on the Spring's base (R65, R66, R73). -/
def State.edgeIn (s : State) (e : Edge) : State :=
  match fin? 32 e.spring with
  | none => s
  | some n => match (s.groupOf n).bind (fin? 12) with
    | none => s
    | some g =>
      let t : LineTag := { s.stamp n s.now e.tag with wp := e.tag.wp, pos := e.tag.pos }
      let s1 := if (s.order g).head? = some n.val then s.onGrp g (fun x => { x with infos := x.infos.map (fun i =>
          if i.frame = t.frame ∧ i.first.count = t.count then { i with first := t } else i) }) else s
      s1.queueTrigger g n t

/-- The trigger edges that a cycle brings (R73). -/
def State.edgesDue : List Edge → State → State
  | [], s => { s with edges := [] }
  | e :: es, s => if e.cycle ≤ s.now then State.edgesDue es (s.edgeIn e) else { s with edges := e :: es }

/-- The samples of an open line by group channel, absent channels 0 (R63). -/
def lineChans (ch c : Nat) (xs : List (List Nat)) : List (List Nat) :=
  (List.range ch).map (fun k => match xs.getD k [] with
    | [] => List.replicate c 0
    | l => l)

/-- The item under construction in a pond takes its samples and becomes complete. -/
def finishItem (f : Item → Item) : List Item → List Item
  | [] => []
  | i :: is => if i.done then i :: finishItem f is else f i :: is

/-- The open line of Spring `n` closes, under the values in force: its item is complete and the pond gives its notice (R63, R314). -/
def State.endLine (s : State) (n : Fin 32) (part : Bool) : State :=
  match (s.spr[n]).cur with
  | none => s
  | some o =>
    let s0 := s.onSpr n (fun x => { x with cur := none })
    if o.drop then s0
    else
      let flags := if part then o.flags ||| 4 else o.flags
      let ch := (((s.groupOf n).map s.group).getD {}).channels
      let c := s.sprCols n
      let s1 := if part then s0.sprErr n 8 0 0 o.tag.line else s0
      let v := if o.numbered then s1.notice n else (0, s1)
      let p := finishItem (fun i => { i with
        done := true, flags := flags, chans := lineChans ch c o.chans, satIn := o.satIn, seen := v.1 }) (s1.spr[n]).pond
      let s2 := v.2.setPond n p
      if o.numbered then s2.lastLine n o.tag flags else s2

/-- The open line of Spring `n` closes, under the values that it began with (R63, R77, R314). -/
def State.closeLine (s : State) (n : Fin 32) (part : Bool) : State := s.underLine n fun s => s.endLine n part

/-- Open a line on Spring `n` at this cycle: `drop` when it has no pond item, `place` when its number is not known yet (R67). -/
def State.openLine (s : State) (n : Fin 32) (tag trig : LineTag) (drop : Bool) (place : Option Nat := none) : State :=
  s.onSpr n (fun x => { x with cur := some { tag := tag, trig := trig, start := s.now, drop := drop, numbered := place.isNone,
                                             place := place.getD 0 } })

/-- Reserve the item of a line and open it (R66, R70). -/
def State.startLine (s : State) (g : Fin 12) (n : Fin 32) (vc dt : Nat) (it : Item) : State :=
  let ch := (s.group g).channels
  let it' : Item := { it with done := false, size := s.itemSize n ch }
  let r := s.reserveItem g n vc dt it'
  let s1 := if r.1 then r.2 else if it.numbered then r.2.inc (A.sprCntLinesDrop n) else r.2
  s1.openLine n it.tag it.trig (!r.1) (if it.numbered then none else some it.place)

/-- Tags of a line whose first packet starts at this cycle, with the frame, line and generation of `m` (R65). -/
def State.lineTag (s : State) (n : Nat) (m : LineTag) : LineTag := s.stamp n s.now m

/-- Number the line at a place of Spring `m` after the reference Spring's line of that place: in its pond, under way, or lost before it had
a number; a line that is complete by then is written now (R67, R70). -/
def State.numberPlace (s : State) (g : Fin 12) (m : Fin 32) (place : Nat) (t : LineTag) : State :=
  let num := fun (o : LineTag) => { t with time := o.time, timex := o.timex, tb := o.tb, epoch := o.epoch, pos := o.pos,
                                           wp := o.wp, cycle := o.cycle }
  let here := fun (i : Item) => !i.numbered && i.place == place
  let item := (s.spr[m]).pond.find? here
  let v := if item.any (·.done) then s.notice m else (0, s)
  let s1 := v.2.onSpr m (fun x => { x with
    pond := x.pond.map (fun i => if here i then { i with numbered := true, tag := num i.tag, trig := t, seen := v.1 } else i)
    cur := x.cur.map (fun o => if !o.numbered && o.place == place then { o with numbered := true, tag := num o.tag, trig := t } else o) })
  let s2 := match item with
    | some i => if i.done then s1.lastLine m (num i.tag) i.flags else s1
    | none => s1
  let mine := fun (l : LostLine) => l.place == place && l.spring == m.val
  match (s2.grp[g]).lost.find? mine with
  | some l => ((s2.overflow g m t l.vc l.dt l.at_).inc (A.sprCntLinesDrop m)).onGrp g (fun x => { x with
      lost := x.lost.filter (fun y => !mine y) })
  | none => s2

/-- A line of the reference Spring of a free-running group starts (R67, R129). -/
def State.refLine (s : State) (g : Fin 12) (n : Fin 32) (vc dt : Nat) : State :=
  match s.frameStep g with
  | (none, _, s1) => s1.openLine n {} {} true
  | (some m, start, s1) =>
    let tag := s1.lineTag n m
    let place := (s1.grp[g]).refLines
    let s2 := (s1.noteFirst g start tag).onGrp g (fun x => { x with
      refLines := place + 1, refTags := x.refTags ++ [(place, tag)] })
    let s3 := s2.issueEntries g (s2.markPos g) 0
    let s4 := (s3.sprBoundary n tag.frame).startLine g n vc dt { tag := tag, trig := tag, place := place }
    let s5 := forFin (fun (k : Fin 32) s =>
      if k = n then s.onSpr k (fun x => { x with started := place + 1 })
      else if place < (s.spr[k]).started then s.numberPlace g k place tag
      else if s.b (A.sprCtl k) 0 then s
      else (s.filler g k tag).onSpr k (fun x => { x with started := place + 1 })) (s4.group g).springs s4
    let low := (s5.group g).springs.foldl (fun a k => match fin? 32 k with
      | some k => min a (s5.spr[k]).started
      | none => a) (place + 1)
    s5.onGrp g (fun x => { x with refTags := x.refTags.filter (fun r => decide (low ≤ r.1)) })

/-- The line of Spring `n` whose first packet, of virtual channel `vc` and data type `dt`, starts at this cycle is associated (R66, R67,
R77). -/
def State.associate (s : State) (n : Fin 32) (vc dt : Nat) : State :=
  let s := if (s.spr[n]).cur.isSome then s.closeLine n true else s
  match (s.groupOf n).bind (fin? 12) with
  | none => s
  | some g =>
    if s.f (A.sprCtl n) 13 12 = 1 then
      if n.val = (s.group g).refSpring then s.refLine g n vc dt
      else
        let place := (s.spr[n]).started
        let s1 := (s.sprBoundary n (s.rd (A.frmFrame g)).toNat).onSpr n (fun x => { x with started := place + 1 })
        match (s1.grp[g]).refTags.lookup place with
        | some m => s1.startLine g n vc dt { tag := s1.lineTag n m, trig := m, place := place }
        | none => s1.startLine g n vc dt { tag := s1.lineTag n {}, numbered := false, place := place }
    else
      let lo := s.f (A.sprTrigLat n) 15 0 * 10
      let hi := s.f (A.sprTrigLat n) 31 16 * 10
      match (s.spr[n]).queue with
      | e :: q =>
        if e.cycle + lo ≤ s.now ∧ s.now ≤ e.cycle + hi then
          let s1 := (s.onSpr n (fun x => { x with queue := q })).sprBoundary n e.tag.frame
          s1.startLine g n vc dt { tag := s1.lineTag n e.tag, trig := e.tag }
        else (s.sprErr n 10 vc dt 0).openLine n {} {} true
      | [] => (s.sprErr n 10 vc dt 0).openLine n {} {} true

/-- The first transmission takes a Spring that needs no initial deskew from IDLE to RUN (R58, R76; DESIGN CHOICE, assumption 88). -/
def State.wakeSpring (s : State) (n : Fin 32) : State :=
  s.onSpr n (fun x => if x.st = 1 ∧ 0 < x.lanes ∧ x.deskewed = 2 ^ x.lanes - 1 then { x with st := 3 } else x)

/-- Spring `n` is in RUN with every lane in use locked (R58, R68). -/
def Spring.receives (x : Spring) : Bool := x.st == 3 && x.lock % 2 ^ x.lanes == 2 ^ x.lanes - 1

/-- A SPRn_MAPm entry in force: enabled, with a data type of Table 3.2. -/
def State.mapEntry (s : State) (n m vc dt : Nat) : Bool :=
  let w := s.rd (A.sprMap n m)
  bit w 0 && fld w 10 9 == vc && fld w 8 3 == dt && (packFmt dt (fun k => s.rd (A.sprUdt n k))).isSome

/-- Enabled map entries of Spring `n` (R63). -/
def State.mapEntries (s : State) (n : Nat) : List Nat :=
  (List.range 8).filter (fun m => let w := s.rd (A.sprMap n m)
    bit w 0 && (packFmt (fld w 8 3) (fun k => s.rd (A.sprUdt n k))).isSome)

/-- The highest entry that names channel `c` (R63). -/
def State.chanOwner (s : State) (n c : Nat) : Option Nat :=
  ((s.mapEntries n).filter (fun m => let w := s.rd (A.sprMap n m)
    let k := ((packFmt (fld w 8 3) (fun k => s.rd (A.sprUdt n k))).map (·.k)).getD 1
    decide (fld w 12 11 ≤ c) && decide (c < fld w 12 11 + k))).getLast?

/-- BLACK(c) of Spring `n` (R62). -/
def State.black (s : State) (n c : Nat) : Nat :=
  let w := s.rd (if c < 2 then A.sprBlk01 n else A.sprBlk23 n)
  if c % 2 = 0 then fld w 15 0 else fld w 31 16

/-- The payload of a packet is decoded into the open line of Spring `n` by entry `m`, under the values in force (R60 to R63, R69). -/
def State.decodeInto (s : State) (n : Fin 32) (m : Nat) (p : Packet) : State :=
  match (s.spr[n]).cur, packFmt p.dt (fun k => s.rd (A.sprUdt n k)) with
  | some o, some f =>
    let cols := s.sprCols n
    let bad := some (crc16 p.payload) != p.crc
    let wrong := p.wc != packBytes f (cols * f.k)
    let s1 := if wrong then s.sprErr n 4 p.vc p.dt o.tag.line else s
    let s2 := if bad then s1.sprErr n 3 p.vc p.dt o.tag.line else s1
    let flags := o.flags ||| (if bad then 1 else 0) ||| (if wrong then 2 else 0)
    let base := fld (s.rd (A.sprMap n m)) 12 11
    let raw := unpackRaw f cols p.payload
    let rev := s.b (A.sprCtl n) 6
    let put := fun (c : Nat) (old : List Nat) =>
      if base ≤ c ∧ c < base + f.k ∧ s.chanOwner n c = some m then
        let l := (raw.getD (c - base) []).map (blackLevel f.w (s.black n c))
        if rev then l.reverse else l
      else old
    let sat := fun (c : Nat) (old : Nat) =>
      if base ≤ c ∧ c < base + f.k ∧ s.chanOwner n c = some m then
        (raw.getD (c - base) []).countP (fun x => x == 2 ^ f.w - 1) else old
    let clash := (List.range 4).any (fun c => decide (base ≤ c) && decide (c < base + f.k) && s.chanOwner n c != some m)
    let s3 := if clash && !o.clash then s2.sprErr n 5 p.vc p.dt o.tag.line else s2
    let o' : OpenLine := { o with
      got := m :: o.got, flags := flags, clash := o.clash || clash
      chans := (List.range 4).map (fun c => put c (o.chans.getD c []))
      satIn := (List.range 4).map (fun c => sat c (o.satIn.getD c 0)) }
    let s4 := s3.onSpr n (fun x => { x with cur := some o' })
    if (s.mapEntries n).all (fun e => o'.got.contains e) then s4.endLine n false else s4
  | _, _ => s

/-- The payload of a packet is decoded into the open line of Spring `n` by entry `m`, under the values that the line began with (R77). -/
def State.deliver (s : State) (n : Fin 32) (m : Nat) (p : Packet) : State := s.underLine n fun s => s.decodeInto n m p

/-- The map entries of Spring `n` that take a packet (R59). -/
def State.entriesFor (s : State) (n vc dt : Nat) : List Nat := (List.range 8).filter (fun m => s.mapEntry n m vc dt)

/-- The first of some entries that the open line of Spring `n` still lacks (R63). -/
def State.freshEntry (s : State) (n : Fin 32) (ms : List Nat) : Option Nat :=
  ms.find? (fun m => match (s.spr[n]).cur with
    | some o => !o.got.contains m
    | none => true)

/-- The frame whose values decode a line of Spring `n` that begins at this cycle: that of the trigger it answers, of the group's next line,
or, for a Spring of a free-running group other than its reference Spring, the reference Spring's current frame (R66, R67, R77). -/
def State.frameAhead (s : State) (n : Fin 32) : Option Nat :=
  match (s.groupOf n).bind (fin? 12) with
  | none => none
  | some g =>
    if s.f (A.sprCtl n) 13 12 = 1 then
      if n.val = (s.group g).refSpring then (s.frameStep g).1.map (·.frame) else some (s.rd (A.frmFrame g)).toNat
    else match (s.spr[n]).queue with
      | e :: _ =>
        if e.cycle + s.f (A.sprTrigLat n) 15 0 * 10 ≤ s.now ∧ s.now ≤ e.cycle + s.f (A.sprTrigLat n) 31 16 * 10 then some e.tag.frame
        else none
      | [] => none

/-- Between two lines of Spring `n`, a commit of its boundary is in force before the next line's first packet is judged
(R77, R300). -/
def State.boundaryAhead (s : State) (n : Fin 32) : State :=
  match s.frameAhead n with
  | some f => s.sprBoundary n f
  | none => s

/-- A long packet of virtual channel `vc` is discarded as unexpected: frames are tracked and none is open on it (R64). -/
def State.frameShut (s : State) (n : Fin 32) (vc : Nat) : Bool := s.b (A.sprCtl n) 7 && !(s.spr[n]).frameOpen.testBit vc

/-- A long packet is matched with map entries, and begins a line where none is open or where its entry has delivered already: the state with
that line, and the entries (R59, R63, R77). -/
def State.lineFor (s : State) (n : Fin 32) (vc dt : Nat) : State × List Nat :=
  let old := (s.lineView n).entriesFor n vc dt
  let s0 := if (s.spr[n]).cur.isSome && !old.isEmpty && (s.freshEntry n old).isNone then s.closeLine n true else s
  let s1 := if (s0.spr[n]).cur.isNone then s0.boundaryAhead n else s0
  let ms := (s1.lineView n).entriesFor n vc dt
  (if (s1.spr[n]).cur.isNone && !ms.isEmpty then s1.associate n vc dt else s1, ms)

/-- LINE_ASSOCIATION: the start-of-transmission of a line's first packet on Spring `n`, with the virtual channel and data type of its header
(R66, R67). A packet that is discarded, or that belongs to the open line, begins none. -/
def execLineAssociation (n : Fin 32) (vc : Fin 4) (dt : Fin 64) (s : State) : Host.Outcome State Fault Refusal :=
  .next (s.whenOn fun s =>
    let s := s.wakeSpring n
    if (s.spr[n]).receives && !s.frameShut n vc then (s.lineFor n vc dt).1 else s)

/-- A long packet with a sound header is decoded into the line that it belongs to (R59, R63, R64). -/
def State.longPacket (s : State) (n : Fin 32) (p : Packet) : State :=
  let line := ((s.spr[n]).cur.map (·.tag.line)).getD 0
  if s.frameShut n p.vc then s.sprErr n 5 p.vc p.dt line
  else
    let r := s.lineFor n p.vc p.dt
    if r.2.isEmpty then r.1.sprErr n 5 p.vc p.dt line
    else match r.1.freshEntry n r.2 with
      | some m => r.1.deliver n m p
      | none => r.1

/-- A short packet with a sound header (R59, R64). -/
def State.shortPacket (s : State) (n : Fin 32) (p : Packet) : State :=
  let x := s.spr[n]
  let line := (x.cur.map (·.tag.line)).getD 0
  if p.dt = 0 then
    if !s.b (A.sprCtl n) 7 then s
    else
      let s1 := if x.frameOpen.testBit p.vc then s.sprErr n 6 p.vc p.dt line else s
      s1.onSpr n (fun x => { x with frameOpen := x.frameOpen ||| 2 ^ (p.vc % 4) })
  else if p.dt = 1 then
    if !s.b (A.sprCtl n) 7 then s
    else s.onSpr n (fun x => { x with frameOpen := (List.range 4).foldl (fun a i =>
      if i ≠ p.vc ∧ x.frameOpen.testBit i then a + 2 ^ i else a) 0 })
  else if p.dt = 2 ∨ p.dt = 3 ∨ (8 ≤ p.dt ∧ p.dt ≤ 15) then s
  else s.sprErr n 5 p.vc p.dt line

/-- What Spring `n` reads in a transmission (R55, R59). -/
def State.packetOf (s : State) (n : Fin 32) (pairs : List Bytes) : Packet :=
  readPacket (s.spr[n]).lanes (s.spr[n]).laneMap (s.b (A.sprCtl n) 5) pairs

/-- A transmission reaches Spring `n`: it is discarded in DESKEW or with a lane that is not locked, its header is checked, and the packet is
handled by its data type, short below 16 (R58, R59, R68). A Spring that two lanes on one ball pair have left in IDLE ignores it, without a
count (DESIGN CHOICE, assumption 104). -/
def State.receive (s : State) (n : Fin 32) (pairs : List Bytes) : State :=
  let s := s.wakeSpring n
  let x := s.spr[n]
  let line := (x.cur.map (·.tag.line)).getD 0
  if x.st < 2 then s
  else if !x.receives then s.sprErr n 7 0 0 line
  else
    let p := s.packetOf n pairs
    if p.ecc = 2 then s.sprErr n 2 p.vc p.dt line
    else
      let s := if p.ecc = 1 then s.sprErr n 1 p.vc p.dt line else s
      if p.vcx ≠ 0 then s.sprErr n 5 p.vc p.dt line
      else if p.dt < 16 then s.shortPacket n p
      else s.longPacket n p

/-- LONG_PACKET: a long packet of Spring `n`, as the bytes that its ball pairs carry; where no LINE_ASSOCIATION came before it, its
start-of-transmission is this cycle (R59 to R64, R68). -/
def execLongPacket (n : Fin 32) (pairs : List Bytes) (s : State) : Host.Outcome State Fault Refusal :=
  .next (s.whenOn fun s => s.receive n pairs)

/-- SHORT_PACKET: frame start (0), frame end (1) and the other short packets, as the bytes that the ball pairs carry (R59, R64). -/
def execShortPacket (n : Fin 32) (pairs : List Bytes) (s : State) : Host.Outcome State Fault Refusal :=
  .next (s.whenOn fun s => s.receive n pairs)

/-- Fillers for every trigger that has waited more than LAT_MAX (R66). -/
def State.expire : Nat → Fin 32 → State → State
  | 0, _, s => s
  | k + 1, n, s => match (s.spr[n]).queue with
    | e :: _ => if e.cycle + s.f (A.sprTrigLat n) 31 16 * 10 < s.now then State.expire k n (s.dropOldest n) else s
    | [] => s

/-- A Spring of a free-running group yields a filler for a line of the reference Spring that it has not matched by LAT_MAX after that line:
it does not stop its group (R75; DESIGN CHOICE, assumption 89). -/
def State.expireFree (s : State) (g : Fin 12) (n : Fin 32) : State :=
  s.fillFree g n (fun t => decide (t.cycle + s.f (A.sprTrigLat n) 31 16 * 10 < s.now))

/-- TRIGGER_EXPIRY: more than LAT_MAX has passed since the oldest queued trigger of Spring `n` (R66), or since the oldest reference line that a
Spring of a free-running group has not matched (R75). -/
def execTriggerExpiry (n : Fin 32) (s : State) : Host.Outcome State Fault Refusal :=
  .next (s.whenOn fun s =>
    match (s.groupOf n).bind (fin? 12) with
    | some g => if s.f (A.sprCtl n) 13 12 = 1 then s.expireFree g n else State.expire 17 n s
    | none => State.expire 17 n s)

/-- ASSEMBLY_TIMEOUT: SPRn_ASM_TMO has expired for the open line (R63). -/
def execAssemblyTimeout (n : Fin 32) (s : State) : Host.Outcome State Fault Refusal :=
  .next (s.whenOn fun s => match (s.spr[n]).cur with
    | some o => if o.start + atLeast1 (s.f (A.sprAsmTmo n) 15 0) * 10 ≤ s.now then s.closeLine n true else s
    | none => s)

/-- A Spring that listens to its lanes: enabled, and not left in IDLE by two lanes on one ball pair (R55, R58). -/
def Spring.listens (x : Spring) : Bool := x.st != 0 && !(x.st == 1 && x.deskewed != 2 ^ x.lanes - 1)

/-- PHY_ERROR: a SoT error, SoT sync error, lane that is not locked, or LPDT (R54, R68). -/
def execPhyError (n : Fin 32) (s : State) : Host.Outcome State Fault Refusal :=
  .next (s.whenOn fun s =>
    if !(s.spr[n]).listens then s else s.sprErr n 7 0 0 (((s.spr[n]).cur.map (·.tag.line)).getD 0))

/-! Enable, deskew and pins. -/

/-- The PHY samples its configuration and the Spring starts (R55, R58): in DESKEW above 1.5 Gb/s, else in IDLE with every lane locked, since
none needs a deskew (DESIGN CHOICE, assumption 88); with two lanes on one ball pair in IDLE with LOCK 0. -/
def State.sprStart (s : State) (n : Fin 32) : State :=
  let map := s.rd (A.sprLaneMap n)
  let cfg := s.rd (A.sprPhyCfg n)
  let lanes := s.f (A.sprCtl n) 2 1 + 1
  let balls := (List.range lanes).map (laneOf map)
  let dup := decide (balls.eraseDups.length < lanes)
  let fast := decide (1500 < fld cfg 13 0)
  let lock := if dup ∨ fast then 0 else 2 ^ lanes - 1
  s.onSpr n (fun x => { x with
    st := if fast && !dup then 2 else 1
    lanes := lanes, lock := lock, deskewed := lock, phyCfg := cfg, laneMap := map, frameOpen := 0 })

/-- SPRn_CTL.EN changes from 0 to 1; it stays 0 while the Spring belongs to no group (Table 3.6). -/
def State.sprEnable (s : State) (n : Fin 32) : State :=
  if s.b (A.sprCtl n) 0 ∨ s.groupOf n = none then s
  else (s.setFK (A.sprCtl n) 0 0 1).sprStart n

/-- SPRING_ENABLE: SPRn_CTL.EN changes from 0 to 1 (R55). -/
def execSpringEnable (n : Fin 32) (s : State) : Host.Outcome State Fault Refusal :=
  .next (s.whenOn fun s => s.sprEnable n)

/-- An item that never becomes complete leaves the pond: its space is released (R76, R314). -/
def dropOpen : List Item → List Item
  | [] => []
  | i :: is => if i.done then i :: dropOpen is else is

/-- Clearing SPRn_CTL.EN (R76): the current line is abandoned, its trigger or reference line, the queued triggers and, in a free-running
group, the reference lines begun that the Spring has not started leaving as filler lines; a line without a number gives its place back
(R67). -/
def State.sprDisable (s : State) (n : Fin 32) : State :=
  if !s.b (A.sprCtl n) 0 then s
  else
    let s0 := s.setFK (A.sprCtl n) 0 0 0
    let s1 := match (s0.spr[n]).cur with
      | none => s0
      | some o =>
        let s' := s0.onSpr n (fun x => { x with cur := none, pond := dropOpen x.pond })
        match (s0.spr[n]).pond.find? (fun i => !i.done), (s'.groupOf n).bind (fin? 12) with
        | some i, some g =>
          if o.drop then s' else if i.numbered then s'.filler g n i.trig else s'.onSpr n (fun x => { x with started := i.place })
        | _, _ => s'
    let s2 := State.dropQueue 17 n s1
    let s3 := match (s2.groupOf n).bind (fin? 12) with
      | some g => if s2.f (A.sprCtl n) 13 12 = 1 ∧ n.val ≠ (s2.group g).refSpring then s2.fillFree g n (fun _ => true) else s2
      | none => s2
    s3.onSpr n (fun x => { x with st := 0, lock := 0, deskewed := 0, lanes := 0, frameOpen := 0 })

/-- SPRING_DISABLE: SPRn_CTL.EN is cleared (R76). -/
def execSpringDisable (n : Fin 32) (s : State) : Host.Outcome State Fault Refusal :=
  .next (s.whenOn fun s => s.sprDisable n)

/-- DESKEW_SEQUENCE: a deskew sequence on data lane `i`, initial or periodic, with the centre of the widest open eye
(R57). Only an initial one takes a lane out of DESKEW, and a periodic one locks only a lane that has completed its initial deskew (R58). -/
def execDeskewSequence (n : Fin 32) (i : Fin 4) (initial : Bool) (eye : Option (Fin 256)) (s : State) :
    Host.Outcome State Fault Refusal :=
  .next (s.whenOn fun s =>
    let x := s.spr[n]
    let all := 2 ^ x.lanes - 1
    if !x.listens ∨ x.lanes ≤ i.val ∨ (initial = false ∧ s.b (A.sprCtl n) 14 = false) then s
    else match eye with
    | none => (s.sprErr n 7 0 0 ((x.cur.map (·.tag.line)).getD 0)).onSpr n (fun y => { y with
        lock := if y.lock.testBit i then y.lock - 2 ^ i.val else y.lock })
    | some e =>
      let t := e.val
      let s1 := s.setF (A.sprDskVal n i) 15 8 t
      let w := s1.rd (A.sprDskVal n i)
      let win := s1.rd (A.sprDskWin n i)
      let s2 := if bit w 16 then s1
        else
          let step := atLeast1 (fld win 19 16)
          let v0 := fld w 7 0
          let v := if initial then t else if v0 ≤ t then v0 + min (t - v0) step else v0 - min (v0 - t) step
          let c := if v < fld win 7 0 then fld win 7 0 else if fld win 15 8 < v then fld win 15 8 else v
          let s' := s1.setFK (A.sprDskVal n i) 7 0 c
          if c = v then s'.setB (A.sprDskVal n i) 23 false
          else ((s'.setB (A.sprDskVal n i) 23 true).incF (A.sprDskVal n i) 31 24).raise (A.sprEvt n) 11
      let done := if initial then x.deskewed ||| 2 ^ i.val else x.deskewed
      s2.onSpr n (fun y => { y with
        deskewed := done
        lock := if done.testBit i then y.lock ||| 2 ^ i.val else y.lock
        st := if y.st = 2 ∧ done % 2 ^ y.lanes = all then 3 else y.st }))

/-- A software write of VALUE and PIN of a deskew lane (R57, Table 3.9). A write that moves a bound leaves lane and value in SPRn_LAST_ERR, and
SPRn_STATUS.ERR_CLASS the class of the error before (DESIGN CHOICE, assumption 95). -/
def State.writeDskVal (s : State) (n : Fin 32) (i v : Nat) (pin : Bool) : State :=
  let win := s.rd (A.sprDskWin n i)
  let w := setFld (setBit (setFld (s.rd (A.sprDskVal n i)) 7 0 v) 16 pin) 31 24 0
  let s1 := s.wrK (A.sprDskVal n i) w
  let s2 := if v < fld win 7 0 then s1.wrK (A.sprDskWin n i) (setFld win 7 0 v)
    else if fld win 15 8 < v then s1.wrK (A.sprDskWin n i) (setFld win 15 8 v) else s1
  if v < fld win 7 0 ∨ fld win 15 8 < v then
    (s2.raise (A.sprEvt n) 12).wr (A.sprLastErr n) (wd (i * 256 + v))
  else s2

/-- DSK_VALUE_WRITE: software writes a deskew value and its pin (R57). -/
def execDskValueWrite (n : Fin 32) (i : Fin 4) (v : Fin 256) (pin : Bool) (s : State) : Host.Outcome State Fault Refusal :=
  .next (s.whenOn fun s => s.writeDskVal n i v pin)

/-- A write of a deskew window: MIN above MAX, or MAX below MIN, moves the other bound (R57). The bound that changes
moves the one that does not; when both are written, MIN moves MAX. -/
def State.writeDskWin (s : State) (n : Fin 32) (i lo hi step : Nat) : State :=
  let old := s.rd (A.sprDskWin n i)
  let lo' := if hi < lo ∧ fld old 7 0 = lo then hi else lo
  let hi' := if hi < lo ∧ fld old 7 0 ≠ lo then lo else hi
  s.wrK (A.sprDskWin n i) (setFld (setFld (setFld old 7 0 lo') 15 8 hi') 19 16 step)

/-- DSK_WINDOW_WRITE: software writes a deskew window and step (R57). -/
def execDskWindowWrite (n : Fin 32) (i : Fin 4) (lo hi : Fin 256) (step : Fin 16) (s : State) :
    Host.Outcome State Fault Refusal :=
  .next (s.whenOn fun s => s.writeDskWin n i lo hi step)

/-- Width of a trigger pulse of Spring `n`, ns (Table 3.13). -/
def State.trigWidth (s : State) (n : Nat) : Nat := atLeast1 (s.f (A.sprTrigCtl n) 31 16)

/-- End of the last pulse on SPn_TRIG, under way or still delayed. -/
def Spring.pulseEnd (x : Spring) : Nat := (x.pulses.getLast?.map (·.2)).getD 0

/-- A pulse on SPn_TRIG, delayed by SPRn_TRIG_DLY; none if it would overlap the previous one (R73). -/
def State.trigPulse (s : State) (n : Fin 32) : Bool × State :=
  let t := s.now + s.f (A.sprTrigDly n) 15 0
  if t < (s.spr[n]).pulseEnd then (false, s)
  else (true, (s.onSpr n (fun x => { x with
    pulses := x.pulses.filter (fun p => decide (s.now < p.2)) ++ [(t, t + s.trigWidth n)] })).emit
      (.trig n t (s.trigWidth n) (!s.b (A.sprTrigCtl n) 5)))

/-- The level of SPn_TRIG: active while a pulse lasts, high or low as POL says; inactive with the source off and while no group has the
Spring (R73). -/
def State.trigLevel (s : State) (n : Fin 32) : Bool :=
  let src := s.f (A.sprTrigCtl n) 3 0
  let active := (s.groupOf n).isSome && decide (1 ≤ src) && decide (src ≤ 5) &&
    (s.spr[n]).pulses.any (fun p => decide (p.1 ≤ s.now) && decide (s.now < p.2))
  active != s.b (A.sprTrigCtl n) 5

/-- A write of 1 to SPRn_TRIG_CTL.SOFT (R73). -/
def State.softTrigger (s : State) (n : Fin 32) : State :=
  if s.f (A.sprTrigCtl n) 3 0 ≠ 5 ∨ s.groupOf n = none then s
  else
    let r := s.trigPulse n
    if r.1 then (r.2.setB (A.sprTrigCtl n) 6 true).onSpr n (fun x => { x with softEnd := some x.pulseEnd }) else r.2

/-- SOFT_TRIGGER: a write of 1 to SPRn_TRIG_CTL.SOFT (R73). -/
def execSoftTrigger (n : Fin 32) (s : State) : Host.Outcome State Fault Refusal :=
  .next (s.whenOn fun s => s.softTrigger n)

/-- TRIGGER_PULSE_END: the pulses that are over leave the pin; SOFT clears with the software pulse (R73). -/
def execTriggerPulseEnd (n : Fin 32) (s : State) : Host.Outcome State Fault Refusal :=
  .next (s.whenOn fun s =>
    let s1 := s.onSpr n (fun x => { x with pulses := x.pulses.filter (fun p => decide (s.now < p.2)) })
    match (s.spr[n]).softEnd with
    | some e => if e ≤ s.now then (s1.setB (A.sprTrigCtl n) 6 false).onSpr n (fun x => { x with softEnd := none }) else s1
    | none => s1)

/-- The level of SPn_XRST_L: low while ASSERT is 1 and while a pulse lasts, high otherwise (R74). -/
def State.xrstLevel (s : State) (n : Fin 32) : Bool := !(s.b (A.sprXrst n) 0 || (s.spr[n]).xrstPulse.isSome)

/-- Setting SPRn_XRST.PULSE drives SPn_XRST_L low for WIDTH µs (R74). Set again while a pulse runs, it starts the pulse anew
(DESIGN CHOICE, assumption 105). -/
def State.xrstPulse (s : State) (n : Fin 32) : State :=
  (s.setB (A.sprXrst n) 1 true).onSpr n (fun x => { x with xrstPulse := some s.now })

/-- XRST_PULSE: setting SPRn_XRST.PULSE (R74). -/
def execXrstPulse (n : Fin 32) (s : State) : Host.Outcome State Fault Refusal := .next (s.whenOn fun s => s.xrstPulse n)

/-- The width of the reset pulse, in time-clock cycles. -/
def State.xrstWidth (s : State) (n : Nat) : Nat := us (atLeast1 (s.f (A.sprXrst n) 31 16))

/-- XRST_PULSE_END: WIDTH has passed; the pin returns to the ASSERT level (R74). -/
def execXrstPulseEnd (n : Fin 32) (s : State) : Host.Outcome State Fault Refusal :=
  .next (s.whenOn fun s => match (s.spr[n]).xrstPulse with
    | some t => if t + s.xrstWidth n ≤ s.now then
        (s.setB (A.sprXrst n) 1 false).onSpr n (fun x => { x with xrstPulse := none }) else s
    | none => s)

/-! Group lines at the heads of the ingress ponds. -/

/-- Items of cut lines at the head of a pond, their count and the rest (R70 steps 1 and 5). -/
def purgeHead (x : Group) : List Item → Nat × List Item
  | [] => (0, [])
  | i :: is =>
    if i.marker || !i.done || !i.numbered || !x.isCut i.tag then (0, i :: is)
    else let r := purgeHead x is; (r.1 + 1, r.2)

/-- Lines that a truncation cut are discarded as they reach the head of their ponds (R70). -/
def State.purge (s : State) (g : Fin 12) : State :=
  forFin (fun (n : Fin 32) s =>
    let r := purgeHead (s.grp[g]) (s.spr[n]).pond
    if r.2.length = (s.spr[n]).pond.length then s
    else (s.inc (A.sprCntLinesDrop n) r.1).shrinkPond n r.2) (s.group g).springs s

/-- The items of a pond that are lines (not markers), oldest first, up to the first that is not complete or whose notice is not seen yet at
cycle `now` (R314, R315). -/
def readyItems (now : Nat) : List Item → List Item
  | [] => []
  | i :: is =>
    if i.marker then readyItems now is else if i.done && i.numbered && decide (i.seen ≤ now) then i :: readyItems now is else []

/-- Group lines that are complete in the ingress ponds, from the heads `cols` of the Springs in order (R126). -/
def groupHeads : Nat → List (Nat × List Item) → List GLine
  | 0, _ => []
  | k + 1, cols =>
    match cols with
    | [] => []
    | (_, c0) :: _ => match c0 with
      | [] => []
      | i0 :: _ =>
        if cols.all (fun c => (c.2.head?.map (fun i => (i.tag.frame, i.tag.line))) == some (i0.tag.frame, i0.tag.line)) then
          let parts := cols.flatMap (fun c => (c.2.take 1).map (fun i =>
            ({ spring := c.1, tag := i.tag, flags := i.flags, chans := i.chans, satIn := i.satIn } : Part)))
          { tag := i0.trig, parts := parts } :: groupHeads k (cols.map (fun c => (c.1, c.2.drop 1)))
        else []

/-- A line stands before a cut: in an earlier frame, or in its frame below its L (R12, R70). -/
def Cut.after (c : Cut) (t : LineTag) : Bool := isLater 32 c.frame t.frame || (t.frame == c.frame && isLater 48 c.count t.count)

/-- The triggers that Spring `n` has still to answer: queued, and those whose edges are delayed (R66, R73). -/
def State.trigTags (s : State) (n : Nat) : List LineTag :=
  (match fin? 32 n with
    | some n => (s.spr[n]).queue.map (·.tag)
    | none => []) ++ (s.edges.filter (fun e => e.spring == n)).map (·.tag)

/-- No line before a cut is still to come from Spring `n`; a line that waits for its number comes after every numbered one (R67). -/
def State.pastLine (s : State) (n : Nat) (c : Cut) : Bool :=
  match fin? 32 n with
  | none => true
  | some k => (s.spr[k]).pond.all (fun i => i.marker || !i.numbered || !c.after i.tag) && (s.trigTags n).all (fun t => !c.after t)

/-- The truncation marker at the heads of the group's ponds, once every line before it has left them (R70, R71). -/
def State.markerDue (s : State) (g : Fin 12) : Option Cut :=
  (s.grp[g]).cuts.find? (fun c => !c.passed && (s.group g).springs.all (fun n => s.pastLine n c))

/-- The complete group lines at the heads of the ponds, at most `k` (after `purge`). -/
def State.heads (s : State) (g : Fin 12) (k : Nat) : List GLine :=
  groupHeads k ((s.order g).map (fun n => (n, match fin? 32 n with
    | some n => readyItems s.now (s.spr[n]).pond
    | none => [])))

/-- Remove the first line item of a pond. -/
def popItem : List Item → List Item
  | [] => []
  | i :: is => if i.marker then i :: popItem is else is

/-- The head group line leaves the ingress ponds. -/
def State.popGroup (s : State) (g : Fin 12) : State :=
  (forFin (fun (n : Fin 32) s => s.shrinkPond n (popItem (s.spr[n]).pond)) (s.group g).springs s).purge g

/-- The marker of frame `f` passes: its items leave the ponds (R70). -/
def State.passMarker (s : State) (g : Fin 12) (f : Nat) : State :=
  let s1 := s.onGrp g (fun x => { x with cuts := x.cuts.map (fun c => if c.frame = f then { c with passed := true } else c) })
  (forFin (fun (n : Fin 32) s => s.shrinkPond n ((s.spr[n]).pond.filter (fun i => !(i.marker && i.tag.frame == f))))
    (s1.group g).springs s1).purge g

/-- Cuts of frames before `f` that have passed are forgotten once a line of `f` leaves the ponds. -/
def State.forgetCuts (s : State) (g : Fin 12) (f : Nat) : State :=
  s.onGrp g (fun x => { x with cuts := x.cuts.filter (fun c => !(c.passed && !c.active && isLater 32 f c.frame)) })

end Sys2Proof.Machine
end

