-- ==== Sys2Proof/Machine/Triggers.lean ====
section
/-! DEFINITION. The line trigger generators (R274 to R276). -/

namespace Sys2Proof.Machine
open Sys2Proof

/-- PITCH of a generator, units of 2⁻¹⁶ counts (Table 12.10). -/
def State.ltgPitch (s : State) (b : Nat) : Nat := max 256 (s.rd (A.ltgPitch b)).toNat

/-- The web position that a generator sees. -/
def State.ltgPos (s : State) (b : Nat) : Nat := s.wpAt (two (s.f (A.ltgCtl b) 5 4)) s.now

/-- The first T_j beyond a position (R274). -/
def State.trigBeyond (s : State) (b pos : Nat) : Nat :=
  let org : Nat := (s.rd (A.ltgOriginLo b 1)).toNat * 2 ^ 32 + (s.rd (A.ltgOriginLo b 0)).toNat
  let p : Nat := s.ltgPitch b
  lowBits 64 (Int.ofNat org + (wrapDiff 64 pos org / Int.ofNat p + 1) * Int.ofNat p)

/-- The groups that generator `b` drives: its bar, and triggered auxiliary groups with a Spring that selects it (R27). -/
def State.ltgGroups (s : State) (b : Nat) : List Nat :=
  (List.range 12).filter (fun g => s.defined g && !(s.group g).free &&
    (g == b || (decide (4 ≤ g) && (s.group g).springs.any (fun n => s.f (A.sprTrigCtl n) 3 0 == b + 1))))

/-- A generator's fields take effect; the next position and period start from this trigger (R276). -/
def State.ltgTake (s : State) (b : Fin 4) : State :=
  let s1 := s.takeStaged (A.ltgCommit b)
  s1.onLtg b (fun x => { x with next := some (s1.trigBeyond b (s1.ltgPos b)), from_ := s1.now })

/-- The generator counts a missing trigger (R73, R275). -/
def State.ltgMissing (s : State) (b : Nat) : State := (s.inc (A.ltgCntMissing b 0)).raise (A.ltgEvt b) 0

/-- The tags of a trigger of generator `b`: the web position of the generator's base on the trigger's own cycle (R274, R276). -/
def State.trigTag (s : State) (b : Nat) (t : LineTag) : LineTag :=
  { t with wp := (two (s.f (A.ltgCtl b) 5 4)).val, pos := s.ltgPos b }

/-- The frame logic of a group at a trigger, with the tags that its line takes; those of its frame's record are known in full when the
delayed edge reaches the group's first Spring (R27, R65). -/
def State.groupTrigger (s : State) (g : Fin 12) (b : Nat) : Option LineTag × Bool × State :=
  match s.frameStep g with
  | (none, st, s1) => (none, st, s1)
  | (some m, start, s1) =>
    let n := (s1.order g).headD 0
    let u := s1.trigTag b m
    let t : LineTag := { s1.stamp n (s1.now + s1.f (A.sprTrigDly n) 15 0) u with wp := u.wp, pos := u.pos }
    let s2 := (s1.noteFirst g start t).issueEntries g (s1.markPos g) (s1.ltgPitch b)
    (some u, start, s2)

/-- A trigger's edge sets out to Spring `n`: it arrives at once, or when SPRn_TRIG_DLY has passed (R73). -/
def State.sendEdge (s : State) (n : Fin 32) (t : LineTag) : State :=
  let e : Edge := { cycle := s.now + s.f (A.sprTrigDly n) 15 0, spring := n, tag := t }
  if e.cycle ≤ s.now then s.edgeIn e
  else { s with edges := s.edges.takeWhile (fun x => decide (x.cycle ≤ e.cycle)) ++ e ::
                  s.edges.dropWhile (fun x => decide (x.cycle ≤ e.cycle)) }

/-- A trigger of generator `b` is emitted (R73, R274, R275): frame logic of the groups it drives, pulses and queues of
their Springs, then a commit of the generator whose boundary this is (R276). -/
def State.emitTrigger (s : State) (b : Fin 4) : State :=
  let minP := max 1000 (s.f (A.ltgMinPeriod b) 15 0)
  if (s.ltg[b]).last.any (fun t => decide (s.now < t + minP)) = true then s.ltgMissing b
  else
    let s1 := (s.onLtg b (fun x => { x with last := some s.now, trigs := x.trigs + 1 })).inc64 (A.ltgCntTrigLo b 0)
      (A.ltgCntTrigLo b 1) 1
    let r := (s1.ltgGroups b).foldl (fun (acc : List (Nat × LineTag) × Bool × State) g => match fin? 12 g with
      | some g =>
        let q := acc.2.2.groupTrigger g b
        (match q.1 with
          | some t => ((g.val, t) :: acc.1, acc.2.1 || (q.2.1 && g.val == b.val), q.2.2)
          | none => (acc.1, acc.2.1, q.2.2))
      | none => acc) (([] : List (Nat × LineTag)), false, s1)
    let s2 := forFin (fun (n : Fin 32) s =>
      match (s.groupOf n).bind (fin? 12) with
      | none => s
      | some g =>
        if s.f (A.sprTrigCtl n) 3 0 ≠ b.val + 1 then s
        else
          let p := s.trigPulse n
          if !p.1 then s.ltgMissing b
          else match r.1.lookup g.val with
            | some t =>
              if s.f (A.sprCtl n) 13 12 = 1 then p.2 else p.2.sendEdge n t
            | none => p.2) (List.range 32) r.2.2
    if s2.commitDue (A.ltgCommit b) r.2.1 then s2.ltgTake b else s2

/-- LINE_TRIGGER: in encoder mode the position reaches or passes the next trigger position (R274). -/
def execLineTrigger (b : Fin 4) (s : State) : Host.Outcome State Fault Refusal :=
  .next (s.whenOn fun s =>
    if s.b (A.ltgCtl b) 0 = false ∨ s.b (A.ltgCtl b) 1 = true then s
    else
      let pos := s.ltgPos b
      let nxt := s.trigBeyond b pos
      match (s.ltg[b]).next with
      | none => s.onLtg b (fun x => { x with next := some nxt })
      | some t =>
        let d := wrapDiff 64 pos t
        if d < 0 then s
        else
          let above := (d / Int.ofNat (s.ltgPitch b)).toNat
          let s1 := s.onLtg b (fun x => { x with next := some nxt })
          let s2 := if above = 0 then s1 else (s1.inc (A.ltgCntMissing b 1) above).raise (A.ltgEvt b) 1
          s2.emitTrigger b)

/-- LINE_TRIGGER_TIMED: in time mode LTGb_PERIOD has passed since the last trigger of the generator (R276). -/
def execLineTriggerTimed (b : Fin 4) (s : State) : Host.Outcome State Fault Refusal :=
  .next (s.whenOn fun s =>
    if s.b (A.ltgCtl b) 0 = false ∨ s.b (A.ltgCtl b) 1 = false then s
    else
      let p := max 1000 (s.f (A.ltgPeriod b) 23 0)
      let t := (s.ltg[b]).from_
      if s.now < t + p then s
      else (s.onLtg b (fun x => { x with from_ := t + p })).emitTrigger b)

end Sys2Proof.Machine
end

