-- ==== Sys2Proof/Machine/Encap.lean ====
section
/-! DEFINITION. Ethernet, IP, UDP and ICMP framing of what the device sends on a link (R214, R215). -/

namespace Sys2Proof.Machine
open Sys2Proof

/-- Eight steps of the reflected CRC-32 register of IEEE 802.3. -/
def crc32Step : Nat → Nat → Nat
  | 0, c => c
  | k + 1, c => crc32Step k (if c % 2 = 1 then (c / 2) ^^^ 0xEDB88320 else c / 2)

/-- The FCS of IEEE 802.3 over a frame. -/
def crc32 (bs : Bytes) : Nat := bs.foldl (fun c b => crc32Step 8 (c ^^^ b.toNat)) 0xFFFFFFFF ^^^ 0xFFFFFFFF

/-- The 16-bit words of a byte string, the last padded with a zero byte. -/
def sum16 : Bytes → Nat
  | [] => 0
  | [a] => a.toNat * 256
  | a :: b :: r => a.toNat * 256 + b.toNat + sum16 r

/-- The ones' complement of the ones' complement sum of the internet protocols. -/
def inetSum (bs : Bytes) : Nat :=
  let s := sum16 bs
  let f := s % 65536 + s / 65536
  let f := f % 65536 + f / 65536
  0xFFFF - (f % 65536 + f / 65536) % 65536

/-- The port and the link number in it of a link code: 0-7 on XA and XB, 8 MA, 9 MB. -/
def linkPort (l : Nat) : Nat × Nat := if l < 8 then (l / 4, l % 4) else (l - 6, 0)

/-- MAC address of a link. -/
def State.linkMac (s : State) (l : Nat) : Nat :=
  let (p, i) := linkPort l
  s.f (A.ethlMacHi p i) 15 0 * 2 ^ 32 + (s.rd (A.ethlMacLo p i)).toNat

/-- IPv4 address of a link. -/
def State.linkIp4 (s : State) (l : Nat) : Nat := (s.rd (A.ethlIpv4 (linkPort l).1 (linkPort l).2)).toNat

/-- IPv6 address of a link. -/
def State.linkIp6 (s : State) (l : Nat) : Nat :=
  [0, 1, 2, 3].foldl (fun a k => a * 2 ^ 32 + (s.rd (A.ethlIpv6 (linkPort l).1 (linkPort l).2 k)).toNat) 0

/-- A frame is sent on a link, with its FCS; one below the least length of IEEE 802.3 is padded with zeros. -/
def State.sendFrame (s : State) (l : Nat) (f : Bytes) : State :=
  let g := f ++ List.replicate (60 - f.length) 0#8
  (s.emit (.frame l (g ++ leBytes 4 (crc32 g)))).inc (A.ethlCntTx (linkPort l).1 (linkPort l).2)

/-- TTL and hop limit of MKT_TTL. -/
def State.ttl (s : State) : Nat := atLeast1 (s.f A.mktTtl 7 0)

/-- An IPv4 packet without options (Table 10.2). -/
def ipv4 (src dst dscp ttl proto : Nat) (pay : Bytes) : Bytes :=
  let h := [0x45#8] ++ beBytes 1 (dscp * 4) ++ beBytes 2 (20 + pay.length) ++ beBytes 2 0 ++ beBytes 2 0x4000
    ++ beBytes 1 ttl ++ beBytes 1 proto
  let a := beBytes 4 src ++ beBytes 4 dst
  h ++ beBytes 2 (inetSum (h ++ [0#8, 0#8] ++ a)) ++ a ++ pay

/-- An IPv6 packet (Table 10.2). -/
def ipv6 (src dst cls flow hop next : Nat) (pay : Bytes) : Bytes :=
  beBytes 4 (6 * 2 ^ 28 + cls * 2 ^ 20 + flow) ++ beBytes 2 pay.length ++ beBytes 1 next ++ beBytes 1 hop
    ++ beBytes 16 src ++ beBytes 16 dst ++ pay

/-- A UDP datagram with its checksum; the pseudo-header gives the addresses. -/
def udp (pseudo : Bytes) (sport dport : Nat) (pay : Bytes) : Bytes :=
  let h := beBytes 2 sport ++ beBytes 2 dport ++ beBytes 2 (8 + pay.length)
  let c := inetSum (pseudo ++ h ++ [0#8, 0#8] ++ pay)
  h ++ beBytes 2 (if c = 0 then 0xFFFF else c) ++ pay

/-- Pseudo-header of a payload of `n` bytes. -/
def pseudo (v6 : Bool) (src dst proto n : Nat) : Bytes :=
  if v6 then beBytes 16 src ++ beBytes 16 dst ++ beBytes 4 n ++ beBytes 3 0 ++ beBytes 1 proto
  else beBytes 4 src ++ beBytes 4 dst ++ beBytes 1 0 ++ beBytes 1 proto ++ beBytes 2 n

/-- How a transport message is addressed: encapsulation, 802.1Q tag, DSCP, flow label and destination. -/
structure Via where
  enc : Nat
  tag : Option Nat := none
  dscp : Nat := 0
  flow : Nat := 0
  mac : Nat := 0
  ip : Nat := 0
  port : Nat := 0
  deriving DecidableEq, Repr

/-- Bytes that surround the message in a frame (R214). -/
def Via.around (v : Via) : Nat :=
  (if v.enc = 0 then 18 else if v.enc = 2 then 66 else 46) + (if v.tag.isSome then 4 else 0)

/-- A frame on link `l` around a message, without its FCS, from UDP port `sport` (Table 10.2). -/
def State.encap (s : State) (l sport : Nat) (v : Via) (msg : Bytes) : Bytes :=
  let tag := match v.tag with
    | some t => beBytes 2 0x8100 ++ beBytes 2 t
    | none => []
  let head := beBytes 6 v.mac ++ beBytes 6 (s.linkMac l) ++ tag
  if v.enc = 0 then head ++ beBytes 2 (s.f A.mktEtype 15 0) ++ msg
  else if v.enc = 2 then
    let src := s.linkIp6 l
    head ++ beBytes 2 0x86DD ++ ipv6 src v.ip (v.dscp * 4) v.flow s.ttl 17
      (udp (pseudo true src v.ip 17 (8 + msg.length)) sport v.port msg)
  else
    let src := s.linkIp4 l
    let dst := v.ip % 2 ^ 32
    head ++ beBytes 2 0x0800 ++ ipv4 src dst v.dscp s.ttl 17
      (udp (pseudo false src dst 17 (8 + msg.length)) sport v.port msg)

end Sys2Proof.Machine
end

