-- ==== Sys2Proof/Machine/TwoWire.lean ====
section
/-! DEFINITION. Two-wire controllers: transaction lists, arbitration, controller reset and bus-clear (R78 to R93). -/

namespace Sys2Proof.Machine
open Sys2Proof

/-! Transaction lists (R84, R85). -/

/-- Copy steps from an address function until an END is copied, at most `k` (R85): the steps, and whether a fetch failed. -/
def copySteps (f : Nat → Option Word) : Nat → Nat → List Word × Bool
  | 0, _ => ([], false)
  | k + 1, i => match f i with
    | none => ([], true)
    | some w =>
      if stepOp w = 0 then ([w], false)
      else let r := copySteps f k (i + 1); (w :: r.1, r.2)

/-- A byte address lies in a transaction list region of a stall (R85). -/
def State.inListRegion (s : State) (stall a : Nat) : Bool :=
  s.str.lake.any (fun r => r.kind == 4 && r.owner == stall && decide (r.base ≤ a) && decide (a + 4 ≤ r.base + r.size))

/-- The byte address of a list in the Lake: absolute for a software list, a word offset in the stall's transaction list
region for a calendar list (Tables 4.5 and 8.10). -/
def State.listAddr (s : State) (l : TwList) : Option Nat :=
  if l.calendar then (s.region 4 l.stall).map (fun r => r.base + 4 * l.addr) else some (l.addr / 4 * 4)

/-- The list as the controller copies it, and whether the copy met a Lake error: a step outside the stall's list regions is
refused and counted, and a codeword with an uncorrectable error ends the copy; `ecc` gives the outcomes of the codewords
fetched, by their number from the first (R85, R248 to R250). -/
def State.copyList (s : State) (n : Nat) (l : TwList) (ecc : List (Nat × Ecc)) : (List Word × Bool) × State :=
  if l.lake then
    match s.listAddr l with
    | none => (([], true), s.fence)
    | some a =>
      let c := copySteps (fun i => if s.inListRegion l.stall (a + 4 * i) then some (wd (ofLe (s.lakeRead (a + 4 * i) 4)))
        else none) 256 0
      let r := s.fetchLake a (4 * c.1.length) ecc
      if r.1 < 4 * c.1.length then ((c.1.take (r.1 / 4), true), r.2)
      else (c, if c.2 then r.2.fence else r.2)
  else (copySteps (fun i => some (s.rd (A.twbLram n (l.addr + i)))) (256 - l.addr) 0, s)

/-- Bytes a READ step receives. -/
def readLen (w : Word) : Nat := fld w 7 0 + 1

/-- The first step of a copied list that R85 refuses: reserved OP, no END, more than 256 bytes read, a WRITE or READ
outside a transaction, or a reserved address. -/
def badStep : List Word → Nat → Bool → Nat → Option Nat
  | [], i, _, _ => some i
  | w :: ws, i, open_, rd =>
    match stepOp w with
    | 0 => none
    | 1 =>
      let a := fld w 7 1
      if 0x78 ≤ a ∨ (a = 0 ∧ bit w 0 = true) then some i else badStep ws (i + 1) true rd
    | 2 => if open_ then badStep ws (i + 1) open_ rd else some i
    | 3 => if open_ && decide (rd + readLen w ≤ 256) then badStep ws (i + 1) open_ (rd + readLen w) else some i
    | 4 => badStep ws (i + 1) false rd
    | 5 => badStep ws (i + 1) open_ rd
    | _ => some i

/-- The first START step of a list. -/
def firstStart (steps : List Word) : Option Nat := steps.findIdx? (fun w => stepOp w == 1)

/-! Execution of a list. The targets' answers come with the commands. -/

/-- The execution of a list under way: the run, the answers still unused, the bus activity (latest first), and the result
once it is decided. -/
structure TwExec where
  run : TwRun
  resp : TwResp
  acts : List BusAct := []
  code : Option (Nat × Nat) := none
  deriving DecidableEq, Repr

/-- The next acknowledge. -/
def TwExec.ack (x : TwExec) : Bool × TwExec :=
  (x.resp.acks.headD false, { x with resp := { x.resp with acks := x.resp.acks.drop 1 } })

/-- The list is decided with a code at the current step; a STOP is issued while a transaction is open (R87). -/
def TwExec.decide_ (x : TwExec) (code : Nat) : TwExec :=
  { x with
    code := some (code, x.run.pc)
    acts := if x.run.open_ then .stop :: x.acts else x.acts
    run := { x.run with open_ := false } }

/-- Bytes of a WRITE step; a fourth byte, which the step does not hold, is a free value. -/
def writeBytes (w : Word) (free : Word) : List Byte :=
  ([wd (fld w 7 0), wd (fld w 15 8), wd (fld w 23 16), free].take (fld w 25 24 + 1)).map (fun v => BitVec.ofNat 8 v.toNat)

/-- Send the bytes of a WRITE step: a NACK before the last byte, or on the last without NACK_OK, fails the list. -/
def TwExec.send (nackOk : Bool) : List Byte → TwExec → TwExec
  | [], x => x
  | b :: bs, x =>
    let r := x.ack
    let y := { r.2 with acts := .write b :: r.2.acts }
    if r.1 || (bs.isEmpty && nackOk) then TwExec.send nackOk bs y else y.decide_ 2

/-- Receive `k` bytes of a READ step; the last is answered by `lastAck`. -/
def TwExec.receive (lastAck : Bool) : Nat → TwExec → TwExec
  | 0, x => x
  | k + 1, x =>
    let b := x.resp.data.headD 0xFF#8
    TwExec.receive lastAck k { x with
      resp := { x.resp with data := x.resp.data.drop 1 }
      acts := .read b (k != 0 || lastAck) :: x.acts
      run := { x.run with rd := x.run.rd ++ [b] } }

/-- The bytes of the READ step at which a list stands that came before it failed there: those its answers still hold. -/
def TwExec.part (x : TwExec) : TwExec :=
  let w := x.run.steps.getD x.run.pc 0#32
  if stepOp w = 3 then TwExec.receive true (min x.resp.data.length (readLen w)) x else x

/-- The step after the next STOP step, or the END that stands before one (R84). -/
def afterStop : List Word → Nat → Nat
  | [], i => i
  | w :: ws, i => if stepOp w = 4 then i + 1 else if stepOp w = 0 then i else afterStop ws (i + 1)

/-- One step of a list other than DELAY (Table 4.2). -/
def TwExec.step (x : TwExec) (w : Word) (free : Word) : TwExec :=
  let r := x.run
  match stepOp w with
  | 1 =>
    let y : TwExec := { x with
      acts := .start (fld w 7 1) (bit w 0) :: x.acts
      run := if r.open_ then r else { r with
        open_ := true, txStart := r.pc, rdAtTx := r.rd.length, retries := if r.pc = r.txStart then r.retries else 0 } }
    let a := y.ack
    if a.1 then { a.2 with run := { a.2.run with pc := r.pc + 1 } }
    else if bit w 27 then
      { a.2 with
        acts := .stop :: a.2.acts
        run := { a.2.run with open_ := false, pc := afterStop (r.steps.drop (r.pc + 1)) (r.pc + 1) } }
    else a.2.decide_ 1
  | 2 =>
    let y := TwExec.send (bit w 27) (writeBytes w free) x
    if y.code.isSome then y else { y with run := { y.run with pc := r.pc + 1 } }
  | 3 =>
    let nxt := stepOp (r.steps.getD (r.pc + 1) 0#32)
    let y := TwExec.receive (!(nxt == 0 || nxt == 1 || nxt == 4)) (readLen w) x
    { y with run := { y.run with pc := r.pc + 1 } }
  | 4 => { x with acts := if r.open_ then .stop :: x.acts else x.acts, run := { r with open_ := false, pc := r.pc + 1 } }
  | _ => let y := x.decide_ 0; { y with code := some (0, 0) }

/-- Run a list until it is decided, or stands at a DELAY, or at the step `upTo`. -/
def TwExec.go (free : Word) (upTo : Option Nat) : Nat → TwExec → TwExec
  | 0, x => x
  | k + 1, x =>
    if x.code.isSome || upTo == some x.run.pc then x
    else
      let w := x.run.steps.getD x.run.pc 0#32
      if stepOp w = 5 then x else TwExec.go free upTo k (x.step w free)

/-- Run the list of controller `n` from where it stands. -/
def State.twGo (s : State) (r : TwRun) (resp : TwResp) (upTo : Option Nat) : TwExec :=
  TwExec.go (Config.freeWord s.draws) upTo 257 { run := r, resp := resp }

/-- Answers of the targets that no command has given: free values. -/
def freeResp (k : Nat) : TwResp :=
  { acks := (List.range 1024).map (fun i => (Config.freeNat k).testBit i)
    data := (List.range 256).map (fun i => BitVec.ofNat 8 (Config.freeNat (k + 1) / 256 ^ i)) }

/-- What the bus shows to a check whose outcome no command has given: free values. -/
def State.freeCheck (s : State) : BusCheck × State :=
  let v := Config.freeNat s.draws
  ({ sclStuck := v.testBit 0, sdaLow := v.testBit 1, frees := fin? 10 (v / 8 % 11), stopOk := v.testBit 2 },
    { s with draws := s.draws + 1 })

/-- Bus activity is shown, if there was any. -/
def State.showBus (s : State) (n : Nat) (acts : List BusAct) : State :=
  if acts.isEmpty then s else { s with draws := s.draws + 1 }.emit (.bus n acts.reverse)

/-! Controller reset and bus-clear (R89 to R91). -/

/-- One pass of the bus-clear procedure of R89, with the bus as `h` shows it. `hold` keeps what the bus showed while it is
stuck, and is clear once the procedure has succeeded. -/
def State.busClear (s : State) (n : Fin 32) (attempt : Nat) (h : BusCheck) : State :=
  let ok := !h.sclStuck && (!h.sdaLow || h.stopOk)
  let s1 := if h.sclStuck || !h.sdaLow then s
    else
      let p := match h.frees with
        | some k => atLeast1 k.val
        | none => 9
      let s' := (s.emit (.bus n [.clearPulses p, .stop])).inc (A.twbCntLists n 5)
      if ok then s'.raise (A.twbEvt n) 5 else s'
  if ok then s1.onTwb n (fun t => { t with st := 1, attempt := attempt, waitFrom := s.now, hold := {} })
  else
    let s2 := ((if attempt = 0 then s1.raise (A.twbEvt n) 4 else s1).inc (A.twbCntLists n 6)).onTwb n (fun t => { t with hold := h })
    let s3 := if !s.b (A.twbCtl n) 4 || attempt == 3 then s2.onTwb n (fun t => { t with st := 4, attempt := attempt })
      else ((s2.xrstPulse n).raise (A.twbEvt n) 7).onTwb n (fun t => { t with
        st := 5, attempt := attempt + 1, xrstEnd := s.now + s.xrstWidth n })
    s3.twFailAll 8 n 6

/-- The running list of controller `n` ends with a code (R87). -/
def State.endRun (s : State) (n : Fin 32) (code step : Nat) (rd : Bytes) : State :=
  match (s.twb[n]).run with
  | none => s
  | some r => (s.onTwb n (fun t => { t with run := none, st := 1, waitFrom := s.now })).twEnd n r.list code step rd

/-- The running list of controller `n` ends ABORTED (R89, Table 4.6). How far it has come since its last command, with what
answers, is a free value, up to its next DELAY or its end. -/
def State.abortRun (s : State) (n : Fin 32) : State :=
  match (s.twb[n]).run with
  | none => s
  | some r =>
    let x := s.twGo r (freeResp s.draws) (some (r.pc + Config.freeNat (s.draws + 2) % 257))
    let y := if x.code.isSome then x
      else { x with resp := { x.resp with data := x.resp.data.take (Config.freeNat (s.draws + 3) % 257) } }.part
    ({ s with draws := s.draws + 4 }.showBus n x.acts).endRun n 8 (match x.code with
      | some (_, k) => k
      | none => x.run.pc) y.run.rd

/-- A controller reset (R89): the running list ends ABORTED, the queued lists stay, and the bus-clear runs on the bus that
`h` shows. -/
def State.twResetOn (s : State) (n : Fin 32) (h : BusCheck) : State :=
  if s.b (A.twbCtl n) 0 then ((s.abortRun n).onTwb n (fun t => { t with st := 3 })).busClear n 0 h else s

/-- A controller reset that comes with another event: what the bus then shows is free (R89). -/
def State.twReset (s : State) (n : Fin 32) : State := let c := s.freeCheck; c.2.twResetOn n c.1

/-- CONTROLLER_RESET: TWBn_CMD RESET on an enabled controller; `hold` is what the bus shows (R89). -/
def execControllerReset (n : Fin 32) (hold : BusCheck) (s : State) : Host.Outcome State Fault Refusal :=
  .next (s.whenOn fun s => s.twResetOn n hold)

/-- BUS_CLEAR_RETRY: XRST_WAIT has passed since the retry pulse ended; the check runs again (R89). -/
def execBusClearRetry (n : Fin 32) (hold : BusCheck) (s : State) : Host.Outcome State Fault Refusal :=
  .next (s.whenOn fun s =>
    let t := s.twb[n]
    if t.st = 5 ∧ t.xrstEnd + us (s.f (A.twbXrstWait n) 15 0) ≤ s.now then
      s.busClear n t.attempt hold
    else s)

/-- TWBn_CMD CLEAR: the procedure of R89 with attempt 0, from STUCK only (R90). -/
def State.twClearOn (s : State) (n : Fin 32) (h : BusCheck) : State := if (s.twb[n]).st = 4 then s.busClear n 0 h else s

/-- TWBn_CMD CLEAR written as a register: what the bus then shows is free (R90). -/
def State.twClear (s : State) (n : Fin 32) : State := let c := s.freeCheck; c.2.twClearOn n c.1

/-- CLEAR_CMD: TWBn_CMD CLEAR (R90). -/
def execClearCmd (n : Fin 32) (hold : BusCheck) (s : State) : Host.Outcome State Fault Refusal :=
  .next (s.whenOn fun s => s.twClearOn n hold)

/-- TWBn_CMD FLUSH discards the queued software lists (R86). -/
def State.twFlush (s : State) (n : Fin 32) : State := s.onTwb n (fun t => { t with swQ := [] })

/-- FLUSH_CMD: TWBn_CMD FLUSH (R86). -/
def execFlushCmd (n : Fin 32) (s : State) : Host.Outcome State Fault Refusal := .next (s.whenOn fun s => s.twFlush n)

/-- TWBn_CTL.EN becomes 0: the lines are released, the running and the queued lists end with ABORTED (Table 4.6). -/
def State.twDisable (s : State) (n : Fin 32) : State :=
  if s.b (A.twbCtl n) 0 then
    (((s.setFK (A.twbCtl n) 0 0 0).abortRun n).twFailAll 8 n 8).onTwb n (fun t => { t with st := 0 })
  else s

/-- CONTROLLER_DISABLE: TWBn_CTL.EN is cleared (R86, Table 4.6). -/
def execControllerDisable (n : Fin 32) (s : State) : Host.Outcome State Fault Refusal :=
  .next (s.whenOn fun s => s.twDisable n)

/-- A write of TWBn_CTL: EN changing from 0 to 1 is a controller reset, from 1 to 0 a disable (R89, Table 4.6). -/
def State.writeTwbCtl (s : State) (n : Fin 32) (v : Word) : State :=
  let w := (v.toNat &&& 0xF6) ||| ((s.rd (A.twbCtl n)).toNat &&& 1)
  let s1 := s.wrK (A.twbCtl n) (wd w)
  if bit v 0 then (if s.b (A.twbCtl n) 0 then s1 else (s1.setFK (A.twbCtl n) 0 0 1).twReset n) else s1.twDisable n

/-! Lists. -/

/-- TWBn_CMD START_LIST by stall `t`: the list of TWBn_LIST_LO and _HI joins the software queue, or BUSY is recorded (R86). -/
def State.twStart (s : State) (n : Fin 32) (lake notify : Bool) (t : Fin 8) : State :=
  if (s.twb[n]).swQ.length ≥ 4 then s.wr (A.twbResult n) (wd (11 * 2 ^ 27))
  else
    let lo := (s.rd (A.twbListLo n)).toNat
    let addr := if lake then (s.rd (A.twbListHi n)).toNat * 2 ^ 32 + lo else lo % 256
    let r := if notify then s.takeNotify t else (false, s)
    r.2.twQueue n { calendar := false, lake := lake, addr := addr, stall := t.val, slot := r.1 }

/-- LIST_START_CMD: TWBn_CMD START_LIST (R86). -/
def execListStartCmd (n : Fin 32) (lake notify : Bool) (t : Fin 8) (s : State) : Host.Outcome State Fault Refusal :=
  .next (s.whenOn fun s => s.twStart n lake notify t)

/-- A write of TWBn_CMD by stall `t` (Table 4.5). -/
def State.twCommand (s : State) (n : Fin 32) (v : Word) (t : Fin 8) : State :=
  match fld v 3 0 with
  | 1 => s.twStart n (bit v 8) (bit v 9) t
  | 2 => s.twReset n
  | 3 => s.twClear n
  | 4 => s.twFlush n
  | _ => s

/-- The list at the head of the queue is copied and checked: its failure, or its steps (R85). -/
def State.acceptList (s : State) (n : Fin 32) (l : TwList) (ecc : List (Nat × Ecc)) :
    Option (Nat × Nat) × List Word × State :=
  let c := s.copyList n l ecc
  if c.1.2 then (some (10, c.1.1.length), c.1.1, c.2)
  else match badStep c.1.1 0 false 0 with
    | some i => (some (7, min i 255), c.1.1, c.2)
    | none => (none, c.1.1, c.2)

/-- LIST_BEGIN: the list at the head of the queue, on a free bus, is copied, checked and started; `ecc` gives the outcomes of
the codewords that a copy from the Lake reads (R85, R86). -/
def execListBegin (n : Fin 32) (ecc : List (Nat × Ecc)) (s : State) : Host.Outcome State Fault Refusal :=
  .next (s.whenOn fun s =>
    let t := s.twb[n]
    if t.st ≠ 1 ∨ t.run.isSome = true then s
    else match t.next with
      | none => s
      | some l =>
        match s.acceptList n l ecc with
        | (some (code, step), _, s1) =>
          (s1.onTwb n (fun t => { t.pop with waitFrom := s.now })).twEnd n l code step []
        | (none, steps, s1) =>
          s1.onTwb n (fun t => { t.pop with st := 2, run := some { list := l, steps := steps, from_ := s.now } }))

/-- LIST_DELAY_END: the list runs up to its next DELAY step, whose time passes; the list goes on after it (R84). -/
def execListDelayEnd (n : Fin 32) (resp : TwResp) (s : State) : Host.Outcome State Fault Refusal :=
  .next (s.whenOn fun s =>
    match (s.twb[n]).run with
    | none => s
    | some r =>
      let x := s.twGo r resp none
      let w := x.run.steps.getD x.run.pc 0#32
      if x.code.isSome || stepOp w != 5 || decide (s.now < r.from_ + us (fld w 23 0)) then s
      else (s.onTwb n (fun t => { t with run := some { x.run with pc := x.run.pc + 1, from_ := s.now } })).showBus n x.acts)

/-- The list of controller `n` runs to step `k`, whose STOP leaves SDA low: it ends there, with the code of its failure or
else a code that is not stated, and the check of R89 runs on the bus that `h` shows (R91). -/
def State.stopHeld (s : State) (n : Fin 32) (r : TwRun) (resp : TwResp) (k : Nat) (h : BusCheck) : State :=
  let x := s.twGo r resp (some k)
  let y := x.step (x.run.steps.getD k 0#32) (Config.freeWord s.draws)
  if x.code.isSome || x.run.pc != k || stepOp (x.run.steps.getD k 0#32) == 5 || y.acts.head? != some .stop then s
  else
    let c := (s.showBus n y.acts).choose 11
    let code := match y.code with
      | some (v, _) => if v = 0 then c.1 + 1 else v
      | none => c.1 + 1
    ((c.2.endRun n code k y.run.rd).onTwb n (fun t => { t with st := 3 })).busClear n 0 h

/-- LIST_END: the list runs to its end and records its result (R87, R88). `hold`, when given, is the step after whose STOP
SDA read low, with the bus that the check then meets (R91). -/
def execListEnd (n : Fin 32) (resp : TwResp) (hold : Option (Fin 256 × BusCheck)) (s : State) :
    Host.Outcome State Fault Refusal :=
  .next (s.whenOn fun s =>
    match (s.twb[n]).run with
    | none => s
    | some r =>
      match hold with
      | some (k, h) => s.stopHeld n r resp k h
      | none =>
        let x := s.twGo r resp none
        match x.code with
        | none => s
        | some (code, step) => (s.showBus n x.acts).endRun n code step x.run.rd)

/-- Lost arbitration at step `k`, which the controller reaches owning the bus (R83): the transaction restarts, or the list
fails with ARB_LOST. A START or STOP of another controller is counted as well (R93). -/
def State.arbLost (s : State) (n : Fin 32) (resp : TwResp) (k : Nat) (foreign : Bool) : State :=
  match (s.twb[n]).run with
  | none => s
  | some r =>
    let x := s.twGo r resp (some k)
    let op := stepOp (x.run.steps.getD k 0#32)
    let owned := x.run.open_ || op == 1
    if x.code.isSome || x.run.pc != k || !owned then s
    else
      let s0 := if foreign then (s.inc (A.twbCntLists n 4)).raise (A.twbEvt n) 3 else s
      let s1 := ((s0.showBus n x.acts).inc (A.twbCntLists n 3)).raise (A.twbEvt n) 2
      let y := x.run
      let tx := if y.open_ then y.txStart else k
      let tries := if y.open_ || k == y.txStart then y.retries else 0
      let at_ := if y.open_ then y.rdAtTx else y.rd.length
      if tries < s.f (A.twbCtl n) 7 5 then
        s1.onTwb n (fun t => { t with run := some { y with
          pc := tx, txStart := tx, open_ := false, retries := tries + 1, rd := y.rd.take at_, rdAtTx := at_, from_ := s.now } })
      else s1.endRun n 3 k x.part.run.rd

/-- ARBITRATION_LOST: at step `k` SDA read low where the controller released it (R83). -/
def execArbitrationLost (n : Fin 32) (resp : TwResp) (k : Fin 256) (s : State) : Host.Outcome State Fault Refusal :=
  .next (s.whenOn fun s => s.arbLost n resp k false)

/-- FOREIGN_CONDITION: a START or STOP that the controller, owning the bus, did not generate is treated as lost arbitration
and counted (R93). -/
def execForeignCondition (n : Fin 32) (resp : TwResp) (k : Fin 256) (s : State) : Host.Outcome State Fault Refusal :=
  .next (s.whenOn fun s => s.arbLost n resp k true)

/-- A time of TWBn_TMO, field [hi:lo], in units of 10 µs; 0 is treated as 1 (Table 4.5). -/
def State.twTmo (s : State) (n : Fin 32) (hi lo : Nat) : Nat := us 10 * atLeast1 (s.f (A.twbTmo n) hi lo)

/-- STRETCH_TIMEOUT: at step `k` SCL has read low for `low` cycles after the controller released it. Beyond STRETCH the list
fails and the check runs (R81, R91); a DELAY step, which itself holds SCL low, is not limited (Table 4.2). -/
def execStretchTimeout (n : Fin 32) (resp : TwResp) (k : Fin 256) (low : Nat) (hold : BusCheck) (s : State) :
    Host.Outcome State Fault Refusal :=
  .next (s.whenOn fun s =>
    match (s.twb[n]).run with
    | none => s
    | some r =>
      let x := s.twGo r resp (some k.val)
      let op := stepOp (x.run.steps.getD k 0#32)
      if x.code.isSome || x.run.pc != k.val || op == 5 || !(x.run.open_ || op == 1) || decide (low < s.twTmo n 15 0) then s
      else (((((s.showBus n x.acts).raise (A.twbEvt n) 6).endRun n 4 k x.part.run.rd).onTwb n (fun t => { t with
        st := 3 })).busClear n 0 hold))

/-- The list stands at its first START step, not driven yet. -/
def TwRun.atFirst (r : TwRun) : Option Nat :=
  match firstStart r.steps with
  | some i => if (r.steps.drop r.pc).take (i - r.pc) |>.all (fun w => stepOp w == 4) then
      (if r.pc ≤ i ∧ r.open_ = false ∧ r.retries = 0 then some i else none) else none
  | none => none

/-- BUS_BUSY_TIMEOUT: the bus was not free within BUSY of the list's first START step, and nothing is driven (R82). The step
is reached when the list reaches the head of the queue, or when its DELAY steps before it have passed. -/
def execBusBusyTimeout (n : Fin 32) (s : State) : Host.Outcome State Fault Refusal :=
  .next (s.whenOn fun s =>
    let t := s.twb[n]
    match t.run with
    | some r => match r.atFirst with
      | some i => if s.now < r.from_ + s.twTmo n 31 16 then s else s.endRun n 5 i r.rd
      | none => s
    | none =>
      if t.st ≠ 1 ∨ s.now < t.waitFrom + s.twTmo n 31 16 then s
      else match t.next with
        | none => s
        | some l =>
          match s.acceptList n l [] with
          | (some (code, step), _, s1) => (s1.onTwb n (fun t => { t.pop with waitFrom := s.now })).twEnd n l code step []
          | (none, steps, s1) => match firstStart steps with
            | some i => if (steps.take i).any (fun w => stepOp w == 5) then s
                else (s1.onTwb n (fun t => { t.pop with waitFrom := s.now })).twEnd n l 5 i []
            | none => s)

/-- TWBn_STATUS (Table 4.5). While the bus is stuck its levels are those that the check met; else the levels, and whether
another controller holds the bus busy, are the board's and free; a disabled controller reads them 0 (DESIGN CHOICE, assumption 97). -/
def State.twbStatusWord (s : State) (n : Fin 32) : Nat :=
  let t := s.twb[n]
  let v := Config.busLines n s.now
  let lines := if t.st = 0 then 0
    else if t.st = 4 ∨ t.st = 5 then (if t.hold.sclStuck then 0 else 16) + (if t.hold.sdaLow then 0 else 32)
    else v.toNat % 4 * 16
  t.st + lines + (if t.st = 2 ∨ (t.st ≠ 0 ∧ v.getLsbD 2 = true) then 64 else 0)
    + t.calQ.length % 8 * 2 ^ 16 + t.swQ.length % 8 * 2 ^ 20

end Sys2Proof.Machine
end

