-- ==== Sys2Proof/Machine/Record.lean ====
section
/-! DEFINITION. The bytes of line records and of gap records (R197 to R199, R227). -/

namespace Sys2Proof.Machine
open Sys2Proof

/-- Header bytes of a record format (R197). -/
def headBytes (recfmt : Nat) : Nat := if recfmt = 2 then 96 else 64

/-- Header fields of a record beyond its line's tags. -/
structure RecHdr where
  type : Nat := 0
  fmt : Nat := 1
  pixfmt : Nat := 255
  line : Nat := 0
  flags : Nat := 0
  cols : Nat := 0
  x0 : Nat := 0
  ch : Nat := 0
  oline : Nat := 0
  hpos0 : Nat := 0
  hstep : Nat := 0
  vpos : Nat := 0
  vstep : Nat := 0
  deriving DecidableEq, Repr

/-- The bytes of a record of stream `n`, with its STREAMS record (R197 to R199, Tables 9.3 and 9.4): header, payload, and CRC-32C of what precedes it. -/
def State.recordBytesOf (s : State) (r : StreamRec) (n alive : Nat) (h : RecHdr) (t : LineTag) (payload : Bytes) : Bytes :=
  let len := headBytes h.fmt + payload.length + 4
  let head := leBytes 4 len ++ leBytes 1 h.fmt ++ leBytes 1 h.type ++ leBytes 1 n ++ leBytes 1 h.pixfmt
    ++ leBytes 2 (s.power.devid % 2 ^ 14) ++ leBytes 2 alive ++ leBytes 4 t.frame ++ leBytes 4 (h.line % 2 ^ 24)
    ++ leBytes 4 h.flags ++ leBytes 8 t.time ++ leBytes 8 t.pos ++ leBytes 2 t.gen ++ leBytes 1 t.epoch
    ++ leBytes 1 (t.tb % 4 + t.wp % 4 * 4) ++ leBytes 4 h.cols ++ leBytes 4 h.x0 ++ leBytes 1 r.group ++ leBytes 1 r.tap
    ++ leBytes 1 h.ch ++ leBytes 9 0
  let ext := if h.fmt = 2 then leBytes 8 (t.count % 2 ^ 48) ++ leBytes 4 t.timex ++ leBytes 4 (h.oline % 2 ^ 24)
    ++ leBytes 4 h.hpos0 ++ leBytes 4 (h.hstep % 2 ^ 22) ++ leBytes 4 h.vpos ++ leBytes 4 (h.vstep % 2 ^ 22) else []
  let body := head ++ ext ++ payload
  body ++ leBytes 4 (crc32c body)

/-- The bytes of a record of stream `n`, of the structure in force. -/
def State.recordBytes (s : State) (n alive : Nat) (h : RecHdr) (t : LineTag) (payload : Bytes) : Bytes :=
  s.recordBytesOf (s.stream n) n alive h t payload

/-- The bytes of a gap record of stream `n`, with the STREAMS record `r` of its carrier (R227). -/
def State.gapBytes (s : State) (n : Nat) (r : StreamRec) (g : Gap) : Bytes :=
  let flags := (if g.tag.long then 256 else 0) + (if g.tag.opening then 512 else 0) + (if g.tag.synth then 1024 else 0)
  let h : RecHdr := { type := 2, fmt := g.fmt, line := g.tag.line, x0 := s.f (A.outCropX n) 17 0, flags := flags }
  s.recordBytesOf r n g.alive h g.tag
    (leBytes 4 g.first ++ leBytes 4 g.last ++ leBytes 4 g.retired ++ leBytes 4 g.cause ++ leBytes 4 g.tag.frame
      ++ leBytes 4 (g.tag.line % 2 ^ 24) ++ leBytes 4 g.lastFrame ++ leBytes 4 (g.lastLine % 2 ^ 24))

end Sys2Proof.Machine
end

