-- ==== Sys2Proof/Machine/Window.lean ====
section
/-! DEFINITION. Resend windows: held records, the rewind mark, retirement and gap records (R221 to R229). -/

namespace Sys2Proof.Machine
open Sys2Proof

/-- Bytes that a record takes in a resend window (R222). -/
def winBytes (r : Rec) : Nat := (r.bytes.length + 63) / 64 * 64

/-- The rewind mark: the oldest record neither acknowledged nor retired, or the next SEQ (R222). -/
def Xpt.mark (x : Xpt) : Nat := match x.held with
  | h :: _ => h.seq
  | [] => x.seq

/-- Acknowledged records at the mark are freed: the mark advances to the oldest record that is not (R222, R223). -/
def dropAcked : List Held → List Held
  | [] => []
  | h :: hs => if h.acked then dropAcked hs else h :: hs

/-- The window's two limits admit one more record of `b` bytes (R222); `region` is the size of its region. -/
def Xpt.fits (x : Xpt) (cap region b : Nat) : Bool :=
  decide (x.held.length + 1 ≤ cap) && decide (x.held.foldl (fun a h => a + winBytes h.record) 0 + b + 192 ≤ region)

/-- The gap record after the records `run` are retired, a new one or a merge (R227, R228). -/
def gapOf (g : Option Gap) (cause : Nat) (first last : Held) (unacked : Nat) : Gap :=
  let r := last.record
  match g with
  | some g => { g with last := last.seq, lastFrame := r.tag.frame, lastLine := r.tag.line, alive := r.alive,
                       retired := min 0xFFFFFFFF (g.retired + unacked), sent := false, resend := false, sentAt := none, nowAt := none }
  | none => { first := first.seq, last := last.seq, retired := unacked, cause := cause, tag := first.record.tag,
              alive := r.alive, lastFrame := r.tag.frame, lastLine := r.tag.line,
              fmt := (first.record.bytes.getD 4 1#8).toNat }

/-- Retire the first `k` held records, and free the acknowledged ones that follow (R226). -/
def Xpt.retire (x : Xpt) (k cause : Nat) : Xpt :=
  match x.held.take k with
  | [] => x
  | h :: hs =>
    let last := (h :: hs).getLastD h
    let gone := (h :: hs).map (·.seq)
    { x with
      held := dropAcked (x.held.drop k)
      resendQ := x.resendQ.filter (fun q => !gone.contains q)
      newQ := x.newQ.filter (fun e => !gone.contains e.1)
      tx := match x.tx with
        | some t => if t.gap || gone.contains t.seq then none else some t
        | none => none
      gap := some (gapOf x.gap cause h last ((h :: hs).countP (fun e => !e.acked)))
      gapDue := true }

/-- The number of records to retire from the mark so that one of `b` bytes fits (R226), given fuel. -/
def Xpt.retireFor (x : Xpt) (cap region b : Nat) : Nat → Xpt
  | 0 => x
  | k + 1 => if x.fits cap region b || x.held.isEmpty then x else (x.retire 1 1).retireFor cap region b k

/-- A window that has lost its contents. -/
def Xpt.emptied (x : Xpt) : Xpt := { x with held := [], resendQ := [], newQ := [], tx := none, gap := none, gapDue := false, winFull := false }

/-! Carriers: a stream (key 0 to 15), or a window of stream n under drain (key n + 16 j, R229). -/

/-- The STREAMS record and the transport state of a carrier. -/
def State.carrier (s : State) (k : Nat) : Option (StreamRec × Xpt) :=
  match fin? 16 k with
  | some n => if (s.stream k).exists_ then some (s.stream k, s.xpt[n]) else none
  | none => (s.drains.find? (fun d => d.key == k)).map (fun d => (d.rec_, d.xpt))

/-- The transport state of a carrier becomes `x`. -/
def State.putCarrier (s : State) (k : Nat) (x : Xpt) : State :=
  match fin? 16 k with
  | some n => s.onXpt n (fun _ => x)
  | none => { s with drains := s.drains.map (fun d => if d.key = k then { d with xpt := x } else d) }

/-- The keys of the windows of stream `n` under drain, oldest first. -/
def State.drainKeys (s : State) (n : Nat) : List Nat := (s.drains.filter (fun d => d.stream == n)).map (·.key)

/-- The keys of all carriers. -/
def State.carriers (s : State) : List Nat :=
  (List.range 16).filter (fun n => (s.stream n).exists_) ++ s.drains.map (·.key)

/-- The region of a carrier's window in the Lake. -/
def State.windowAt (s : State) (k : Nat) : Option LakeRegion :=
  match fin? 16 k with
  | some _ => s.str.windowOf k
  | none => (s.drains.find? (fun d => d.key == k)).bind (·.region)

/-- The size of the window region of stream `n` in bytes (R222). -/
def State.windowBytes (s : State) (n : Nat) : Nat := ((s.str.windowOf n).map (·.size)).getD 0

/-- The bytes of a window's ring: its region less the gap slot (R222, R228). -/
def ringBytes (r : LakeRegion) : Nat := (r.size - 192) / 64 * 64

/-- The gap record of a carrier is written into the gap slot of its region (R228). -/
def State.writeGap (s : State) (k : Nat) : State :=
  match s.carrier k with
  | none => s
  | some (r, x) => match x.gap with
    | none => s
    | some g =>
      let b := s.gapBytes (k % 16) r g
      let s1 := s.putCarrier k { x with gap := some { g with bytes := b } }
      match s.windowAt k with
      | none => s1
      | some reg => s1.lakeWrite (reg.base + if Config.gapSlotFirst then 0 else ringBytes reg) b

/-- The window of carrier `k` went from `a` to `b` by a retirement: the stream's counters and events, and the gap slot (R226, R228). -/
def State.noteRetired (s : State) (k : Nat) (a b : Xpt) : State :=
  let n := k % 16
  let old := (a.gap.map (·.retired)).getD 0
  let new := (b.gap.map (·.retired)).getD 0
  let s1 := if old < new then s.inc (A.xptCntRetired n) (new - old) else s
  let s2 := if a.gap.isNone && b.gap.isSome then (s1.inc (A.xptCntGap n)).raise (A.xptEvt n) 3 else s1
  if a.gap = b.gap then s2 else s2.writeGap k

/-- WIN_FULL of a reliable stream follows its window and its next record; the event is raised each time it begins (R225). -/
def State.noteFull (s : State) (n : Fin 16) : State :=
  let r := s.stream n
  let x := s.xpt[n]
  let full := match (s.out[n]).pond with
    | h :: _ => r.exists_ && r.mode == .reliable && !x.fits r.window (s.windowBytes n) (winBytes h)
    | [] => false
  let s1 := s.onXpt n (fun x => { x with winFull := full })
  if full && !x.winFull then s1.raise (A.xptEvt n) 2 else s1

/-- The record under way is a resend. -/
def Xpt.resending (x : Xpt) : Bool := match x.tx with
  | some t => t.resend && !t.gap
  | none => false

/-- The SEQ that a carrier reads from its window for a resend. -/
def Xpt.reading (x : Xpt) : Option Nat := match x.tx with
  | some t => if t.resend && !t.gap then some t.seq else x.resendQ.head?
  | none => x.resendQ.head?

/-- A read of a resend window of stream `n` for a resend found an uncorrectable error: the record is not sent; it and what stands before
it are retired with CAUSE 4 (Table 11.3, R226, R228). The window is that of the resend under way, else of the next one. -/
def State.windowLost (s : State) (n : Fin 16) : State :=
  let ks := (n.val :: s.drainKeys n).filterMap (fun k => (s.carrier k).map (fun c => (k, c.2)))
  match (ks.filter (·.2.resending) ++ ks).find? (fun e => e.2.reading.isSome) with
  | none => s
  | some (k, x) =>
    let q := x.reading.getD 0
    if x.held.any (fun h => h.seq == q) then
      let y := x.retire ((x.held.takeWhile (fun h => h.seq != q)).length + 1) 4
      let s1 := (s.putCarrier k y).noteRetired k x y
      if k = n.val then s1.noteFull n else s1
    else s

/-- The CTL, TAG and destination words of stream `n` as its registers hold them. -/
def State.viaNow (s : State) (n : Nat) (standby : Bool) : List Word :=
  let o := if standby then 0x20 else 0
  [s.rd (A.xptCtl n), s.rd (A.xptTag n)] ++
    ([A.xptDstPMacHi n, A.xptDstPMacLo n, A.xptDstPIp n 0, A.xptDstPIp n 1, A.xptDstPIp n 2, A.xptDstPIp n 3,
      A.xptDstPPort n].map (fun a => s.rd (a + o)))

/-- A reset of its stall: the session ends and every held record, acknowledged or not, is retired with CAUSE 3 (R229). -/
def State.windowReset (s : State) (n : Fin 16) : State :=
  let x := s.xpt[n]
  let y := x.retire x.held.length 3
  ((s.onXpt n (fun _ => { y with session := none, tx := none, resendQ := [], newQ := [], winFull := false })).onOut n (fun o =>
    { o with recfmtNext := some (s.stream n).format })).noteRetired n x y

end Sys2Proof.Machine
end

