-- ==== Sys2Proof/Machine/Lake.lean ====
section
/-! DEFINITION. The Lake: training, regions, ECC, trims, scrubbing, refresh and apertures (R240 to R255). -/

namespace Sys2Proof.Machine
open Sys2Proof

/-- The next group line to be served: at the heads of the ponds for the in-line bar, else in the Lake region. -/
def State.nextLine (s : State) (g : Fin 12) : Option GLine :=
  if s.isInline g then (s.heads g 1).head? else ((s.engs[g]).region.drop (s.engs[g]).served).find? (fun l => !l.marker)

/-- Samples of a delay line of a Lake-fed bar in poisoned codewords read 0 (Table 11.3). -/
def SeamLine.poisoned (l : SeamLine) (bad : List (Nat × Nat)) : SeamLine := { l with parts := poisonParts l.parts bad }

/-- A read of a Lake-fed group or of an accumulator found a bad codeword (Table 11.3). Of a Lake-fed group, 32 samples of the line
being served, or of one of the delay lines that the Seam Unit draws on: where a raw line lies in its region is not given, so
which of them is free. Of an accumulator, 32 samples of the row that the place in its region gives. -/
def State.poison (s : State) (q : LakeReq) (off : Nat) : State :=
  match q with
  | .raw g =>
    let depth := match fin? 4 g.val with
      | some b => (s.seam[b]).hist.length
      | none => 0
    let r := s.choose ((s.lineSamples g + 31) / 32)
    let w := r.2.choose (depth + 1)
    let bad := (32 * r.1, 32 * r.1 + 32)
    if w.1 = 0 then (match s.nextLine g with
      | some l => w.2.onEng g (fun e => { e with eccBad := (l.tag.count, bad) :: e.eccBad })
      | none => w.2)
    else forFin (fun (b : Fin 4) s => s.onSeam b (fun x => { x with hist := updAt x.hist (w.1 - 1) (fun l => l.poisoned [bad]) }))
      [g.val] w.2
  | .tnr b =>
    let g : Fin 12 := ⟨b.val, by omega⟩
    let n := atLeast1 (s.rowBytes b)
    let lo := off % n / 64 * 32
    let frame := match (s.grp[g]).infos.getLast? with
      | some i => i.frame
      | none => (s.engs[g]).frame.getD 0
    s.onEng g (fun e => { e with accBad := (frame, off / n, lo, lo + 32) :: e.accBad })
  | .market n => s.windowLost n
  | _ => s

/-- A read found bad codewords, at these places of its region; the Market reads one record, which is lost once (Table 11.3). -/
def State.poisonAll (s : State) (q : LakeReq) (offs : List Nat) : State :=
  match q with
  | .market _ => if offs.isEmpty then s else s.poison q 0
  | _ => forAll (fun o s => s.poison q o) offs s

/-- LAKE_REQUEST: a request of the data fabric: `write` gives the bytes of a write, `len` the length of a read, `ecc` the
outcomes of its codewords by their number from the first (R248, R249). A corrected read delivers corrected data, and a bad codeword of a read
is poisoned; a write leaves a bad codeword that it covers only in part as it is, which an aperture's stall finds in its log (R306). -/
def execLakeRequest (q : LakeReq) (a : Nat) (len : Nat) (write : Option (Bytes × Issuer)) (ecc : List (Nat × Ecc)) (s : State) :
    Host.Outcome State Fault Refusal :=
  .next (s.whenOn fun s =>
    let n := match write with
      | some b => b.1.length
      | none => len
    if !s.lakeAllowed q write.isSome a n then s.fence
    else match write with
      | none =>
        let seen := ecc.filter (fun e => decide (64 * (a / 64 + e.1) < a + n))
        let s1 := forAll (fun (e : Nat × Ecc) s => s.lakeErr (64 * (a / 64 + e.1)) 0 e.2) seen s
        let bad := (seen.filter (fun e => e.2 == .bad)).map (fun e => 64 * (a / 64 + e.1))
        match s.str.lake.find? (fun r => mayReach q false r && r.holds a n) with
        | some r => s1.poisonAll q (bad.map (fun b => b - r.base))
        | none => s1
      | some (b, i) =>
        let w := s.lakeWriteEcc a b ecc
        match q with
        | .aperture t => forAll (fun b s => s.postErr t b 5 i.seq.toNat i.session.toNat) w.1 w.2
        | _ => w.2)

/-! Training (R242 to R244). -/

/-- The largest set of Table 11.1 whose channels all trained good, by its code; 0 if none. -/
def chooseSet (good : Nat → Bool) : Nat := ([1, 2, 3, 4, 5, 6].find? (fun c => (setChannels c).all good)).getD 0

/-- The Lake's contents are lost: its bytes, the accumulators, the retained raw lines and the resend windows (R26, R244). -/
def State.lakeLost (s : State) : State :=
  { s with
    lake := []
    tnr := s.tnr.map (fun t => { t with valid := [], i := 0, frame := none, fresh := true, line0 := none, lastRow := none })
    engs := s.engs.map (fun e => { e with region := [], served := 0, copying := [] })
    xpt := s.xpt.map Xpt.emptied
    drains := s.drains.map (fun d => { d with xpt := d.xpt.emptied }) }

/-- A result with the outcome of the full training that a channel must run, because it has no baseline or because it was asked
for: its new baseline is then the result's, or one that is free (R243). `had` is the baseline it had. -/
def trainedFull (r : TrainResult) (must : Bool) (had : Option Nat) (free : Nat) : Option Nat :=
  if !(r.good && r.fits) then none
  else match r.full with
    | some b => some b
    | none => if must || had.isNone then some free else none

/-- Training results are applied: states of the channels, the population set, baselines, and the speed where a channel ran full
training (R240 to R243). `must` says that every channel of `mask` runs full training (R244). -/
def State.trained (s : State) (mask speed : Nat) (must : Bool) (res : List TrainResult) : State :=
  let old := s.lakeCtl.set_
  let news := (List.range 12).map (fun c => match fin? 12 c with
    | some i => if mask.testBit c then trainedFull (res.getD c {}) must (s.lakeCtl.chans[i]).baseline (Config.freeNat (s.draws + c)) else none
    | none => none)
  let s0 := { s with draws := s.draws + 12 }
  let s1 := forFin (fun (c : Fin 12) s =>
    if !mask.testBit c then s
    else
      let r := res.getD c {}
      let d : Option Dimm := if r.gib = 0 then none else some { gib := r.gib, ranks := r.ranks, density := r.density }
      let ok := r.good && r.fits
      let s' := s.onChan c (fun x => { x with
        dimm := d
        st := if d.isNone then 0 else if ok then 2 else 4
        baseline := match news.getD c none with
          | some b => some b
          | none => x.baseline })
      if d.isSome && !ok then s'.raise A.lakeEvt 2 else s') (List.range 12) s0
  let good := fun (c : Nat) => match fin? 12 c with
    | some i => let x := s1.lakeCtl.chans[i]; x.st == 2 || x.st == 5
    | none => false
  let set := chooseSet good
  let used := setChannels set
  let fitted := (List.range 12).countP (fun c => s1.chanGib c != 0)
  let s2 := forFin (fun (c : Fin 12) s => s.onChan c (fun x => { x with
    st := if x.st = 2 ∨ x.st = 5 then (if used.contains c.val then 2 else 5) else x.st })) (List.range 12) s1
  let full := must || news.any (·.isSome)
  let s3 := { s2 with lakeCtl := { s2.lakeCtl with set_ := set, training := 0, speed := if full then speed else s2.lakeCtl.speed } }
  let s4 := if used.length < fitted then s3.raise A.lakeEvt 7 else s3
  let s5 := if set = old then s4 else s4.lakeLost
  let s6 := forFin (fun (c : Fin 12) s => if !mask.testBit c then s else
    ((res.getD c {}).verify.filter (fun e => (s.lakeChannel e.1).1 == c.val)).foldl (fun s e => s.lakeErr e.1 3 e.2) s) (List.range 12) s5
  if news.any (·.isSome) then s6.requestCommitOf [6] else s6

/-- LAKE_CMD FULL_TRAIN of a mask of channels: refused while a group is active, or a table load, an image copy, an aperture access
or a training is under way (R244). -/
def State.fullTrain (s : State) (mask : Nat) : State :=
  let copying := s.sic.busy == .copy false || s.sic.busy == .copy true
  if s.running || copying || s.load.toList.any (·.active) || !s.ctl.split.isEmpty || s.lakeCtl.training != 0 then
    { s with lakeCtl := { s.lakeCtl with cmdErr := 1 } }
  else
    let m := mask % 4096
    let s1 := forFin (fun (c : Fin 12) s => if m.testBit c then s.onChan c (fun x => { x with st := 1 }) else s)
      (List.range 12) s
    { s1 with lakeCtl := { s1.lakeCtl with training := m, cmdErr := 0 } }

/-- FULL_TRAIN: LAKE_CMD FULL_TRAIN (R244). -/
def execFullTrain (mask : Fin 4096) (s : State) : Host.Outcome State Fault Refusal :=
  .next (s.whenOn fun s => s.fullTrain mask)

/-! Trims (R245, R246). -/

/-- The bounds of a channel's trims. -/
def State.trimWin (s : State) (c : Nat) : Int × Int :=
  let w := s.rd (A.lakeChTrimWin c)
  (sx 8 (fld w 23 16), sx 8 (fld w 15 8))

/-- A trim field (0 RD_TRIM, 1 WR_TRIM) of a word. -/
def trimFld (w : Word) (k : Nat) : Int := sx 8 (fld w (8 * k + 7) (8 * k))

/-- One trim after a measurement: its value and whether it presses (R246). -/
def State.trimStep (s : State) (c k : Nat) (want : Int) : Int × Bool :=
  let win := s.trimWin c
  if s.b (A.lakeChTrimWin c) (28 + k) then (trimFld (s.rd (A.lakeChTrim c)) k, false)
  else if want < win.1 then (win.1, true)
  else if win.2 < want then (win.2, true)
  else (want, false)

/-- The temperature sensor of a channel's PHY (Table 16.4). -/
def phySensor (c : Nat) : Nat := 7 + c / 3

/-- LAKE_RETRAIN_STEP: one incremental step on channel `c`, with the trims that the measured drift asks for (R245, R246). -/
def execLakeRetrainStep (c : Fin 12) (rd wr : Int) (s : State) : Host.Outcome State Fault Refusal :=
  .next (s.whenOn fun s =>
    let x := s.lakeCtl.chans[c]
    let t := sx 16 (s.f (A.telT (phySensor c)) 15 0)
    let dt := 16 * (atLeast1 (s.f A.lakeRetrain 7 0) : Int)
    let due := x.wakeStep || decide (dt ≤ t - x.stepTemp) || decide (dt ≤ x.stepTemp - t) ||
      decide (x.stepAt + atLeast1 (s.f A.lakeRetrain 31 16) * 60 * 10 ^ 9 ≤ s.now)
    if !s.b A.lakeCtl 1 || x.st != 2 || !due || decide (s.now < x.stepAt + us 100) then s
    else
      let wants : List Int := [clampI (-128) 127 rd, clampI (-128) 127 wr]
      let r := [0, 1].map (fun k => s.trimStep c k (wants.getD k 0))
      let v := fun (k : Nat) => lowBits 8 ((r.getD k (0, false)).1)
      let press := (if (r.getD 0 (0, false)).2 then 1 else 0) + (if (r.getD 1 (0, false)).2 then 2 else 0)
      let s1 := (s.wrK (A.lakeChTrim c) (wd (v 1 * 256 + v 0))).wr (A.lakeChTrimWant c)
        (wd (lowBits 8 (wants.getD 1 0) * 256 + lowBits 8 (wants.getD 0 0)))
      let s2 := (s1.onChan c (fun y => { y with stepTemp := t, stepAt := s.now, press := press, wakeStep := false })).inc (A.lakeChSteps c)
      if press = 0 then s2 else s2.raise A.lakeEvt 3)

/-- A written trim outside the window moves the bound it crosses (R246). -/
def State.forceTrim (s : State) (c k : Nat) : State :=
  let win := s.trimWin c
  let v := trimFld (s.rd (A.lakeChTrim c)) k
  let note := fun (s : State) (mx : Nat) =>
    let n := min 255 (s.f A.lakeLog 31 24 + 1)
    (s.raise A.lakeEvt 4).wr A.lakeLog (wd (n * 2 ^ 24 + c * 2 ^ 16 + k * 2 ^ 8 + mx))
  if v < win.1 then note (s.setFK (A.lakeChTrimWin c) 23 16 (lowBits 8 v)) 0
  else if win.2 < v then note (s.setFK (A.lakeChTrimWin c) 15 8 (lowBits 8 v)) 1
  else s

/-- A software write of both trims of channel `c`: their PRESSING clears (R246). -/
def State.writeTrim (s : State) (c : Fin 12) (v : Word) : State :=
  (((s.wrK (A.lakeChTrim c) (wd (v.toNat &&& 0xFFFF))).onChan c (fun x => { x with press := 0 })).forceTrim c 0).forceTrim c 1

/-- LAKE_TRIM_WRITE: a write of LAKE_CHc_TRIM (R246). -/
def execLakeTrimWrite (c : Fin 12) (rd wr : Fin 256) (s : State) : Host.Outcome State Fault Refusal :=
  .next (s.whenOn fun s => s.writeTrim c (wd (wr * 256 + rd)))

/-- A write of a trim window: a MIN above MAX sets MAX to MIN (Table 11.10). -/
def State.writeTrimWin (s : State) (c : Fin 12) (v : Word) : State :=
  let w := wd (v.toNat &&& 0x30FFFF00)
  let w' := if sx 8 (fld w 15 8) < sx 8 (fld w 23 16) then setFld w 15 8 (fld w 23 16) else w
  (s.wrK (A.lakeChTrimWin c) w').onChan c (fun x => { x with press := 0 })

/-- A round with a trim pressing is counted (R246). -/
def State.countTrimPress (s : State) : State :=
  forFin (fun (c : Fin 12) s => if (s.lakeCtl.chans[c]).press = 0 then s else s.inc (A.lakeChPress c)) (List.range 12) s

/-! Scrubbing and refresh (R251, R252). -/

/-- SCRUB_READ: the scrubber reads its next codeword, once its share of the pass time has passed since the one before (R251). -/
def execScrubRead (ecc : Ecc) (s : State) : Host.Outcome State Fault Refusal :=
  .next (s.whenOn fun s =>
    let total := s.lakeCap / 64
    let pass := atLeast1 (s.f A.lakeScrubPeriod 7 0) * 3600 * 10 ^ 9
    if !s.b A.lakeCtl 0 || s.lakeCtl.training != 0 || total == 0 || decide ((s.now - s.lakeCtl.scrubAt) * total < pass) then s
    else
      let pos := s.lakeCtl.scrubPos % total
      let s1 := { s with lakeCtl := { s.lakeCtl with scrubAt := s.now } }.lakeErr (64 * pos) 1 ecc
      if pos + 1 < total then { s1 with lakeCtl := { s1.lakeCtl with scrubPos := pos + 1 } }
      else { s1 with lakeCtl := { s1.lakeCtl with scrubPos := 0, passes := s1.lakeCtl.passes + 1 } }.raise A.lakeEvt 6)

/-- LAKE_REFRESH: tREFI has passed on channel `c`: an all-bank refresh of each rank, with the MR4 class read; the interval
is halved while the class lies above its nominal range (R252). -/
def execLakeRefresh (c : Fin 12) (mr4 : Fin 16) (hot : Bool) (s : State) : Host.Outcome State Fault Refusal :=
  .next (s.whenOn fun s =>
    let x := s.lakeCtl.chans[c]
    let t := if x.hot then 1950 else 3900
    if x.st ≠ 2 ∨ s.now < x.refAt + t then s
    else s.onChan c (fun y => { y with refAt := s.now, mr4 := mr4, hot := hot }))

/-! Apertures (R253, R254). -/

/-- The base of a stall's aperture. -/
def State.apBase (s : State) (t : Nat) : Nat :=
  (s.rd (A.lakeApBaseHi t)).toNat * 2 ^ 32 + (s.rd (A.lakeApBaseLo t)).toNat

/-- The whole aperture lies where the stall may read or write. -/
def State.apValid (s : State) (t : Fin 8) (write : Bool) : Bool := s.lakeAllowed (.aperture t) write (s.apBase t) 0x4000

/-- An aperture access outside its limits is counted. -/
def State.apError (s : State) (t : Fin 8) : State := s.incF (A.lakeApStat t) 31 16

/-- A write of an aperture base clears ERRS (Table 11.4). -/
def State.writeApBase (s : State) (t : Fin 8) (hi : Bool) (v : Word) : State :=
  (if hi then s.wr (A.lakeApBaseHi t) v else s.wr (A.lakeApBaseLo t) (wd (v.toNat / 2 ^ 14 * 2 ^ 14))).setF (A.lakeApStat t) 31 16 0

/-- A read of `k` bytes at offset `o` of the aperture of stall `t`: its status and value (R253, Table 13.6). -/
def State.apRead (s : State) (t : Fin 8) (o k : Nat) (ecc : Ecc) : Nat × Nat × State :=
  if o % k ≠ 0 then (4, 0, s)
  else if !s.apValid t false then (2, 0, s.apError t)
  else
    let a := s.apBase t + o
    let s1 := s.lakeErr a 0 ecc
    if ecc = .bad then (5, 0, s1) else (0, ofLe (s1.lakeRead a k), s1)

/-- A posted write of `k` bytes at offset `o` of the aperture of stall `t`: a read-modify-write (R253, R254, R306). -/
def State.apWrite (s : State) (t : Fin 8) (o k v : Nat) (ecc : Ecc) (seq session : Nat) : Nat × State :=
  if o % k ≠ 0 then (4, s)
  else if !s.apValid t true then (2, s.apError t)
  else
    let a := s.apBase t + o
    let s1 := s.lakeErr a 2 ecc
    if ecc = .bad then (5, s1.postErr t (0x5D0000 + t * 0x4000 + o) 5 seq session) else (0, s1.lakeWrite a (leBytes k v))

/-- A failed access is counted (Table 13.12). -/
def State.noteFail (s : State) (status : Nat) : State :=
  if status = 3 then s.inc A.brgCntSize else if status = 4 then s.inc A.brgCntAlign else if status = 2 then s.inc A.brgCntPerm else s

/-- APERTURE_WRITE: a posted write of 32 or 64 bits through the aperture of stall `t`; one that fails is logged with the SEQ and the session
of the message that issued it, and counted (R254, R306, R310). -/
def execApertureWrite (t : Fin 8) (o : Fin 0x4000) (wide : Bool) (v : BitVec 64) (ecc : Ecc) (by_ : Issuer) (s : State) :
    Host.Outcome State Fault Refusal :=
  .next (s.whenOn fun s =>
    let r := s.apWrite t o (if wide then 8 else 4) v.toNat ecc by_.seq.toNat by_.session.toNat
    if r.1 = 0 ∨ r.1 = 5 then r.2
    else (r.2.noteFail r.1).postErr t (0x5D0000 + t * 0x4000 + o) r.1 by_.seq.toNat by_.session.toNat)

/-! Registers that the Lake's state gives (Tables 11.4, 11.6 and 11.9). -/

/-- LAKE_STATUS. -/
def State.lakeStatusWord (s : State) : Nat :=
  s.lakeCtl.set_ * 2 ^ 28 + s.lakeCtl.cmdErr * 2 ^ 26 + (if s.lakeCtl.training = 0 then 0 else 2 ^ 25)
    + s.lakeSetOf.foldl (fun a c => a + 2 ^ c) 0

/-- LAKE_CHc_STATUS. -/
def State.lakeChanWord (s : State) (c : Fin 12) : Nat :=
  let x := s.lakeCtl.chans[c]
  let d := x.dimm.getD { gib := 0, ranks := 0, density := 0 }
  x.mr4 % 16 * 2 ^ 20 + d.density % 16 * 2 ^ 12 + d.ranks % 4 * 2 ^ 10 + x.press % 4 * 2 ^ 8 + x.st % 8

/-- LAKE_SCRUB_POS. -/
def State.scrubFraction (s : State) : Nat :=
  let total := s.lakeCap / 64
  if total = 0 then 0 else s.lakeCtl.scrubPos * 65536 / total

/-- LAKE_REGr, word `k` (Table 11.4). -/
def State.lakeRegWord (s : State) (r k : Nat) : Nat :=
  match s.str.lake[r]? with
  | none => 0
  | some x => match k with
    | 0 => x.owner % 256 * 256 + x.kind % 256
    | 1 => x.base % 2 ^ 32
    | 2 => x.base / 2 ^ 32 % 2 ^ 32
    | 3 => x.size % 2 ^ 32
    | 4 => x.size / 2 ^ 32 % 2 ^ 32
    | _ => 0

end Sys2Proof.Machine
end

