-- ==== Sys2Proof/Machine/Sessions.lean ====
section
/-! DEFINITION. ICP messages, authentication, sessions, stall keys, long operations and completion ponds
(R280 to R286, R294 to R296). -/

namespace Sys2Proof.Machine
open Sys2Proof

/-! Messages (R280, R281). -/

/-- An ICP message with its MAC field as given (Table 13.1). -/
def icpBytes (ver type stall flags session seq : Nat) (mac body : Bytes) : Bytes :=
  beBytes 2 0x4943 ++ beBytes 1 ver ++ beBytes 1 type ++ beBytes 1 stall ++ beBytes 1 flags ++ beBytes 2 body.length
    ++ beBytes 4 session ++ beBytes 4 seq ++ mac ++ body

/-- Sixteen zero bytes. -/
def zero16 : Bytes := List.replicate 16 0#8

/-- The MAC of a message under a key (R281). -/
def icpMac (key : Bytes) (ver type stall flags session seq : Nat) (body : Bytes) : Bytes :=
  (hmac key (icpBytes ver type stall flags session seq zero16 body)).take 16

/-- The message limit of R280 on a management port. -/
def State.icpLimit (s : State) (port : Nat) (p : Peer) : Nat :=
  s.f (A.ethMaxframe (port + 2)) 13 0 - (if p.addr.length = 16 then 66 else 46)

/-- A message comes to the device: to CTL_PORT, at the address of its management port (R280). -/
def State.icpTakes (s : State) (h : IcpHead) : Bool :=
  h.dport.toNat == s.f A.ctlPort 15 0 &&
    h.dip == (if h.peer.addr.length = 16 then s.linkIp6 (8 + h.port) else s.linkIp4 (8 + h.port))

/-- A message of `len` bytes arrives on an enabled management port: what is not addressed to ICP is discarded with its frame, and what is
longer than the port's limit or not a multiple of four is malformed (R216, R280, R281). -/
def State.icpGate (s : State) (h : IcpHead) (len : Nat) (f : State → State) : State :=
  if !s.b (A.ethCtl (2 + h.port)) 0 then s
  else if !s.icpTakes h then s.inc (A.ethlCntRxDrop (2 + h.port) 0)
  else
    let s1 := s.inc (A.ethlCntRx (2 + h.port) 0)
    if s1.icpLimit h.port h.peer < len ∨ len % 4 ≠ 0 then s1.inc A.ctlCntBadmsg else f s1

/-- Hand an ICP message to a management port (R280). -/
def State.icpEmit (s : State) (port : Nat) (p : Peer) (msg : Bytes) : State :=
  (s.emit (.icp port p msg)).inc (A.ethlCntTx (2 + port) 0)

/-- The session with a number. -/
def State.session? (s : State) (n : Nat) : Option Session := s.ctl.sessions.find? (fun x => x.number == n)

/-- Session `n` changes. -/
def State.onSession (s : State) (n : Nat) (f : Session → Session) : State :=
  { s with ctl := { s.ctl with sessions := s.ctl.sessions.map (fun x => if x.number = n then f x else x) } }

/-- Send a message of session `x` (R280, R281). A provisioning session's messages carry a zero MAC (R285). -/
def State.icpSend (s : State) (x : Session) (type flags seq : Nat) (body : Bytes) : State :=
  let mac := if x.provisioning then zero16 else icpMac x.key x.version type x.stall flags x.number seq body
  s.icpEmit x.mgmtPort x.peer (icpBytes x.version type x.stall flags x.number seq mac body)

/-- Send a message that the device numbers itself: its SEQ is the session's next (R283). -/
def State.icpOwn (s : State) (x : Session) (type : Nat) (body : Bytes) : State :=
  (s.icpSend x type 0 x.devSeq body).onSession x.number (fun y => { y with devSeq := (y.devSeq + 1) % 2 ^ 32 })

/-- A message fails R281. -/
def State.authFail (s : State) : State := (s.inc A.ctlCntAuth).raise A.ctlEvt 0

/-- A message is malformed. -/
def State.malformed (s : State) : State := s.inc A.ctlCntBadmsg

/-- First protocol version in which a session's host may send a message type (Table 13.2); what it never sends is in none. -/
def typeSince (type : Nat) : Nat :=
  if type = 3 ∨ type = 9 then 0x10 else if type = 6 then 0x12 else if type = 8 then 0x21 else if type = 10 then 0x23 else 0x100

/-- The session of a message that passes R281. -/
def State.authed (s : State) (h : IcpHead) (type : Nat) (body : Bytes) : Option Session :=
  match s.session? h.session.toNat with
  | none => none
  | some x =>
    if x.stall ≠ h.stall.val ∨ x.version < typeSince type then none
    else if x.provisioning then some x
    else if (s.stalls[h.stall]).key.isNone then none
    else if beBytes 16 h.mac.toNat = icpMac x.key h.ver.toNat type h.stall h.flags.toNat h.session.toNat h.seq.toNat body then some x
    else none

/-- An authenticated message of session `x` keeps it open and gives the address for what the device sends (R280, R284). -/
def State.heard (s : State) (x : Session) (h : IcpHead) : State :=
  s.onSession x.number (fun y => { y with lastMsg := s.now, peer := h.peer, mgmtPort := h.port.val })

/-! Channels (R282). -/

/-- The open session that holds EC `t`. -/
def State.chanHolder (s : State) (t : Nat) : Option Session :=
  s.ctl.sessions.find? (fun x => x.stall == t / 2 && x.chans.testBit (t % 2))

/-- EC targets of a session. -/
def Session.targets (x : Session) : List Nat := (bitsOf 2 x.chans).map (fun i => 2 * x.stall + i)

/-- Session `x` closes; the long operations that it started go on to the address of its latest authenticated message, and with its SEQs
(R280, R283, R284). -/
def State.closeSession (s : State) (x : Session) : State :=
  let s1 := forFin (fun t s => s.onTgt t (fun y => { y with lastPort := x.mgmtPort })) x.targets s
  let s2 := { s1 with ctl := { s1.ctl with
    sessions := s1.ctl.sessions.filter (fun y => y.number != x.number)
    longOps := s1.ctl.longOps.map (fun (o : LongOp) => if o.session = x.number then { o with via := (s1.session? x.number).getD x } else o) } }
  s2.raise (A.stlEvt x.stall) 3

/-- Every session of a stall with a property closes. -/
def State.closeWhere (s : State) (p : Session → Bool) : State := forAll (fun x s => s.closeSession x) (s.ctl.sessions.filter p) s

/-! HELLO (R282, R285). -/

/-- The protocol versions, oldest first (Table 13.4). -/
def icpVersions : List Nat := [0x10, 0x11, 0x12, 0x13, 0x20, 0x21, 0x22, 0x23]

/-- The version the device chooses: the highest within the host's range; over IPv6 only from 2.2 (R282, Table 13.4). -/
def chooseVersion (vmin vmax : Nat) (v6 : Bool) : Option Nat :=
  (icpVersions.filter (fun v => decide (vmin ≤ v) && decide (v ≤ vmax) && (!v6 || decide (0x22 ≤ v)))).getLast?

/-- The body of a HELLO (Table 13.3). -/
def helloBody (vmin vmax chans : BitVec 8) (hnonce : BitVec 128) : Bytes :=
  [vmin, vmax, chans] ++ List.replicate 13 0#8 ++ beBytes 16 hnonce.toNat

/-- The body of a HELLO_REPLY (Table 13.3). -/
def State.helloReply (s : State) (result ver chans : Nat) (dnonce : Bytes) : Bytes :=
  beBytes 1 result ++ beBytes 1 ver ++ beBytes 1 chans ++ [0#8, 0x10#8, 0x23#8, 0#8, 0#8]
    ++ beBytes 4 (atLeast1 (s.f A.ctlSessTmo 15 0)) ++ beBytes 4 0 ++ dnonce

/-- Sixteen bytes from the on-die random source (R282). -/
def State.nonce (s : State) : Bytes × State :=
  let (a, s1) := s.draw
  let (b, s2) := s1.draw
  let (c, s3) := s2.draw
  let (d, s4) := s3.draw
  (beBytes 4 a.toNat ++ beBytes 4 b.toNat ++ beBytes 4 c.toNat ++ beBytes 4 d.toNat, s4)

/-- HELLO: it opens a session, is refused, or fails authentication (R282, R285). In a refusal the fields besides RESULT that have
no stated value are free. -/
def execHello (h : IcpHead) (vmin vmax chans : BitVec 8) (hnonce : BitVec 128) (s : State) : Host.Outcome State Fault Refusal :=
  .next (s.whenOn fun s => s.icpGate h 64 fun s =>
    let t := h.stall
    let key := (s.stalls[t]).key
    let body := helloBody vmin vmax chans hnonce
    let prov := t = 0 ∧ key.isNone ∧ bit (wd h.flags.toNat) 7 ∧ h.mac = 0
    let good := match key with
      | some k => beBytes 16 h.mac.toNat == icpMac k h.ver.toNat 1 t h.flags.toNat h.session.toNat h.seq.toNat body
      | none => false
    if ¬ prov ∧ good = false then s.authFail
    else
      let (dn, s1) := s.nonce
      let ver := chooseVersion vmin.toNat vmax.toNat (h.peer.addr.length == 16)
      let full := decide (4 ≤ (s.ctl.sessions.countP (fun x => x.stall == t.val)))
      let refuse := fun (res v : Nat) (s : State) =>
        let b := s.helloReply res v 0 dn
        let m := if prov then zero16 else icpMac (key.getD []) v 2 t 0 0 h.seq.toNat b
        s.icpEmit h.port h.peer (icpBytes v 2 t 0 0 h.seq.toNat m b)
      match ver with
      | none => let (w, s2) := s1.draw; refuse 1 (w.toNat % 256) s2
      | some v =>
        if full then refuse 2 v s1
        else
          let n := s.ctl.nextSession
          let want := if v < 0x12 then 0 else chans.toNat % 4 &&& (s.stallRec t).chans
          let got := (bitsOf 2 want).filter (fun i => (s.chanHolder (2 * t + i)).isNone)
          let mask := got.foldl (fun a i => a + 2 ^ i) 0
          let place := ((List.range 4).find? (fun j => !s.ctl.sessions.any (fun x => x.stall == t.val && x.place == j))).getD 0
          let k := if prov then [] else hmac (key.getD []) ([0x49#8, 0x43#8, 0x50#8, 0x53#8] ++ beBytes 16 hnonce.toNat ++ dn
            ++ beBytes 4 n)
          let x : Session := { number := n, stall := t, place := place, version := v, key := k, chans := mask, mgmtPort := h.port,
                               peer := h.peer, provisioning := prov, lastSeq := none, cache := [], devSeq := 1, lastMsg := s.now }
          let s2 := { s1 with ctl := { s1.ctl with sessions := s1.ctl.sessions ++ [x]
                                                   nextSession := if (n + 1) % 2 ^ 32 = 0 then 1 else (n + 1) % 2 ^ 32 } }
          let s3 := forFin (fun t s => s.onTgt t (fun y => if y.asleep then y else { y with waking := false, wolSent := 0 })) x.targets s2
          (s3.raise (A.stlEvt t) 2).icpSend x 2 0 h.seq.toNat (s3.helloReply 0 v mask dn))

/-- ICP_MESSAGE_REJECT: a message with the given MAGIC, TYPE and BLEN is discarded and counted when R280 or R281 says so; any other is for the
command of its type. -/
def execIcpMessageReject (h : IcpHead) (magic : BitVec 16) (type : BitVec 8) (blen : BitVec 16) (body : Bytes) (s : State) :
    Host.Outcome State Fault Refusal :=
  .next (s.whenOn fun s => s.icpGate h (32 + body.length) fun s =>
    if magic ≠ 0x4943 ∨ blen.toNat ≠ body.length then s.malformed
    else if type = 1 then s
    else if (s.authed h type.toNat body).isSome then s
    else s.authFail)

/-- BYE: the session closes (R284). -/
def execBye (h : IcpHead) (s : State) : Host.Outcome State Fault Refusal :=
  .next (s.whenOn fun s => s.icpGate h 32 fun s => match s.authed h 9 [] with
    | some x => s.closeSession x
    | none => s.authFail)

/-- SESSION_TIMEOUT: no authenticated message for CTL_SESS_TMO closes the session (R284). -/
def execSessionTimeout (n : BitVec 32) (s : State) : Host.Outcome State Fault Refusal :=
  .next (s.whenOn fun s => match s.session? n.toNat with
    | some x => if x.lastMsg + ms (atLeast1 (s.f A.ctlSessTmo 15 0)) ≤ s.now then s.closeSession x else s
    | none => s)

/-! Stall keys (R286). -/

/-- Word `i` of the staged key of stall `t`. -/
def State.stageKey (s : State) (t : Fin 8) (i : Nat) (v : Word) : State :=
  s.onStall t (fun x => { x with keyStage := updAt (if x.keyStage.isEmpty then List.replicate 8 0#32 else x.keyStage) i (fun _ => v) })

/-- Setting INSTALL starts writing the staged key to the retained store (R286). -/
def State.installKey (s : State) (t : Fin 8) : State :=
  let k := (List.range 8).flatMap (fun i => beBytes 4 ((s.stalls[t]).keyStage.getD i 0#32).toNat)
  (s.onStall t (fun x => { x with installing := some k })).setB (A.stlKeyCmd t) 0 true

/-- STALL_KEY_INSTALL (R286). -/
def execStallKeyInstall (t : Fin 8) (s : State) : Host.Outcome State Fault Refusal := .next (s.whenOn fun s => s.installKey t)

/-- STALL_KEY_STORED: the record is committed; the key governs later HELLOs. Installing stall 0's key closes the provisioning
session (R285, R286). -/
def execStallKeyStored (t : Fin 8) (s : State) : Host.Outcome State Fault Refusal :=
  .next (s.whenOn fun s => match (s.stalls[t]).installing with
    | none => s
    | some k =>
      let s1 := s.onStall t (fun x => { x with key := some k, installing := none })
      let s2 := s1.writeRecord 2 (s1.content 2)
      let s3 := (s2.setB (A.stlKeyCmd t) 0 false).raise A.ctlEvt 1
      if t = 0 then s3.closeWhere (·.provisioning) else s3)

/-- Setting ERASE removes the key (R286). -/
def State.eraseKey (s : State) (t : Fin 8) : State :=
  ((s.onStall t (fun x => { x with key := none, installing := none })).setB (A.stlKeyCmd t) 0 false).requestCommit

/-- STALL_KEY_ERASE (R286). -/
def execStallKeyErase (t : Fin 8) (s : State) : Host.Outcome State Fault Refusal := .next (s.whenOn fun s => s.eraseKey t)

/-! Long operations (R294, R295). -/

/-- The long operation with an OPID. -/
def State.longOp? (s : State) (o : Nat) : Option LongOp := s.ctl.longOps.find? (fun x => x.opid == o)

/-- A long operation leaves the list. -/
def State.dropLong (s : State) (o : Nat) : State :=
  { s with ctl := { s.ctl with longOps := s.ctl.longOps.filter (fun x => x.opid != o) } }

/-- Bytes not yet arrived of a list of missing ranges (offset, length). -/
def missingBytes (m : List (Nat × Nat)) : Nat := m.foldl (fun a r => a + r.2) 0

/-- Missing ranges after bytes [o, o + n) arrived. -/
def coverRange (o n : Nat) (m : List (Nat × Nat)) : List (Nat × Nat) :=
  m.flatMap (fun r =>
    let a := (r.1, min o (r.1 + r.2) - r.1)
    let e := max (o + n) r.1
    let b := (e, r.1 + r.2 - e)
    [a, b].filter (fun x => x.2 != 0))

/-- A long operation ends with a code and posts its item (Table 13.9). -/
def State.endLong (s : State) (x : LongOp) (code : Nat) : State :=
  let moved := if x.write then x.len - missingBytes x.missing else x.sent
  match fin? 8 x.stall with
  | some t => (s.dropLong x.opid).postCpl t (1 * 2 ^ 28 + code * 2 ^ 24 + x.opid % 65536) x.tag moved
  | none => s

/-- A LONG operation of session `x` with the descriptor of Table 13.8: its status and OPID, and the state (R294, R295). A
descriptor outside the ranges of Table 13.8 has no stated status: it fails with a free one. -/
def State.startLong (s : State) (x : Session) (code lake len tag : Nat) : Nat × Nat × State :=
  if x.version < 0x21 then (7, 0, s)
  else if code < 1 ∨ 2 < code ∨ lake % 64 ≠ 0 ∨ len < 64 ∨ 16777216 < len ∨ len % 64 ≠ 0 then
    let (w, s1) := s.choose 10
    (w + 1, 0, s1)
  else match fin? 8 x.stall with
    | none => (2, 0, s)
    | some t =>
      if x.provisioning || !s.lakeAllowed (.aperture t) (code == 2) lake len then (2, 0, s)
      else if 16 ≤ (s.stalls[t]).taken then (8, 0, s)
      else
        let o := s.ctl.nextOpid
        let op : LongOp := { opid := o, stall := t, session := x.number, write := code == 2, lake := lake, len := len, tag := tag,
                             sent := 0, missing := if code = 2 then [(0, len)] else [], lastBulk := s.now, via := x }
        (0, o, ({ s with ctl := { s.ctl with longOps := s.ctl.longOps ++ [op], nextOpid := (o + 1) % 2 ^ 32 } }).onStall t
          (fun y => { y with taken := y.taken + 1 }))

/-- The result of a LONG operation started on its own for a session: status, items done and OPID. -/
def longResult (r : Nat × Nat × State) : State :=
  r.2.2.emit (.result r.1 (if r.1 = 0 then 1 else 0) (if r.1 = 0 then beBytes 4 r.2.1 else []))

/-- LAKE_READ_OP: a LONG LAKE_READ of session `n` (R294). -/
def execLakeReadOp (n : BitVec 32) (lake : BitVec 64) (len tag : BitVec 32) (s : State) : Host.Outcome State Fault Refusal :=
  .next (s.whenOn fun s => match s.session? n.toNat with
    | some x => longResult (s.startLong x 1 lake.toNat len.toNat tag.toNat)
    | none => s)

/-- LAKE_WRITE_OP: a LONG LAKE_WRITE of session `n` (R294). -/
def execLakeWriteOp (n : BitVec 32) (lake : BitVec 64) (len tag : BitVec 32) (s : State) : Host.Outcome State Fault Refusal :=
  .next (s.whenOn fun s => match s.session? n.toNat with
    | some x => longResult (s.startLong x 2 lake.toNat len.toNat tag.toNat)
    | none => s)

/-- BULK_SEND: the next BULK message of a LAKE_READ, of at most 8,192 data bytes and within the port's limit, once its data has been read; an
uncorrectable error ends the operation with DATA (R280, R294, Table 11.3). -/
def execBulkSend (opid : BitVec 32) (ecc : List (Nat × Ecc)) (s : State) : Host.Outcome State Fault Refusal :=
  .next (s.whenOn fun s => match s.longOp? opid.toNat with
    | none => s
    | some x =>
      if x.write || decide (x.len ≤ x.sent) then s
      else
        let via := (s.session? x.session).getD x.via
        let n := min (min 8192 (x.len - x.sent)) ((s.icpLimit via.mgmtPort via.peer - 40) / 4 * 4)
        let r := s.fetchLake (x.lake + x.sent) n ecc
        if r.1 < n then r.2.endLong x 2 else
        let s := r.2
        let body := beBytes 4 x.opid ++ beBytes 4 x.sent ++ s.lakeRead (x.lake + x.sent) n
        let s1 := s.icpOwn via 8 body
        { s1 with ctl := { s1.ctl with longOps := s1.ctl.longOps.map (fun y =>
          { y with sent := if y.opid = x.opid then x.sent + n else y.sent
                   via := if y.session = x.session then { via with devSeq := (via.devSeq + 1) % 2 ^ 32 } else y.via }) } })

/-- BULK_RECEIVE: a host BULK message for a LAKE_WRITE is written as it arrives (R294). One that names no such operation of its
stall, or bytes beyond it, is malformed. -/
def execBulkReceive (h : IcpHead) (opid offset : BitVec 32) (data : Bytes) (ecc : List (Nat × Ecc)) (s : State) : Host.Outcome State Fault Refusal :=
  .next (s.whenOn fun s => s.icpGate h (40 + data.length) fun s =>
    match s.authed h 8 (beBytes 4 opid.toNat ++ beBytes 4 offset.toNat ++ data) with
    | none => s.authFail
    | some x =>
      let s := s.heard x h
      match s.longOp? opid.toNat with
      | none => s.malformed
      | some op =>
        if !op.write || x.provisioning || op.stall != x.stall || decide (op.len < offset.toNat + data.length) then s.malformed
        else
          let w := s.lakeWriteEcc (op.lake + offset.toNat) data ecc
          let s1 := match fin? 8 op.stall with
            | some t => forAll (fun a s => s.postErr t a 5 h.seq.toNat h.session.toNat) w.1 w.2
            | none => w.2
          { s1 with ctl := { s1.ctl with longOps := s1.ctl.longOps.map (fun y => if y.opid = op.opid then
              { y with missing := coverRange offset.toNat data.length y.missing, lastBulk := s.now } else y) } })

/-- LONG_OP_DONE: a long operation whose every byte has moved ends OK and posts its completion item (R294, R295). -/
def execLongOpDone (opid : BitVec 32) (s : State) : Host.Outcome State Fault Refusal :=
  .next (s.whenOn fun s => match s.longOp? opid.toNat with
    | none => s
    | some x => if (if x.write then x.missing.isEmpty else decide (x.len ≤ x.sent)) then s.endLong x 0 else s)

/-- LONG_OP_TIMEOUT: no BULK for a LAKE_WRITE for CTL_LONG_TMO ends it with TIMEOUT (R294). -/
def execLongOpTimeout (opid : BitVec 32) (s : State) : Host.Outcome State Fault Refusal :=
  .next (s.whenOn fun s => match s.longOp? opid.toNat with
    | none => s
    | some x =>
      if x.write && !x.missing.isEmpty && decide (x.lastBulk + ms (atLeast1 (s.f A.ctlLongTmo 15 0)) ≤ s.now) then s.endLong x 3 else s)

/-! Completion ponds (R296). -/

/-- A read of STL_s_CPL0: word 0 of the oldest item, which leaves, with words 1 to 3 latched. -/
def State.cplRead (s : State) (t : Fin 8) : Word × State :=
  match (s.stalls[t]).cpl with
  | [] => (0#32, s)
  | i :: rest =>
    (i.w0, (((s.onStall t (fun x => { x with cpl := rest, taken := x.taken - 1 })).wr (A.stlCpl1 t 0) i.w1).wr
      (A.stlCpl1 t 1) i.w2).wr (A.stlCpl1 t 2) i.w3)

/-- COMPLETION_READ (R296). -/
def execCompletionRead (t : Fin 8) (s : State) : Host.Outcome State Fault Refusal :=
  .next (s.whenOn fun s => let r := s.cplRead t; r.2.emit (.value 0 r.1.toNat))

/-! Late responses (R305). -/

/-- LATE_RESPONSE: a response that comes after its timeout is discarded and counted (R305). -/
def execLateResponse (s : State) : Host.Outcome State Fault Refusal :=
  .next (s.whenOn fun s => match s.ctl.late with
    | [] => s
    | _ :: rest => ({ s with ctl := { s.ctl with late := rest } } : State).inc A.brgCntLate)

end Sys2Proof.Machine
end

