-- ==== Sys2Proof/Machine/Events.lean ====
section
/-! DEFINITION. The event controller: sources, delivery, notification, stacks, sleep and wake actions (R328 to R349). -/

namespace Sys2Proof.Machine
open Sys2Proof

/-! Sources (R328, R329). -/

/-- The event register and the enable register of block source `n` (Table 15.1, Table 16.3). SEAM_GLB_EVT and SIC_EVT have no
enable register: every bit of theirs counts. -/
def evtRegs (n : Nat) : Option (Nat × Nat) :=
  let at_ := fun (lo : Nat) (e en : Nat → Nat) => some (e (n - lo), en (n - lo))
  if n < 32 then at_ 0 A.sprEvt A.sprEvtEn
  else if n < 64 then at_ 32 A.twbEvt A.twbEvtEn
  else if n < 68 then at_ 64 A.seamBarEvt A.seamBarEvtEn
  else if n = 68 then some (A.seamGlbEvt, A.seamGlbEvt)
  else if n = 69 then some (A.leEvt, A.leEvtEn)
  else if n < 82 then at_ 70 A.legEvt A.legEvtEn
  else if n < 94 then at_ 82 A.corEvt A.corEvtEn
  else if n < 106 then at_ 94 A.frmEvt A.frmEvtEn
  else if n < 138 then at_ 106 A.expEvt A.expEvtEn
  else if n < 150 then at_ 138 A.talEvt A.talEvtEn
  else if n < 166 then at_ 150 A.outEvt A.outEvtEn
  else if n = 166 then some (A.outGlbEvt, A.outGlbEvtEn)
  else if n = 167 then some (A.mktEvt, A.mktEvtEn)
  else if n < 184 then at_ 168 A.xptEvt A.xptEvtEn
  else if n < 188 then at_ 184 A.tbEvt A.tbEvtEn
  else if n < 192 then at_ 188 A.wpEvt A.wpEvtEn
  else if n < 196 then at_ 192 A.ltgEvt A.ltgEvtEn
  else if n < 212 then at_ 196 A.gpioEvt A.gpioEvtEn
  else if n = 212 then some (A.lakeEvt, A.lakeEvtEn)
  else if n = 213 then some (A.pndEvt, A.pndEvtEn)
  else if n < 230 then at_ 214 A.crcEvt A.crcEvtEn
  else if n = 230 then some (A.ctlEvt, A.ctlEvtEn)
  else if n < 239 then at_ 231 A.stlEvt A.stlEvtEn
  else if n = 239 then some (A.brgEvt, A.brgEvtEn)
  else if n = 240 then some (A.sicEvt, A.sicEvt)
  else if n = 241 then some (A.evcEvt, A.evcEvtEn)
  else if n = 242 then some (A.trnEvt, A.trnEvtEn)
  else if n = 243 then some (A.trnTmrEvt, A.trnTmrEvtEn)
  else if n = 244 then some (A.trnReqEvt, A.trnReqEvtEn)
  else if n = 245 then some (A.telThermEvt, A.telThermEvtEn)
  else if n = 246 then some (A.telSupEvt, A.telSupEvtEn)
  else if n = 247 then some (A.telEvt, A.telEvtEn)
  else if n = 248 then some (A.keepEvt, A.keepEvtEn)
  else none

/-- A pin source. -/
def isPin (n : Nat) : Bool := decide (256 ≤ n) && decide (n < 276)

/-- A software source. -/
def isSoft (n : Nat) : Bool := decide (512 ≤ n) && decide (n < 768)

/-- A source that exists (Tables 15.1 and 16.3): reserved sources never become pending. -/
def sourceExists (n : Nat) : Bool := decide (n < 249) || isPin n || isSoft n

/-- Source `n` is level-sensed: block sources whatever the image states, software sources never (R329). -/
def State.levelSensed (s : State) (n : Nat) : Bool := decide (n < 256) || (isPin n && (s.eventRec n).level)

/-- The AND of a block's event register and its enable register is not 0 (R328). -/
def State.blockAsserted (s : State) (n : Nat) : Bool :=
  match evtRegs n with
  | some (e, en) => (s.rd e).toNat &&& ((s.rd en).toNat ||| (if n = 244 then 1 else 0)) != 0
  | none => false

/-- The active level of a pin source by POL (R329). -/
def State.pinActive (s : State) (n : Nat) (level : Bool) : Bool := level != s.b (A.evcsCfg n) 25

/-- A level source is asserted. -/
def State.asserted (s : State) (n : Fin 768) : Bool :=
  if isPin n then s.pinActive n (s.sources[n]).level else s.blockAsserted n

/-- Priority of a source: as the image gives it, or as written since (Table 15.11). The bare structure's sources have
priority 8 (R50). -/
def State.prio (s : State) (n : Nat) : Nat := s.f (A.evcsCfg n) 23 20

/-- The enabled set of a source: the image's targets without those of TOFF (R332). -/
def State.enabledSet (s : State) (n : Nat) : List Nat :=
  (List.range 20).filter (fun t => (s.eventRec n).targets.testBit t && !s.b (A.evcsCfg n) t)

/-! Targets (R331, R335). -/

/-- Target `t` is awake (R331). -/
def State.awake (s : State) (t : Nat) : Bool :=
  match fin? 20 t with
  | some i => !(s.targets[i]).asleep && (decide (16 ≤ t) || (s.chanHolder t).isSome)
  | none => false

/-- Source `n` has its bit set in the pending words of target `t` (R334). -/
def Source.setIn (x : Source) (t : Nat) : Bool := x.target == t && (x.phase == .assigned || (x.phase == .active && x.refire))

/-- Sources whose bits are set in the pending words of target `t`. -/
def State.setBits (s : State) (t : Nat) : List Nat :=
  (s.sources.toList.zipIdx.filter (fun e => e.1.setIn t)).map (·.2)

/-- The running priority of a stack (R335). -/
def runPrio (st : List (Nat × Nat)) : Option Nat := st.head?.map (·.2)

/-- A priority is above the running priority. -/
def above (p : Nat) (st : List (Nat × Nat)) : Bool := match runPrio st with
  | some r => decide (r < p)
  | none => true

/-- The notifiable bits of target `t` (R335). -/
def State.notifiable (s : State) (t : Fin 20) : List Nat := (s.setBits t).filter (fun n => above (s.prio n) (s.targets[t]).stack)

/-- NEW of target `t` (R335). -/
def State.newCount (s : State) (t : Fin 20) : Nat := (s.notifiable t).countP (fun n => (s.targets[t]).unseen.contains n)

/-- A notification condition of R336 holds. -/
def State.notifyDue (s : State) (t : Fin 20) : Bool :=
  let x := s.targets[t]
  let m := s.rd (A.evctMod t)
  let k := s.newCount t
  decide (1 ≤ k) && (!x.notified || decide (x.lastNotify + us (fld m 15 0) ≤ s.now)
    || (fld m 23 16 != 0 && decide (fld m 23 16 ≤ k)) || s.b (A.evctCtl t) 1 || x.refired)

/-- The moderation timer of target `t` runs (R336). -/
def State.modWait (s : State) (t : Fin 20) : Bool := decide (1 ≤ s.newCount t) && !s.notifyDue t

/-- The 24-bit summary of set bits by word (Table 15.3). -/
def summary (l : List Nat) : Nat := (List.range 24).foldl (fun a w => if l.any (fun n => n / 32 == w) then a + 2 ^ w else a) 0

/-- The body of an EVENT message (Table 15.3). -/
def State.eventBody (s : State) (t : Fin 20) (flags : Nat) : Bytes :=
  let set_ := s.setBits t
  let mx := if set_.isEmpty then 255 else set_.foldl (fun a n => max a (s.prio n)) 0
  beBytes 1 t ++ beBytes 1 flags ++ beBytes 1 ((runPrio (s.targets[t]).stack).getD 255) ++ beBytes 1 mx ++ beBytes 4 (summary set_)
    ++ beBytes 4 set_.length ++ beBytes 4 (s.rd (A.evctNote t)).toNat ++ beBytes 4 (s.rd A.leRoundLo).toNat ++ beBytes 12 0

/-- The notification of target `t`: NOTE advances, IDLE clears, and for an EC target an EVENT message is sent to the session that holds it
(R336 to R338). -/
def State.sendNote (s : State) (t : Fin 20) (flags : Nat) : State :=
  let s1 := ((s.wr (A.evctNote t) (wd ((s.rd (A.evctNote t)).toNat + 1))).inc (A.evctCntNotify t)).setB (A.evctCtl t) 1 false
  let s2 := s1.onTgt t (fun x => { x with lastNotify := s.now, notified := true })
  match (if t.val < 16 then s2.chanHolder t else none) with
  | some x => s2.icpOwn x 5 (s2.eventBody t flags)
  | none => s2

/-- Notify target `t`: NEW becomes 0 (R336). -/
def State.notify (s : State) (t : Fin 20) (flags : Nat) : State :=
  let seen := s.notifiable t
  (s.sendNote t flags).onTgt t (fun x => { x with
    refired := false, unseen := x.unseen.filter (fun n => !seen.contains n), told := seen ++ x.told.filter (fun n => !seen.contains n) })

/-- With no bit to notify, a completed re-fire has nothing left to tell (R336, R342). -/
def State.calm (s : State) (t : Fin 20) : State := if s.newCount t = 0 then s.onTgt t (fun x => { x with refired := false }) else s

/-- HOLD is in force (R333). -/
def State.held (s : State) : Bool := s.b A.evcHold 0

/-- EVENT_NOTIFY: target `t` is notified when its condition is met (R336). -/
def execEventNotify (t : Fin 20) (s : State) : Host.Outcome State Fault Refusal :=
  .next (s.whenOn fun s => if s.notifyDue t && s.awake t && !s.held then s.notify t 0 else s)

/-- EVENT_RENOTIFY: an awake EC target with a notifiable bit and no notification for EVC_Tt_RENOTIFY (R338). -/
def execEventRenotify (t : Fin 20) (s : State) : Host.Outcome State Fault Refusal :=
  .next (s.whenOn fun s =>
    let r := s.f (A.evctRenotify t) 15 0
    if t.val < 16 && s.awake t && !s.held && r != 0 && !(s.notifiable t).isEmpty
        && decide ((s.targets[t]).lastNotify + ms r ≤ s.now) then s.sendNote t 1
    else s)

/-! The wake rule (R344). -/

/-- The wake condition of target `t`: a PENDING source of its wake set has no awake target in its enabled set. -/
def State.wakeWanted (s : State) (t : Fin 20) : Bool :=
  let p := s.f (A.evctWake t) 4 0
  (s.sources.toList.zipIdx).any (fun e => e.1.phase == .pending && decide (p ≤ s.prio e.2) && decide (p < 16)
    && (s.enabledSet e.2).contains t.val && (s.enabledSet e.2).all (fun u => !s.awake u))

/-- ACTION of target `t`: 3 is treated as 0, and for IRQ targets 1 is too (Table 15.10). -/
def State.wakeActionOf (s : State) (t : Fin 20) : Nat :=
  let a := s.f (A.evctWake t) 9 8
  if a = 3 ∨ (16 ≤ t.val ∧ a = 1) then 0 else a

/-- Magic frames end with the condition that sent them: a later one begins anew (R344). -/
def State.endWakes (s : State) : State :=
  forFin (fun (t : Fin 20) s =>
    if (s.targets[t]).waking && s.wakeActionOf t == 1 && !s.wakeWanted t then s.onTgt t (fun x => { x with waking := false, wolSent := 0 })
    else s) (List.range 20) s

/-! Raising and delivery (R330, R332). -/

/-- Numbers of the wake sources (Table 16.3). -/
def wakeSources : List Nat := [243, 244, 245, 246] ++ (List.range 20).map (· + 256)

/-- Wake source `n` is in the Tarn watcher's set, or is BMC_REQ, which always wakes (R347, R357). -/
def State.watched (s : State) (n : Nat) : Bool :=
  wakeSources.contains n && (s.b (A.evcsCfg n) 27 || (n == 244 && s.b A.trnReqEvt 0))

/-- Source `n` becomes PENDING; a wake source cancels an entry to Doze or Still (R330, R351). -/
def State.makePending (s : State) (n : Fin 768) : State :=
  (if s.watched n then s.haltEntry else s).onSrc n (fun x => { x with phase := .pending, refire := false })

/-- The bit of source `n` is set in the pending words of target `t`: it is new, and no notification has told of it (R334, R335, R339). -/
def State.bitSet (s : State) (n : Nat) (t : Nat) : State :=
  forFin (fun t s => s.onTgt t (fun y => { y with
    unseen := n :: y.unseen.filter (· != n), told := y.told.filter (· != n) })) [t] s

/-- A source has an active edge, or its level is asserted (R330). An edge in the cycle of a dismissal finds the source still ASSIGNED, and one
in the cycle of DONE counts as in service (Table 15.4). -/
def State.raiseSource (s : State) (n : Fin 768) : State :=
  let x := s.sources[n]
  match x.phase with
  | .idle =>
    (match x.goneAt with
      | some (c, completed) =>
        if c = s.now ∧ !s.levelSensed n then
          let s1 := (s.onSrc n (fun x => { x with phase := .assigned, edgeAt := some s.now })).bitSet n x.target
          if completed then forFin (fun t s => s.onTgt t (fun y => { y with refired := true })) [x.target] s1 else s1
        else s.makePending n
      | none => s.makePending n)
  | .active => if s.levelSensed n || x.refire then s else (s.onSrc n (fun x => { x with refire := true })).bitSet n x.target
  | .assigned => if s.levelSensed n then s else s.onSrc n (fun x => { x with edgeAt := some s.now })
  | .pending => s

/-- An active edge found the source ASSIGNED in this very cycle (Table 15.4). -/
def State.edgeNow (s : State) (n : Fin 768) : Bool := !s.levelSensed n && (s.sources[n]).edgeAt == some s.now

/-- The filtered level of pin source `n` becomes `level`: an edge raises an edge source, an assertion a level source (R329). -/
def State.pinLevel (s : State) (n : Fin 768) (level : Bool) : State :=
  let old := (s.sources[n]).level
  let s1 := s.onSrc n (fun x => { x with level := level })
  if s.levelSensed n then
    if s1.asserted n then s1.raiseSource n
    else if (s1.sources[n]).phase = .pending then s1.onSrc n (fun x => { x with phase := .idle }) else s1
  else if old != level && (s.b (A.evcsCfg n) 26 || s.pinActive n level) then s1.raiseSource n
  else s1

/-- The filter of pin source `n` passes a level held for `held` cycles of its sampling clock (R329). -/
def State.pinPasses (s : State) (n held : Nat) : Bool := decide (atLeast1 (s.f (A.evcsStat n) 7 0) ≤ held)

/-- EVENT_SOURCE_RAISE: a pin source has held `level` for `held` cycles of the 100 MHz sampling clock, and takes it once its filter passes
it; a block source is raised when it is asserted. Software sources are raised by EVC_SW_SET alone (R328 to R330). -/
def execEventSourceRaise (n : Fin 768) (level : Bool) (held : Nat) (s : State) : Host.Outcome State Fault Refusal :=
  .next (s.whenOn fun s =>
    if isPin n then (if s.pinPasses n held then s.pinLevel n level else s) else if s.blockAsserted n then s.raiseSource n else s)

/-- EVENT_SOURCE_DEASSERT: a level source deasserted before delivery returns to IDLE; a pin source goes to its inactive level
(R330). -/
def execEventSourceDeassert (n : Fin 768) (held : Nat) (s : State) : Host.Outcome State Fault Refusal :=
  .next (s.whenOn fun s =>
    (if isPin n then (if s.pinPasses n held then s.pinLevel n (s.b (A.evcsCfg n) 25) else s)
    else if s.levelSensed n && !s.asserted n && (s.sources[n]).phase == .pending then s.onSrc n (fun x => { x with phase := .idle })
    else s).endWakes)

/-- The enabled set of a source in search order: from the target after its last one, wrapping (R332). -/
def searchOrder (last : Nat) (l : List Nat) : List Nat := l.filter (fun t => decide (last < t)) ++ l.filter (fun t => decide (t ≤ last))

/-- An item joins the delivery pond of target `t`, pond 158 + t: the number of the source (R332, Table 14.4). -/
def State.pushDelivery (s : State) (n t : Nat) : State :=
  forFin (fun (i : Fin 54) s =>
    ({ s with chains := vupd s.chains i (fun l => l ++ [BitVec.ofNat 128 n]) } : State).peak (A.pndpPeak (158 + t)) ((s.chains[i]).length + 1)) [t] s

/-- One fabric cycle of routing over the sources in order: each to the first awake target of its set with room that has taken none
in this cycle, through the target's delivery pond (R332). -/
def State.route (s : State) : List Nat → (Nat → Bool) → State
  | [], _ => s
  | n :: rest, room =>
    match fin? 768 n with
    | none => s.route rest room
    | some i =>
      match (searchOrder (s.sources[i]).target (s.enabledSet n)).find? (fun t => s.awake t && room t) with
      | none => s.route rest room
      | some t =>
        (((s.onSrc i (fun x => { x with phase := .assigned, target := t, edgeAt := none })).bitSet n t).pushDelivery n t).route rest
          (fun u => u != t && room u)

/-- PENDING sources, highest priority first, then by number (R332). -/
def State.pendingOrder (s : State) : List Nat :=
  let p := (s.sources.toList.zipIdx.filter (fun e => e.1.phase == .pending)).map (·.2)
  ((List.range 16).reverse).flatMap (fun k => p.filter (fun n => s.prio n == k))

/-- Level sources whose level fell before delivery are IDLE again (Table 15.2). -/
def State.dropFallen (s : State) : State :=
  forFin (fun (n : Fin 768) s =>
    if s.levelSensed n && !s.asserted n && (s.sources[n]).phase == .pending then s.onSrc n (fun x => { x with phase := .idle }) else s)
    s.pendingOrder s

/-- Depth of the delivery pond of target `t` (R311). -/
def State.deliveryDepth (s : State) (t : Nat) : Nat := ((fin? 54 t).map (fun i => (s.chains[i]).length)).getD 0

/-- The delivery pond of target `t` can take an item in a cycle in which its consumer is ready or not (R312). -/
def State.deliveryRoom (s : State) (ready : BitVec 20) (t : Nat) : Bool :=
  decide (s.deliveryDepth t < 16) || ready.getLsbD t

/-- EVENT_DELIVERY: one fabric cycle of routing; bit t of `ready` tells that the consumer of the delivery pond of target t signals ready, and
so takes the item at its head (R312, R332, R333). -/
def execEventDelivery (ready : BitVec 20) (s : State) : Host.Outcome State Fault Refusal :=
  .next (s.whenOn fun s =>
    let s1 := (forFin (fun (i : Fin 54) s => { s with chains := vupd s.chains i (fun l => l.drop 1) })
      ((List.range 20).filter (fun t => ready.getLsbD t)) s).dropFallen
    (if s.held then s1 else s1.route s1.pendingOrder (s.deliveryRoom ready)).endWakes)

/-! Service (R334, R340 to R342). -/

/-- A level source is re-sampled: PENDING if it is asserted, else IDLE. -/
def State.resample (s : State) (n : Fin 768) : State :=
  if s.levelSensed n && s.asserted n then s.makePending n else s.onSrc n (fun x => { x with phase := .idle, refire := false })

/-- Bit `n` of the pending words of target `t` is dismissed (R334); with an edge in the same cycle it stays set (Table 15.4). -/
def State.dismiss (s : State) (t : Fin 20) (n : Fin 768) : State :=
  let x := s.sources[n]
  if !x.setIn t || (x.phase == .assigned && s.edgeNow n) then s
  else
    let s1 := s.onTgt t (fun y => { y with unseen := y.unseen.filter (· != n.val) })
    let gone := if s.levelSensed n then none else some (s.now, false)
    (if x.phase = .active then s1.onSrc n (fun x => { x with refire := false })
    else (s1.resample n).onSrc n (fun x => { x with goneAt := gone })).calm t

/-- EVENT_DISMISS (R334). -/
def execEventDismiss (t : Fin 20) (n : Fin 768) (s : State) : Host.Outcome State Fault Refusal :=
  .next (s.whenOn fun s => s.dismiss t n)

/-- TAKE of source `n` by target `t` is refused with a cause (R340). -/
def State.refuseTake (s : State) (t : Fin 20) (cause : Nat) : State :=
  ((s.onTgt t (fun x => { x with takeCause := cause })).inc (A.evctCntRefused t)).raise A.evcEvt 1

/-- TAKE (R340): the bit clears, the source is pushed with its priority. Set bits that the higher running priority hides count as
new when it falls (R335). An edge in the same cycle counts as arriving in service (Table 15.4). -/
def State.take (s : State) (t : Fin 20) (n : Nat) : State :=
  match fin? 768 n with
  | none => s.refuseTake t 1
  | some i =>
    let x := s.sources[i]
    let st := (s.targets[t]).stack
    if x.phase = .active then s.refuseTake t 2
    else if !x.setIn t then s.refuseTake t 1
    else if !above (s.prio n) st then s.refuseTake t 3
    else if 16 ≤ st.length then s.refuseTake t 4
    else
      let p := s.prio n
      let s1 := (s.onSrc i (fun x => { x with phase := .active, refire := false })).onTgt t (fun y => { y with
        stack := (n, p) :: y.stack })
      let hidden := (s1.setBits t).filter (fun m => !above (s1.prio m) ((n, p) :: st))
      let s2 := s1.onTgt t (fun y => { y with unseen := hidden ++ y.unseen.filter (fun m => m != n && !hidden.contains m) })
      (if s.edgeNow i then (s2.onSrc i (fun x => { x with refire := true })).bitSet n t else s2).calm t

/-- EVENT_TAKE (R340). -/
def execEventTake (t : Fin 20) (n : Fin 1024) (s : State) : Host.Outcome State Fault Refusal := .next (s.whenOn fun s => s.take t n)

/-- Completion of the source at the top of the stack of target `t` (R342). -/
def State.complete (s : State) (t : Fin 20) : State :=
  match (s.targets[t]).stack with
  | [] => s
  | (n, _) :: rest =>
    let s1 := s.onTgt t (fun y => { y with stack := rest })
    match fin? 768 n with
    | none => s1
    | some i =>
      if s1.levelSensed i then s1.resample i
      else if (s1.sources[i]).refire then
        ((s1.onSrc i (fun x => { x with phase := .assigned, refire := false })).bitSet n t).onTgt t (fun y => { y with refired := true })
      else s1.onSrc i (fun x => { x with phase := .idle, goneAt := some (s.now, true) })

/-- A stack fault: DONE names a source that is not the stack top (R341). -/
def State.stackFault (s : State) (t : Fin 20) (n : Nat) : State :=
  let w := wd (min 255 (s.f A.evcFaultLog 31 24 + 1) * 2 ^ 24 + t * 2 ^ 16 + n % 1024)
  ((s.wr A.evcFaultLog w).inc A.evcCntFault).raise A.evcEvt 0

/-- DONE (R341). -/
def State.done (s : State) (t : Fin 20) (n : Nat) : State :=
  match (s.targets[t]).stack with
  | (m, _) :: _ => if m = n then s.complete t else s.stackFault t n
  | [] => s.stackFault t n

/-- EVENT_DONE (R341). -/
def execEventDone (t : Fin 20) (n : Fin 1024) (s : State) : Host.Outcome State Fault Refusal := .next (s.whenOn fun s => s.done t n)

/-! Sleep and waking (R343, R345). -/

/-- Flush every target of a list whose moderation timer runs, with FLUSH set (R343). -/
def State.flush (s : State) : State := forFin (fun t s => if s.modWait t then s.notify t 2 else s) (List.range 20) s

/-- Target `t` is put to sleep (R343). -/
def State.sleepTarget (s : State) (t : Fin 20) : State :=
  (s.flush.onTgt t (fun x => { x with asleep := true })).setB (A.evctCtl t) 0 true

/-- Target `t` wakes: the wake action stops and every notifiable bit counts as new (R345). -/
def State.wakeTarget (s : State) (t : Fin 20) : State :=
  let set_ := s.setBits t
  if (s.targets[t]).asleep then
    (s.onTgt t (fun x => { x with asleep := false, waking := false, wolSent := 0, unseen := set_ })).setB (A.evctCtl t) 0 false
  else s.onTgt t (fun x => { x with waking := false, wolSent := 0 })

/-- An authenticated REQ or KEEPALIVE of session `x` wakes its sleeping channels (R345). -/
def State.wakeChans (s : State) (x : Session) : State :=
  forFin (fun t s => if (s.targets[t]).asleep then s.wakeTarget t else s) x.targets s

/-- A write of EVC_Tt_CTL: SLEEP sleeps or wakes the target; IDLE is stored (R336, R343). -/
def State.writeTgtCtl (s : State) (t : Fin 20) (v : Word) : State :=
  let s1 := if bit v 0 then s.sleepTarget t else if (s.targets[t]).asleep then s.wakeTarget t else s
  s1.setB (A.evctCtl t) 1 (bit v 1)

/-- TARGET_SLEEP_WRITE: a write of SLEEP, IDLE as it stands (R343). -/
def execTargetSleepWrite (t : Fin 20) (v : Bool) (s : State) : Host.Outcome State Fault Refusal :=
  .next (s.whenOn fun s => s.writeTgtCtl t (setBit (s.rd (A.evctCtl t)) 0 v))

/-- EVENT_IDLE_SET: a write of 1 to IDLE (R336). -/
def execEventIdleSet (t : Fin 20) (s : State) : Host.Outcome State Fault Refusal :=
  .next (s.whenOn fun s => s.writeTgtCtl t (setBit (s.rd (A.evctCtl t)) 1 true))

/-- SLEEP: an ICP SLEEP flushes, puts the named channels to sleep and is answered with SLEEP_ACK; a repeated one is answered from the
cache (R283, R343). -/
def execSleep (h : IcpHead) (chans : BitVec 8) (s : State) : Host.Outcome State Fault Refusal :=
  .next (s.whenOn fun s => s.icpGate h 36 fun s =>
    match s.authed h 6 (chans :: List.replicate 3 0#8) with
    | none => s.authFail
    | some x =>
      let s := s.heard x h
      let q := h.seq.toNat
      let fresh := match x.lastSeq with
        | some l => isLater 32 q l
        | none => true
      if !fresh then
        match x.cache.lookup q with
        | some m => s.icpEmit h.port h.peer m
        | none => s.inc A.ctlCntReplay
      else
        let named := (bitsOf 2 (chans.toNat &&& x.chans)).map (fun i => 2 * x.stall + i)
        let s1 := forFin (fun t s => s.sleepTarget t) named s
        let x1 := (s1.session? x.number).getD x
        let asleep := (bitsOf 2 x.chans).foldl (fun a i => match fin? 20 (2 * x.stall + i) with
          | some t => if (s1.targets[t]).asleep then a + 2 ^ i else a
          | none => a) 0
        let note := fun (i : Nat) => beBytes 4 (s1.rd (A.evctNote (2 * x.stall + i))).toNat
        let body := beBytes 1 asleep ++ beBytes 3 0 ++ note 0 ++ note 1 ++ beBytes 20 0
        let mac := if x1.provisioning then zero16 else icpMac x1.key x1.version 7 x1.stall 0 x1.number q body
        let msg := icpBytes x1.version 7 x1.stall 0 x1.number q mac body
        (s1.icpEmit h.port h.peer msg).onSession x.number (fun y => { y with lastSeq := some q, cache := ((q, msg) :: y.cache).take 4 }))

/-- KEEPALIVE: it keeps the session open and wakes its sleeping channels (R284, R345). -/
def execKeepalive (h : IcpHead) (s : State) : Host.Outcome State Fault Refusal :=
  .next (s.whenOn fun s => s.icpGate h 32 fun s => match s.authed h 10 [] with
    | some x => (s.heard x h).wakeChans x
    | none => s.authFail)

/-! Wake actions (R344). -/

/-- Send the magic frame of target `t` (R344). -/
def State.sendMagic (s : State) (t : Fin 20) : State :=
  let port := match s.chanHolder t with
    | some x => x.mgmtPort
    | none => (s.targets[t]).lastPort
  let mac := beBytes 6 (s.f (A.evctWolMacHi t) 15 0 * 2 ^ 32 + (s.rd (A.evctWolMacLo t)).toNat)
  let ff := List.replicate 6 0xFF#8
  let f := ff ++ beBytes 6 (s.linkMac (8 + port)) ++ beBytes 2 0x0842 ++ ff ++ (List.replicate 16 mac).flatten
  ((s.sendFrame (8 + port) f).raise A.evcEvt 2).onTgt t (fun x => { x with waking := true, wolSent := x.wolSent + 1, wolLast := s.now })

/-- WAKE_ACTION: the wake rule of target `t` acts: a magic frame, or a pin driven low until the target wakes (R344). -/
def execWakeAction (t : Fin 20) (s : State) : Host.Outcome State Fault Refusal :=
  .next (s.whenOn fun s =>
    if s.held || !s.wakeWanted t || (s.targets[t]).waking then s
    else if s.wakeActionOf t = 1 then s.sendMagic t
    else if s.wakeActionOf t = 2 then s.onTgt t (fun x => { x with waking := true })
    else s)

/-- WOL_RETRY: the magic frame is sent again every WOL_RETRY ms while the condition lasts, at most three times in all (R344). -/
def execWolRetry (t : Fin 20) (s : State) : Host.Outcome State Fault Refusal :=
  .next (s.whenOn fun s =>
    let x := s.targets[t]
    if !s.held && s.wakeWanted t && x.waking && decide (1 ≤ x.wolSent) && decide (x.wolSent < 3)
        && decide (x.wolLast + ms (atLeast1 (s.f (A.evctWake t) 31 16)) ≤ s.now) then s.sendMagic t
    else s)

/-- IRQ pin `i` (0 to 3) is driven low: its target holds a notifiable bit that has been notified, or a wake action names it
(R339, R344). -/
def State.irqLow (s : State) (i : Fin 4) : Bool :=
  let t : Fin 20 := ⟨16 + i.val, by omega⟩
  (s.notifiable t).any (fun n => (s.targets[t]).told.contains n) ||
    (List.range 20).any (fun u => match fin? 20 u with
      | some u => (s.targets[u]).waking && s.wakeActionOf u == 2 && s.f (A.evctWake u) 13 12 == i.val
      | none => false)

/-! Software sources, hold and resets (R333, R346, R349). -/

/-- A write of `v` to EVC_SW_SET by stall `t` (R349). -/
def State.swSet (s : State) (t : Fin 8) (v : Nat) : State :=
  let mine := decide (512 + 32 * t.val ≤ v) && decide (v < 544 + 32 * t.val)
  match fin? 768 v with
  | some n => if mine || (t == 0 && isSoft v) then s.raiseSource n else (s.inc A.evcCntSwDenied).raise A.evcEvt 3
  | none => (s.inc A.evcCntSwDenied).raise A.evcEvt 3

/-- EVC_SW_SET (R349). -/
def execEvcSwSet (t : Fin 8) (v : Fin 1024) (s : State) : Host.Outcome State Fault Refusal := .next (s.whenOn fun s => s.swSet t v)

/-- EVC_HOLD_WRITE (R333). -/
def execEvcHoldWrite (hold : Bool) (s : State) : Host.Outcome State Fault Refusal :=
  .next (s.whenOn fun s => s.wr A.evcHold (if hold then 1#32 else 0#32))

/-- A stall reset or a device start acts on target `t` (R346). -/
def State.resetTarget (s : State) (t : Fin 20) : State :=
  let served := (s.targets[t]).stack.map (·.1)
  let s1 := forFin (fun (n : Fin 768) s => s.onSrc n (fun x => { x with goneAt := none })) served (forAll (fun _ s => s.complete t) (List.range 16) s)
  let s2 := forFin (fun (n : Fin 768) s =>
    if (s.sources[n]).setIn t then
      (if s.levelSensed n then s.resample n else s.makePending n)
    else s) (s1.setBits t) s1
  (s2.wr (A.evctCtl t) 0#32).onTgt t (fun x => { x with asleep := false, unseen := [], told := [], refired := false, waking := false, wolSent := 0 })

end Sys2Proof.Machine
end

