-- ==== Sys2Proof/Machine/Image.lean ====
section
/-! DEFINITION. Palxo images: layout, decoding and the checks of Table 2.4 (R32 to R40, R404). -/

namespace Sys2Proof.Machine
open Sys2Proof

/-- `n` bytes from address `o` of cells that begin at or after it; unlisted bytes are 0. -/
def slotRun : List Host.Cell → Nat → Nat → Bytes
  | _, _, 0 => []
  | [], o, k + 1 => 0#8 :: slotRun [] (o + 1) k
  | (a, b) :: m, o, k + 1 =>
    if a = o then b :: slotRun m (o + 1) k else 0#8 :: slotRun ((a, b) :: m) (o + 1) k

/-- `n` bytes of a slot from offset `o`; unlisted bytes are 0. -/
def slotBytes (m : List Host.Cell) (o n : Nat) : Bytes := slotRun (m.dropWhile (fun c => decide (c.1 < o))) o n

/-- One entry of the section directory. -/
structure DirEntry where
  index : Nat
  type : Nat
  sver : Nat
  ofs : Nat
  len : Nat
  scrc : Nat
  deriving DecidableEq, Repr

/-- The directory of an image of `n` sections at offset `o`. -/
def directory (img : Bytes) (o n : Nat) : List DirEntry :=
  (List.range n).map (fun i =>
    let e := slice img (o + 16 * i) 16
    { index := i, type := leAt e 0 2, sver := leAt e 2 2, ofs := leAt e 4 4, len := leAt e 8 4, scrc := leAt e 12 4 })

/-- The bytes of a section. -/
def sectionBytes (img : Bytes) (e : DirEntry) : Bytes := slice img e.ofs e.len

/-- The section of a type. -/
def findSection (dir : List DirEntry) (t : Nat) : Option DirEntry := dir.find? (fun e => e.type == t)

/-- Records of `k` bytes of a section of a type, none where it is absent. -/
def records (img : Bytes) (dir : List DirEntry) (t k : Nat) : List Bytes :=
  match findSection dir t with
  | none => []
  | some e => let b := sectionBytes img e; (List.range (e.len / k)).map (fun i => slice b (k * i) k)

/-- The structure that an image's sections describe (Tables 2.2 and 2.3). The field numbers of `Config.imageField` are, for
GROUPS: 0 defined, 1 Spring mask, 2 in-line, 3 free-running, 4 reference Spring, 5 channels, 6 columns, 7 mark source (1
encoder, 2 sensor, 3 line count), 8 its base or input, 9 repeat, falling edge or count, 10 origin, 11 maximum line rate,
12 alignment depth, 13 bar width; LAKE: 0 kind, 1 owner, 2 base, 3 size; STREAMS: 0 exists, 1 stall, 2 group, 3 tap, 4 statistics, 5 mode
(1 lossy, 2 lossy under pressure), 6 primary, 7 has standby, 8 standby, 9 window, 10 pond, 11 record format, 12 has region,
13 region; STALLS: 0 share, 1 Springs, 2 controllers, 3 CRC units, 4 event channels, 16 + p permission of page p; EVENTS:
0 targets, 1 priority, 2 level; and field 0 of section 0, over the whole image, its planned Lake demand in bytes/s. -/
def decodeStructure (img : Bytes) (v2 : Bool) (dir : List DirEntry) : Structure :=
  let f := Config.imageField
  let group := fun (i : Nat) (r : Bytes) =>
    if f 1 0 r = 0 then ({} : GroupRec)
    else
      ({ springs := bitsOf 32 (f 1 1 r), inline := f 1 2 r != 0, free := f 1 3 r != 0, refSpring := f 1 4 r % 32,
         channels := if v2 && decide (i < 4) then 3 else f 1 5 r, columns := f 1 6 r, width := f 1 13 r,
         mark := match f 1 7 r with
           | 1 => .encoder (f 1 8 r % 4) (f 1 9 r) (f 1 10 r)
           | 2 => .sensor (f 1 8 r % 16) (f 1 9 r != 0)
           | 3 => .count (f 1 9 r)
           | _ => .none
         rate := f 1 11 r, depth := f 1 12 r % 1024 } : GroupRec)
  let stream := fun (r : Bytes) =>
    ({ exists_ := f 5 0 r != 0, stall := f 5 1 r, group := f 5 2 r, tap := f 5 3 r, stats := f 5 4 r != 0,
       mode := match f 5 5 r with
         | 1 => .lossy
         | 2 => if v2 then .lossy else .lossyPressure
         | _ => .reliable
       primary := f 5 6 r, standby := if f 5 7 r = 0 then none else some (f 5 8 r), window := f 5 9 r, pond := f 5 10 r,
       format := if v2 then 1 else f 5 11 r, region := if f 5 12 r = 0 then none else some (f 5 13 r) } : StreamRec)
  let stall := fun (r : Bytes) =>
    ({ pages := (List.range 4096).filterMap (fun p => let v := f 6 (16 + p) r % 4; if v = 0 then none else some (p, v)),
       share := f 6 0 r, springs := bitsOf 32 (f 6 1 r), twb := bitsOf 32 (f 6 2 r), crc := bitsOf 16 (f 6 3 r),
       chans := f 6 4 r % 4 } : StallRec)
  let event := fun (r : Bytes) => ({ targets := f 7 0 r % 2 ^ 20, prio := f 7 1 r % 16, level := f 7 2 r != 0 } : EventRec)
  let old := fun (n : Nat) => ({ targets := 1, prio := 8, level := decide (n < 256) } : EventRec)
  { bare := false
    serial := leAt img 0x10 4
    groups := (records img dir 1 64).mapIdx group
    calendar := (records img dir 2 1).map (fun b => let v := leAt b 0 1; if v = 255 then none else some v)
    sram := (records img dir 3 8).map (fun b => (leAt b 0 2, leAt b 4 4))
    lake := (records img dir 4 32).map (fun b => { kind := f 4 0 b, owner := f 4 1 b, base := f 4 2 b, size := f 4 3 b })
    streams := (records img dir 5 64).map stream
    stalls := (records img dir 6 1088).map stall
    events := if v2 then (List.range 768).map old else (records img dir 7 4).map event
    kept := (records img dir 8 12).map (fun b =>
      { addr := leAt b 0 4, value := wd (leAt b 4 4), force := !v2 && (leAt b 8 4).testBit 0 })
    demand := f 0 0 img }

/-- What a check finds: a failure's code, section index and detail (R40), or the structure of an image that passes. -/
inductive Check where
  | fail (code sec detail : Nat)
  | pass (st : Structure)

/-- A failed test: code, section index and detail. -/
abbrev Failure := Nat × Nat × Nat

/-- The first number below `n` with a property. -/
def firstBelow (n : Nat) (p : Nat → Bool) : Option Nat := (List.range n).find? p

/-- Bytes of one group line of a group in the Lake or a pond: the item sizes of its Springs (R134). -/
def GroupRec.lineBytes (r : GroupRec) : Nat :=
  let k := r.springs.length
  k * up64 (64 + 2 * (r.columns / atLeast1 k) * r.channels)

/-- A group is beyond a limit (Table 2.4, GROUP_LIMIT). -/
def groupLimit (st : Structure) (defined : Bool) (g : Nat) (r : GroupRec) : Bool :=
  if r.springs.isEmpty then defined
  else
    let bad := if g < 4 then decide (32 < r.springs.length) || decide (196608 < r.width) || !(r.channels == 3 || r.channels == 4)
      else decide (r.channels < 1) || decide (4 < r.channels)
    let room := match st.lake.find? (fun x => x.kind == 2 && x.owner == g) with
      | none => 0
      | some x => x.size
    let need := if g < 4 then (r.depth + 3) * r.lineBytes else r.lineBytes
    bad || (!r.inline && (decide (room < need) || decide (room = 0)))

/-- Slot demand of a group over the common denominator 1.2 × 10⁹ × 12,288 (R125). -/
def GroupRec.demand (r : GroupRec) : Nat := if r.springs.isEmpty then 0 else r.columns * r.channels * r.rate * 32768

/-- The denominator of R125. -/
def demandUnit : Nat := 1200000000 * 12288

/-- Slots of the calendar that a group owns. -/
def Structure.owned (st : Structure) (g : Nat) : Nat := st.calendar.countP (· == some g)

/-- An image-sized pond and the range of its size (Table 14.4); none for another pond number. -/
def sramRange (p : Nat) : Option (Nat × Nat) :=
  if 32 ≤ p ∧ p ≤ 35 then some (0x10000, 0xC00000)
  else if 36 ≤ p ∧ p ≤ 51 then some (0x4000, 0x1000000)
  else if 52 ≤ p ∧ p ≤ 63 then some (0x4000, 0x80000)
  else none

/-- Pond class and its SRAM in all. -/
def sramClass (p : Nat) : Nat × Nat :=
  if p ≤ 35 then (0, 12 * 2 ^ 20) else if p ≤ 51 then (1, 16 * 2 ^ 20) else (2, 2296 * 1024)

/-- The first pond that breaks SRAM_OVERFLOW. -/
def sramFail (st : Structure) : Option Nat :=
  let go := (st.sram.zipIdx).find? (fun x =>
    let p := x.1.1
    match sramRange p with
    | none => true
    | some (lo, hi) =>
      let before := st.sram.take x.2
      let cls := sramClass p
      let sum := ((st.sram.take (x.2 + 1)).filter (fun y => (sramRange y.1).isSome && (sramClass y.1).1 == cls.1)).foldl
        (fun a y => a + y.2) 0
      before.any (fun y => y.1 == p) || decide (x.1.2 < lo) || decide (hi < x.1.2) || decide (cls.2 < sum))
  match go with
  | some x => some x.1.1
  | none => (firstBelow 4 (fun b => !(st.groups.getD b {}).springs.isEmpty && (st.sram.lookup (32 + b)).isNone)).map (32 + ·)

/-- A stream record names something undefined (STREAM_REF). -/
def streamRef (st : Structure) (n : Nat) (r : StreamRec) : Bool :=
  r.exists_ && ((st.groups.getD r.group {}).springs.isEmpty || decide (7 < r.stall) || (st.sram.lookup r.pond).isNone ||
    decide (r.pond < 36) || decide (51 < r.pond) || decide (7 < r.primary) || (match r.standby with
      | some l => decide (7 < l)
      | none => false) || (match r.region with
      | some k => !(st.lake[k]?.any (fun x => x.kind == 3 && x.owner == n))
      | none => decide (0 < r.window)))

/-- Permission of a page for a stall; 3 is read-write (R297). -/
def StallRec.page (r : StallRec) (p : Nat) : Nat := if r.allPages then 2 else min 2 ((r.pages.lookup p).getD 0)

/-- The first stall that breaks STALL_RULE. -/
def stallFail (st : Structure) : Option Nat :=
  let r0 := st.stalls.getD 0 {}
  let pages := 0x10 :: (List.range 8).map (fun s => 0x641 + s)
  if pages.any (fun p => r0.page p != 2) then some 0
  else
    let clash := firstBelow st.stalls.length (fun i =>
      let r := st.stalls.getD i {}
      (List.range i).any (fun j =>
        let q := st.stalls.getD j {}
        r.springs.any q.springs.contains || r.twb.any q.twb.contains || r.crc.any q.crc.contains))
    match clash with
    | some i => some i
    | none => firstBelow st.stalls.length (fun i =>
        decide (100 < (st.stalls.take (i + 1)).foldl (fun a x => a + x.share) 0))

/-- A value lies in the stated range of every Kept field of its register: that of its row, and for EVC_SRCn_FILT 1 to 255 on pin sources and
0 elsewhere (Table 15.12). -/
def inRange (r : RegRow) (a : Nat) (v : Word) : Bool :=
  saturate a v == v &&
  (statedRanges.filter (fun f => f.1 == r.base)).all (fun f =>
    decide (f.2.2.2.1 ≤ fld v f.2.1 f.2.2.1) && decide (fld v f.2.1 f.2.2.1 ≤ f.2.2.2.2)) &&
  (r.base != A.twbLram 0 0 || v.toNat &&& stepMask v == v.toNat) && (r.base != A.evcsStat 0 || (if 256 ≤ (a - A.evcsStat 0) / 8 && (a - A.evcsStat 0) / 8 ≤ 275 then fld v 7 0 != 0 else fld v 7 0 == 0))

/-- A KEPT entry fails: it addresses a field that is not Kept, or its value lies outside a field's range (KEPT_RANGE). -/
def keptBad (e : KeptRec) : Bool :=
  match rowOf e.addr with
  | none => true
  | some r => r.kept == 0 || (e.value.toNat &&& (0xFFFFFFFF ^^^ r.kept)) != 0 || !inRange r e.addr e.value

/-- Regions `i` and `j` overlap. -/
def regionClash (a b : LakeRegion) : Bool := decide (a.base < b.base + b.size) && decide (b.base < a.base + a.size)

/-- The feasibility tests 0x10 to 0x1D, in the order of Table 2.4. `cap` is the installed Lake capacity, `band` its sustained bandwidth and `sec` the
index of the section of a type. DETAIL names one record, also where a test concerns several or none: INLINE_RULE with no in-line bar names
record 0, and with several the second of them; a sum (DEMAND, WINDOW_CAP) names the record at which the running sum exceeds; an overlap
or a Spring or resource taken twice names the later record (DESIGN CHOICE, assumption 108). -/
def feasibility (st : Structure) (defined : List Bool) (cap band : Nat) (sec : Nat → Nat) : Option Failure :=
  let gs := st.groups.zipIdx
  let springs := st.groups.flatMap (·.springs)
  let tests : List (Option Failure) := [
    ((List.range 32).find? (fun n => decide (1 < springs.countP (· == n)))).map (fun n => (0x10, sec 1, n)),
    (gs.find? (fun x => groupLimit st (defined.getD x.2 false) x.2 x.1)).map (fun x => (0x11, sec 1, x.2)),
    (let bars := (gs.take 4).filter (fun x => !x.1.springs.isEmpty)
     let marked := gs.filter (fun x => x.1.inline && !x.1.springs.isEmpty)
     let bad := (marked.find? (fun x => decide (4 ≤ x.2))).map (·.2)
     match bad with
     | some g => some (0x12, sec 1, g)
     | none => if bars.isEmpty || marked.length == 1 then none else some (0x12, sec 1, (marked.map (·.2)).getD 1 0)),
    (let above := gs.find? (fun x => decide (st.owned x.2 * demandUnit < x.1.demand))
     match above with
     | some x => some (0x13, sec 2, x.2)
     | none => (gs.find? (fun x => decide (256 * demandUnit <
         (st.groups.take (x.2 + 1)).foldl (fun a r => a + r.demand) 0))).map (fun x => (0x13, sec 2, x.2))),
    (st.calendar.zipIdx.find? (fun x => match x.1 with
      | some g => (st.groups.getD g {}).springs.isEmpty
      | none => false)).map (fun x => (0x14, sec 2, x.2)),
    (sramFail st).map (fun p => (0x15, sec 3, p)),
    (st.lake.zipIdx.find? (fun x => decide (cap < x.1.base + x.1.size))).map (fun x => (0x16, sec 4, x.2)),
    (st.lake.zipIdx.find? (fun x => (st.lake.take x.2).any (regionClash x.1))).map (fun x => (0x17, sec 4, x.2)),
    (if band < st.demand then some (0x18, sec 4, 0) else none),
    (st.streams.zipIdx.find? (fun x => streamRef st x.2 x.1)).map (fun x => (0x19, sec 5, x.2)),
    (st.streams.zipIdx.find? (fun x => decide (65536 <
      ((st.streams.take (x.2 + 1)).filter (·.exists_)).foldl (fun a r => a + r.window) 0))).map (fun x => (0x1A, sec 5, x.2)),
    (stallFail st).map (fun i => (0x1B, sec 6, i)),
    (st.events.zipIdx.find? (fun x => (List.range 16).any (fun t =>
      x.1.targets.testBit t && !((st.stalls.getD (t / 2) {}).chans.testBit (t % 2))))).map (fun x => (0x1C, sec 7, x.2)),
    (st.kept.zipIdx.find? (fun x => keptBad x.1)).map (fun x => (0x1D, sec 8, x.2))]
  firstSome id tests

/-- Two byte ranges overlap; an empty range overlaps nothing. -/
def rangesMeet (a la b lb : Nat) : Bool := decide (0 < la) && decide (0 < lb) && decide (a < b + lb) && decide (b < a + la)

/-- The first section that breaks SECTION_CRC. -/
def sectionCrcFail (img : Bytes) (hdr len dofs n : Nat) (dir : List DirEntry) : Option Nat :=
  (dir.find? (fun e => e.ofs % 64 != 0 || decide (len - 68 < e.ofs + e.len) || rangesMeet e.ofs e.len 0 hdr ||
    rangesMeet e.ofs e.len dofs (16 * n) || dir.any (fun d => d.index != e.index && rangesMeet e.ofs e.len d.ofs d.len) ||
    crc32c (sectionBytes img e) != e.scrc)).map (·.index)

/-- Layout failures of a section of Table 2.2 (SECTION_FORMAT): 0xFFFF for a length, else the record's index. -/
def sectionFormat (img : Bytes) (e : DirEntry) : Option Nat :=
  let lenBad := match e.type with
    | 1 => e.len != 768
    | 2 => e.len != 256
    | 3 => e.len == 0 || e.len % 8 != 0
    | 4 => e.len == 0 || e.len % 32 != 0 || decide (2048 < e.len)
    | 5 => e.len != 1024
    | 6 => e.len != 8704
    | 7 => e.len != 3072
    | 8 => e.len % 12 != 0
    | _ => false
  if lenBad then some 0xFFFF
  else if e.type = 4 then
    let b := sectionBytes img e
    firstBelow (e.len / 32) (fun i =>
      let r := slice b (32 * i) 32
      let f := Config.imageField 4
      decide (f 0 r < 1) || decide (5 < f 0 r) || f 2 r % 4096 != 0 || f 3 r % 4096 != 0 || f 3 r == 0)
  else if e.type = 3 then
    let b := sectionBytes img e
    firstBelow (e.len / 8) (fun i => leAt b (8 * i + 4) 4 % 4096 != 0)
  else none

/-- The key slot that verifies the image: the one that KEY_IDX names, or in version 2 the first of 0 to 3 that verifies. -/
def signatureFail (img : Bytes) (len : Nat) (v2 : Bool) (keyIdx : Nat) (keys : Nat → Bytes) : Option Failure :=
  let msg := img.take (len - 64)
  let sig := slice img (len - 64) 64
  let empty := fun (k : Nat) => (keys k).all (· == 0#8)
  let ok := fun (k : Nat) => !empty k && ed25519Verify (keys k) msg sig
  if v2 then (if [0, 1, 2, 3].any ok then none else some (0x0B, 0xFF, keyIdx))
  else if 3 < keyIdx || empty keyIdx then some (0x0A, 0xFF, keyIdx)
  else if ok keyIdx then none
  else some (0x0B, 0xFF, keyIdx)

/-- The checks of Table 2.4 on the first `loaded` bytes of a slot, in the order of its rows. -/
def checkImage (cells : List Host.Cell) (loaded stepping floor cap band : Nat) (keys : Nat → Bytes) : Check :=
  let hd := slotBytes cells 0 128
  let format := leAt hd 4 2
  let v2 := format == 2
  let hdr := if v2 then 64 else 128
  let len := leAt hd 8 4
  if slice hd 0 4 ≠ [0x50#8, 0x4C#8, 0x58#8, 0x4F#8] then .fail 1 0xFF 0
  else if !(format == 2 || format == 3) || leAt hd 6 2 != hdr then .fail 2 0xFF format
  else if len < 4096 || 8388608 < len || len % 4 != 0 || len != loaded then .fail 3 0xFF 0
  else
    let img := slotBytes cells 0 len
    let minStep := leAt hd 0xE 1
    let keyIdx := if v2 then 0 else leAt hd 0xF 1
    if leAt hd 0xC 2 != 0x0632 || decide (stepping < minStep) then .fail 4 0xFF minStep
    else if crc32c (img.take (hdr - 4)) != leAt img (hdr - 4) 4 then .fail 5 0xFF 0
    else
      let n := leAt hd 0x18 2
      let dofs := leAt hd 0x1C 4
      if n < 1 || 32 < n || dofs % 64 != 0 || dofs < hdr || len - 68 < dofs + 16 * n then .fail 0xD 0xFF n
      else
        let dir := directory img dofs n
        let tests : List (Unit → Option Failure) := [
          fun _ => if crc32c (img.take (len - 68)) != leAt img (len - 68) 4 then some (6, 0xFF, 0) else none,
          fun _ => (sectionCrcFail img hdr len dofs n dir).map (fun i => (7, i, i)),
          fun _ =>
            let need := if v2 then [1, 2, 3, 4, 5, 6] else [1, 2, 3, 4, 5, 6, 7]
            match need.find? (fun t => (findSection dir t).isNone) with
            | some t => some (8, 0xFF, t)
            | none => (dir.find? (fun e => (dir.take e.index).any (fun d => d.type == e.type))).map (fun e => (8, e.index, e.type)),
          fun _ => (dir.find? (fun e => decide (e.type < 0x8000) && (decide (e.type < 1) || decide (8 < e.type) || e.sver != 1))).map
            (fun e => (9, e.index, e.type)),
          fun _ => firstSome (fun e => (sectionFormat img e).map (fun d => (0xE, e.index, d))) dir,
          fun _ => signatureFail img len v2 keyIdx keys,
          fun _ => if leAt hd 0x10 4 < floor then some (0xC, 0xFF, 0) else none]
        match firstSome (fun t => t ()) tests with
        | some (c, s, d) => .fail c s d
        | none =>
          let st := decodeStructure img v2 dir
          let defined := (records img dir 1 64).map (fun r => Config.imageField 1 0 r != 0)
          let sec := fun t => ((findSection dir t).map (·.index)).getD 0xFF
          match feasibility st defined cap band sec with
          | some (c, s, d) => .fail c s d
          | none => .pass st

end Sys2Proof.Machine
end

