-- ==== Sys2Proof/Machine/Access.lean ====
section
/-! DEFINITION. What a stall reaches: instances, permissions, windows, sizes and the ordered checks of an access (R292, R297 to
R302). -/

namespace Sys2Proof.Machine
open Sys2Proof

/-- The number of the instance on which an offset falls. -/
abbrev inst (a base stride : Nat) : Nat := (a - base) / stride

/-- The image assigns to stall `t` the instance of an instanced block that lies at `a`, as the block's chapter lays down (R77, R99, R122,
R140, R166, R186, R211, R255, R279, R310, R327, R348); true for what is no instance. The sources' words are checked on writes only. -/
def State.assigned (s : State) (t a : Nat) : Bool :=
  let grp := fun (g : Nat) => s.ownsGroup t g
  let spr := fun (n : Nat) => s.springOwner n == some t
  let str := fun (n : Nat) => !(s.stream n).exists_ || (s.stream n).stall == t
  if a < 0x100000 then true
  else if a < 0x180000 then spr (inst a 0x100000 0x4000)
  else if a < 0x190000 then s.twbOwner (inst a 0x180000 0x800) == some t
  else if a < 0x200000 then true
  else if a < 0x202000 then spr (inst a 0x200000 0x100)
  else if a < 0x204000 then true
  else if a < 0x207F00 then grp (inst a 0x204000 0x1000)
  else if a < 0x281000 then true
  else if a < 0x281C00 then grp (inst a 0x281000 0x100)
  else if a < 0x301000 then true
  else if a < 0x30D000 then grp (inst a 0x301000 0x1000)
  else if a < 0x400C00 then grp (inst a 0x400000 0x100)
  else if a < 0x430000 then spr (inst a 0x410000 0x1000)
  else if a < 0x458000 then grp (inst a 0x440000 0x2000)
  else if a < 0x484000 then str (inst a 0x480000 0x400)
  else if a < 0x501000 then true
  else if a < 0x502000 then str (inst a 0x501000 0x100)
  else if a < 0x591000 then true
  else if a < 0x595000 then grp (inst a 0x591000 0x1000)
  else if a < 0x5C2000 then true
  else if a < 0x5CA000 then inst a 0x5C2000 0x1000 == t
  else if a < 0x5D0000 then true
  else if a < 0x5F0000 then inst a 0x5D0000 0x4000 == t
  else if a < 0x620000 then true
  else if a < 0x621000 then
    (match s.crcOwner (inst a 0x620000 0x100) with
      | some u => u == t
      | none => t == 0)
  else if a < 0x681000 then true
  else if a < 0x682000 then decide (inst a 0x681000 0x100 / 2 = t)
  else if a < 0x682400 then t == 0
  else true

/-- The permission of stall `t` for the page of `a`: 0 none, 1 read, 2 read-write (R297). Its own STL_ page is always reached
(R298). A provisioning session reaches GLB_ for reading and the STL_ page of stall 0 (R285). -/
def State.pagePerm (s : State) (prov : Bool) (t a : Nat) : Nat :=
  let p := a / 0x1000
  if prov then (if p < 16 then 1 else if p = 0x641 then 2 else 0)
  else if p = 0x641 + t then 2
  else (s.stallRec t).page p

/-- Stall `t` writes the words of source `n`: it is the owner stall, or the source is one of its software sources, or it reaches the
source's block instance (R348). -/
def State.writesSource (s : State) (t n : Nat) : Bool :=
  t == 0 || (decide (512 + 32 * t ≤ n) && decide (n < 544 + 32 * t)) || (match evtRegs n with
    | some (a, _) => decide (1 ≤ s.pagePerm false t a) && s.assigned t a
    | none => false)

/-- The register at `a` is reserved to the owner stall, for a read or for a write (R51, R140, R166, R211, R239, R255, R298, R310, R319,
R348, R370). -/
def ownerOnly (a : Nat) (write : Bool) : Bool :=
  let w := a / 4 * 4
  if 0x10000 ≤ w ∧ w < 0x10200 then
    write || !(w == A.sicStatus || w == A.sicActive || w == A.sicSlotaState || w == A.sicSlotbState || (decide (0x10100 ≤ w) && decide (w < 0x10180)))
  else write && (
    w == A.leUtilWin || w == A.leEvtEn || (decide (0x300100 ≤ w) && decide (w < 0x300180)) ||
    (decide (0x484000 ≤ w) && decide (w < 0x484C00)) || w == A.outGlbEvtEn ||
    (decide (0x500000 ≤ w) && decide (w < 0x501000)) || (decide (0x540000 ≤ w) && decide (w < 0x544000)) ||
    (decide (0x5C0000 ≤ w) && decide (w < 0x5C2000)) || w == A.pndEvtEn || w == A.pndInject ||
    (decide (0x640000 ≤ w) && decide (w < 0x641000)) || (decide (0x649000 ≤ w) && decide (w < 0x64A000)) ||
    w == A.evcHold || w == A.evcEvtEn || (decide (0x6C0000 ≤ w) && decide (w < 0x740000)))

/-- The page of another stall's STL_ registers, written by the owner stall only (R298). -/
def otherStl (t a : Nat) : Bool := decide (0x641000 ≤ a) && decide (a < 0x649000) && inst a 0x641000 0x1000 != t

/-- Low words of the declared 64-bit pairs (Table 19.2), and those that also accept writes. -/
def isPair (a : Nat) (write : Bool) : Bool :=
  let o := (a - 0x620000) % 0x100
  let crc := decide (0x620000 ≤ a) && decide (a < 0x621000)
  (crc && (o == 0x10 || o == 0x18 || o == 0x20 || o == 0x28)) ||
  (!write && (
    a == A.glbUidLo || (decide (0x100000 ≤ a) && decide (a < 0x180000) && a % 0x4000 == 0xF8) || a == A.leRoundLo ||
    (decide (0x281000 ≤ a) && decide (a < 0x281C00) && a % 0x100 == 0x30) ||
    (decide (0x480000 ≤ a) && decide (a < 0x484000) && a % 0x400 == 0x44) || (crc && o == 0x30)))

/-- A Lake aperture. -/
def isAperture (a : Nat) : Bool := decide (0x5D0000 ≤ a) && decide (a < 0x5F0000)

/-- The register at `a` accepts an access of `k` bytes (R292, R401). An offset that holds no register accepts 8, 16 and 32 bits. -/
def sizeOk (a k : Nat) (read write : Bool) : Bool :=
  let w := a / 4 * 4
  if isAperture a then k == 4 || k == 8
  else if k = 4 then true
  else if k = 8 then isPair a write
  else if k = 1 ∨ k = 2 then
    (match rowOf w with
      | none => true
      | some r =>
        if r.base = A.twbRdbuf 0 0 ∨ r.base = A.leCalendar 0 then !write
        else if r.base = A.crcData 0 then !read
        else false)
  else false

/-- The access is aligned to its size (R292); the pair OUT_STn_CNT_REC, whose low word lies at an odd multiple of 4, is accepted there. -/
def aligned (a k : Nat) : Bool := a % k == 0 || (k == 8 && a % 4 == 0 && isPair a false)

/-- A write to an RWS field of a block whose commit waits (R302). -/
def State.isStaged (s : State) (a : Nat) : Bool :=
  match rowOf (a / 4 * 4) with
  | some r => r.rws != 0 && (match s.blockOf (a / 4 * 4) with
    | some b => (s.waiting b).isSome
    | none => false)
  | none => false

/-- The first check of R297 that an access of stall `t` at a global address fails, as its status (Table 13.6); 0 with none. -/
def State.check (s : State) (prov : Bool) (t a k : Nat) (read write : Bool) : Nat :=
  let src := decide (0x684000 ≤ a) && decide (a < 0x685800)
  if !inBlock a then 1
  else if s.pagePerm prov t a < (if write then 2 else 1) then 2
  else if !s.assigned t a || (src && write && !s.writesSource t (inst a 0x684000 8)) then 2
  else if t ≠ 0 ∧ ((read && ownerOnly a false) || (write && (ownerOnly a true || otherStl t a))) then 2
  else if !sizeOk a k read write then 3
  else if !aligned a k then 4
  else if write && s.isStaged a then 9
  else 0

/-- Stall `t` reaches page `p`: it may read it, and an instance there is assigned to it (R299). -/
def State.reachesPage (s : State) (t p : Nat) : Bool :=
  decide (1 ≤ s.pagePerm false t (p * 0x1000)) &&
    (List.range 16).any (fun k => inBlock (p * 0x1000 + k * 0x100) && s.assigned t (p * 0x1000 + k * 0x100))

/-- The pages that STL_t_WINMAP names from entry 1 on, ascending: those that the stall reaches and that not every stall reads (R299). -/
def State.winPages (s : State) (t : Nat) : List Nat :=
  (List.range 0x800).filter (fun p => s.reachesPage t p && !(List.range 8).all (fun u => s.reachesPage u p))

/-- The global address behind `a` for stall `t`; none for an unmapped window page or another stall's window (R299). What lies beyond the
windows is its own, and in no block (R7). -/
def State.globalAddr (s : State) (t a : Nat) : Option Nat :=
  if a < 0x800000 ∨ 0x1000000 ≤ a then some a
  else if (a - 0x800000) / 0x100000 ≠ t then none
  else
    let j := a / 0x1000 % 256
    if j = 0 then some (0x641000 + t * 0x1000 + a % 0x1000)
    else match ((s.winPages t).take 255)[j - 1]? with
      | some p => some (p * 0x1000 + a % 0x1000)
      | none => none

end Sys2Proof.Machine
end

