-- ==== Sys2Proof/Machine/Crc.lean ====
section
/-! DEFINITION. The check-value units (R320 to R325). -/

namespace Sys2Proof.Machine
open Sys2Proof

/-- WIDTH of a CRC configuration word, 1 to 64 (Table 14.10). -/
def crcWidth (ctl : Word) : Nat := fld ctl 5 0 + 1

/-- One bit of a byte fed into c (R320). -/
def crcBit (w poly c : Nat) (b : Bool) : Nat :=
  let top := c.testBit (w - 1)
  let c1 := 2 * c % 2 ^ w
  if top != b then c1 ^^^ poly % 2 ^ w else c1

/-- One byte fed into c, most significant bit first, or least significant first with REFIN (R320). -/
def crcByte (w poly : Nat) (refin : Bool) (c : Nat) (b : Byte) : Nat :=
  (List.range 8).foldl (fun c i => crcBit w poly c (b.toNat.testBit (if refin then i else 7 - i))) c

/-- Bytes fed into c, in order (R320). -/
def crcFeedBytes (w poly : Nat) (refin : Bool) (c : Nat) (bs : Bytes) : Nat := bs.foldl (crcByte w poly refin) c

/-- The low `w` bits of c in reverse order (R320). -/
def reflect (w c : Nat) : Nat := (List.range w).foldl (fun a i => 2 * a + (if c.testBit i then 1 else 0)) 0

/-- RESULT of a running value c (R320). -/
def crcResult (w : Nat) (refout : Bool) (xorout c : Nat) : Nat := (if refout then reflect w c else c) ^^^ xorout % 2 ^ w

/-- The 64-bit value of two words of unit registers. -/
def State.pair (s : State) (lo hi : Nat) : Nat := (s.rd hi).toNat * 2 ^ 32 + (s.rd lo).toNat

/-- Two words take a 64-bit value. -/
def State.setPair (s : State) (lo hi v : Nat) : State := (s.wr lo (wd v)).wr hi (wd (v / 2 ^ 32))

/-- The running value c of unit `k`. -/
def State.crcC (s : State) (k : Nat) : Nat := s.pair (A.crcValLo k) (A.crcValHi k)

/-- The configuration in use: that of the last INIT or context restore (R320, R322). -/
def State.crcOn (s : State) (k : Fin 16) (f : CrcUnit → CrcUnit) : State := { s with crc := vupd s.crc k f }

/-- Unit `k` absorbs bytes: c, and BYTES where they count (R320). -/
def State.crcAbsorb (s : State) (k : Fin 16) (bs : Bytes) (count : Bool) : State :=
  let u := s.crc[k]
  let s1 := s.setPair (A.crcValLo k) (A.crcValHi k) (crcFeedBytes (crcWidth u.ctl) u.poly (bit u.ctl 8) (s.crcC k) bs)
  if count then s1.wr (A.crcBytes k) (wd ((s1.rd (A.crcBytes k)).toNat + bs.length)) else s1

/-- The configuration registers of unit `k` are taken into use (R320, R322). -/
def State.crcLatch (s : State) (k : Fin 16) : State :=
  let ctl := s.rd (A.crcCtl k)
  s.crcOn k (fun u => { u with
    ctl := ctl
    poly := s.pair (A.crcPolyLo k) (A.crcPolyHi k) % 2 ^ crcWidth ctl
    xorout := s.pair (A.crcXoroutLo k) (A.crcXoroutHi k) % 2 ^ crcWidth ctl })

/-- An operation that a Lake feed under way turns away with FEED_BUSY (R324). -/
def State.crcFree (s : State) (k : Fin 16) (f : State → State) : State :=
  if (s.crc[k]).feed.isSome then s.raise (A.crcEvt k) 2 else f s

/-- INIT: c is loaded from INIT, BYTES clears, and the alive counter is fed when ALIVE_EN is 1 (R320, R323). -/
def State.crcInit (s : State) (k : Fin 16) : State :=
  s.crcFree k fun s =>
    let s1 := s.crcLatch k
    let w := crcWidth (s1.rd (A.crcCtl k))
    let s2 := (s1.setPair (A.crcValLo k) (A.crcValHi k) (s1.pair (A.crcInitLo k) (A.crcInitHi k) % 2 ^ w)).wr (A.crcBytes k) 0#32
    if s2.b (A.crcCtl k) 12 then
      let a := s2.f (A.crcAlive k) 15 0
      (s2.crcAbsorb k (leBytes 2 a) false).setF (A.crcAlive k) 15 0 (a + 1)
    else s2

/-- CRC_INIT: CRCk_CMD INIT. -/
def execCrcInit (k : Fin 16) (s : State) : Host.Outcome State Fault Refusal := .next (s.whenOn fun s => s.crcInit k)

/-- A Lake feed of unit `k` has ended with a result (Table 14.8). -/
def State.crcEnd (s : State) (k : Fin 16) (result : Nat) : State :=
  let s1 := (s.crcOn k (fun u => { u with feed := none })).wr (A.crcStatus k) (wd (result * 2 ^ 28))
  if result = 0 then s1.raise (A.crcEvt k) 0 else if result = 3 then s1 else s1.raise (A.crcEvt k) 1

/-- LAKE_FEED (R324). The unit's stall is the one that the image assigns it to, else the owner stall (R327). -/
def State.crcStart (s : State) (k : Fin 16) : State :=
  s.crcFree k fun s =>
    let a := s.pair (A.crcLakeLo k) (A.crcLakeHi k)
    let n := (s.rd (A.crcLakeLen k)).toNat
    let t := (s.crcOwner k).getD 0
    if n = 0 then s.crcEnd k 0
    else match fin? 8 t with
      | none => s.crcEnd k 1
      | some i =>
        if !s.lakeAllowed (.aperture i) false a n then s.crcEnd k 1
        else (s.crcOn k (fun u => { u with feed := some { stall := t, addr := a, len := n } })).wr (A.crcStatus k)
          (wd (s.f (A.crcStatus k) 31 28 * 2 ^ 28 + 2))

/-- CRC_LAKE_FEED: CRCk_CMD LAKE_FEED. -/
def execCrcLakeFeed (k : Fin 16) (s : State) : Host.Outcome State Fault Refusal := .next (s.whenOn fun s => s.crcStart k)

/-- A Lake feed ends early: c holds the value over the bytes fed so far, a free number of them (R324, R325). -/
def State.crcAbort (s : State) (k : Fin 16) : State :=
  match (s.crc[k]).feed with
  | none => s
  | some x =>
    let (n, s1) := s.choose x.len
    (s1.crcAbsorb k (s1.lakeRead x.addr n) true).crcEnd k 3

/-- CRC_ABORT: CRCk_CMD ABORT. -/
def execCrcAbort (k : Fin 16) (s : State) : Host.Outcome State Fault Refusal := .next (s.whenOn fun s => s.crcAbort k)

/-- CRC_LAKE_FEED_DONE: the feed completes, or ends at a codeword of its range that has an uncorrectable error; `ecc` gives the
outcomes of the codewords read (R250, R324). -/
def execCrcLakeFeedDone (k : Fin 16) (ecc : List (Nat × Ecc)) (s : State) : Host.Outcome State Fault Refusal :=
  .next (s.whenOn fun s =>
    match (s.crc[k]).feed with
    | none => s
    | some x =>
      let r := s.fetchLake x.addr x.len ecc
      (r.2.crcAbsorb k (s.lakeRead x.addr r.1) true).crcEnd k (if r.1 < x.len then 2 else 0))

/-- A write of CRCk_DATA of 1, 2 or 4 bytes (`size` 0, 1 or 2) at byte `o` of the word (R321). -/
def State.crcData (s : State) (k : Fin 16) (o size : Nat) (v : Nat) : State :=
  s.crcFree k fun s => if o % 2 ^ size = 0 ∧ o + 2 ^ size ≤ 4 then s.crcAbsorb k (leBytes (2 ^ size) v) true else s

/-- CRC_DATA_WRITE. -/
def execCrcDataWrite (k : Fin 16) (o : Fin 4) (size : Fin 3) (v : Word) (s : State) : Host.Outcome State Fault Refusal :=
  .next (s.whenOn fun s => s.crcData k o size v.toNat)

/-- A write of c (R322): the configuration written with it is in use from then on, so that a restored unit continues as it was. -/
def State.crcVal (s : State) (k : Fin 16) (v : Nat) : State :=
  s.crcFree k fun s =>
    let s1 := s.crcLatch k
    s1.setPair (A.crcValLo k) (A.crcValHi k) (v % 2 ^ crcWidth (s1.rd (A.crcCtl k)))

/-- CRC_VAL_WRITE: a 64-bit write of CRCk_VAL. -/
def execCrcValWrite (k : Fin 16) (v : BitVec 64) (s : State) : Host.Outcome State Fault Refusal :=
  .next (s.whenOn fun s => s.crcVal k v.toNat)

/-- A write of CRCk_CTL: c is masked to the new width (R320). -/
def State.crcWriteCtl (s : State) (k : Fin 16) (v : Word) : State :=
  s.crcFree k fun s =>
    let s1 := s.wr (A.crcCtl k) (wd (v.toNat &&& 0x133F))
    s1.setPair (A.crcValLo k) (A.crcValHi k) (s1.crcC k % 2 ^ crcWidth (s1.rd (A.crcCtl k)))

/-- A write of a half (`hi`) of POLY, INIT or XOROUT of unit `k` at `a`: bits above WIDTH are ignored (R320). -/
def State.crcWriteCfg (s : State) (k : Fin 16) (a : Nat) (hi : Bool) (v : Word) : State :=
  s.crcFree k fun s =>
    let w := crcWidth (s.rd (A.crcCtl k))
    let m := if hi then w - 32 else min 32 w
    s.wr a (wd (v.toNat % 2 ^ m))

/-- A half of POLY, INIT, XOROUT or c as it reads: bits above WIDTH read 0 (R320). -/
def State.crcReadCfg (s : State) (k : Nat) (a : Nat) (hi : Bool) : Nat :=
  let w := crcWidth (s.rd (A.crcCtl k))
  (s.rd a).toNat % 2 ^ (if hi then w - 32 else min 32 w)

/-- CRCk_RESULT (R320). -/
def State.crcResultOf (s : State) (k : Fin 16) : Nat :=
  let u := s.crc[k]
  crcResult (crcWidth u.ctl) (bit u.ctl 9) u.xorout (s.crcC k)

/-- A stall reset aborts the Lake feeds of the stall's units (R325). -/
def State.crcStallReset (s : State) (t : Nat) : State :=
  forFin (fun (k : Fin 16) s => if s.crcOwner k = some t then s.crcAbort k else s) (List.range 16) s

end Sys2Proof.Machine
end

