-- ==== Sys2Proof/Machine/Scale.lean ====
section
/-! DEFINITION. Crop, binning, the horizontal and vertical scalers and the pixel formats of the output streams
(R189 to R196). -/

namespace Sys2Proof.Machine
open Sys2Proof

/-- Coefficient `t` of phase `ph` of horizontal set `set_` (R195, R211). -/
def State.hCoef (s : State) (set_ ph t : Nat) : Int :=
  let w := s.rd (A.outHCoef (set_ * 64 + ph * 4 + t / 2))
  sx 16 (fld w (16 * (t % 2) + 15) (16 * (t % 2)))

/-- Coefficient `t` of phase `ph` of vertical set `set_`. -/
def State.vCoef (s : State) (set_ ph t : Nat) : Int :=
  let w := s.rd (A.outVCoef (set_ * 32 + ph * 2 + t / 2))
  sx 16 (fld w (16 * (t % 2) + 15) (16 * (t % 2)))

/-- The settings of a stream, from a reader of its registers (values in force, or staged). -/
structure OutSet where
  tap : Nat
  en : Bool
  fmt : Nat
  chsel : Nat
  hset : Nat
  vset : Nat
  /-- B of R190. -/
  bin : Nat
  x0 : Nat
  width : Nat
  y0 : Nat
  height : Nat
  hstep : Nat
  /-- S_raw of R191. -/
  hraw : Nat
  vstep : Nat
  dec : Nat
  forced : Bool
  deriving DecidableEq, Repr

/-- The settings that a reader of the registers gives, with the substitutions of R191, R193, R194 and R196. -/
def outSet (rd : Nat → Word) (n tap : Nat) : OutSet :=
  let ctl := rd (A.outCtl n)
  let f0 := fld ctl 6 4
  let fmt := if 6 ≤ f0 then 1 else f0
  let dev := decide (tap = 5)
  let pass := dev || decide (fmt = 5)
  let b := 2 ^ fld ctl 21 20
  let hs := fld (rd (A.outHstep n)) 21 0
  let vs := fld (rd (A.outVstep n)) 21 0
  { tap := tap, en := bit ctl 0
    fmt := if dev && fmt == 0 then 1 else if dev && fmt == 2 then 3 else fmt
    chsel := fld ctl 17 16, hset := fld ctl 10 8, vset := fld ctl 14 12
    bin := if pass then 1 else b
    x0 := fld (rd (A.outCropX n)) 17 0
    width := atLeast1 (fld (rd (A.outCropW n)) 17 0)
    y0 := fld (rd (A.outCropY n)) 23 0
    height := fld (rd (A.outCropH n)) 24 0
    hstep := if pass then 65536 else clampN 65536 (2097152 / b) hs
    hraw := if pass then 65536 else max 65536 hs
    vstep := if pass then 65536 else clampN 65536 2097152 vs
    dec := atLeast1 (fld (rd (A.outDec n)) 8 0)
    forced := tap != 6 && pass && (b != 1 || decide (65536 < hs) || decide (65536 < vs) || (dev && (fmt == 0 || fmt == 2))) }

/-- Settings in force of stream `n`. -/
def State.outNow (s : State) (n : Nat) : OutSet := outSet s.rd n (s.stream n).tap
/-- Staged settings of stream `n`. -/
def State.outNext (s : State) (n : Nat) : OutSet := outSet s.shadow n (s.stream n).tap

/-- Binned columns of a crop: WB, from xa on (R189, R190). -/
def OutSet.binned (o : OutSet) (ntap : Nat) : Nat :=
  let xb := min (o.x0 + o.width) ntap
  if xb ≤ o.x0 then 0 else (xb - o.x0) / o.bin

/-- N of R191: from the field's raw value, where S itself is held to 32 / B; a value below 1.0 counts as 1.0 here too (assumption 90). -/
def OutSet.cols (o : OutSet) (ntap : Nat) : Nat := o.binned ntap * 65536 / o.hraw

/-- Bytes per column of a format in a group of `ch` channels (Table 9.2). -/
def pixBytes (fmt ch : Nat) : Nat :=
  if fmt = 0 then 1 else if fmt = 1 then 2 else if fmt = 2 then 3 else if fmt = 3 then 6 else if fmt = 4 then 8 else 2 * ch

/-- The record format in force of stream `n`: the image's highest format until a negotiated one has taken effect (R203). -/
def State.recFmt (s : State) (n : Fin 16) : Nat := if (s.out[n]).recfmt = 0 then (s.stream n).format else (s.out[n]).recfmt

/-- The largest record that settings can form (R209). -/
def OutSet.recMax (o : OutSet) (recfmt ntap ch : Nat) : Nat :=
  headBytes recfmt + (o.cols ntap * pixBytes o.fmt ch + 3) / 4 * 4 + 4

/-- Binning of one channel (R190). -/
def binCols (b : Nat) : Nat → List Nat → List Nat
  | 0, _ => []
  | k + 1, l => (rdiv (Int.ofNat ((l.take b).foldl (· + ·) 0)) b).toNat :: binCols b k (l.drop b)

/-- One output column of the horizontal scaler, from WB binned columns (R191). The numerator of p is over 2^17. -/
def hColumn (h : Nat → Nat → Int) (a : Array Nat) (wb step k : Nat) : Nat :=
  let p : Int := Int.ofNat ((2 * k + 1) * step) - 65536
  let u0 := ashr p 17
  let ph0 := (rshr (p - u0 * 131072) 13).toNat
  let u : Int := if ph0 = 16 then u0 + 1 else u0
  let ph := ph0 % 16
  let acc := (List.range 8).foldl (fun (acc : Int) t =>
    let j := (clampI 0 (Int.ofNat wb - 1) (u - 3 + Int.ofNat t)).toNat
    acc + h ph t * Int.ofNat (a.getD j 0)) 0
  satU 16 (rshr acc 14)

/-- HPOS0 in u18.14 (Table 9.4): xa + p(0) × B + (B − 1)/2. -/
def OutSet.hpos0 (o : OutSet) : Nat :=
  Int.toNat (Int.ofNat (o.x0 * 16384) + rdiv ((Int.ofNat o.hstep - 65536) * Int.ofNat o.bin) 8 + Int.ofNat ((o.bin - 1) * 8192))

/-- An input line cropped, binned and scaled horizontally under the settings in force when it reaches the tap. -/
def State.hLine (s : State) (o : OutSet) (y : Nat) (l : TapLine) : HLine :=
  let w := (l.chans.headD []).length
  let wb := o.binned w
  let n := o.cols w
  let scaled := l.chans.map (fun c =>
    let b := if o.bin = 1 then (c.drop o.x0).take wb else binCols o.bin wb (c.drop o.x0)
    if o.tap = 5 ∨ o.fmt = 5 then b
    else (List.range n).map (hColumn (s.hCoef o.hset) b.toArray wb o.hstep))
  { tag := l.tag, y := y, flags := l.flags, cols := scaled, x0 := o.x0, hpos0 := o.hpos0, hstep := o.bin * o.hstep, chsel := o.chsel }

/-- The vertical position q of output line `m`, over 2^17 (R192), and its line v with its phase. -/
def OutSet.vPos (o : OutSet) (m : Nat) : Int × Nat × Nat :=
  let q : Int := Int.ofNat (o.y0 * 131072 + (2 * m + 1) * o.vstep) - 65536
  let v0 := (ashr q 17).toNat
  let ph0 := (rshr (q - Int.ofNat v0 * 131072) 13).toNat
  (q, if ph0 = 16 then v0 + 1 else v0, ph0 % 16)

/-- The line of number `y` among window lines of one frame. -/
def lineAt (ls : List HLine) (y : Nat) : Option HLine := ls.find? (fun l => l.y == y)

/-- One column of the vertical scaler. -/
def vColumn (v : Nat → Int) (xs : List Nat) : Nat :=
  satU 16 (rshr ((xs.mapIdx (fun t x => v t * Int.ofNat x)).foldl (· + ·) 0) 14)

/-- The output line `m` of a frame from its window lines, `ylast` being the last (R192, R208). -/
def State.vLine (s : State) (o : OutSet) (ls : List HLine) (ylast m : Nat) (recfmt : Nat) : Option OLine :=
  let (q, v, ph) := o.vPos m
  let anchorY := clampN o.y0 ylast (rshr q 17).toNat
  match lineAt ls anchorY with
  | none => none
  | some a =>
    let taps := (List.range 4).filterMap (fun t =>
      lineAt ls (clampI (Int.ofNat o.y0) (Int.ofNat ylast) (Int.ofNat v - 1 + Int.ofNat t)).toNat)
    let n := (a.cols.headD []).length
    let pass := decide (o.tap = 5) || o.fmt == 5
    let mix := taps.any (fun l => l.tag.gen != a.tag.gen)
    let flags := taps.foldl (fun f l => f ||| l.flags) (if mix then 128 else 0)
    let cols := if pass then a.cols else
      (List.range a.cols.length).map (fun c =>
        let rows := taps.map (fun l => let r := l.cols.getD c []; (r.toArray, r.getLastD 0))
        (List.range n).map (fun i => vColumn (s.vCoef o.vset ph) (rows.map (fun r => r.1.getD i r.2))))
    some { line := { a with cols := cols }, flags := flags, m := m, vpos := Int.toNat (rshr q 9), vstep := o.vstep,
           fmt := o.fmt, recfmt := recfmt }

/-- Bytes of one output column (Table 9.2). -/
def pixel (fmt chsel ch : Nat) (x : Nat → Nat) : Bytes :=
  let b8 := fun (c : Nat) => [BitVec.ofNat 8 (min 255 (rdiv (Int.ofNat (x c)) 256).toNat)]
  let b16 := fun (c : Nat) => leBytes 2 (x c)
  if fmt = 0 then b8 chsel else if fmt = 1 then b16 chsel
  else if fmt = 2 then b8 0 ++ b8 1 ++ b8 2
  else if fmt = 3 then b16 0 ++ b16 1 ++ b16 2
  else if fmt = 4 then b16 0 ++ b16 1 ++ b16 2 ++ b16 3
  else (List.range ch).flatMap b16

/-- The payload of a line record: its columns in order, padded to a multiple of 4 bytes (R196). -/
def pixels (fmt chsel : Nat) (cols : List (List Nat)) : Bytes :=
  let as := cols.map (·.toArray)
  let n := (cols.headD []).length
  padTo 4 ((List.range n).flatMap (fun i => pixel fmt chsel cols.length (fun c => (as.getD c #[]).getD i 0)))

end Sys2Proof.Machine
end

