-- ==== Sys2Proof/Machine/Tally.lean ====
section
/-! DEFINITION. The Tally: what it gathers, and statistics records (R181 to R186). -/

namespace Sys2Proof.Machine
open Sys2Proof

/-- The tap code of a measuring point field; 5 to 7 are treated as 4 (Table 8.12). -/
def pointOf (v : Nat) : Nat := min v 4

/-- HPT, PPT and RPT of a TAL_Gg_CTL value. -/
def hpt (ctl : Word) : Nat := pointOf (fld ctl 6 4)
/-- The profile point. -/
def ppt (ctl : Word) : Nat := pointOf (fld ctl 10 8)
/-- The ROI point. -/
def rpt (ctl : Word) : Nat := pointOf (fld ctl 14 12)

/-- Enabled ROIs of group `g` with their four words. -/
def State.rois (s : State) (g : Nat) : List (Nat × List Nat) :=
  ((List.range 256).filter (fun r => s.b (A.talRoiw0 g r) 31)).map (fun r => (r, [(s.rd (A.talRoiw0 g r)).toNat,
    (s.rd (A.talRoiw1 g r)).toNat, (s.rd (A.talRoiw2 g r)).toNat, (s.rd (A.talRoiw3 g r)).toNat]))

/-- The points, windows and ROIs in force, whose change a record reports (R183). -/
def State.talView (s : State) (g : Nat) : Nat × Nat × Nat × List (Nat × List Nat) :=
  ((s.rd (A.talCtl g)).toNat &&& 0x7770, s.f (A.talHx0 g) 17 0, s.f (A.talHx1 g) 17 0, s.rois g)

/-- The points, windows or ROIs of group `g` may have changed since state `s0`: the next record says so (R183). -/
def State.noteTal (s : State) (s0 : State) (g : Fin 12) : State :=
  if s.talView g = s0.talView g then s else s.onTally g (fun x => { x with changed := true })

/-- A waiting TAL_ commit takes effect (R183). -/
def State.talTake (s : State) (g : Fin 12) : State := (s.takeStaged (A.talCommit g)).noteTal s g

/-- At the first line of a frame in the chain: a waiting TAL_ commit takes effect and the frame's gathering begins under the
values in force (R183). -/
def State.tallyBegin (s : State) (g : Fin 12) (t : LineTag) : State :=
  if (s.tally[g]).accs.any (fun a => a.info.frame == t.frame) then s
  else
    let s1 := if s.commitDue (A.talCommit g) true then s.talTake g else s
    if !s1.b (A.talCtl g) 0 then s1
    else
      let found := ((s1.grp[g]).infos.find? (fun i => i.frame == t.frame)).getD
        { frame := t.frame, gen := t.gen, sgens := [], late := false, first := t }
      let info := { found with first := t }
      let rois := s1.rois g
      let ch := (s1.group g).channels
      let nb := (s1.tapWidth g (ppt (s1.rd (A.talCtl g))) + 63) / 64
      let acc : TallyAcc := {
        info := info, ctl := s1.rd (A.talCtl g), hx0 := s1.f (A.talHx0 g) 17 0, hx1 := s1.f (A.talHx1 g) 17 0, rois := rois,
        changed := (s1.tally[g]).changed, hist := List.replicate ch (List.replicate 256 0)
        prof := List.replicate ch (List.replicate nb 0), profN := List.replicate nb 0
        roi := rois.map (fun _ => { n := 0, s1 := List.replicate ch 0, s2 := List.replicate ch 0 }) }
      s1.onTally g (fun x => { x with accs := x.accs ++ [acc], changed := false })

/-- The gathering of a frame of which no line entered the chain begins with its marker or at the group's reset, under the tags of its first
trigger (R71, R184). -/
def State.tallyOpen (s : State) (g : Fin 12) (frame : Nat) : State :=
  match (s.grp[g]).infos.find? (fun i => i.frame == frame) with
  | some i => s.tallyBegin g { i.first with frame := frame }
  | none => s

/-- A frame's gathering changes. -/
def State.onAcc (s : State) (g : Fin 12) (frame : Nat) (f : TallyAcc → TallyAcc) : State :=
  s.onTally g (fun x => { x with accs := x.accs.map (fun a => if a.info.frame = frame then f a else a) })

/-- A u32 count that saturates. -/
def sat32 (n : Nat) : Nat := min n 0xFFFFFFFF

/-- Samples of a list from `lo` to `hi`, both included. -/
def window (lo hi : Nat) (l : List Nat) : List Nat := (l.drop lo).take (hi + 1 - lo)

/-- A histogram with further samples (R182). -/
def histAdd (h : List Nat) (xs : List Nat) : List Nat :=
  xs.foldl (fun h x => updAt h (x / 256) (fun n => sat32 (n + 1))) h

/-- Sums of the 64-column bands of one channel (R182). -/
def bandSums : Nat → List Nat → List Nat
  | 0, _ => []
  | k + 1, l => match l with
    | [] => []
    | _ => (l.take 64).foldl (· + ·) 0 :: bandSums k (l.drop 64)

/-- Sizes of the 64-column bands of `n` columns. -/
def bandSizes (n : Nat) : List Nat := (List.range ((n + 63) / 64)).map (fun j => min 64 (n - 64 * j))

/-- Sum of two lists, position by position, the longer one's rest kept. -/
def addLists : List Nat → List Nat → List Nat
  | [], b => b
  | a, [] => a
  | x :: a, y :: b => (x + y) :: addLists a b

/-- A line carries FILL or PART (R181). -/
def unmeasured (flags : Nat) : Bool := flags.testBit 2 || flags.testBit 3

/-- Counts of the eight line flags of Table 9.5 with one more line (R182). -/
def countFlags (flags : Nat) (l : List Nat) : List Nat :=
  l.mapIdx (fun i n => if flags.testBit i then sat32 (n + 1) else n)

/-- The number of a line in its frame, which does not wrap, from the running line counts (R28). -/
def TallyAcc.lineOf (a : TallyAcc) (t : LineTag) : Nat := (t.count + 2 ^ 48 - a.info.first.count) % 2 ^ 48

/-- The gathering of a frame with a line at a tap. -/
def TallyAcc.addLine (a : TallyAcc) (tap : Nat) (l : TapLine) : TallyAcc :=
  let skip := unmeasured l.flags
  let w := (l.chans.headD []).length
  let a1 : TallyAcc :=
    if hpt a.ctl ≠ tap then a
    else
      if skip then a
      else { a with
        lines := sat32 (a.lines + 1)
        hist := a.hist.mapIdx (fun c h => histAdd h (window a.hx0 (min a.hx1 (w - 1)) (l.chans.getD c [])))
        satHi := a.satHi.mapIdx (fun c n => sat32 (n + (l.chans.getD c []).countP (· == 65535))) }
  let a2 : TallyAcc :=
    if ppt a.ctl ≠ tap || skip then a1
    else { a1 with
      prof := (List.range (max a1.prof.length l.chans.length)).map (fun c =>
        addLists (a1.prof.getD c []) (bandSums ((w + 63) / 64) (l.chans.getD c [])))
      profN := addLists a1.profN (bandSizes w) }
  if rpt a.ctl ≠ tap then a2
  else
    let y := a.lineOf l.tag
    let b : TallyAcc := { a2 with last := max a2.last (y + 1) }
    if skip then b
    else { b with
      roi := b.roi.mapIdx (fun i r =>
        let ws := (a.rois.getD i (0, [])).2
        let x0 := ws.getD 0 0 % 2 ^ 18
        let x1 := x0 + ws.getD 1 0 % 2 ^ 18
        let y0 := ws.getD 2 0 % 2 ^ 24
        let y1 := y0 + ws.getD 3 0 % 2 ^ 24
        if y < y0 ∨ y1 < y then r
        else
          let xs := l.chans.map (window x0 (min x1 (w - 1)))
          { n := r.n + (xs.headD []).length
            s1 := r.s1.mapIdx (fun c v => v + (xs.getD c []).foldl (· + ·) 0)
            s2 := r.s2.mapIdx (fun c v => v + (xs.getD c []).foldl (fun t x => t + x * x) 0) }) }

/-- A line of group `g` passes a tap and is measured (R181, R182). -/
def State.tallyTap (s : State) (g : Fin 12) (tap : Nat) (l : TapLine) : State :=
  s.onAcc g l.tag.frame (fun a => a.addLine tap l)

/-- The flags of a line are counted once, where it leaves stitching: a stitched line carries those of its sensor lines with ALIGN and GEN_MIX
(R180, R182). -/
def State.tallyFlags (s : State) (g : Fin 12) (l : TapLine) : State :=
  s.onAcc g l.tag.frame (fun a => { a with flags := countFlags l.flags a.flags, long := a.long || l.tag.long })

/-- The counts that the chain gives with a line before stitching: SAT_IN per channel and bypasses (R182). -/
def State.tallyChain (s : State) (g : Fin 12) (frame flags : Nat) (satIn byp : List Nat) (conv : Bool) : State :=
  s.onAcc g frame (fun a => { a with
    satIn := if unmeasured flags then a.satIn else a.satIn.mapIdx (fun c n => sat32 (n + satIn.getD c 0))
    byp := a.byp.mapIdx (fun c n => sat32 (n + byp.getD c 0))
    conv := a.conv || conv })

/-- The first line of a later frame has passed the points before or after stitching: earlier frames end there (R184). -/
def State.tallyEnds (s : State) (g : Fin 12) (frame : Nat) (post : Bool) : State :=
  let s := if post && (s.tally[g]).accs.isEmpty then
      s.onGrp g (fun x => { x with infos := x.infos.filter (fun i => !isLater 32 frame i.frame) }) else s
  s.onTally g (fun x => { x with accs := x.accs.map (fun a =>
    if isLater 32 frame a.info.frame then (if post then { a with endPost := true } else { a with endPre := true }) else a) })

/-- The truncation marker of a frame has passed: its gathering ends with L (R184). -/
def State.tallyMarker (s : State) (g : Fin 12) (t : LineTag) (cause : Nat) (post : Bool) : State :=
  s.onAcc g t.frame (fun a =>
    let b : TallyAcc := { a with trunc := some (a.trunc.getD (t.line, cause, t.count)) }
    if post then { b with endPost := true } else { b with endPre := true })

/-- Every point in use has been passed by the end of the frame; the flags are counted after stitching (R182, R184). -/
def TallyAcc.ended (a : TallyAcc) : Bool :=
  a.endPost && [hpt a.ctl, ppt a.ctl, rpt a.ctl].all (fun p => if p < 2 then a.endPre else a.endPost)

/-- Some SGEN of the group differed from G for the frame (R179). -/
def TallyAcc.mixed (a : TallyAcc) (springs : List Nat) : Bool := springs.any (fun n => a.info.sgens.getD n 0 != a.info.gen)

/-! The record (R185). -/

/-- A mean in u16.8: Σx / n rounded once. -/
def mean8 (s1 n : Nat) : Nat := if n = 0 then 0 else min 0xFFFFFF (rdiv (Int.ofNat (s1 * 256)) n).toNat

/-- A population variance in u24.8, from exact sums. -/
def var8 (s1 s2 n : Nat) : Nat :=
  if n = 0 then 0 else min 0xFFFFFFFF (rdiv (Int.ofNat (256 * (n * s2 - s1 * s1))) (n * n)).toNat

/-- Profile block: band j, channel c. -/
def TallyAcc.profBlock (a : TallyAcc) (ch : Nat) : Bytes :=
  (List.range a.profN.length).flatMap (fun j => (List.range ch).flatMap (fun c =>
    leBytes 4 (mean8 ((a.prof.getD c []).getD j 0) (a.profN.getD j 0))))

/-- ROI block. -/
def TallyAcc.roiBlock (a : TallyAcc) (ch : Nat) : Bytes :=
  (a.rois.mapIdx (fun i r =>
    let acc := a.roi.getD i {}
    let y1 := r.2.getD 2 0 % 2 ^ 24 + r.2.getD 3 0 % 2 ^ 24
    let short := decide (a.last ≤ y1)
    let empty := acc.n == 0
    [BitVec.ofNat 8 r.1, BitVec.ofNat 8 ((if short then 1 else 0) + (if empty then 2 else 0)), 0#8, 0#8]
      ++ leBytes 4 (sat32 acc.n)
      ++ (List.range 4).flatMap (fun c => if c < ch then
          leBytes 4 (mean8 (acc.s1.getD c 0) acc.n) ++ leBytes 4 (var8 (acc.s1.getD c 0) (acc.s2.getD c 0) acc.n)
        else leBytes 8 0) ++ leBytes 8 0)).flatten

/-- Counts block (Table 8.5): the flags in the table's order, in which GEN_MIX stands before TNR_CONV. -/
def TallyAcc.countBlock (a : TallyAcc) : Bytes :=
  (List.range 4).flatMap (fun c => leBytes 4 (a.satIn.getD c 0) ++ leBytes 4 (a.satHi.getD c 0) ++ leBytes 4 (a.byp.getD c 0))
    ++ [0, 1, 2, 3, 4, 5, 7, 6].flatMap (fun i => leBytes 4 (a.flags.getD i 0)) ++ leBytes 48 0

/-- The payload of the statistics record of a frame (Tables 8.4 and 8.5). `seam` holds the words of the SEAM block. -/
def TallyAcc.payload (a : TallyAcc) (g ch : Nat) (springs : List Nat) (dropped : Nat) (seam : List Word) : Bytes :=
  let blk := fld a.ctl 21 16
  let bar := decide (g < 4)
  let on := fun (i : Nat) => blk.testBit i && (i != 4 || bar)
  let gen := (List.range 32).flatMap (fun n => leBytes 2 (a.info.sgens.getD n 0))
  let parts : List (Nat × Bytes) := [
    (0, gen), (1, a.hist.flatMap (fun h => h.flatMap (leBytes 4))), (2, padTo 64 (a.profBlock ch)),
    (3, padTo 64 (a.roiBlock ch)), (4, padTo 64 (seam.flatMap (fun w => leBytes 4 w.toNat))), (5, a.countBlock)]
  let body := (parts.filter (fun p => on p.1)).flatMap (fun p => padTo 64 p.2)
  let f := a.info.first
  let t := a.trunc
  let mixed := a.mixed springs
  let flags := (if t.isSome then 1 else 0) + (if f.opening then 2 else 0) + (if a.long then 4 else 0) + (if f.synth then 8 else 0)
    + (if mixed then 16 else 0) + (if a.conv then 32 else 0) + (if a.reset then 64 else 0) + (if a.info.late then 128 else 0)
    + (if a.changed then 256 else 0)
  let blocks := (List.range 6).foldl (fun v i => if on i then v + 2 ^ i else v) 0
  leBytes 2 1 ++ leBytes 1 g ++ leBytes 1 ch ++ leBytes 4 a.info.frame ++ leBytes 2 a.info.gen ++ leBytes 2 blocks
    ++ leBytes 4 flags ++ leBytes 4 ((t.map (·.1)).getD 0) ++ leBytes 4 (sat32 dropped) ++ leBytes 4 a.lines
    ++ leBytes 2 a.profN.length ++ leBytes 2 a.rois.length ++ leBytes 8 f.count ++ leBytes 8 f.time ++ leBytes 8 f.pos
    ++ leBytes 1 f.epoch ++ leBytes 1 (f.tb % 4 + f.wp % 4 * 4) ++ leBytes 2 0 ++ leBytes 4 (64 + body.length) ++ body

/-- Statistics streams of group `g` (code 6 of Table 9.1). -/
def State.statStreams (s : State) (g : Nat) : List Nat :=
  (List.range 16).filter (fun n => let r := s.stream n; r.exists_ && r.group == g && (r.stats || r.tap == 6))

/-- The seam measurements of a bar's frame are complete: none is pending (R184). -/
def State.seamDone (s : State) (g : Nat) (frame : Nat) : Bool :=
  match fin? 4 g with
  | none => true
  | some b =>
    let x := s.seam[b]
    !(x.meas.any (fun m => m.frame == frame)) && !(x.done_.any (fun m => m.frame == frame))

/-- Geometry in force, per position. -/
def State.geometry (s : State) (b : Nat) : List Word :=
  (s.order b).flatMap (fun n => [wd n, s.rd (A.seamOfs n), s.rd (A.seamMag n), s.rd (A.seamDly n)])

/-- The SEAM block of a frame no line of which was stitched: each seam is open or held with no line measured, and its residuals
stand as they were last reported. -/
def State.seamNone (s : State) (b : Nat) : List Word :=
  (List.range ((s.group b).springs.length - 1)).flatMap (fun k =>
    let q := s.rd (A.seamBarsQual b k)
    [s.rd (A.seamBarsResXy b k), s.rd (A.seamBarsResM b k),
      wd ((q.toNat &&& 0x3FF00000) + (if bit q 18 then 2 ^ 18 else 2 ^ 17)), 0#32]) ++ s.geometry b

/-- Words of the SEAM block of a frame. -/
def State.seamWords (s : State) (g frame : Nat) : List Word :=
  match fin? 4 g with
  | none => []
  | some b => ((s.seam[b]).results.lookup frame).getD (s.seamNone b)

/-- Lines dropped from a frame truncated at the line with the running count `from_`: the triggers (or reference lines) from it to the frame's
end (R71); none while the frame lasts. -/
def State.droppedOf (s : State) (g : Fin 12) (frame from_ : Nat) : Option Nat :=
  let infos := (s.grp[g]).infos
  match infos.find? (fun i => i.frame == frame) with
  | none => some 0
  | some _ =>
    match infos.find? (fun j => j.frame == (frame + 1) % 2 ^ 32) with
    | some j => some ((j.first.count + 2 ^ 48 - from_ % 2 ^ 48) % 2 ^ 48)
    | none => if (s.grp[g]).active then none else some (((s.grp[g]).count + 2 ^ 48 - from_ % 2 ^ 48) % 2 ^ 48)

/-- The DROPPED field of a record, none while it is not known. -/
def State.accDropped (s : State) (g : Fin 12) (a : TallyAcc) : Option Nat :=
  match a.trunc, a.dropped with
  | none, _ => some 0
  | some _, some d => some d
  | some (_, _, c), none => s.droppedOf g a.info.frame c

/-- Fill of a Tally assembly pond (R313). -/
def statFill (l : List StatRec) : Nat := l.foldl (fun a r => a + (r.bytes.length + 63) / 64 * 64) 0

end Sys2Proof.Machine
end

