-- ==== Sys2Proof/Machine/Outputs.lean ====
section
/-! DEFINITION. Output streams: lines at the taps, output lines, line records, discards and truncation records
(R187 to R211). -/

namespace Sys2Proof.Machine
open Sys2Proof

/-- Stream `n` carries statistics records (tap 6, or the image says so). -/
def State.isStats (s : State) (n : Nat) : Bool := (s.stream n).stats || (s.stream n).tap == 6

/-- Streams of group `g` at tap `tap`, statistics streams aside. -/
def State.tapStreams (s : State) (g tap : Nat) : List Nat :=
  (List.range 16).filter (fun n => (s.stream n).exists_ && (s.stream n).group == g && (s.stream n).tap == tap && !s.isStats n)

/-- EN in force of stream `n`. -/
def State.outOn (s : State) (n : Nat) : Bool := (s.stream n).exists_ && s.b (A.outCtl n) 0

/-! Output ponds. -/

/-- Bytes that packets take in an SRAM pond (R313). -/
def recFill (l : List Rec) : Nat := l.foldl (fun a r => a + (r.bytes.length + 63) / 64 * 64) 0

/-- Size of the output pond of stream `n`. -/
def State.outSize (s : State) (n : Nat) : Nat := s.sramSize (s.stream n).pond

/-- A record of `len` bytes has room in the output pond of stream `n`, as its framer sees it (R315, R316). -/
def State.outRoom (s : State) (n : Fin 16) (len : Nat) : Bool :=
  decide (recFill (s.out[n]).pond + s.unseen (s.stream n).pond + (len + 63) / 64 * 64 ≤ s.outSize n)

/-- Records of frames that finish under the old structure are still to come from stream `n` (R42). -/
def State.oldToCome (s : State) (n : Fin 16) : Bool :=
  let g := if s.passing then (s.sic.old.streams.getD n {}).group else (s.stream n).group
  let x := s.out[n]
  ((fin? 12 g).map s.oldLines).getD false || x.pend.any (fun p => s.oldFrame g p.frame) || x.formed.any (fun o => s.oldFrame g o.line.tag.frame) || x.lines.any (fun l => s.oldFrame g l.tag.frame) ||
    (s.isStats n && (match fin? 12 g with
      | some i => (s.tally[i]).accs.any (fun a => s.oldFrame g a.info.frame) || (s.tally[i]).closed.any (fun r => s.oldFrame g r.frame)
      | none => false))

/-- After a swap that affects stream `n`, ALIVE starts at 0 with its first record of a new frame, or with a telemetry record that no record
of an old frame follows (R42, R202). -/
def State.restartAlive (s : State) (n : Fin 16) (type frame : Nat) : State :=
  if (s.out[n]).aliveRestart && !(if type = 4 then s.oldToCome n else s.oldFrame (s.stream n).group frame) then
    s.onOut n (fun x => { x with aliveRestart := false, alive := 0 })
  else s

/-- ALIVE of the next record of stream `n` (R202, Table 9.8). -/
def State.nextAlive (s : State) (n : Fin 16) : Nat := if (s.out[n]).aliveRestart && !s.oldToCome n then 0 else (s.out[n]).alive

/-- The running line count from which DROPPED counts when a record is lost: of a truncation record, its own (R204). -/
def Rec.fromCount (r : Rec) : Option Nat := match r.cover with
  | some c => c.1
  | none => some r.tag.count

/-- The last frame that a record covers. -/
def Rec.lastFrame (r : Rec) : Nat := ((r.cover).map (·.2)).getD r.tag.frame

/-- A completed record enters the output pond: its notice, ALIVE, the counters (R197, R202); `cover` is what a truncation record covers. -/
def State.enterRecord (s0 : State) (n : Fin 16) (h : RecHdr) (t : LineTag) (payload : Bytes) (cover : Option (Option Nat × Nat) := none) :
    State :=
  let s := s0.restartAlive n h.type t.frame
  let x := s.out[n]
  let v := s.notice (s.stream n).pond
  let r : Rec := { bytes := s.recordBytes n x.alive h t payload, type := h.type, tag := { t with line := h.line },
                   alive := x.alive, seen := v.1, cover := cover }
  let s1 := v.2.onOut n (fun x => { x with pond := x.pond ++ [r], alive := (x.alive + 1) % 65536 })
  let fill := recFill (s1.out[n]).pond
  ((s1.inc64 (A.outCntRecLo n) (A.outCntRecHi n) 1).peak (A.outPeak n) fill).peak (A.pndpPeak (s.stream n).pond) fill

/-! Truncation records (R204). -/

/-- The running line count at which the frame after `f` begins, once frame `f` has ended at the tap of stream `n`. -/
def State.frameEnd (s : State) (n : Fin 16) (f : Nat) : Option Nat := ((s.out[n]).ends.lookup f).map (·.2)

/-- The last line of frame `f` that reached the tap of stream `n`. -/
def State.lastOf (s : State) (n : Fin 16) (f : Nat) : Option LineTag :=
  let x := s.out[n]
  match x.tapTag with
  | some t => if t.frame = f then some t else (x.ends.lookup f).bind (·.1)
  | none => (x.ends.lookup f).bind (·.1)

/-- DROPPED: the input lines from a running line count to another, saturating; 0 while only statistics records were lost (R204). -/
def linesFrom (c : Option Nat) (stop : Nat) : Nat := match c with
  | some c => min 0xFFFFFFFF ((stop + 2 ^ 48 - c % 2 ^ 48) % 2 ^ 48)
  | none => 0

/-- A truncation becomes pending, or merges into the one that is, of which the first frame and line stand. `count` is the running line count
of its LINE, none for a discarded statistics record. It is complete at once where the last frame that it covers has ended at the tap
(R204). -/
def State.makePend (s : State) (n : Fin 16) (frame line : Nat) (count : Option Nat) (cause : Nat) : State :=
  let x := s.out[n]
  match x.pend with
  | none =>
    s.onOut n (fun x => { x with pend := some {
      frame := frame, line := line, last := frame, cause := cause, count := count, fmt := s.recFmt n, tag := s.lastOf n frame
      dropped := (s.frameEnd n frame).map (linesFrom count) } })
  | some p =>
    let last := if isLater 32 frame p.last then frame else p.last
    let first := isLater 32 p.frame frame || (p.frame == frame && (match p.count, count with
      | some c, some d => isLater 48 c d
      | _, _ => false))
    let from_ := if first then count else match p.count with
      | some c => some c
      | none => count
    s.onOut n (fun x => { x with pend := some { p with
      frame := if first then frame else p.frame, line := if first then line else p.line
      tag := if first then s.lastOf n frame else p.tag
      last := last, merged := true, count := from_
      dropped := if last = p.last ∧ cause = 5 then p.dropped else (s.frameEnd n last).map (linesFrom from_) } })

/-- The last frame that the pending truncation covers has ended at the tap, where the next frame's running count is `at_`:
DROPPED is exact (R204). -/
def State.completePend (s : State) (n : Fin 16) (at_ : Nat) : State :=
  s.onOut n (fun x => { x with pend := x.pend.map (fun p => match p.dropped with
    | some _ => p
    | none => { p with dropped := some (linesFrom p.count at_) }) })

/-- Length of a truncation record. -/
def truncLen (fmt : Nat) : Nat := headBytes fmt + 16

/-- Enter the pending truncation record if it is complete and has room: whether none stands in the way any more. -/
def State.enterPend (s : State) (n : Fin 16) : Bool × State :=
  match (s.out[n]).pend with
  | none => (true, s)
  | some p => match p.dropped with
    | none => (false, s)
    | some d =>
      if !s.outRoom n (truncLen p.fmt) then (false, s)
      else
        let t : LineTag := match p.tag with
          | some t => t
          | none => { frame := p.frame }
        let flags := (if t.long then 256 else 0) + (if t.opening then 512 else 0) + (if t.synth then 1024 else 0)
          + (if p.tag.isNone then 4096 else 0) + (if p.merged then 8192 else 0)
        let h : RecHdr := { type := 3, fmt := p.fmt, line := p.line, flags := flags, x0 := s.f (A.outCropX n) 17 0 }
        let s1 := s.enterRecord n h t (leBytes 4 d ++ leBytes 4 p.last ++ leBytes 4 p.cause) (some (p.count, p.last))
        (true, ((s1.onOut n (fun x => { x with pend := none })).inc (A.outCntTrunc n)).raise (A.outEvt n) 0)

/-- A complete pending truncation record enters the output pond, unless records of its frame are still to be completed: those come
before it (R204). -/
def State.tryPend (s : State) (n : Fin 16) : State :=
  match (s.out[n]).pend with
  | none => s
  | some p =>
    let lines := (s.out[n]).formed.any (fun o => !isLater 32 o.line.tag.frame p.frame)
    let stats := s.isStats n && (match fin? 12 (s.stream n).group with
      | none => false
      | some g => (s.tally[g]).closed.any (fun r => r.todo.contains n.val && !isLater 32 r.frame p.frame)
          || (s.tally[g]).accs.any (fun a => !isLater 32 a.info.frame p.frame))
    if lines || stats then s else (s.enterPend n).2

/-- TRUNCATION_RECORD_ENTER: a complete pending truncation record enters the output pond as soon as it can (R204). -/
def execTruncationRecordEnter (n : Fin 16) (s : State) : Host.Outcome State Fault Refusal :=
  .next (s.whenOn fun s => s.tryPend n)

/-! Lines at a tap. -/

/-- The number of a line in its frame, beyond 2^24 for a long frame (R173). -/
def lineNo (t : LineTag) : Nat := t.line + (if t.long then 2 ^ 24 else 0)

/-- The running line count of the first line of the frame of a line of group `g`. -/
def State.frameBase (s : State) (g : Nat) (t : LineTag) : Nat :=
  match (fin? 12 g).bind (fun g => (s.grp[g]).infos.find? (fun i => i.frame == t.frame)) with
  | some i => i.first.count
  | none => (t.count + 2 ^ 48 - lineNo t % 2 ^ 48) % 2 ^ 48

/-- The number of a line in its frame, which does not wrap (R28). -/
def State.lineIn (s : State) (g : Nat) (t : LineTag) : Nat := (t.count + 2 ^ 48 - s.frameBase g t) % 2 ^ 48

/-- Output line `m` of the frame at the tap can be formed (R192): `v` is in the window and present, and line v + 2 has
arrived or the frame has ended. -/
def Stream.formable (x : Stream) (o : OutSet) : Bool :=
  match x.lines.getLast?, x.tapTag with
  | some l, some t =>
    let v := (o.vPos x.m).2.1
    decide (v ≤ l.y) && (x.endedFrame == some t.frame || decide (v + 2 ≤ x.tapY))
  | _, _ => false

/-- Form the next kept output line of the frame at the tap (R192, R193). -/
def State.formLine (s : State) (n : Fin 16) : State :=
  let x := s.out[n]
  let o := s.outNow n
  if !x.formable o then s
  else
    let ylast := match x.lines.getLast? with
      | some l => l.y
      | none => 0
    let next := x.m + o.dec
    let v := (o.vPos next).2.1
    let rest := x.lines.filter (fun l => decide (v ≤ l.y + 1) || l.y == ylast)
    let s1 := s.onOut n (fun x => { x with m := next, lines := rest })
    match s.vLine o x.lines ylast x.m (s.recFmt n) with
    | none => s1
    | some l => s1.onOut n (fun x => { x with formed := x.formed ++ [l] })

/-- Form every output line that can be formed. -/
def State.formAll : Nat → Fin 16 → State → State
  | 0, _, s => s
  | k + 1, n, s => if (s.out[n]).formable (s.outNow n) then State.formAll k n (s.formLine n) else s

/-- OUTPUT_LINE_FORM: the next output line of stream `n` is formed (R192). -/
def execOutputLineForm (n : Fin 16) (s : State) : Host.Outcome State Fault Refusal :=
  .next (s.whenOn fun s => s.underStream n ((s.out[n]).tapFrame.getD 0) fun s => s.formLine n)

/-- The frame at the tap has ended: its remaining output lines are formed with the clamp of R192. -/
def State.endAtTap (s : State) (n : Fin 16) : State :=
  match (s.out[n]).tapFrame with
  | none => s
  | some f =>
    let s1 := s.onOut n (fun x => { x with endedFrame := some f })
    s1.formAll ((s1.out[n]).lines.length + 1) n

/-- The FMT_FORCED event when a commit makes the status bit 1 (R194). -/
def State.noteForced (s : State) (n : Fin 16) (before : Bool) : State :=
  if !before && (s.outNow n).forced then s.raise (A.outEvt n) 5 else s

/-- The output pond of stream `n` is too small for the largest record that the written settings could form: a commit is refused (R209). -/
def State.outRefused (s : State) (n : Fin 16) : Bool :=
  let r := s.stream n
  let need := (s.outNext n).recMax (s.recFmt n) (s.tapWidth r.group r.tap) (s.group r.group).channels
  !s.isStats n && decide (s.outSize n < need + 128)

/-- A waiting commit of stream `n` at a frame boundary: the check of R209, then the written fields. -/
def State.outCommitFrame (s : State) (n : Fin 16) : State :=
  if s.outRefused n then (s.refuseCommit (A.outCommit n) 1).raise (A.outEvt n) 3
  else (s.takeStaged (A.outCommit n)).noteForced n (s.outNow n).forced

/-- A waiting commit of stream `n` while its group is not active, if it is not refused: the output lines whose anchors have reached the tap are formed under the
values before it (R208); a stream that it disables ends with them, and the last frame that a pending truncation covers has ended (R204). -/
def State.outCommitIdle (s : State) (n : Fin 16) : State :=
  let s1 := (if s.outRefused n then s else s.endAtTap n).outCommitFrame n
  if s.outOn n && !s1.outOn n then
    match fin? 12 (s.stream n).group with
    | some g => s1.completePend n (s.grp[g]).count
    | none => s1
  else s1

/-- Registers and CTL bits that a line-boundary commit of a stream puts into force at once (R208). -/
def State.outCommitLine (s : State) (n : Fin 16) : State :=
  match s.waiting (A.outCommit n) with
  | none => s
  | some (tag, _) =>
    if s.outRefused n then (s.refuseCommit (A.outCommit n) 1).raise (A.outEvt n) 3
    else
      let now := [A.outCropX n, A.outCropW n, A.outHstep n]
      let f := (s.outNow n).forced
      let s1 := forAll (fun a s => match s.staged.lookup a with
        | some v => s.wrK a v
        | none => s) now s
      let c := s.rd (A.outCtl n)
      let v := s.shadow (A.outCtl n)
      let c1 := setFld (setFld (setFld c 21 20 (fld v 21 20)) 17 16 (fld v 17 16)) 10 8 (fld v 10 8)
      let s2 := s1.wrK (A.outCtl n) c1
      let s3 := { s2 with
        staged := s2.staged.filter (fun e => !now.contains e.1 && !(e.1 == A.outCtl n && v == c1))
        commits := (A.outCommit n, tag, false) :: s2.commits.filter (fun e => e.1 != A.outCommit n) }
      (if (s3.written (A.outCommit n)).isEmpty then s3.takeStaged (A.outCommit n) else s3).noteForced n f

/-- The frame at the tap of stream `n` gives way to that of line `t`: its end is kept while a record or output line of it, or of a later
frame, has still to leave, and for the latest frame. -/
def State.noteEnd (s : State) (n : Fin 16) (t : LineTag) : State :=
  let g := (s.stream n).group
  match (s.out[n]).tapFrame with
  | none => s
  | some f =>
    let next := match (fin? 12 g).bind (fun g => (s.grp[g]).infos.find? (fun i => i.frame == (f + 1) % 2 ^ 32)) with
      | some i => i.first.count
      | none => s.frameBase g t
    s.onOut n (fun x =>
      let used := fun (e : Nat × Option LineTag × Nat) =>
        x.pond.any (fun r => !isLater 32 r.tag.frame e.1) || x.formed.any (fun o => !isLater 32 o.line.tag.frame e.1)
      let last := match x.tapTag with
        | some u => if u.frame = f then some u else none
        | none => none
      { x with ends := (f, last, next) :: x.ends.filter (fun e => e.1 != f && used e) })

/-- What stream `n` does at the first line of a frame at its tap, before it takes the line (R203, R204, R208). A frame that finishes under
an old structure leaves a format that was chosen since to the frames after it. -/
def State.newFrameAtTap (s : State) (n : Fin 16) (t : LineTag) : State :=
  let s1 := (s.endAtTap n).noteEnd n t
  let s2 := (s1.completePend n (s.frameBase (s.stream n).group t)).tryPend n
  let s3 := if s2.commitDue (A.outCommit n) true then s2.outCommitFrame n else s2
  let old := s3.oldFrame (s3.stream n).group t.frame
  s3.onOut n (fun x => { x with
    lines := [], m := 0, endedFrame := none, await := !s3.outOn n, tapFrame := some t.frame
    recfmt := match x.recfmtNext with
      | some f => if old then s3.recFmt n else f
      | none => s3.recFmt n
    recfmtNext := if old then x.recfmtNext else none })

/-- A line of its source reaches the tap of stream `n`: a commit on a line boundary takes effect there, in a disabled or statistics stream too
(R208); while the stream waits for a frame start, the line only leaves its tags (R204). -/
def State.streamLine (s : State) (n : Fin 16) (l : TapLine) : State :=
  let isNew := (s.out[n]).tapFrame != some l.tag.frame
  let s1 := if isNew then s.newFrameAtTap n l.tag
    else if s.commitDue (A.outCommit n) false then s.outCommitLine n else s
  if !s1.outOn n then s1
  else
    let y := s1.lineIn (s1.stream n).group l.tag
    let s2 := s1.onOut n (fun x => { x with
      tapTag := some l.tag, tapY := y
      pend := x.pend.map (fun p => if p.dropped.isNone && p.frame == l.tag.frame then { p with tag := some l.tag } else p) })
    if s1.isStats n || (s1.out[n]).await then s2
    else
      let o := s2.outNow n
      if y < o.y0 ∨ (o.height ≠ 0 ∧ o.y0 + o.height ≤ y) then s2
      else
        let h := s2.hLine o y l
        s2.onOut n (fun x => { x with lines := x.lines ++ [h] })

/-- A truncation marker of a frame at line L passes the tap of stream `n`, where it ends that frame or the one before it (R192, R204);
`t.count` is the running count of L. -/
def State.streamMarker (s : State) (n : Fin 16) (t : LineTag) (cause : Nat) : State :=
  if !s.outOn n then s
  else
    (s.endAtTap n).makePend n t.frame t.line (some t.count) cause

/-- A line of group `g` reaches tap `tap`: every stream there takes it. -/
def State.toStreams (s : State) (g tap : Nat) (l : TapLine) : State := forFin (fun n s => s.streamLine n l) (s.tapStreams g tap) s

/-- A marker of group `g` passes tap `tap`. -/
def State.markStreams (s : State) (g tap : Nat) (t : LineTag) (cause : Nat) : State :=
  forFin (fun n s => s.streamMarker n t cause) (s.tapStreams g tap) s

/-- Statistics streams of group `g`. -/
def State.statOuts (s : State) (g : Nat) : List Nat :=
  (List.range 16).filter (fun n => (s.stream n).exists_ && (s.stream n).group == g && s.isStats n)

/-- A line leaves the chain of group `g`: its statistics streams see it (R204). -/
def State.toStats (s : State) (g : Nat) (l : TapLine) : State := forFin (fun n s => s.streamLine n l) (s.statOuts g) s

/-- A marker leaves the chain of group `g`. -/
def State.markStats (s : State) (g : Nat) (t : LineTag) (cause : Nat) : State :=
  forFin (fun n s => s.streamMarker n t cause) (s.statOuts g) s

/-- A group reset ends the frame at the taps: pending records are complete, the next line's running count being `at_`. -/
def State.endPends (s : State) (g at_ : Nat) : State :=
  forFin (fun n s => (s.endAtTap n).completePend n at_)
    ((List.range 16).filter (fun n => s.outOn n && (s.stream n).group == g)) s

/-! Records. -/

/-- One line record is discarded (R205). -/
def State.dropRecord (s : State) (n : Fin 16) : State :=
  ((s.onOut n (fun x => { x with formed := x.formed.drop 1 })).inc (A.outCntDrop n)).raise (A.outEvt n) 1

/-- The line record of an output line: its header and payload. -/
def State.lineRecord (s : State) (n : Fin 16) (o : OLine) : RecHdr × Bytes :=
  let l := o.line
  let ch := if o.fmt = 0 ∨ o.fmt = 1 then 1 else if o.fmt = 2 ∨ o.fmt = 3 then 3 else if o.fmt = 4 then 4 else l.cols.length
  let sof := (s.out[n]).sofFrame != some l.tag.frame
  let flags := o.flags % 256 + (if l.tag.long then 256 else 0) + (if l.tag.opening then 512 else 0)
    + (if l.tag.synth then 1024 else 0) + (if sof then 2048 else 0)
  ({ type := 0, fmt := o.recfmt, pixfmt := o.fmt, line := l.tag.line, flags := flags, cols := (l.cols.headD []).length,
     x0 := l.x0, ch := ch, oline := o.m, hpos0 := l.hpos0, hstep := l.hstep, vpos := o.vpos, vstep := o.vstep },
    pixels o.fmt l.chsel l.cols)

/-- Stream `n` waits in a swap for the pond that old records still use (R44): its own, whose size has changed, or one that
another stream had. -/
def State.outHeld (s : State) (n : Nat) : Bool :=
  s.sic.settling.contains (.stream n) && (
    let p := (s.stream n).pond
    let o := s.sic.old.streams.getD n {}
    (o.exists_ && o.pond == p && s.sic.old.sram.lookup p != s.str.sram.lookup p) ||
    (List.range 16).any (fun m => m != n && (s.sic.old.streams.getD m {}).exists_ && (s.sic.old.streams.getD m {}).pond == p))

/-- The framer of stream `n` completes the record of its oldest output line `o`: it enters the pond, or is discarded when the
stream is one of the in-line bar and it does not fit, or waits (R197, R204, R205, R130). -/
def State.completeRecord (s : State) (n : Fin 16) (o : OLine) : State :=
  let f := o.line.tag.frame
  if (s.out[n]).discard = some f then s.dropRecord n
  else
    let s0 := s.onOut n (fun x => { x with discard := none })
    let (clear, s1) := match (s0.out[n]).pend with
      | some p => if isLater 32 f p.frame then s0.enterPend n else (true, s0)
      | none => (true, s0)
    let (h, payload) := s1.lineRecord n o
    if clear && s1.outRoom n (headBytes h.fmt + payload.length + 4) && !s1.outHeld n then
      (s1.enterRecord n h o.line.tag payload).onOut n (fun x => { x with formed := x.formed.drop 1, sofFrame := some f })
    else if s1.isInline (s.stream n).group then
      (((if s1.outHeld n then s1.waited else s1).makePend n f o.line.tag.line (some o.line.tag.count) 4).dropRecord n).onOut n (fun x => { x with discard := some f })
    else s1

/-- RECORD_COMPLETE: the framer of stream `n` completes the record of its oldest output line. -/
def execRecordComplete (n : Fin 16) (s : State) : Host.Outcome State Fault Refusal :=
  .next (s.whenOn fun s =>
    match (s.out[n]).formed with
    | [] => s
    | o :: _ => s.underStream n o.line.tag.frame fun s => s.completeRecord n o)

/-! Statistics and telemetry records. -/

/-- The oldest waiting telemetry payload of an enabled stream `n` enters as a TYPE 4 record if there is room (R207). The spec states
its time tag, on the base of the group's reference Spring; its FRAME, GEN, COUNT and POS are free. -/
def State.enterTel (s : State) (n : Fin 16) : State :=
  match (s.out[n]).tel with
  | [] => s
  | p :: rest =>
    let fmt := s.recFmt n
    if !s.outOn n || !s.outRoom n (headBytes fmt + p.length + 4) || (s.outHeld n && !s.oldToCome n) then s
    else match (s.out[n]).pend with
      | some _ => s
      | none =>
        let r := (s.group (s.stream n).group).refSpring
        let (f, s1) := s.draw
        let (g, s2) := s1.draw
        let (c, s3) := s2.draw
        let (q, s4) := s3.draw
        let t := s4.stamp r s4.now { frame := f.toNat, gen := g.toNat % 65536, count := c.toNat }
        (s4.enterRecord n { type := 4, fmt := fmt, x0 := s.f (A.outCropX n) 17 0 } { t with pos := q.toNat } (padTo 4 p)).onOut n
          (fun x => { x with tel := rest })

/-- The head statistics record of group `g` enters stream `n`, if it can: one of a new frame waits for a pond that a swap holds (R44, R184,
R206). -/
def State.enterStats (s : State) (g : Fin 12) (n : Fin 16) : State :=
  match (s.tally[g]).closed with
  | [] => s
  | r :: rest =>
    if !r.todo.contains n.val || decide (s.now < r.seen) then s
    else
      let done := fun (s : State) => s.onTally g (fun x => { x with
        closed := { r with todo := r.todo.filter (· != n.val) } :: rest })
      if !s.outOn n then done s
      else
        let fmt := s.recFmt n
        let (clear, s1) := match (s.out[n]).pend with
          | some p => if isLater 32 r.frame p.frame then s.enterPend n else (true, s)
          | none => (true, s)
        let len := headBytes fmt + r.bytes.length + 4
        if !clear || !s1.outRoom n len || (s1.outHeld n && !s1.oldFrame g r.frame) then s1
        else
          let flags := (if r.flags.testBit 1 then 512 else 0) + (if r.flags.testBit 3 then 1024 else 0)
            + (if r.flags.testBit 2 then 256 else 0)
          let h : RecHdr := { type := 1, fmt := fmt, flags := flags, x0 := s.f (A.outCropX n) 17 0 }
          done ((s1.enterRecord n h r.tag r.bytes).wr (A.outRecMax n) (wd len))

/-- A closed record that every statistics stream has dealt with leaves; REC_DONE is raised (R184). -/
def State.statsDone (s : State) (g : Fin 12) : State :=
  match (s.tally[g]).closed with
  | r :: rest =>
    if r.todo.isEmpty then
      ((s.onTally g (fun x => { x with closed := rest })).release (52 + g) ((r.bytes.length + 63) / 64 * 64)).raise (A.talEvt g) 0
    else s
  | [] => s

/-- STATS_RECORD_ENTER: the oldest closed statistics record of group `g` enters the pond of every statistics stream that
can take it (R184). -/
def execStatsRecordEnter (g : Fin 12) (s : State) : Host.Outcome State Fault Refusal :=
  .next (s.whenOn fun s =>
    match (s.tally[g]).closed with
    | [] => s
    | r :: _ => (forFin (fun n s => (s.enterStats g n).enterTel n) r.todo s).statsDone g)

/-- One round of the Line Engine in time-clock cycles: 32,768 core cycles of 1.2 GHz (R123). -/
def roundNs : Nat := 27307

/-- A statistics record of frame `f` is lost to stream `n`: STATS_LOST, and a pending truncation record of cause 5 (R206). -/
def State.loseStats (s : State) (n : Fin 16) (f : Nat) : State :=
  if s.outOn n then
    let s1 := s.makePend n f 0 none 5
    let s2 := match (s1.out[n]).pend with
      | some p => if p.count.isNone then s1.completePend n 0 else s1
      | none => s1
    (s2.inc (A.outCntDrop n)).raise (A.outEvt n) 2
  else s

/-- STATS_RECORD_CLOSE: the oldest frame of group `g` that has passed every point closes its record (R184); one that does not fit the Tally
assembly pond less 64 bytes is lost to every statistics stream (R206, R318), and one that does waits for free space in the Tally's view
(R315, R316). -/
def execStatsRecordClose (g : Fin 12) (s : State) : Host.Outcome State Fault Refusal :=
  .next (s.whenOn fun s =>
    match (s.tally[g]).accs with
    | [] => s
    | a :: rest =>
      if !a.ended || !s.seamDone g a.info.frame || (s.accDropped g a).isNone then s
      else
        let ch := (s.group g).channels
        let bytes := a.payload g ch (s.group g).springs ((s.accDropped g a).getD 0) (s.seamWords g a.info.frame)
        let v := s.notice (52 + g)
        let rec_ : StatRec := {
          frame := a.info.frame, bytes := bytes, at_ := s.now, seen := v.1, todo := s.statStreams g, tag := a.info.first
          flags := (if a.info.first.opening then 2 else 0) + (if a.info.first.synth then 8 else 0) + (if a.long then 4 else 0) }
        let size := s.sramSize (52 + g)
        let fits := decide (bytes.length + 64 ≤ size)
        if fits && decide (size < statFill (s.tally[g]).closed + s.unseen (52 + g) + up64 bytes.length) then s
        else
        let s0 := (if fits then v.2 else s).onTally g (fun x => { x with accs := rest, closed := if fits then x.closed ++ [rec_] else x.closed })
        let s1 := if fits then s0.peak (A.pndpPeak (52 + g)) (statFill (s0.tally[g]).closed)
          else forFin (fun n s => s.loseStats n a.info.frame) rec_.todo s0
        let s2 := ((s1.wr (A.talLastFrame g) (wd a.info.frame)).wr (A.talLastLen g) (wd bytes.length)).inc (A.talCntRec g)
        let s3 := if a.trunc.isSome then s2.raise (A.talEvt g) 1 else s2
        let s4 := if a.mixed (s.group g).springs then s3.raise (A.talEvt g) 2 else s3
        s4.onGrp g (fun x => { x with infos := x.infos.filter (fun i => isLater 32 i.frame a.info.frame) }))

/-- STATS_RECORD_TIMEOUT: a statistics record that has not entered stream `n` within one round of closing is discarded, with
a pending truncation record of cause 5 (R206). -/
def execStatsRecordTimeout (n : Fin 16) (s : State) : Host.Outcome State Fault Refusal :=
  .next (s.whenOn fun s =>
    match fin? 12 (s.stream n).group with
    | none => s
    | some g => match (s.tally[g]).closed with
      | [] => s
      | r :: rest =>
        if !r.todo.contains n.val || decide (s.now < r.at_ + roundNs) then s
        else
          let s1 := s.onTally g (fun x => { x with closed := { r with todo := r.todo.filter (· != n.val) } :: rest })
          (s1.loseStats n r.frame).statsDone g)

/-! Coefficient sets and the blocked test. -/

/-- Horizontal and vertical sets in force in some stream (OUT_GLB_SETUSE, R195). -/
def State.hSetUsed (s : State) (k : Nat) : Bool := (List.range 16).any (fun n => (s.stream n).exists_ && s.f (A.outCtl n) 10 8 == k)
/-- Vertical set `k` is in force in some stream. -/
def State.vSetUsed (s : State) (k : Nat) : Bool := (List.range 16).any (fun n => (s.stream n).exists_ && s.f (A.outCtl n) 14 12 == k)

/-- The owner stall writes a word of an output coefficient set: discarded with TABLE_BUSY while the set is in force (R195).
Words 0 to 511 are the horizontal sets, 512 to 767 the vertical ones. -/
def State.writeOutCoef (s : State) (k : Nat) (v : Word) : State :=
  if k < 512 then
    if s.hSetUsed (k / 64) then s.raise A.outGlbEvt 0 else s.wrK (A.outHCoef k) v
  else if s.vSetUsed ((k - 512) / 32) then s.raise A.outGlbEvt 0 else s.wrK (A.outVCoef (k - 512)) v

/-- OUT_COEF_WRITE. -/
def execOutCoefWrite (k : Fin 768) (v : Word) (s : State) : Host.Outcome State Fault Refusal :=
  .next (s.whenOn fun s => s.writeOutCoef k v)

/-- A Lake-fed group is blocked by an output pond: an enabled stream has less free space than its largest record plus 128
bytes (R130). -/
def State.pondBlocked (s : State) (g : Nat) : Bool :=
  (List.range 16).any (fun n => s.outOn n && (s.stream n).group == g && !s.isStats n && (match fin? 16 n with
    | none => false
    | some n =>
      let r := s.stream n
      let need := (s.outNow n).recMax (s.recFmt n) (s.tapWidth g r.tap) (s.group g).channels
      decide (s.outSize n < recFill (s.out[n]).pond + s.unseen r.pond + need + 128)))

end Sys2Proof.Machine
end

