-- ==== Sys2Proof/Machine/Market.lean ====
section
/-! DEFINITION. The Market: sessions, sequence numbers, resends, credits, flow control, scheduling and failover
(R217 to R238, R371 to R373, R378). A carrier is a stream or a window under drain (R229). -/

namespace Sys2Proof.Machine
open Sys2Proof

/-! Links (R212, R213). -/

/-- Links of a stream port's mode (Table 10.1). -/
def modeLinks (m : Nat) : Nat := if m = 1 then 2 else if m = 2 then 4 else 1

/-- Mode in force of stream port `p`. -/
def State.modeOf (s : State) (p : Nat) : Nat := s.portMode.toList.getD p 0

/-- Rate in Gb/s of link `l` (Table 10.1). -/
def State.linkRate (s : State) (l : Nat) : Nat := 400 / modeLinks (s.modeOf (l / 4))

/-- Link `l` exists in the mode in force and its port is enabled. -/
def State.linkExists (s : State) (l : Nat) : Bool := s.b (A.ethCtl (l / 4)) 0 && decide (l % 4 < modeLinks (s.modeOf (l / 4)))

/-- The three conditions of R213 hold for stream link `l`. -/
def State.linkOk (s : State) (l : Nat) : Bool :=
  match fin? 8 l with
  | some i => s.linkExists l && (s.links[i]).aligned && !(s.links[i]).lfault && !(s.links[i]).rfault
  | none => false

/-- Link `l` is declared down. -/
def State.linkDown (s : State) (l : Nat) : Bool :=
  match fin? 8 l with
  | some i => !(s.links[i]).up
  | none => true

/-! Carriers. -/

/-- The link code a carrier uses. -/
def usedLink (r : StreamRec) (x : Xpt) : Nat := if x.standby then r.standby.getD r.primary else r.primary

/-- The other bound link. -/
def otherLink (r : StreamRec) (x : Xpt) : Option Nat := if x.standby then some r.primary else r.standby

/-- The SESSION under which a stream sends: the session in force, or 0 with AUTOSTART (R220). -/
def State.sessionOf (s : State) (n : Nat) (x : Xpt) : Option Nat :=
  match x.session with
  | some v => some v
  | none => if s.b (A.xptCtl n) 5 then some 0 else none

/-- Neither bound link of a carrier is up (R238). -/
def State.noLink (s : State) (r : StreamRec) : Bool :=
  !s.linkOk r.primary && !(match r.standby with
    | some l => s.linkOk l
    | none => false)

/-! Resends (R224). -/

/-- SEQs put in the resend queue, in SEQ order from the mark. -/
def Xpt.requeue (x : Xpt) (qs : List Nat) : Xpt :=
  let cur := match x.tx with
    | some t => if t.gap then none else some t.seq
    | none => none
  { x with resendQ := (x.held.map (·.seq)).filter (fun q => x.resendQ.contains q || (qs.contains q && cur != some q)) }

/-- The held records that are not acknowledged and have been sent. -/
def Xpt.unackedSent (x : Xpt) : List Nat := (x.held.filter (fun h => !h.acked && h.sentAt.isSome)).map (·.seq)

/-- A gap record in the slot that has been sent is sent again, with RESEND (R224, R228). -/
def Xpt.regap (x : Xpt) : Xpt :=
  match x.gap with
  | some g => if g.sent then { x with gap := some { g with resend := true }, gapDue := true } else { x with gapDue := true }
  | none => x

/-- The record under way is abandoned: it will be sent again whole, if a window holds it (R235). With `all` every record
already sent is resent too. -/
def Xpt.restart (x : Xpt) (all : Bool) : Xpt :=
  let y := { x with tx := none }
  let y1 := if all then (y.requeue y.unackedSent).regap else y
  match x.tx with
  | none => y1
  | some t => if t.gap then y1.regap else y1.requeue [t.seq]

/-- The resends of an RTO expiry (R224). -/
def Xpt.rtoResend (x : Xpt) : Xpt := (x.requeue x.unackedSent).regap

/-- XPT_STn_RTO in time-clock cycles. -/
def State.rto (s : State) (n : Nat) : Nat := us (atLeast1 (s.f (A.xptRto n) 15 0))

/-- The record at the rewind mark, or the gap record in the slot, has gone one RTO since its last transmission ended. -/
def State.rtoDue (s : State) (n : Nat) (x : Xpt) : Bool :=
  let old := fun (t : Option Nat) => match t with
    | some t => decide (t + s.rto n ≤ s.now)
    | none => false
  let busy := fun (q : Nat) => x.resendQ.contains q || (match x.tx with
    | some t => !t.gap && t.seq == q
    | none => false)
  (match x.held with
    | h :: _ => !busy h.seq && old h.sentAt
    | [] => false) ||
  (match x.gap with
    | some g => !x.gapDue && old g.sentAt
    | none => false)

/-! Moves between links (R235 to R238). -/

/-- Carrier `k` moves to its other bound link, if that is up (R235). -/
def State.moveLink (s : State) (k : Nat) : State :=
  match s.carrier k with
  | none => s
  | some (r, x) => match otherLink r x with
    | none => s
    | some l =>
      if !s.linkOk l || l == usedLink r x then s
      else
        let y := { x.restart (r.mode != .lossy) with standby := !x.standby, failbackDue := false }
        ((s.putCarrier k y).inc (A.xptCntFailover (k % 16))).raise (A.xptEvt (k % 16)) 1

/-- NOLINK of stream `n` follows its links; the event is raised once each time neither is up (R238). -/
def State.noteNoLink (s : State) (n : Fin 16) : State :=
  let r := s.stream n
  let no := r.exists_ && s.noLink r
  let s1 := s.onXpt n (fun x => { x with noLink := no })
  if no && !(s.xpt[n]).noLink then s1.raise (A.xptEvt n) 5 else s1

/-- PTP ports 0 and 1 follow the link that LINK selects on XA and XB: down, they take FAULTY (R265). -/
def State.ptpFollow (s : State) : State :=
  forFin (fun (p : Fin 4) s =>
    let up := !s.linkDown (4 * p + s.f (A.ptpCtl p) 9 8)
    if (s.ptp[p]).linkUp = up then s else s.ptpLink p up) [0, 1] s

/-- After a change of links: streams whose link is down move, NOLINK follows, and so do PTP ports (R235, R238, R265). -/
def State.linksChanged (s : State) : State :=
  let s1 := forAll (fun k s => match s.carrier k with
    | some (r, x) => if s.linkDown (usedLink r x) then s.moveLink k else s
    | none => s) s.carriers s
  (forFin (fun n s => s.noteNoLink n) (List.range 16) s1).ptpFollow

/-- The transmit pond of a link that is down discards what it holds (R373). -/
def State.drainTx (s : State) (l : Fin 8) : State :=
  let i : Fin 22 := ⟨l.val, by omega⟩
  ({ s with netPonds := vupd s.netPonds i (fun _ => []) } : State).release (64 + l) (packFill (s.netPonds[i]))

/-- Link `l` is declared down: counted; its pauses end, and a trip of a pause watchdog in this very cycle is undone and not counted;
transmissions on it are abandoned; its streams move (R213, R235, Table 17.4). -/
def State.declareDown (s : State) (l : Fin 8) : State :=
  let a := A.ethlCntPfcWd (l.val / 4) (l.val % 4)
  let void := ((s.links[l]).trips.filter (fun t => t.2 == s.now)).map (·.1)
  let s0 := { s with power := { s.power with telDown := s.power.telDown ||| 2 ^ l.val } }
  let s0 := if void.isEmpty then s0 else s0.wr a (wd ((s0.rd a).toNat - void.length))
  let s1 := (s0.onLink l (fun x => { x with
    up := false, badFrom := none, pauses := [], trips := [], ignore := x.ignore.filter (fun z => !void.contains z.1) })).inc
      (A.ethlCntDown (l.val / 4) (l.val % 4))
  (forAll (fun k s => match s.carrier k with
    | some (r, x) => if usedLink r x = l.val then s.putCarrier k (x.restart false) else s
    | none => s) s1.carriers (s1.drainTx l)).linksChanged

/-- The conditions of R213 for link `l` may have changed: `was` tells whether they held. -/
def State.linkEval (s : State) (l : Fin 8) (was : Bool) : State :=
  let ok := s.linkOk l
  if ok && !was then (s.onLink l (fun x => { x with up := true, badFrom := none, upFrom := s.now })).linksChanged
  else if was && !ok then
    if s.linkExists l then (s.onLink l (fun x => { x with badFrom := some s.now })).linksChanged
    else if (s.links[l]).up then s.declareDown l else s
  else if !s.linkExists l && (s.links[l]).up then s.declareDown l
  else s

/-- A write of ETH_p_CTL: EN going to 1 samples MODE and brings up the port's links; EN going to 0 takes them down
(R212, Table 10.14). -/
def State.writeEthCtl (s : State) (p : Fin 4) (v : Word) : State :=
  let a := A.ethCtl p
  let w := if p.val < 2 then wd (v.toNat &&& 7) else wd (v.toNat &&& 0x37)
  let was := s.b a 0
  let ok := fun l => s.linkOk l
  let s1 := s.wrK a w
  let m := fld w 2 1
  let mode := if p.val < 2 then (if m = 3 then 0 else m) else (if m = 1 then 1 else 0)
  let s2 := if bit w 0 && !was then { s1 with portMode := vupd s1.portMode p (fun _ => mode) } else s1
  if p.val < 2 then forFin (fun (l : Fin 8) s => s.linkEval l (ok l)) [4 * p, 4 * p + 1, 4 * p + 2, 4 * p + 3] s2
  else if bit w 0 then s2
  else
    let s3 := if s.b (A.ethStatus p) 0 then { s2 with power := { s2.power with telDown := s2.power.telDown ||| 2 ^ (6 + p.val) } } else s2
    (s3.wr (A.ethStatus p) 0#32).ptpLink p false

/-- ETH_PORT_ENABLE: a write of ETH_p_CTL with EN 1 (R212). -/
def execEthPortEnable (p : Fin 4) (v : Word) (s : State) : Host.Outcome State Fault Refusal :=
  .next (s.whenOn fun s => s.writeEthCtl p (setBit v 0 true))

/-- ETH_PORT_DISABLE: a write of ETH_p_CTL with EN 0 (R212). -/
def execEthPortDisable (p : Fin 4) (v : Word) (s : State) : Host.Outcome State Fault Refusal :=
  .next (s.whenOn fun s => s.writeEthCtl p (setBit v 0 false))

/-- LINK_FAULT: the alignment and fault signals of a stream link (R213). -/
def execLinkFault (l : Fin 8) (aligned lfault rfault : Bool) (s : State) : Host.Outcome State Fault Refusal :=
  .next (s.whenOn fun s =>
    (s.onLink l (fun x => { x with aligned := aligned, lfault := lfault, rfault := rfault })).linkEval l (s.linkOk l))

/-- LINK_UP: a stream link is aligned and signals no fault (R213). -/
def execLinkUp (l : Fin 8) (s : State) : Host.Outcome State Fault Refusal :=
  .next (s.whenOn fun s =>
    (s.onLink l (fun x => { x with aligned := true, lfault := false, rfault := false })).linkEval l (s.linkOk l))

/-- LINK_DOWN: a link that has not been up for MKT_LINK_HOLD is declared down (R213). -/
def execLinkDown (l : Fin 8) (s : State) : Host.Outcome State Fault Refusal :=
  .next (s.whenOn fun s =>
    match (s.links[l]).badFrom with
    | some t => if t + us (atLeast1 (s.f A.mktLinkHold 7 0)) ≤ s.now then s.declareDown l else s
    | none => s)

/-- Carrier `k` returns to its primary link at a record boundary (R236). -/
def State.goPrimary (s : State) (k : Nat) : State :=
  match s.carrier k with
  | none => s
  | some (r, x) =>
    if x.failbackDue && x.tx.isNone then
      s.putCarrier k (if s.linkOk r.primary then { x with standby := false, failbackDue := false } else { x with failbackDue := false })
    else s

/-- FAILBACK: a stream on its standby link whose primary has been up for MKT_FAILBACK without a break returns to it at the next
boundary between two records (R236). -/
def execFailback (n : Fin 16) (s : State) : Host.Outcome State Fault Refusal :=
  .next (s.whenOn fun s =>
    let r := s.stream n
    match fin? 8 r.primary with
    | none => s
    | some l =>
      if r.exists_ && (s.xpt[n]).standby && s.b (A.xptCtl n) 6 && s.linkOk l
          && decide ((s.links[l]).upFrom + ms (s.f A.mktFailback 15 0) ≤ s.now) then
        (s.onXpt n (fun x => { x with failbackDue := true })).goPrimary n
      else s)

/-- RECEIVER_SILENCE: a stream that holds records has had no valid ACK for XPT_STn_SILENT (R237). -/
def execReceiverSilence (n : Fin 16) (s : State) : Host.Outcome State Fault Refusal :=
  .next (s.whenOn fun s =>
    let x := s.xpt[n]
    if (s.stream n).exists_ && !x.silent && (!x.held.isEmpty || x.gap.isSome)
        && decide (x.lastAck + ms (s.f (A.xptSilent n) 15 0) ≤ s.now) then
      let s1 := (s.onXpt n (fun x => { x with silent := true })).raise (A.xptEvt n) 4
      if x.standby then s1 else s1.moveLink n
    else s)

/-- A switch of stream `n` to its primary or standby link by command (R235). -/
def State.switchTo (s : State) (n : Fin 16) (standby : Bool) : State :=
  if (s.stream n).exists_ && (s.xpt[n]).standby != standby then s.moveLink n else s

/-- SWITCH_PRIMARY (R235). -/
def execSwitchPrimary (n : Fin 16) (s : State) : Host.Outcome State Fault Refusal := .next (s.whenOn fun s => s.switchTo n false)

/-- SWITCH_STANDBY (R235). -/
def execSwitchStandby (n : Fin 16) (s : State) : Host.Outcome State Fault Refusal := .next (s.whenOn fun s => s.switchTo n true)

/-! Taking records (R220 to R226, R230, R238, R372). -/

/-- Credit for a record of `len` bytes (R230). AUTOSTART without an OPEN has no credit check (R220). -/
def State.hasCredit (s : State) (n : Nat) (x : Xpt) (len : Nat) : Bool :=
  !s.b (A.xptCtl n) 4 || x.session.isNone || !isLater 64 ((x.sent + len) % 2 ^ 64) x.limit

/-- The addressing in use for a record of carrier `k`: its CTL, TAG and destination words, as they stood at its start (Table 10.10);
those of an old window as they stood at Switch (R229). -/
def State.viaWords (s : State) (k : Nat) (standby : Bool) : List Word :=
  match s.drains.find? (fun d => d.key == k) with
  | some d => if standby then d.viaS else d.viaP
  | none => s.viaNow k standby

/-- The priority of carrier `k` is paused on link `l`: that of the record under way, else of the next (R231, Table 10.10). -/
def State.paused (s : State) (k l : Nat) (x : Xpt) : Bool :=
  let w := match x.tx with
    | some t => t.via
    | none => s.viaWords k x.standby
  match fin? 8 l with
  | some i => match (s.links[i]).pauses.lookup (fld (w.getD 1 0#32) 15 13) with
    | some p => decide (s.now < p.until_)
    | none => false
  | none => false

/-- Stream `n` may take the record at the head of its pond now (R372): its notice is seen, and the stream has a session, an up link that is
not paused, a receiver that is not silent, room in its window and credit. -/
def State.canTake (s : State) (n : Fin 16) : Bool :=
  let r := s.stream n
  let x := s.xpt[n]
  match (s.out[n]).pond with
  | [] => false
  | h :: _ =>
    r.exists_ && decide (h.seen ≤ s.now) && !x.silent && (s.sessionOf n x).isSome && s.linkOk (usedLink r x) && !s.paused n (usedLink r x) x
      && (r.mode == .lossy || x.fits r.window (s.windowBytes n) (winBytes h)) && s.hasCredit n x h.bytes.length

/-- What happens at the head of the pond of stream `n` besides taking it: WIN_FULL of a reliable stream (R225), retirement for
one that is lossy under pressure (R226), and the discards of a lossy stream with no session or no link (R220, R238). -/
def State.atHead (s : State) (n : Fin 16) : State :=
  let r := s.stream n
  let x := s.xpt[n]
  match (s.out[n]).pond with
  | [] => s
  | h :: rest =>
    if !r.exists_ || decide (s.now < h.seen) then s
    else match r.mode with
      | .lossy =>
        if (s.sessionOf n x).isNone || s.noLink r then
          ((s.onOut n (fun o => { o with pond := rest })).release r.pond (recFill [h])).inc (A.xptCntUnsent n)
        else s
      | .reliable => s.noteFull n
      | .lossyPressure =>
        if (s.sessionOf n x).isNone then s
        else
          let y := x.retireFor r.window (s.windowBytes n) (winBytes h) x.held.length
          (s.onXpt n (fun _ => y)).noteRetired n x y

/-- A record is written into the window region of stream `n`: the window is a ring over the region less the gap slot, on which the
record begins `at_` bytes from the free place of the first one (R222, R225). -/
def State.writeWindow (s : State) (n at_ : Nat) (b : Bytes) : State :=
  match s.str.windowOf n with
  | none => s
  | some r =>
    let ring := ringBytes r
    if ring = 0 then s
    else
      let slot := if Config.gapSlotFirst then 192 else 0
      let o := (at_ + 64 * Config.windowStart n) % ring
      let k := min b.length (ring - o)
      (s.lakeWrite (r.base + slot + o) (b.take k)).lakeWrite (r.base + slot) (b.drop k)

/-- Stream `n` takes the record at the head of its pond: it takes its SEQ, is written to the window and counted in SENT; WIN_FULL follows
(R221, R222, R225, R230, R372). -/
def State.takeHead (s : State) (n : Fin 16) : State :=
  match (s.out[n]).pond with
  | [] => s
  | h :: rest =>
    let lossy := (s.stream n).mode == .lossy
    let s0 := if lossy then s else s.writeWindow n (s.xpt[n]).written h.bytes
    (((s0.onOut n (fun o => { o with pond := rest })).release (s.stream n).pond (recFill [h])).onXpt n (fun x => { x with
      written := if lossy then x.written else x.written + winBytes h
      seq := (x.seq + 1) % 2 ^ 32
      sent := (x.sent + h.bytes.length) % 2 ^ 64
      lastAck := if x.held.isEmpty && x.gap.isNone then s.now else x.lastAck
      held := if lossy then x.held else x.held ++ [{ seq := x.seq, record := h }]
      newQ := x.newQ ++ [(x.seq, h)] })).noteFull n

/-! Segments (R214, R218, R233, R234). -/

/-- The addressing that such words spell. -/
def State.viaOf (s : State) (n : Nat) (w : List Word) : Via :=
  let g := fun i => w.getD i 0#32
  let e := fld (g 0) 17 16
  let t := g 1
  { enc := if e = 3 then 1 else e
    tag := if bit t 16 then some (fld t 15 13 * 2 ^ 13 + fld t 11 0) else none
    dscp := fld (g 0) 23 18
    flow := s.power.devid % 2 ^ 14 * 16 + n
    mac := fld (g 2) 15 0 * 2 ^ 32 + (g 3).toNat
    ip := if e = 2 then (g 4).toNat * 2 ^ 96 + (g 5).toNat * 2 ^ 64 + (g 6).toNat * 2 ^ 32 + (g 7).toNat else (g 4).toNat
    port := fld (g 8) 15 0 }

/-- The segment size G of an addressing on link `l` (R218). -/
def State.segSize (s : State) (l : Nat) (v : Via) : Nat :=
  atLeast1 (min (s.f A.mktSeg 13 0) (s.f (A.ethMaxframe (l / 4)) 13 0 - v.around - 32) / 64 * 64)

/-- What carrier `k` transmits next, besides a new record of its pond: the record under way, the gap record, a resend, or a
record already taken (R233). An acknowledged record is not resent. -/
def State.nextTx (s : State) (k : Nat) (r : StreamRec) (x : Xpt) : Option Tx :=
  let l := usedLink r x
  let via := s.viaWords k x.standby
  let live := fun (q : Nat) => x.held.find? (fun h => h.seq == q && !h.acked)
  let under := match x.tx with
    | some t => if t.gap || r.mode == .lossy || !t.resend || (live t.seq).isSome then some t else none
    | none => none
  match under with
  | some t => some t
  | none =>
    match x.gap, x.gapDue with
    | some g, true => some { gap := true, seq := g.last, bytes := g.bytes, resend := g.resend, offset := 0, link := l, via := via }
    | _, _ =>
      match firstSome live x.resendQ with
      | some h => some { gap := false, seq := h.seq, bytes := h.record.bytes, resend := true, offset := 0, link := l, via := via }
      | none => match x.newQ with
        | (q, rec_) :: _ => some { gap := false, seq := q, bytes := rec_.bytes, resend := false, offset := 0, link := l, via := via }
        | [] => none

/-- Carrier `k` has a segment waiting on link `l`, and whether it is eligible; the frame bytes that the segment takes
(R214, R234). -/
def State.segCost (s : State) (l k : Nat) : Option (Bool × Nat) :=
  match s.carrier k with
  | none => none
  | some (r, x) =>
    let n := k % 16
    if usedLink r x ≠ l ∨ (s.sessionOf n x).isNone then none
    else
      let cost := fun (via : List Word) (left : Nat) =>
        let v := s.viaOf n via
        min (s.segSize l v) left + 32 + v.around + 20
      let open_ := !s.paused k l x
      match s.nextTx k r x with
      | some t => some (open_, cost t.via (t.bytes.length - t.offset))
      | none => match fin? 16 k with
        | none => none
        | some n => match (s.out[n]).pond with
          | [] => none
          | h :: _ => some (s.canTake n, cost (s.viaWords n x.standby) h.bytes.length)

/-- The transport header of a message (Table 10.3). -/
def State.msgHead (s : State) (kind n flags session seq rlen offset len link : Nat) : Bytes :=
  beBytes 2 0x464C ++ beBytes 1 1 ++ beBytes 1 kind ++ beBytes 2 (s.power.devid % 2 ^ 14) ++ beBytes 1 n ++ beBytes 1 flags
    ++ beBytes 4 session ++ beBytes 4 seq ++ beBytes 4 rlen ++ beBytes 4 offset ++ beBytes 2 len ++ beBytes 1 link ++ beBytes 5 0

/-- The end of the transmission of what `t` was: times for RTO; the drain's clock (R224, R229). -/
def State.txEnded (s : State) (k : Nat) (x : Xpt) (t : Tx) : State :=
  let y := { x with tx := none }
  if t.gap then
    let s1 := s.putCarrier k { y with gap := y.gap.map (fun g => { g with sentAt := some s.now }) }
    { s1 with drains := s1.drains.map (fun d => if d.key = k ∧ d.ended ∧ d.gapSent.isNone then { d with gapSent := some s.now } else d) }
  else s.putCarrier k { y with held := y.held.map (fun h => if h.seq = t.seq then { h with sentAt := some s.now } else h) }

/-- Carrier `k` hands its next segment to link `l`: it goes into the link's transmit pond; none where that has no room (R218, R371). -/
def State.sendSegment (s : State) (l : Fin 8) (k : Nat) : Option State :=
  match s.carrier k with
  | none => none
  | some (r, x) => match s.nextTx k r x with
    | none => none
    | some t =>
      let i : Fin 22 := ⟨l.val, by omega⟩
      let n := k % 16
      let fresh := decide (t.offset = 0)
      let v := s.viaOf n t.via
      let seg := (t.bytes.drop t.offset).take (s.segSize l v)
      let last := decide (t.bytes.length ≤ t.offset + seg.length)
      let flags := (if fresh then 1 else 0) + (if last then 2 else 0) + (if t.resend then 4 else 0) + (if t.gap then 8 else 0)
        + (if r.mode = .lossy then 16 else 0)
      let msg := s.msgHead 1 n flags ((s.sessionOf n x).getD 0) t.seq t.bytes.length t.offset seg.length l ++ seg
      let y := { x with
        tx := some { t with offset := t.offset + seg.length }
        gap := if t.gap then x.gap.map (fun g => { g with sent := true }) else x.gap
        gapDue := if t.gap then false else x.gapDue
        resendQ := if t.resend && !t.gap then x.resendQ.filter (· != t.seq) else x.resendQ
        newQ := if t.gap || t.resend then x.newQ else x.newQ.filter (fun e => e.1 != t.seq) }
      let f := s.encap l (s.f A.mktUdpBase 15 0 + 1 + n) v msg
      let s1 := (s.putCarrier k y).addPacket i f.length (some f)
      let s2 := if fresh && t.resend && !t.gap then s1.inc (A.xptCntResend n) else s1
      let s3 := if last then s2.txEnded k y t else s2
      if s.packRoom i f.length then some (s3.goPrimary k) else none

/-- The stall of a carrier. -/
def State.stallOf (s : State) (k : Nat) : Nat := ((s.carrier k).map (fun c => c.1.stall)).getD 0

/-- Market share of a stall, percent. -/
def State.share (s : State) (t : Nat) : Nat := (s.stallRec t).share

/-- The stream of `ks` (with costs) that stall-level service on link `l` picks: streams add WEIGHT × 1,024 per round until one
covers its segment (R234). Answers the key and the deficits. -/
def drrStream (quant : Nat → Nat) : Nat → List (Nat × Nat) → (Nat → Nat) → Option (Nat × (Nat → Nat))
  | 0, _, _ => none
  | f + 1, ks, d =>
    match ks.find? (fun e => decide (e.2 ≤ d e.1)) with
    | some e => some (e.1, fun k => if k = e.1 then d k - e.2 else d k)
    | none => drrStream quant f ks (fun k => if ks.any (fun e => e.1 == k) then d k + quant k else d k)

/-- The stall that the stall level picks: its segment cost in tenths of a byte is covered by its deficit (R234). -/
def drrStall (quant : Nat → Nat) : Nat → List (Nat × Nat) → (Nat → Nat) → Option (Nat × (Nat → Nat))
  | 0, _, _ => none
  | f + 1, ts, d =>
    match ts.find? (fun e => decide (e.2 ≤ d e.1)) with
    | some e => some (e.1, fun k => if k = e.1 then d k - e.2 else d k)
    | none => drrStall quant f ts (fun k => if ts.any (fun e => e.1 == k) then d k + quant k else d k)

/-- A list turned so that its elements above `p` come first. -/
def after (p : Nat) (l : List Nat) : List Nat := l.filter (fun x => decide (p < x)) ++ l.filter (fun x => decide (x ≤ p))

/-- The stream level within stall `t` on link `l`. -/
def State.pickStream (s : State) (l t : Nat) (cands : List (Nat × Nat)) : Option (Nat × State) :=
  let mine := cands.filter (fun e => s.stallOf e.1 == t)
  let def_ := fun k => (((s.carrier k).map (fun c => c.2.deficits)).getD []).lookup l |>.getD 0
  match drrStream (fun k => atLeast1 (s.f (A.xptCtl (k % 16)) 31 24) * 1024) 64 mine def_ with
  | none => none
  | some (k, d) =>
    some (k, forAll (fun (e : Nat × Nat) s => match s.carrier e.1 with
      | some (_, x) => s.putCarrier e.1 { x with deficits := (l, d e.1) :: x.deficits.filter (fun z => z.1 != l) }
      | none => s) mine s)

/-- Pick the carrier that link `l` serves next, with the deficits updated: a stall or stream with no segment waiting loses its own. A
round begins as soon as no deficit of a stall with a share covers its segment, so stalls without a share are served while no
other has an eligible one (R234). -/
def State.pick (s : State) (l : Fin 8) : Option Nat × State :=
  let all := s.carriers.filterMap (fun k => (s.segCost l k).map (fun c => (k, c)))
  let waiting := all.map (fun e => s.stallOf e.1)
  let s0 := (s.onLink l (fun x => { x with deficits := x.deficits.filter (fun e => waiting.contains e.1) }))
  let s1 := forAll (fun k s => match s.carrier k with
    | some (_, x) => s.putCarrier k { x with deficits := x.deficits.filter (fun e => e.1 != l.val) }
    | none => s) (s.carriers.filter (fun k => !all.any (fun e => e.1 == k))) s0
  let cands := (all.filter (fun e => e.2.1)).map (fun e => (e.1, e.2.2))
  let stalls := (List.range 8).filter (fun t => cands.any (fun e => s.stallOf e.1 == t))
  let shared := stalls.filter (fun t => decide (0 < s.share t))
  let lk := s1.links[l]
  if shared.isEmpty then
    match after lk.lastStall stalls with
    | [] => (none, s1)
    | t :: _ => match s1.pickStream l t cands with
      | some r => (some r.1, r.2.onLink l (fun x => { x with lastStall := t }))
      | none => (none, s1)
  else
    let order := (shared.filter (fun t => t == lk.lastStall)) ++ (after lk.lastStall shared).filter (fun t => t != lk.lastStall)
    let picks := order.filterMap (fun t => (s1.pickStream l t cands).map (fun r => (t, r)))
    let costs := picks.map (fun p => (p.1, 10 * ((cands.lookup p.2.1).getD 0)))
    match drrStall (fun t => s.share t * 9216) 256 costs (fun t => (lk.deficits.lookup t).getD 0) with
    | none => (none, s1)
    | some (t, d) => match picks.lookup t with
      | none => (none, s1)
      | some (k, s2) => (some k, s2.onLink l (fun x => { x with
          lastStall := t, deficits := (x.deficits.filter (fun e => !shared.contains e.1)) ++ shared.map (fun t => (t, d t)) }))

/-- Carrier `k` is served on link `l`: a new record is taken from its pond in the same decision as its first segment is scheduled; none
where the link's transmit pond has no room (R218, R371, R372). -/
def State.serveCarrier (s : State) (l : Fin 8) (k : Nat) : Option State :=
  match s.carrier k, fin? 16 k with
  | some (r, x), some n => if (s.nextTx k r x).isNone then (s.takeHead n).sendSegment l k else s.sendSegment l k
  | _, _ => s.sendSegment l k

/-- MARKET_TAKE_RECORD: the Market considers the record at the head of the pond of stream `n`: it takes it, and schedules its first segment,
if it may and the order of R234 gives the stream the next segment of its link; else the record stays in the pond (R233, R372). -/
def execMarketTakeRecord (n : Fin 16) (s : State) : Host.Outcome State Fault Refusal :=
  .next (s.whenOn fun s =>
    let s1 := s.atHead n
    let x := s1.xpt[n]
    match fin? 8 (usedLink (s.stream n) x) with
    | none => s1
    | some l =>
      if !s1.canTake n || (s1.nextTx n (s.stream n) x).isSome then s1
      else match s1.pick l with
        | (some k, s2) => if k = n.val then (s2.serveCarrier l k).getD s1 else s1
        | (none, _) => s1)

/-- SEGMENT_SEND: at a frame boundary of link `l` the scheduler picks a stream, which hands one segment to the link; a new record is taken
in the same decision. The scheduling waits for room in the link's transmit pond (R218, R233, R234, R371, R372). -/
def execSegmentSend (l : Fin 8) (s : State) : Host.Outcome State Fault Refusal :=
  .next (s.whenOn fun s =>
    if !s.linkOk l then s
    else
      let s0 := forFin (fun n s => s.atHead n)
        ((List.range 16).filter (fun n => (s.stream n).exists_ && usedLink (s.stream n) (s.xpt.toList.getD n {}) == l.val)) s
      match s0.pick l with
      | (none, s1) => s1
      | (some k, s1) => (s1.serveCarrier l k).getD s0)

/-! Received messages (R216 to R223). -/

/-- A frame arrives and is accepted on link `l` (R216). -/
def State.rxFrame (s : State) (l : Nat) : State := s.inc (A.ethlCntRx (linkPort l).1 (linkPort l).2)

/-- A message is discarded by R217. -/
def State.badMsg (s : State) : State := (s.inc A.mktCntBadmsg).raise A.mktEvt 1

/-- A frame is discarded on link `l` by R216. -/
def State.dropFrame (s : State) (l : Nat) : State := s.inc (A.ethlCntRxDrop (linkPort l).1 (linkPort l).2)

/-- A frame is addressed to link `l`, by its MAC and, over IP, by its IP address. -/
def State.toLink (s : State) (l : Nat) (src : NetSrc) : Bool :=
  src.dmac.toNat == s.linkMac l && (src.enc == 0 || src.dip == (if src.enc = 2 then s.linkIp6 l else s.linkIp4 l))

/-- A transport message addressed to link `l`: EtherType MKT_ETYPE, or UDP destination port MKT_UDP_BASE (R216). -/
def State.takesMsg (s : State) (l : Nat) (src : NetSrc) : Bool :=
  s.toLink l src && (if src.enc = 0 then src.etype.toNat == s.f A.mktEtype 15 0 else src.dport == s.f A.mktUdpBase 15 0)

/-- The source is that of the primary or standby destination of stream `n`, or of an old window of it (R217, R229). -/
def State.knownSource (s : State) (n : Nat) (src : NetSrc) : Bool :=
  ((n :: s.drainKeys n).flatMap (fun k => [(k, false), (k, true)])).any (fun b =>
    let v := s.viaOf n (s.viaWords b.1 b.2)
    (s.carrier b.1).isSome && if src.enc = 0 then v.enc == 0 && v.mac == src.mac.toNat
    else v.enc == src.enc.val && v.ip == src.ip && v.port == src.udp)

/-- The checks of R217 on the header of a received message. An OPEN of an undefined stream has no destination to be checked, and is
answered by R219. -/
def State.headOk (s : State) (src : NetSrc) (h : MsgHead) (open_ : Bool) : Bool :=
  h.magic == 0x464C && h.xver == 1 && ((open_ && !(s.stream h.stream).exists_) || s.knownSource h.stream src)

/-- Answer an OPEN with an OPEN_REPLY on its link, to its source (R219). -/
def State.openReply (s : State) (l : Nat) (src : NetSrc) (n : Nat) (session : Nat) (body : Bytes) : State :=
  let v : Via := { enc := src.enc.val, dscp := s.f (A.xptCtl n) 23 18, flow := s.power.devid % 2 ^ 14 * 16 + n,
                   tag := (s.viaOf n (s.viaWords n false)).tag, mac := src.mac.toNat, ip := src.ip, port := src.udp }
  s.sendFrame l (s.encap l (s.f A.mktUdpBase 15 0 + 1 + n) v (s.msgHead 4 n 0 session 0 0 0 0 l ++ body))

/-- MODE of a stream in an OPEN_REPLY (OUT_STn_CFG.MODE). -/
def modeCode (m : StreamMode) : Nat := match m with
  | .reliable => 0
  | .lossy => 1
  | .lossyPressure => 2

/-- OPEN_MESSAGE: an OPEN negotiates a session (R219). In a refusal nothing is chosen, so the fields of XVER and RECFMT are free;
of a stream that is not defined so are the others. -/
def execOpenMessage (l : Fin 8) (src : NetSrc) (h : MsgHead) (xmin _xmax rmin rmax : BitVec 8) (credit : BitVec 64) (s : State) :
    Host.Outcome State Fault Refusal :=
  .next (s.whenOn fun s =>
    if !s.linkOk l then s
    else if !s.takesMsg l src then s.dropFrame l
    else
      let s := s.rxFrame l
      if !s.headOk src h true then s.badMsg
      else
        let n := h.stream
        let r := s.stream n
        let x := s.xpt[n]
        let rf := min rmax.toNat r.format
        let win := if r.mode = .lossy then 0 else r.window
        let refuse := fun (res : Nat) (s : State) =>
          let (a, s1) := s.draw
          let (b, s2) := s1.draw
          let (c, s3) := s2.draw
          let (d, s4) := s3.draw
          let (e, s5) := s4.draw
          s5.openReply l src n (x.session.getD 0)
            (if res = 1 then beBytes 1 1 ++ beBytes 2 a.toNat ++ beBytes 1 (modeCode r.mode) ++ beBytes 4 x.mark ++ beBytes 8 x.sent
                ++ beBytes 4 win ++ beBytes 12 0
              else beBytes 1 res ++ beBytes 3 a.toNat ++ beBytes 4 b.toNat ++ beBytes 4 c.toNat ++ beBytes 4 d.toNat
                ++ beBytes 4 e.toNat ++ beBytes 12 0)
        if !r.exists_ then refuse 2 s
        else if 1 < xmin.toNat ∨ rf < rmin.toNat then refuse 1 s
        else
          let ses := if (x.lastSession + 1) % 2 ^ 32 = 0 then 1 else (x.lastSession + 1) % 2 ^ 32
          let y := { x.restart (r.mode != .lossy) with
            session := some ses, lastSession := ses, recfmt := rf, lastAck := s.now
            limit := if s.b (A.xptCtl n) 4 then (x.sent + credit.toNat) % 2 ^ 64 else x.limit }
          let s1 := ((s.onXpt n (fun _ => y)).onOut n (fun o => { o with recfmtNext := some rf })).raise (A.xptEvt n) 0
          s1.openReply l src n ses (beBytes 1 0 ++ beBytes 1 1 ++ beBytes 1 rf ++ beBytes 1 (modeCode r.mode) ++ beBytes 4 y.mark
            ++ beBytes 8 y.sent ++ beBytes 4 win ++ beBytes 12 0))

/-- The session of stream `n` ends: what it holds stays held, and the record under way will be sent again (R219); from its next frame
boundary no receiver selects its format (R203, R220). -/
def State.closeStream (s : State) (n : Fin 16) : State :=
  (s.onXpt n (fun x => { x.restart false with session := none })).onOut n (fun o => { o with recfmtNext := some (s.stream n).format })

/-- CLOSE_MESSAGE: a CLOSE with the session in force (R219). -/
def execCloseMessage (l : Fin 8) (src : NetSrc) (h : MsgHead) (s : State) : Host.Outcome State Fault Refusal :=
  .next (s.whenOn fun s =>
    if !s.linkOk l then s
    else if !s.takesMsg l src then s.dropFrame l
    else
      let s := s.rxFrame l
      if !s.headOk src h false then s.badMsg
      else if (s.xpt[h.stream]).session = some h.session.toNat then s.closeStream h.stream
      else s)

/-- XPT_CLOSE: XPT_STn_CMD CLOSE (R219). -/
def execXptClose (n : Fin 16) (s : State) : Host.Outcome State Fault Refusal :=
  .next (s.whenOn fun s => if (s.stream n).exists_ then s.closeStream n else s)

/-- XPT_RESEND: XPT_STn_CMD RESEND acts as an RTO expiry (R224). -/
def execXptResend (n : Fin 16) (s : State) : Host.Outcome State Fault Refusal :=
  .next (s.whenOn fun s => if (s.stream n).exists_ then s.onXpt n Xpt.rtoResend else s)

/-- RESEND_TIMEOUT: expiry of XPT_STn_RTO for the record at the mark of a stream, or, with `old`, of one of its old windows
(R224). -/
def execResendTimeout (n : Fin 16) (old : Bool) (s : State) : Host.Outcome State Fault Refusal :=
  .next (s.whenOn fun s =>
    let ks := (if old then s.drainKeys n else [n.val]).filterMap (fun k => (s.carrier k).map (fun c => (k, c.2)))
    match ks.find? (fun e => s.rtoDue n e.2) with
    | some (k, x) => s.putCarrier k x.rtoResend
    | none => s)

/-- Records earlier than CUM and those that the bitmap names become acknowledged (R223). -/
def Xpt.ack (x : Xpt) (cum : Nat) (bitmap : BitVec 64) : Xpt :=
  let named := fun (q : Nat) => isLater 32 cum q || (bitsOf 64 bitmap.toNat).any (fun i => (cum + 1 + i) % 2 ^ 32 == q)
  { x with
    held := dropAcked (x.held.map (fun h => if named h.seq then { h with acked := true } else h))
    gap := match x.gap with
      | some g => if isLater 32 cum g.last then none else some g
      | none => none
    gapDue := match x.gap with
      | some g => x.gapDue && !isLater 32 cum g.last
      | none => false
    tx := match x.tx, x.gap with
      | some t, some g => if t.gap && isLater 32 cum g.last then none else some t
      | t, _ => t }

/-- The resends of RESEND_NOW: records sent, not acknowledged, earlier than the latest SEQ that the ACK acknowledges, and not so
resent within the RTO (R224). -/
def Xpt.resendNow (x : Xpt) (cum : Nat) (bitmap : BitVec 64) (now rto : Nat) : Xpt :=
  let tops := (bitsOf 64 bitmap.toNat).map (fun i => (cum + 1 + i) % 2 ^ 32)
  let top := (tops.filter (fun q => isLater 32 x.seq q)).foldl (fun a q => if isLater 32 q a then q else a) ((cum + 2 ^ 32 - 1) % 2 ^ 32)
  let pickN := fun (h : Held) => isLater 32 top h.seq && !h.acked && h.sentAt.isSome && (match h.nowAt with
    | some t => decide (t + rto ≤ now)
    | none => true)
  let qs := (x.held.filter pickN).map (·.seq)
  let y := { x with held := x.held.map (fun h => if pickN h then { h with nowAt := some now } else h) }
  let y1 := y.requeue qs
  match y1.gap with
  | some g =>
    let again := match g.nowAt with
      | some t => decide (t + rto ≤ now)
      | none => true
    if g.sent && again && isLater 32 top g.last then
      let z := y1.regap
      { z with gap := z.gap.map (fun g => { g with nowAt := some now }) }
    else y1
  | none => y1

/-- ACK_MESSAGE: an ACK acknowledges records, moves the mark and may raise the credit limit (R220, R223, R224). One that carries
the SESSION of a window under drain reaches that window (R229). -/
def execAckMessage (l : Fin 8) (src : NetSrc) (h : MsgHead) (cum : BitVec 32) (bitmap limit : BitVec 64) (aflags : BitVec 32)
    (s : State) : Host.Outcome State Fault Refusal :=
  .next (s.whenOn fun s =>
    if !s.linkOk l then s
    else if !s.takesMsg l src then s.dropFrame l
    else
      let s := s.rxFrame l
      if !s.headOk src h false then s.badMsg
      else
        let n := h.stream.val
        let k := ((s.drainKeys n).find? (fun k => match s.carrier k with
          | some (_, x) => x.session == some h.session.toNat
          | none => false)).getD n
        match s.carrier k with
        | none => s.badMsg
        | some (r, x) =>
          let lossy := decide (r.mode = .lossy)
          if s.sessionOf n x ≠ some h.session.toNat ∨ (!lossy && isLater 32 cum.toNat x.seq) then s.inc (A.xptCntBadack n)
          else
            let y := if lossy then x
              else
                let y := x.ack cum.toNat bitmap
                if bit aflags 0 then y.resendNow cum.toNat bitmap s.now (s.rto n) else y
            let lim := if bit aflags 1 && isLater 64 limit.toNat x.limit then limit.toNat else x.limit
            (s.putCarrier k { y with limit := lim, lastAck := s.now, silent := false }).noteFull h.stream)

/-! Priority flow control (R231, R232). -/

/-- PFC_FRAME: a received PFC frame gives quanta for the priorities it enables; 0 ends a pause (R231, R232). -/
def execPfcFrame (l : Fin 8) (prios : List (Fin 8 × BitVec 16)) (s : State) : Host.Outcome State Fault Refusal :=
  .next (s.whenOn fun s =>
    if !s.linkOk l then s
    else
      let p := l.val / 4
      let i := l.val % 4
      let x := s.links[l]
      let en := prios.filter (fun e => s.b (A.ethPfc p) e.1)
      let held := fun (q : Nat) => match x.ignore.lookup q with
        | some t => decide (s.now < t)
        | none => false
      let take := en.filter (fun e => !held e.1)
      let s1 := if take.isEmpty then s else s.incF (A.ethlCntPause p i) 15 0
      let s2 := if en.any (fun e => held e.1) then s1.inc (A.ethlCntPfcIgn p i) else s1
      let rate := s.linkRate l
      let put := fun (m : List (Nat × Pause)) (e : Fin 8 × BitVec 16) =>
        let rest := m.filter (fun z => z.1 != e.1.val)
        if e.2 = 0 then rest
        else
          let f := match m.lookup e.1.val with
            | some q => if s.now < q.until_ then q.from_ else s.now
            | none => s.now
          (e.1.val, { from_ := f, until_ := s.now + (e.2.toNat * 512 + rate - 1) / rate }) :: rest
      (s2.onLink l (fun x => { x with pauses := take.foldl put x.pauses })).rxFrame l)

/-- PAUSE_QUANTA_EXPIRE: the quanta of a priority run out (R231). -/
def execPauseQuantaExpire (l : Fin 8) (q : Fin 8) (s : State) : Host.Outcome State Fault Refusal :=
  .next (s.whenOn fun s =>
    match (s.links[l]).pauses.lookup q.val with
    | some p => if p.until_ ≤ s.now then s.onLink l (fun x => { x with pauses := x.pauses.filter (fun z => z.1 != q.val) }) else s
    | none => s)

/-- PAUSE_FRAME: an IEEE 802.3 PAUSE frame is ignored and counted, and is discarded as every frame that R216 does not list (R231). -/
def execPauseFrame (l : Fin 8) (s : State) : Host.Outcome State Fault Refusal :=
  .next (s.whenOn fun s => if s.linkOk l then (s.incF (A.ethlCntPause (l.val / 4) (l.val % 4)) 31 16).dropFrame l else s)

/-- PFC_WATCHDOG: a priority paused for MKT_PFC_WD without a break resumes, and its pauses are ignored for MKT_PFC_IGN (R232). -/
def execPfcWatchdog (l : Fin 8) (q : Fin 8) (s : State) : Host.Outcome State Fault Refusal :=
  .next (s.whenOn fun s =>
    match (s.links[l]).pauses.lookup q.val with
    | some p =>
      if p.from_ + us (atLeast1 (s.f A.mktPfcWd 15 0)) ≤ s.now ∧ s.now < p.until_ then
        ((s.onLink l (fun x => { x with
          pauses := x.pauses.filter (fun z => z.1 != q.val)
          trips := (q.val, s.now) :: x.trips.filter (fun z => z.1 != q.val)
          ignore := (q.val, s.now + us (100 * atLeast1 (s.f A.mktPfcIgn 15 0))) :: x.ignore.filter (fun z => z.1 != q.val) })).inc
            (A.ethlCntPfcWd (l.val / 4) (l.val % 4))).raise A.mktEvt 0
      else s
    | none => s)

/-- PFC_IGNORE_END: after MKT_PFC_IGN the priority's pauses are honoured again (R232). -/
def execPfcIgnoreEnd (l : Fin 8) (q : Fin 8) (s : State) : Host.Outcome State Fault Refusal :=
  .next (s.whenOn fun s =>
    match (s.links[l]).ignore.lookup q.val with
    | some t => if t ≤ s.now then s.onLink l (fun x => { x with ignore := x.ignore.filter (fun z => z.1 != q.val) }) else s
    | none => s)

/-! Address resolution and echo (R215). -/

/-- A link of any port can receive: a stream link that is up, or MA or MB with its link up (R265). -/
def State.canRx (s : State) (l : Nat) : Bool :=
  if l < 8 then s.linkOk l else s.b (A.ethCtl (l - 6)) 0

/-- The frame head from link `l` to a MAC, with an EtherType. -/
def State.frameHead (s : State) (l mac etype : Nat) : Bytes := beBytes 6 mac ++ beBytes 6 (s.linkMac l) ++ beBytes 2 etype

/-- ARP_REQUEST: an ARP request (IPv4), or a neighbour solicitation (IPv6), for `target` from `src`; one for the link's own address
is answered (R215). -/
def execArpRequest (l : Fin 10) (src : NetSrc) (target : BitVec 128) (s : State) : Host.Outcome State Fault Refusal :=
  .next (s.whenOn fun s =>
    if !s.canRx l then s
    else if src.enc = 2 then
      if target.toNat ≠ s.linkIp6 l then s.dropFrame l
      else
        let me := s.linkIp6 l
        let na := beBytes 4 0x60000000 ++ beBytes 16 me ++ [2#8, 1#8] ++ beBytes 6 (s.linkMac l)
        let sum := inetSum (pseudo true me src.ip 58 (4 + na.length) ++ [136#8, 0#8, 0#8, 0#8] ++ na)
        (s.rxFrame l).sendFrame l (s.frameHead l src.mac.toNat 0x86DD
          ++ ipv6 me src.ip 0 0 255 58 ([136#8, 0#8] ++ beBytes 2 sum ++ na))
    else if target.toNat ≠ s.linkIp4 l then s.dropFrame l
    else
      (s.rxFrame l).sendFrame l (s.frameHead l src.mac.toNat 0x0806 ++ beBytes 2 1 ++ beBytes 2 0x0800 ++ [6#8, 4#8] ++ beBytes 2 2
        ++ beBytes 6 (s.linkMac l) ++ beBytes 4 (s.linkIp4 l) ++ beBytes 6 src.mac.toNat ++ beBytes 4 src.ip))

/-- ECHO_REQUEST: an echo request to the link's address, with its identifier and sequence number, is answered when its payload is
at most 1,472 bytes (R215). -/
def execEchoRequest (l : Fin 10) (src : NetSrc) (ident seq : BitVec 16) (payload : Bytes) (s : State) :
    Host.Outcome State Fault Refusal :=
  .next (s.whenOn fun s =>
    if !s.canRx l then s
    else if 1472 < payload.length ∨ s.toLink l src = false then s.dropFrame l
    else
      let rest := beBytes 2 ident.toNat ++ beBytes 2 seq.toNat ++ payload
      if src.enc = 2 then
        let me := s.linkIp6 l
        let sum := inetSum (pseudo true me src.ip 58 (4 + rest.length) ++ [129#8, 0#8, 0#8, 0#8] ++ rest)
        (s.rxFrame l).sendFrame l (s.frameHead l src.mac.toNat 0x86DD
          ++ ipv6 me src.ip 0 0 s.ttl 58 ([129#8, 0#8] ++ beBytes 2 sum ++ rest))
      else
        let sum := inetSum ([0#8, 0#8, 0#8, 0#8] ++ rest)
        (s.rxFrame l).sendFrame l (s.frameHead l src.mac.toNat 0x0800
          ++ ipv4 (s.linkIp4 l) src.ip 0 s.ttl 1 ([0#8, 0#8] ++ beBytes 2 sum ++ rest)))

/-! Windows under drain (R45, R229). -/

/-- SIC_DRAIN_TMO in time-clock cycles. -/
def State.drainTmo (s : State) : Nat := ms (clampN 1 10000 (s.rd A.sicDrainTmo).toNat)

/-- WINDOW_DRAIN_END: an old window of stream `n`, the oldest that is due, has drained for SIC_DRAIN_TMO; what it still holds goes into a gap
record with CAUSE 2 (R229). -/
def execWindowDrainEnd (n : Fin 16) (s : State) : Host.Outcome State Fault Refusal :=
  .next (s.whenOn fun s =>
    match s.drains.find? (fun d => d.stream == n.val && !d.ended && decide (d.from_ + s.drainTmo ≤ s.now)) with
    | none => s
    | some d =>
      let y := d.xpt.retire d.xpt.held.length 2
      if y.gap.isNone then { s with drains := s.drains.filter (fun e => e.key != d.key) }
      else (({ s with drains := s.drains.map (fun e => if e.key = d.key then { d with
          xpt := y, ended := true, gapSent := if y.gapDue || y.tx.isSome then none else some s.now } else e) } : State).noteRetired
        d.key d.xpt y))

/-- DRAIN_GAP_TIMEOUT: SIC_DRAIN_TMO after the first transmission of its gap record an old window stops answering (R229). -/
def execDrainGapTimeout (n : Fin 16) (s : State) : Host.Outcome State Fault Refusal :=
  .next (s.whenOn fun s =>
    match s.drains.find? (fun d => d.stream == n.val && d.ended && d.gapSent.any (fun t => decide (t + s.drainTmo ≤ s.now))) with
    | none => s
    | some d => { s with drains := s.drains.filter (fun e => e.key != d.key) })

end Sys2Proof.Machine
end

