-- ==== Sys2Proof/Machine/Stitch.lean ====
section
/-! DEFINITION. The geometry of a bar and the assembly of a stitched line (R101 to R112). -/

namespace Sys2Proof.Machine
open Sys2Proof

/-! Geometry. -/

/-- A sensor of a bar as its geometry in force places it. Delays are in 1/256 line, per channel, after the limit D_b. -/
structure Sensor where
  spring : Nat
  w : Nat
  ofs : Int
  mag : Int
  sig : Nat
  delays : List Nat
  /-- DEPTH_SAT bits. -/
  sat : Nat
  deriving DecidableEq, Repr

/-- SIG of R108: 1 / (1 + MAG) in u1.31. -/
def sigOf (mag : Int) : Nat := (rdiv (2 ^ 55) (2 ^ 24 + mag).toNat).toNat

/-- The delay d(n, c) before its limit (R103), from a reader of the registers and the sensor's delay. -/
def delayOf (rd : Nat → Word) (b n ch dly c : Nat) : Nat :=
  let cl := fun (k : Nat) => fld (rd (A.seamBarCl b k)) 17 0
  let clm := (List.range ch).foldl (fun m k => max m (cl k)) 0
  dly + (if bit (rd (A.seamCfg n)) 3 then clm - cl c else cl c)

/-- The sensor at Spring `n` of bar `b` (R102, R103). -/
def State.sensor (s : State) (b n : Nat) : Sensor :=
  let r := s.group b
  let mag := clampI (-335544) 335544 (sx 25 (s.f (A.seamMag n) 24 0))
  let ds := (List.range r.channels).map (delayOf s.rd b n r.channels (s.f (A.seamDly n) 17 0))
  { spring := n, w := s.sprCols n, ofs := sx 28 (s.f (A.seamOfs n) 27 0), mag := mag, sig := sigOf mag
    delays := ds.map (min (r.depth * 256))
    sat := (ds.mapIdx (fun c d => if r.depth * 256 < d then 2 ^ c else 0)).foldl (· + ·) 0 }

/-- The numerator of p before SIG: x − OFS + (W/2) MAG, in units of 2⁻²⁵ (R108). -/
def Sensor.num (z : Sensor) (x : Int) : Int := x * 2 ^ 25 - z.ofs * 2 ^ 17 + Int.ofNat z.w * z.mag

/-- The bar columns of `width` that a sensor covers, first and last (R108). -/
def Sensor.cover (z : Sensor) (width : Nat) : Option (Nat × Nat) :=
  let c := z.num 0
  let lo := max 0 (-(c / 2 ^ 25))
  let hi := min (Int.ofNat width - 1) ((Int.ofNat ((z.w - 1) * 2 ^ 56 / atLeast1 z.sig) - c) / 2 ^ 25)
  if lo ≤ hi then some (lo.toNat, hi.toNat) else none

/-- Sensor column and phase for a bar column (R108). -/
def Sensor.at (z : Sensor) (x : Int) : Int × Nat :=
  let p := z.num x * Int.ofNat z.sig
  let u := ashr p 56
  let ph := (rshr (p - u * 2 ^ 56) 48).toNat
  if ph = 256 then (u + 1, 0) else (u, ph)

/-- The 8-tap filter at sensor column `u` and phase `ph` (R108). -/
def resampleAt (coef : Array Int) (v : Array Nat) (w : Nat) (u : Int) (ph : Nat) : Nat :=
  let acc := (List.range 8).foldl (fun (a : Int) k =>
    let j := (clampI 0 (Int.ofNat w - 1) (u - 3 + Int.ofNat k)).toNat
    a + coef.getD (8 * ph + k) 0 * Int.ofNat (v.getD j 0)) 0
  satU 16 (rshr acc 14)

/-- The coefficients of a bank: phase × 8 + tap (R122). -/
def State.seamBank (s : State) (bank : Nat) : Array Int :=
  ((List.range 2048).map (fun i =>
    let w := s.rd (A.seamCoef (bank * 1024 + i / 2))
    sx 16 (fld w (16 * (i % 2) + 15) (16 * (i % 2))))).toArray

/-- The anchor position that a stitched line uses (R101). -/
def State.anchor (s : State) (b : Nat) : Nat :=
  let n := (s.group b).springs.length
  let a := s.f (A.seamBarCtl b) 12 8
  if (orderOf s.rd b (s.group b).springs).isSome && decide (a < n) then a else 0

/-- A default order is in use: DEFAULT_ORDER (R101). -/
def State.defaultOrder (s : State) (b : Nat) : Bool :=
  (orderOf s.rd b (s.group b).springs).isNone || decide ((s.group b).springs.length ≤ s.f (A.seamBarCtl b) 12 8)

/-! What each bar column takes (R110 to R112). -/

/-- Where a bar column comes from. -/
inductive ColSrc where
  /-- The contribution of the sensor at a position. -/
  | one (k : Nat)
  /-- Sensors at positions k and k + 1 with the weight of the second in 1/256. -/
  | blend (k w : Nat)
  /-- The edge of the sensor at position k: its last column, or its first. -/
  | last (k : Nat)
  | first (k : Nat)
  | zero
  deriving DecidableEq, Repr

/-- The actual overlap of two coverages. -/
def overlapOf (a b : Option (Nat × Nat)) : Option (Nat × Nat) :=
  match a, b with
  | some p, some q => if max p.1 q.1 ≤ min p.2 q.2 then some (max p.1 q.1, min p.2 q.2) else none
  | _, _ => none

/-- Width of an overlap. -/
def overlapWidth (o : Option (Nat × Nat)) : Nat := match o with
  | some p => p.2 + 1 - p.1
  | none => 0

/-- Weight of B at column `x` of an overlap from `xs`, of width `a` (R111). -/
def blendWeight (blend : Word) (xs a x : Nat) : Nat :=
  let pos := min (fld blend 8 0) (a - 1)
  let width := clampN 1 a (fld blend 25 16)
  if bit blend 31 then (if x < xs + pos then 0 else 256)
  else
    let r0 : Int := Int.ofNat (xs + pos) - Int.ofNat (width / 2)
    (clampI 0 256 (rdiv (256 * (2 * (Int.ofNat x - r0) + 1)) (2 * width))).toNat

/-- A coverage holds a column. -/
def holds (c : Option (Nat × Nat)) (x : Nat) : Bool := match c with
  | some p => decide (p.1 ≤ x) && decide (x ≤ p.2)
  | none => false

/-- Where bar column `x` comes from, given the sensors' coverages and the seams' blend words (R110 to R112). -/
def colSrc (cov : List (Option (Nat × Nat))) (blend : Nat → Word) (x : Nat) : ColSrc :=
  let n := cov.length
  let c := fun (k : Nat) => cov.getD k none
  match (List.range (n - 1)).find? (fun k => holds (overlapOf (c k) (c (k + 1))) x) with
  | some k =>
    let o := overlapOf (c k) (c (k + 1))
    .blend k (blendWeight (blend k) ((o.getD (0, 0)).1) (overlapWidth o) x)
  | none => match (List.range n).find? (fun k => holds (c k) x) with
    | some k => .one k
    | none =>
      let left := cov.foldl (fun (m : Option Nat) p => match p with
        | some q => if q.2 < x then some (max q.2 (m.getD 0)) else m
        | none => m) none
      let right := cov.foldl (fun (m : Option Nat) p => match p with
        | some q => if x < q.1 then some (min q.1 (m.getD q.1)) else m
        | none => m) none
      match left, right with
      | some l, some r =>
        (match (List.range (n - 1)).find? (fun k =>
            (holds (c k) l && holds (c (k + 1)) r) || (holds (c k) r && holds (c (k + 1)) l)) with
          | some k =>
            let a := ((c k).getD (0, 0)).2
            let b := ((c (k + 1)).getD (0, 0)).1
            let da := if x < a then a - x else x - a
            let db := if x < b then b - x else x - b
            if da ≤ db then .last k else .first (k + 1)
          | none => .zero)
      | _, _ => .zero

/-! Lines of one sensor. -/

/-- The sensor line of trigger `t − m` in a history of the bar's lines, latest first, whose latest is `ahead` triggers
before t: the part, and whether a replacement of R105 or R106 stands in. -/
def tapPart (hist : List SeamLine) (ahead m spring : Nat) : Option Part × Bool :=
  let i := m - ahead
  let above := decide (m < ahead) || decide (hist.length ≤ i)
  let l := if hist.length ≤ i then hist.getLast? else hist[i]?
  (l.bind (fun l => l.parts.find? (fun p => p.spring == spring)), above)

/-- The aligned line v(n, ·) of channel `c` of a sensor at the trigger `ahead` triggers after the latest of `hist`, with its
flags: those of the lines drawn on, ALIGN for a replacement, GEN_MIX for a generation other than `gen` (R104 to R107,
R180). -/
def Sensor.aligned (z : Sensor) (hist : List SeamLine) (ahead gen c : Nat) : List Nat × Nat :=
  let d := z.delays.getD c 0
  let f := d % 256
  let t0 := tapPart hist ahead (d / 256) z.spring
  let t1 := tapPart hist ahead (d / 256 + 1) z.spring
  let flagsOf := fun (t : Option Part × Bool) => match t.1 with
    | some p => p.flags ||| (if t.2 then 16 else 0) ||| (if p.tag.gen = gen then 0 else 128)
    | none => 0
  let xs := fun (t : Option Part × Bool) => match t.1 with
    | some p => p.chans.getD c []
    | none => []
  if f = 0 then (xs t0, flagsOf t0)
  else ((xs t0).mapIdx (fun i x => satU 16 (rshr (Int.ofNat ((256 - f) * x + f * ((xs t1).getD i 0))) 8)), flagsOf t0 ||| flagsOf t1)

/-- A stitched line, what its assembly showed of the columns, and the aligned lines of the measured channel. -/
structure Stitched where
  line : TapLine
  uncov : Nat
  overlaps : List (Option (Nat × Nat))
  sensors : List Sensor
  aligned : List (List Nat × Nat)

/-- The stitched line named after `named`, assembled at the trigger `ahead` triggers after the latest line of `hist`
(R104 to R112). -/
def State.stitch (s : State) (b : Nat) (hist : List SeamLine) (ahead : Nat) (named : SeamLine) (mch : Nat) : Stitched :=
  let r := s.group b
  let zs := (s.order b).map (s.sensor b)
  let cov := zs.map (fun z => z.cover r.width)
  let src := (List.range r.width).map (colSrc cov (fun k => s.rd (A.seamBarsBlend b k)))
  let coef := s.seamBank (s.f (A.seamBarCtl b) 1 1)
  let al := zs.map (fun z => (List.range r.channels).map (z.aligned hist ahead named.tag.gen))
  let flags := al.foldl (fun f l => l.foldl (fun f v => f ||| v.2) f) 0
  let za := zs.toArray
  let chans := (List.range r.channels).map (fun c =>
    let vs := (al.map (fun l => ((l.getD c ([], 0)).1).toArray)).toArray
    let val := fun (k : Nat) (u : Int) (ph : Nat) => match za[k]? with
      | some z => resampleAt coef (vs.getD k #[]) z.w u ph
      | none => 0
    let at_ := fun (k x : Nat) => match za[k]? with
      | some z => let p := z.at (Int.ofNat x); val k p.1 p.2
      | none => 0
    src.mapIdx (fun x q => match q with
      | .one k => at_ k x
      | .blend k w => if w = 0 then at_ k x else if w = 256 then at_ (k + 1) x
          else (rshr (Int.ofNat (at_ k x * (256 - w) + at_ (k + 1) x * w)) 8).toNat
      | .last k => (match za[k]? with
          | some z => val k (Int.ofNat z.w - 1) 0
          | none => 0)
      | .first k => val k 0 0
      | .zero => 0))
  { line := { tag := named.tag, flags := flags, chans := chans }
    uncov := src.countP (· == .zero)
    overlaps := (List.range (zs.length - 1)).map (fun k => overlapOf (cov.getD k none) (cov.getD (k + 1) none))
    sensors := zs, aligned := al.map (fun l => l.getD mch ([], 0)) }

/-- The measurement rows of a stitched line: for each seam that is not open and whose two sensor lines are sound, A over the
central M_k columns and B over the same with the search range on both sides (R113, R114). -/
def State.measureRows (s : State) (b : Nat) (st : Stitched) (line : Nat) : List MeasRow :=
  let coef := s.seamBank (s.f (A.seamBarCtl b) 1 1)
  let srx := atLeast1 (min 8 (s.f (A.seamBarSrch b) 3 0))
  (List.range st.overlaps.length).filterMap (fun k =>
    match st.overlaps.getD k none, st.sensors[k]?, st.sensors[k + 1]? with
    | some o, some za, some zb =>
      let a := o.2 + 1 - o.1
      let va := st.aligned.getD k ([], 0)
      let vb := st.aligned.getD (k + 1) ([], 0)
      if a < 16 ∨ (va.2 ||| vb.2) % 32 ≠ 0 then none
      else
        let m := min a (clampN 16 512 (s.f (A.seamBarsOvl b k) 9 0))
        let x0 := o.1 + (a - m) / 2
        let aa := va.1.toArray
        let ba := vb.1.toArray
        let get := fun (z : Sensor) (v : Array Nat) (x : Int) => let p := z.at x; resampleAt coef v z.w p.1 p.2
        some { seam := k, a := (List.range m).map (fun i => get za aa (Int.ofNat (x0 + i)))
               b := (List.range (m + 2 * srx)).map (fun i => get zb ba (Int.ofNat (x0 + i) - Int.ofNat srx)), overlap := a, line := line }
    | _, _, _ => none)

end Sys2Proof.Machine
end

