-- ==== Sys2Proof/Machine/Correction.lean ====
section
/-! DEFINITION. The arithmetic of the correction chain: spatial noise reduction, temporal noise reduction, flat field,
defect replacement, white balance, colour matrix and tone curves (R141 to R162). -/

namespace Sys2Proof.Machine
open Sys2Proof

/-! Spatial noise reduction (R143, R144). -/

/-- Settings of the spatial stage of a group. -/
structure NrPar where
  /-- S(0,0), S(1,0), S(1,1), S(2,0), S(2,1), S(2,2). -/
  s00 : Nat
  s10 : Nat
  s11 : Nat
  s20 : Nat
  s21 : Nat
  s22 : Nat
  rlut : List Nat
  shift : List Nat
  deriving DecidableEq, Repr

/-- The settings in force of group `g`. -/
def State.nrPar (s : State) (g : Nat) : NrPar :=
  let lo := fun (a : Nat) => min 256 (s.f a 8 0)
  let hi := fun (a : Nat) => min 256 (s.f a 24 16)
  { s00 := lo (A.corNrS0 g), s10 := hi (A.corNrS0 g), s11 := lo (A.corNrS1 g), s20 := hi (A.corNrS1 g)
    s21 := lo (A.corNrS2 g), s22 := hi (A.corNrS2 g)
    rlut := (List.range 8).flatMap (fun i => [lo (A.corNrR g i), hi (A.corNrR g i)])
    shift := (List.range 4).map (fun c => s.f (A.corNrShift g) (4 * c + 3) (4 * c)) }

/-- Spatial weight of a neighbour at distances `i` and `j`. -/
def NrPar.weight (p : NrPar) (i j : Nat) : Nat :=
  match max i j, min i j with
  | 0, _ => p.s00
  | 1, 0 => p.s10
  | 1, _ => p.s11
  | _, 0 => p.s20
  | _, 1 => p.s21
  | _, _ => p.s22

/-- One sample of the spatial stage: `rows` are the lines t − 2 to t + 2 of one channel, of `w` columns (R143). The columns that a neighbour
line lacks, where W(n) has changed between the two, read 0 (DESIGN CHOICE, assumption 106). -/
def NrPar.sample (p : NrPar) (c : Nat) (rows : List (Array Nat)) (w u : Nat) : Nat :=
  let x0 := (rows.getD 2 #[]).getD u 0
  let acc := rows.zipIdx.foldl (fun (acc : Nat × Nat) r =>
    (List.range 5).foldl (fun (acc : Nat × Nat) k =>
      let col := (clampI 0 (Int.ofNat w - 1) (Int.ofNat (u + k) - 2)).toNat
      let x := r.1.getD col 0
      let e := min 15 ((if x < x0 then x0 - x else x - x0) / 2 ^ p.shift.getD c 0)
      let wt := p.weight (if k < 2 then 2 - k else k - 2) (if r.2 < 2 then 2 - r.2 else r.2 - 2) * p.rlut.getD e 0
      (acc.1 + wt, acc.2 + wt * x)) acc) (0, 0)
  if acc.1 = 0 then x0 else (rdiv (Int.ofNat acc.2) acc.1).toNat

/-- The part of Spring `n` in a group line. -/
def partOf (l : GLine) (n : Nat) : Option Part := l.parts.find? (fun p => p.spring == n)

/-- The channel samples that a neighbour line lends to the centre part: its own, or the centre's where it carries FILL. -/
def nrRow (centre : Part) (l : Option GLine) (c : Nat) : List Nat :=
  match l.bind (fun l => partOf l centre.spring) with
  | some p => if p.flags.testBit 3 then centre.chans.getD c [] else p.chans.getD c []
  | none => centre.chans.getD c []

/-- Spatial noise reduction of a group line with its neighbours: the lines before, nearest first, and after (R144). A line
that is not there takes the nearest present line on its side. -/
def NrPar.line (p : NrPar) (before after : List GLine) (l : GLine) : GLine :=
  let b1 := before.head?
  let b2 := match before.drop 1 with
    | x :: _ => some x
    | [] => b1
  let a1 := after.head?
  let a2 := match after.drop 1 with
    | x :: _ => some x
    | [] => a1
  { l with parts := l.parts.map (fun q =>
      if q.flags.testBit 3 then q
      else { q with chans := q.chans.mapIdx (fun c xs =>
        let rows := [nrRow q b2 c, nrRow q b1 c, xs, nrRow q a1 c, nrRow q a2 c].map (·.toArray)
        (List.range xs.length).map (p.sample c rows xs.length)) }) }

/-! Flat field and defect replacement (R157 to R159). -/

/-- One sample of the flat-field stage, from its table entry (R157). -/
def ffSample (e : Word) (x : Nat) : Nat :=
  let dark := fld e 15 0
  if x < dark then 0 else satU 16 (rshr (Int.ofNat ((x - dark) * fld e 31 16)) 14)

/-- Flat-field correction of one part of a line of group `g`. -/
def State.ffPart (s : State) (g : Nat) (p : Part) : Part :=
  if s.b A.corFfConflict p.spring then p
  else
    let base := (s.rd (A.corFfBase p.spring)).toNat
    let bank := s.ffBank g
    let ch := p.chans.length
    { p with chans := p.chans.mapIdx (fun c xs => xs.mapIdx (fun u x => ffSample (s.tbl (ffKey bank (base + u * ch + c))) x)) }

/-- Columns of the runs that the defect table of Spring `n` names for channel `c`, clipped to `w` columns (R159). -/
def State.defectRuns (s : State) (g n c w : Nat) : List (Nat × Nat) :=
  let bank := s.defBank g
  (List.range 256).filterMap (fun e =>
    let d := s.tbl (defKey bank (256 * n + e))
    let a := fld d 14 0
    if bit d 31 && bit d (24 + c) && decide (a < w) then some (a, min (w - 1) (a + fld d 23 16)) else none)

/-- A column lies in a run. -/
def inRuns (runs : List (Nat × Nat)) (u : Nat) : Bool := runs.any (fun r => decide (r.1 ≤ u) && decide (u ≤ r.2))

/-- The nearest good column to the left of `u`, if any. -/
def goodLeft (runs : List (Nat × Nat)) : Nat → Option Nat
  | 0 => none
  | k + 1 => if inRuns runs k then goodLeft runs k else some k

/-- The nearest good column at or to the right of `u`, among `k` columns. -/
def goodRight (runs : List (Nat × Nat)) : Nat → Nat → Option Nat
  | 0, _ => none
  | k + 1, u => if inRuns runs u then goodRight runs k (u + 1) else some u

/-- Defect replacement of one channel (R159). -/
def replaceCols (runs : List (Nat × Nat)) (xs : List Nat) : List Nat :=
  if runs.isEmpty then xs
  else
    let v := xs.toArray
    let w := xs.length
    xs.mapIdx (fun u x =>
      if !inRuns runs u then x
      else match goodLeft runs u, goodRight runs (w - (u + 1)) (u + 1) with
        | some l, some r =>
          let a : Int := Int.ofNat (v.getD l 0)
          (a + rdiv ((Int.ofNat (v.getD r 0) - a) * Int.ofNat (u - l)) (r - l)).toNat
        | some l, none => v.getD l 0
        | none, some r => v.getD r 0
        | none, none => 0)

/-- Defect replacement of one part. -/
def State.defPart (s : State) (g : Nat) (p : Part) : Part :=
  { p with chans := p.chans.mapIdx (fun c xs => replaceCols (s.defectRuns g p.spring c xs.length) xs) }

/-! The stages after stitching (R160 to R162). -/

/-- The settings of the later stages, as they are with a line: WB01, WB23, CM0 to CM5, CMO0 to CMO2 and CTL (R142). -/
def State.postSet (s : State) (g : Nat) : List Word :=
  [s.rd (A.corWb01 g), s.rd (A.corWb23 g), s.rd (A.corCm0 g), s.rd (A.corCm1 g), s.rd (A.corCm2 g), s.rd (A.corCm3 g),
   s.rd (A.corCm4 g), s.rd (A.corCm5 g), s.rd (A.corCmo g 0), s.rd (A.corCmo g 1), s.rd (A.corCmo g 2), s.rd (A.corCtl g)]

/-- White balance of one sample with a u4.12 gain (R160). -/
def wbSample (gain x : Nat) : Nat := satU 16 (rshr (Int.ofNat (x * gain)) 12)

/-- WB(c) of settings. -/
def postWb (post : List Word) (c : Nat) : Nat := let w := post.getD (c / 2) 0#32; fld w (16 * (c % 2) + 15) (16 * (c % 2))

/-- M(i, j) and O(i) of settings (R161). -/
def postM (post : List Word) (i j : Nat) : Int :=
  let w := post.getD (2 + 2 * i + j / 2) 0#32
  sx 16 (fld w (16 * (j % 2) + 15) (16 * (j % 2)))
/-- O(i). -/
def postO (post : List Word) (i : Nat) : Int := sx 18 (fld (post.getD (8 + i) 0#32) 17 0)

/-- One column of the colour matrix: output channel `i` from its inputs (R161). -/
def cmSample (post : List Word) (i : Nat) (xs : List Nat) : Nat :=
  let sum := (List.range 4).foldl (fun (a : Int) j => a + postM post i j * Int.ofNat (xs.getD j 0)) (postO post i * 4096)
  satU 16 (rshr sum 12)

/-- The colour matrix of a line: channels 0 to 2 are mixed, a fourth passes (R161). -/
def colourMatrix (post : List Word) (chans : List (List Nat)) : List (List Nat) :=
  let as := chans.map (·.toArray)
  chans.mapIdx (fun i xs => if 3 ≤ i then xs else
    (List.range xs.length).map (fun u => cmSample post i (as.map (fun a => a.getD u 0))))

/-- One sample of a tone curve (R162). -/
def toneSample (l : Nat → Nat) (x : Nat) : Nat :=
  let k := x / 16
  let f := x % 16
  let hi : Int := if k = 4095 then 2 * Int.ofNat (l 4095) - Int.ofNat (l 4094) else Int.ofNat (l (k + 1))
  satU 16 (Int.ofNat (l k) + rdiv ((hi - Int.ofNat (l k)) * Int.ofNat f) 16)

/-- White balance and colour matrix, and then the tone curves, of a line of group `g` under its settings: the line after
colour and the line after tone (Table 7.1). -/
def State.postStages (s : State) (g : Nat) (post : List Word) (l : TapLine) : TapLine × TapLine :=
  let ctl := post.getD 11 0#32
  let wb := if bit ctl 4 then l.chans.mapIdx (fun c xs => xs.map (wbSample (postWb post c))) else l.chans
  let cm := if bit ctl 5 then colourMatrix post wb else wb
  let bank := fld ctl 10 10
  let tone := if bit ctl 6 then
      cm.mapIdx (fun c xs => xs.map (toneSample (fun k => (s.tbl (toneKey bank g (c * 4096 + k))).toNat)))
    else cm
  ({ l with chans := cm }, { l with chans := tone })

/-! Parts side by side. -/

/-- A group line as a tap before stitching sees it: the columns of its sensors side by side (R141). -/
def sideBySide (ch : Nat) (tag : LineTag) (flags : Nat) (parts : List Part) : TapLine :=
  { tag := tag, flags := flags, chans := (List.range ch).map (fun c => parts.flatMap (fun p => p.chans.getD c [])) }

/-- The flags of a group line: CRC, LEN, PART and FILL of its sensor lines (R69). -/
def partFlags (parts : List Part) : Nat := parts.foldl (fun f p => f ||| p.flags) 0

end Sys2Proof.Machine
end

