-- ==== Sys2Proof/Machine/Tnr.lean ====
section
/-! DEFINITION. Repeat-coherent temporal noise reduction: rows, blend and bypass, the noise and shift estimates, windows,
resets, and the commits of the correction chain (R145 to R156, R163). -/

namespace Sys2Proof.Machine
open Sys2Proof

/-! Settings. -/

/-- KW, BYP_UPD, CONV, SR and MCH of COR_Gg_TNR_CTL, as Table 7.7 treats them. -/
def State.tnrKw (s : State) (g : Nat) : Nat := clampN 1 6 (s.f (A.corTnrCtl g) 18 16)
/-- BYP_UPD. -/
def State.tnrBypUpd (s : State) (g : Nat) : Nat := min 6 (s.f (A.corTnrCtl g) 22 20)
/-- CONV. -/
def State.tnrConv (s : State) (g : Nat) : Nat := clampN 1 64 (s.f (A.corTnrCtl g) 30 24)
/-- SR. -/
def State.tnrSr (s : State) (g : Nat) : Nat := clampN 1 8 (s.f (A.corTnrCtl g) 11 8)
/-- MCH: a channel beyond CH(g) is treated as 1. -/
def State.tnrMch (s : State) (g : Nat) : Nat :=
  let c := s.f (A.corTnrCtl g) 13 12
  if c < (s.group g).channels then c else 1
/-- SHIFT in force. -/
def State.tnrShift (s : State) (g : Nat) : Int := sx 8 (s.f (A.corTnrShift g) 7 0)
/-- PITCH in force. -/
def State.tnrPitch (s : State) (g : Nat) : Nat := max 256 (s.rd (A.corTnrPitch g)).toNat

/-! Windows (R154). -/

/-- A TNR quantity: 0 SHIFT, 1 N0, 2 N1, with its channel. -/
structure TnrQty where
  q : Nat
  c : Nat
  deriving DecidableEq, Repr

/-- Value, MIN, MAX and pin of a quantity, from a reader of the registers. -/
def tnrWindow (rd : Nat → Word) (g : Nat) (x : TnrQty) : Int × Int × Int × Bool :=
  if x.q = 0 then
    let w := rd (A.corTnrShift g)
    (sx 8 (fld w 7 0), sx 8 (fld w 23 16), sx 8 (fld w 31 24), bit w 8)
  else if x.q = 1 then
    (fld (rd (A.corTnrN0 g x.c)) 23 0, fld (rd (A.corTnrN0Min g x.c)) 23 0, fld (rd (A.corTnrN0Max g x.c)) 23 0,
      bit (rd (A.corTnrPin g)) x.c)
  else
    (fld (rd (A.corTnrN1 g x.c)) 23 0, fld (rd (A.corTnrN1Min g x.c)) 23 0, fld (rd (A.corTnrN1Max g x.c)) 23 0,
      bit (rd (A.corTnrPin g)) (4 + x.c))

/-- A quantity's value and window are put into force. -/
def State.setTnrQty (s : State) (g : Nat) (x : TnrQty) (v mn mx : Int) : State :=
  if x.q = 0 then
    let w := s.rd (A.corTnrShift g)
    s.wrK (A.corTnrShift g) (setFld (setFld (setFld w 7 0 (lowBits 8 v)) 23 16 (lowBits 8 mn)) 31 24 (lowBits 8 mx))
  else if x.q = 1 then
    ((s.wrK (A.corTnrN0 g x.c) (wd (lowBits 24 v))).wrK (A.corTnrN0Min g x.c) (wd (lowBits 24 mn))).wrK (A.corTnrN0Max g x.c)
      (wd (lowBits 24 mx))
  else
    ((s.wrK (A.corTnrN1 g x.c) (wd (lowBits 24 v))).wrK (A.corTnrN1Min g x.c) (wd (lowBits 24 mn))).wrK (A.corTnrN1Max g x.c)
      (wd (lowBits 24 mx))

/-- The nine quantities. -/
def tnrQtys : List TnrQty := [⟨0, 0⟩, ⟨1, 0⟩, ⟨1, 1⟩, ⟨1, 2⟩, ⟨1, 3⟩, ⟨2, 0⟩, ⟨2, 1⟩, ⟨2, 2⟩, ⟨2, 3⟩]

/-- Registers that hold a quantity and its window. -/
def tnrRegs (g : Nat) (x : TnrQty) : List Nat :=
  if x.q = 0 then [A.corTnrShift g]
  else if x.q = 1 then [A.corTnrN0 g x.c, A.corTnrN0Min g x.c, A.corTnrN0Max g x.c]
  else [A.corTnrN1 g x.c, A.corTnrN1Min g x.c, A.corTnrN1Max g x.c]

/-- PRESSING bit of a quantity in COR_Gg_TNR_STAT. -/
def tnrPressBit (x : TnrQty) : Nat := if x.q = 0 then 0 else if x.q = 1 then 4 + x.c else 8 + x.c

/-- The PRESSING bits of bar `b` change; TNR_PRESS is raised when one becomes set (R154). -/
def State.setTnrPress (s : State) (b : Fin 4) (press : Nat) : State :=
  let old := (s.tnr[b]).press
  let s1 := s.onTnr b (fun t => { t with press := press })
  if (List.range 12).any (fun i => press.testBit i && !old.testBit i) then s1.raise (A.corEvt b) 5 else s1

/-- Bit `p` of a set of PRESSING bits is clear. -/
def clearBit (press p : Nat) : Nat := if press.testBit p then press - 2 ^ p else press

/-- The checks of R154 on a quantity that a commit wrote: a value outside its window moves the bound it crosses. -/
def State.tnrForce (s : State) (b : Fin 4) (x : TnrQty) : State :=
  let (v, mn, mx, _) := tnrWindow s.rd b x
  let mx1 := if mx < mn then mn else mx
  let mn1 := if v < mn then v else mn
  let mx2 := if mx1 < v then v else mx1
  let s1 := s.setTnrQty b x v mn1 mx2
  let s2 := if v < mn ∨ mx1 < v then
      let n := min 255 (s1.f (A.corTnrLog b) 31 24 + 1)
      (s1.wr (A.corTnrLog b) (wd (n * 2 ^ 24 + x.q * 16 + x.c * 4 + (if v < mn then 0 else 1)))).raise (A.corEvt b) 6
    else s1
  s2.onTnr b (fun t => { t with
    updates := t.updates.map (fun u => { u with vals := u.vals.filter (fun e => !(e.1 == x.q && e.2.1 == x.c)) })
    ended := t.ended.map (fun e => { e with drop := (x.q, x.c) :: e.drop })
    press := clearBit t.press (tnrPressBit x) })

/-! Commits of the correction chain. -/

/-- A waiting commit of group `g` would put into force a bank that its load port is still filling (R163). -/
def State.loadBusy (s : State) (g : Fin 12) : Bool :=
  let p := s.load[g]
  let table := fld p.ctl 17 16
  p.active && loadMode p.ctl != 2 && decide (table < 3) &&
    (if bit (s.shadow (A.corCtl g)) (8 + table) then 1 else 0) == fld p.ctl 12 12

/-- A waiting commit of the chain of group `g` takes effect or is refused with LOAD_BUSY; at a frame start it discards what the frame before
has gathered of the quantities that it writes, as well as updates that have not come into force (R154, R155, R163). -/
def State.corTake (s : State) (g : Fin 12) (start : Bool) : State :=
  if s.loadBusy g then (s.refuseCommit (A.corCommit g) 1).raise (A.corEvt g) 4
  else
    let written := (s.written (A.corCommit g)).map (·.1)
    let s1 := s.takeStaged (A.corCommit g)
    match fin? 4 g.val with
    | none => s1
    | some b =>
      let pin := fun (s : State) (x : TnrQty) => (tnrWindow s.rd b x).2.2.2
      let own := tnrQtys.filter (fun x => (tnrRegs b x).any written.contains || (pin s1 x && !pin s x))
      let s2 := (forAll (fun (x : TnrQty) t => t.tnrForce b x) own s1).onTnr b (fun t => { t with
        drop := if start then own.map (fun x => (x.q, x.c)) ++ t.drop else t.drop })
      if s2.tnrPitch b = s.tnrPitch b || !s2.tnrRegion b then s2 else s2.tnrReset b

/-! The blend (R147 to R151). -/

/-- What the stage makes of one sample: output, accumulator, deviation word, and whether it was blended and whether it was
bypassed, with a and d. -/
structure TnrOut where
  y : Nat
  acc : Option Nat
  dev : Nat := 0
  blended : Bool := false
  byp : Bool := false
  a : Nat := 0
  d : Int := 0
  deriving DecidableEq, Repr

/-- The deviation word of R151. -/
def devWord (byp : Bool) (d : Int) : Nat := (if byp then 32768 else 0) + lowBits 15 (clampI (-16384) 16383 d)

/-- ⌈log2 (i + 1)⌉ for i ≥ 0. -/
def clog2 (i : Nat) : Nat := if i = 0 then 0 else Nat.log2 i + 1

/-- Settings that one frame's blend uses, for one channel. -/
structure BlendPar where
  i : Nat
  conv : Nat
  kw : Nat
  bypUpd : Nat
  k : Nat
  n0 : Nat
  n1 : Nat
  deriving DecidableEq, Repr

/-- The exact bypass test of R149: d² > K² (N0 + N1 a), K in u4.4 and N1 in u8.16. -/
def BlendPar.bypass (p : BlendPar) (a : Nat) (d : Int) : Bool :=
  decide (1 ≤ p.i) && decide (Int.ofNat (p.k * p.k * (p.n0 * 65536 + p.n1 * a)) < d * d * 16777216)

/-- A sample that meets the accumulator sample `a` (R149). -/
def BlendPar.blend (p : BlendPar) (x a : Nat) : TnrOut :=
  let d : Int := Int.ofNat x - Int.ofNat a
  let e := if p.i < p.conv then min p.kw (clog2 p.i) else p.kw
  let byp := p.bypass a d
  if byp then
    { y := x, acc := some (if p.bypUpd = 0 then a else satU 16 (Int.ofNat a + rshr d p.bypUpd)), dev := devWord true d, blended := true,
      byp := true, a := a, d := d }
  else
    let acc := satU 16 (Int.ofNat a + rshr d e)
    { y := if p.i < p.conv then x else acc, acc := some acc, dev := devWord false d, blended := true, a := a, d := d }

/-- A sample written as a new value (R148, R149, R150). -/
def seedOut (x : Nat) : TnrOut := { y := x, acc := some x }

/-- A sample that passes and leaves the accumulator (R147, R150). -/
def passOut (x : Nat) : TnrOut := { y := x, acc := none }

/-- The stage over one part at sample offset `off` of the row: per channel, the outputs of its columns. `old` gives the old
row, none while it is not valid. -/
def tnrPart (par : Nat → BlendPar) (shift : Int) (old : Option (Array Nat)) (late ecc : List (Nat × Nat)) (off : Nat) (p : Part) :
    List (List TnrOut) :=
  let ch := p.chans.length
  p.chans.mapIdx (fun c xs =>
    let w := xs.length
    xs.mapIdx (fun u x =>
      let i := off + u * ch + c
      if inRanges late i then passOut x
      else if inRanges ecc i then seedOut x
      else match old with
        | none => seedOut x
        | some a =>
          let v : Int := Int.ofNat u + shift
          if v < 0 ∨ Int.ofNat w ≤ v then seedOut x else (par c).blend x (a.getD (off + v.toNat * ch + c) 0)))

/-- The row of a part after the stage, columns and channels interleaved: bytes, the old ones where nothing was written. -/
def rowPart (old : Bytes) (off ch : Nat) (outs : List (List TnrOut)) : Bytes :=
  let as := outs.map (·.toArray)
  let ob := old.toArray
  (List.range (outs.headD []).length).flatMap (fun u => (List.range ch).flatMap (fun c =>
    let i := off + u * ch + c
    match ((as.getD c #[]).getD u (passOut 0)).acc with
    | some v => leBytes 2 v
    | none => [ob.getD (2 * i) 0#8, ob.getD (2 * i + 1) 0#8]))

/-- Level bins with the samples of one channel that were blended and not bypassed (R152). -/
def binAdd (bins : List NoiseBin) (c : Nat) (outs : List TnrOut) : List NoiseBin :=
  outs.foldl (fun bs o =>
    if o.blended && !o.byp then updAt bs (16 * c + o.a / 4096) (fun b => { n := b.n + 1, a := b.a + o.a, d2 := b.d2 + (o.d * o.d).toNat })
    else bs) bins

/-- Sum of |x − acc(u + s)| over columns 64 to W − 65 of one channel (R153). -/
def shiftSum (xs : List Nat) (old : Nat → Nat) (sh : Int) : Nat :=
  let w := xs.length
  (xs.mapIdx (fun u x =>
    if u < 64 ∨ w ≤ u + 64 then 0
    else (Int.ofNat x - Int.ofNat (old (Int.ofNat u + sh).toNat)).natAbs)).foldl (· + ·) 0

/-- What the stage hands on of one group line. -/
structure TnrLine where
  line : GLine
  /-- Deviation words, per part and channel. -/
  dev : List Part
  flags : Nat
  byp : List Nat

/-- The candidates of the shift measurement in force (R153). -/
def State.shiftCands (s : State) (g : Nat) : List Int :=
  let sr := s.tnrSr g
  (List.range (2 * sr + 1)).map (fun k => s.tnrShift g + Int.ofNat k - Int.ofNat sr)

/-- The values want of a quantity's window rule (R115, R152): the value to put into force, and whether it presses. -/
def windowed (w : Int × Int × Int × Bool) (want : Int) : Int × Bool :=
  let (v, mn, mx, pin) := w
  if pin then (v, false) else if want < mn then (mn, true) else if mx < want then (mx, true) else (want, false)

/-- Updates that wait for a frame not later than `frame` come into force (R152, R153). -/
def State.tnrApply (s : State) (b : Fin 4) (frame : Nat) : State :=
  let due := (s.tnr[b]).updates.filter (fun u => !isLater 32 u.frame frame)
  let s1 := s.onTnr b (fun t => { t with updates := t.updates.filter (fun u => isLater 32 u.frame frame) })
  forAll (fun (u : TnrUpd) s =>
    forAll (fun (e : Nat × Nat × Option Int × Bool) s =>
      let x : TnrQty := ⟨e.1, e.2.1⟩
      let p := tnrPressBit x
      let s1 := match e.2.2.1 with
        | some v => let w := tnrWindow s.rd b x; s.setTnrQty b x v w.2.1 w.2.2.1
        | none => s
      let press := (s1.tnr[b]).press
      s1.setTnrPress b (clearBit press p + (if e.2.2.2 then 2 ^ p else 0))) u.vals s) due s1

/-- A pending accumulator reset of COR_Gg_TNR_CMD takes effect (R155). -/
def State.tnrResetEffect (s : State) (b : Fin 4) : State :=
  if (s.tnr[b]).resetPend then
    ((s.onTnr b (fun t => { t with resetPend := false })).setB (A.corTnrCmd b) 0 false).tnrReset b
  else s

/-- An accumulator reset that waits for the first frame of a new structure takes effect (R45, R155). -/
def State.tnrSwapEffect (s : State) (b : Fin 4) (frame : Nat) : State :=
  if (s.tnr[b]).swapPend && !s.oldFrame b frame then (s.onTnr b (fun t => { t with swapPend := false })).tnrReset b else s

/-- The settings in force for the estimates of bar `b` (R152, R153). -/
def State.tnrOwn (s : State) (b : Nat) : TnrOwn :=
  { kw := s.tnrKw b, conv := s.tnrConv b, mch := s.tnrMch b, shift := s.tnrShift b
    n1 := (List.range 4).map (fun c => s.f (A.corTnrN1 b c) 23 0)
    noiseTrk := s.b (A.corTnrCtl b) 2, shiftTrk := s.b (A.corTnrCtl b) 1 }

/-- The first group line of a frame reaches the stage (R149, R152, R155, R172). -/
def State.tnrFrame (s : State) (b : Fin 4) (t : LineTag) : State :=
  let x := s.tnr[b]
  let s0 := match x.frame with
    | some f => if (s.tnrOn b) then s.onTnr b (fun y => { y with
        ended := y.ended ++ [({ frame := f, i := x.i, bins := x.bins, sums := x.sums, lines := x.shiftLines, own := x.own
                                drop := x.drop } : TnrEnded)] }) else s
    | none => s
  let s1 := (((s0.tnrResetEffect b).tnrSwapEffect b t.frame).tnrApply b t.frame).onEng ⟨b.val, by omega⟩ (fun e => { e with
    accBad := e.accBad.filter (fun q => !isLater 32 t.frame q.1) })
  s1.onTnr b (fun y => { y with
    frame := some t.frame
    i := if y.fresh then 0 else min 65535 (y.i + 1)
    fresh := false
    line0 := if t.line = 0 ∧ !t.long ∧ !t.opening then some t.pos else none
    own := s1.tnrOwn b, drop := []
    lastRow := none, bins := List.replicate 64 {}
    sums := (s1.shiftCands b).map (fun c => (c, 0)), shiftLines := 0
    resetFrame := if y.fresh then some t.frame else y.resetFrame })

/-- Samples of a group line. -/
def GLine.samples (l : GLine) : Nat := l.parts.foldl (fun a p => a + p.chans.foldl (fun a c => a + c.length) 0) 0

/-- A group line of a bar passes the stage (R146 to R151). `late` are the sample ranges whose accumulator samples came late,
`segs` the segments in which it was served; `accBad` of the engine's context tells those whose read had an uncorrectable error. Rows are
laid out by the widths of the line itself, and a line whose widths differ from those of the line before it at the stage resets the accumulator
(R142, R155). The row of the preceding group line (R147) is read as the greatest row so far in the frame, one out of range included
(DESIGN CHOICE, assumption 46). -/
def State.tnrStage (s : State) (b : Fin 4) (l : GLine) (late segs : List (Nat × Nat)) : TnrLine × State :=
  let ch := (s.group b).channels
  let zero : List Part := l.parts.map (fun p => { p with chans := p.chans.map (fun c => c.map (fun _ => 0)) })
  let plain : TnrLine := { line := l, dev := zero, flags := 0, byp := List.replicate ch 0 }
  if !s.tnrOn b then (plain, s)
  else
    let ws := l.parts.map (fun p => (p.chans.headD []).length)
    let sw := (if (s.tnr[b]).widths ≠ [] ∧ (s.tnr[b]).widths ≠ ws then s.tnrReset b else s).onTnr b (fun t => { t with widths := ws })
    let rowLen := up64 (2 * l.samples)
    let rows := min 262144 (((sw.region 1 b).map (·.size)).getD 0 / atLeast1 rowLen)
    let s0 := if (sw.tnr[b]).frame = some l.tag.frame then sw else sw.tnrFrame b l.tag
    let x := s0.tnr[b]
    let conv := s0.tnrConv b
    let cflag := if x.i < conv then 64 else 0
    let row : Option Int := x.line0.map (fun p0 => rdiv (wrapDiff 64 l.tag.pos p0) (s0.tnrPitch b))
    let seen := match row, x.lastRow with
      | some r, some m => decide (r ≤ m)
      | _, _ => false
    let out := match row with
      | some r => decide (r < 0) || decide (Int.ofNat rows ≤ r) || seen
      | none => true
    let s1 := s0.onTnr b (fun t => { t with lastRow := match row, t.lastRow with
      | some r, some m => some (max r m)
      | some r, none => some r
      | none, m => m })
    if out then ({ plain with flags := cflag }, s1.inc (A.corTnrCntOor b))
    else if (partFlags l.parts) % 16 ≠ 0 then ({ plain with flags := cflag }, s1)
    else
      let r := (row.getD 0).toNat
      let g : Fin 12 := ⟨b.val, by omega⟩
      let bad := ((s1.engs[g]).accBad.filter (fun q => q.2.1 == r)).map (·.2.2)
      let ecc := segs.filter (fun q => !inRanges late q.1 && bad.any (fun v => decide (v.1 < q.2) && decide (q.1 < v.2)))
      let base := ((s1.region 1 b).map (·.base)).getD 0 + r * rowLen
      let offs := partOffsets 0 l.parts
      let total := l.samples
      let bytes := s1.lakeRead base (2 * total)
      let valid := (s1.tnr[b]).valid.contains r
      let old := if valid then
          let ob := bytes.toArray
          some ((List.range total).map (fun i => (ob.getD (2 * i) 0#8).toNat + 256 * (ob.getD (2 * i + 1) 0#8).toNat)).toArray
        else none
      let par := fun (c : Nat) => ({
        i := x.i, conv := conv, kw := s1.tnrKw b, bypUpd := s1.tnrBypUpd b, k := s1.f (A.corTnrThr b) (8 * c + 7) (8 * c)
        n0 := s1.f (A.corTnrN0 b c) 23 0, n1 := s1.f (A.corTnrN1 b c) 23 0 } : BlendPar)
      let shift := s1.tnrShift b
      let outs := offs.map (fun o => (o.1, o.2, tnrPart par shift old late ecc o.1 o.2))
      let line : GLine := { l with parts := outs.map (fun o => { o.2.1 with chans := o.2.2.map (fun c => c.map (·.y)) }) }
      let dev := outs.map (fun o => ({ o.2.1 with chans := o.2.2.map (fun c => c.map (·.dev)) } : Part))
      let s2 := s1.lakeWrite base (outs.flatMap (fun o => rowPart bytes o.1 ch o.2.2))
      let byp := (List.range ch).map (fun c => if x.i < conv then 0 else
        outs.foldl (fun a o => a + (o.2.2.getD c []).countP (·.byp)) 0)
      let noise := decide (x.own.conv ≤ x.i) && x.own.noiseTrk
      let measure := decide (1 ≤ x.i) && x.own.shiftTrk && valid && late.isEmpty && ecc.isEmpty
      let mch := x.own.mch
      let s3 := (s2.onEng g (fun e => { e with accBad := e.accBad.filter (fun q => q.2.1 != r) })).onTnr b (fun t => { t with
        valid := if t.valid.contains r || late.any (fun q => decide (q.1 = 0) && decide (total ≤ q.2)) then t.valid
          else t.valid.filter (· < r) ++ r :: t.valid.filter (r < ·)
        bins := if noise then outs.foldl (fun bs o => (List.range ch).foldl (fun bs c => binAdd bs c (o.2.2.getD c [])) bs) t.bins
          else t.bins
        sums := if measure then t.sums.map (fun cs => (cs.1, cs.2 + outs.foldl (fun a o =>
            let w := o.2.1.chans.length
            a + shiftSum (o.2.1.chans.getD mch []) (fun u => (old.getD #[]).getD (o.1 + u * w + mch) 0) cs.1) 0)) else t.sums
        shiftLines := if measure then t.shiftLines + 1 else t.shiftLines })
      let n := byp.foldl (· + ·) 0
      let s4 := if n = 0 then s3 else s3.inc (A.corTnrCntByp b) n
      let s5 := if ecc.isEmpty then s4 else (s4.inc (A.corTnrCntEcc b) ecc.length).raise (A.corEvt b) 8
      ({ line := line, dev := dev, flags := cflag, byp := byp }, s5)

/-! The estimates (R152, R153). -/

/-- A bin that takes part in the fit. -/
def goodBins (bins : List NoiseBin) (c : Nat) : List NoiseBin := ((bins.drop (16 * c)).take 16).filter (fun b => decide (1024 ≤ b.n))

/-- The fit of one channel: want N0 and N1, rounded by R11, from the bins with 1,024 samples or more (R152). The bin means are
taken over the common denominator P of the counts: x = A P / n and y = D P (2^(KW+1) − 1) / n. None while no bin qualifies; N1 has none
while fewer than two levels are distinct. -/
def fitNoise (bins : List NoiseBin) (kw n1 : Nat) : Option (Nat × Option Nat) :=
  let k := bins.length
  if k = 0 then none
  else
    let p := bins.foldl (fun a b => a * b.n) 1
    let m := 2 ^ (kw + 1)
    let xs : List Int := bins.map (fun b => Int.ofNat (b.a * (p / b.n)))
    let ys : List Int := bins.map (fun b => Int.ofNat (b.d2 * (m - 1) * (p / b.n)))
    let sx_ := xs.foldl (· + ·) 0
    let sy := ys.foldl (· + ·) 0
    let sxx := (xs.map (fun x => x * x)).foldl (· + ·) 0
    let sxy := ((xs.zip ys).map (fun z => z.1 * z.2)).foldl (· + ·) 0
    let den := Int.ofNat k * sxx - sx_ * sx_
    if den = 0 then
      let v := rdiv (65536 * sy - Int.ofNat (n1 * m) * sx_) (k * m * p * 65536)
      some (min (2 ^ 24 - 1) v.toNat, none)
    else
      let num := Int.ofNat k * sxy - sx_ * sy
      let f1 := rdiv (num * 65536) (m * den.toNat)
      let f0 := rdiv (sy * den - num * sx_) (k * m * p * den.toNat)
      some (min (2 ^ 24 - 1) f0.toNat, some (min (2 ^ 24 - 1) f1.toNat))

/-- The candidate with the smallest sum: ties go to the one nearest SHIFT, then to the lower (R153). -/
def bestShift (cur : Int) (sums : List (Int × Nat)) : Int :=
  (sums.foldl (fun (best : Option (Int × Nat)) x => match best with
    | none => some x
    | some y =>
      let dx := (x.1 - cur).natAbs
      let dy := (y.1 - cur).natAbs
      if x.2 < y.2 ∨ (x.2 = y.2 ∧ (dx < dy ∨ (dx = dy ∧ x.1 < y.1))) then some x else best) none).elim cur (·.1)

/-- TNR_ADAPT_UPDATE: the estimates of the oldest frame of bar `b` that has ended: want values, and the values that come into
force from the first group line of frame F + 2 (R152, R153). A quantity without an estimate is held. -/
def execTnrAdaptUpdate (b : Fin 4) (s : State) : Host.Outcome State Fault Refusal :=
  .next (s.whenOn fun s =>
    match (s.tnr[b]).ended with
    | [] => s
    | e :: rest =>
      let o := e.own
      let trackN := o.noiseTrk && decide (o.conv ≤ e.i)
      let fits := (List.range 4).map (fun c => if trackN then fitNoise (goodBins e.bins c) o.kw (o.n1.getD c 0) else none)
      let sh := if o.shiftTrk && decide (1 ≤ e.i) && decide (64 ≤ e.lines) then some (bestShift o.shift e.sums) else none
      let want := fun (x : TnrQty) => if x.q = 0 then sh
        else (fits.getD x.c none).bind (fun f => if x.q = 1 then some (Int.ofNat f.1) else f.2.map Int.ofNat)
      let vals := (tnrQtys.filter (fun x => !e.drop.contains (x.q, x.c))).filterMap (fun x => (want x).map (fun v =>
        let w := tnrWindow s.rd b x
        let r := windowed w v
        (x.q, x.c, if w.2.2.2 then none else some r.1, r.2)))
      s.onTnr b (fun t => { t with
        ended := rest
        updates := if vals.isEmpty then t.updates else t.updates ++ [{ frame := (e.frame + 2) % 2 ^ 32, vals := vals }]
        wantShift := match sh with
          | some v => 256 + lowBits 8 v
          | none => lowBits 8 (s.tnrShift b)
        wantN0 := t.wantN0.mapIdx (fun c v => match fits.getD c none with
          | some f => f.1
          | none => if trackN then s.f (A.corTnrN0 b c) 23 0 else v)
        wantN1 := t.wantN1.mapIdx (fun c v => match (fits.getD c none).bind (·.2) with
          | some f => f
          | none => if trackN then s.f (A.corTnrN1 b c) 23 0 else v) }))

/-- A write of RESET to COR_Gg_TNR_CMD: the reset takes effect at the next frame (R155). -/
def State.tnrResetCmd (s : State) (b : Fin 4) : State :=
  if s.tnrRegion b then (s.onTnr b (fun t => { t with resetPend := true })).setB (A.corTnrCmd b) 0 true else s

/-- TNR_RESET_CMD. -/
def execTnrResetCmd (b : Fin 4) (s : State) : Host.Outcome State Fault Refusal := .next (s.whenOn fun s => s.tnrResetCmd b)

end Sys2Proof.Machine
end

