-- ==== Sys2Proof/Machine/Seam.lean ====
section
/-! DEFINITION. The Seam Unit: commits, windows and buffer need, the assembly of stitched lines, measurement and tracker
(R100 to R122). -/

namespace Sys2Proof.Machine
open Sys2Proof

/-! Quantities, windows and commits (R116 to R119). -/

/-- A tracked quantity: 0 OFS, 1 MAG, 2 DLY. Its width, and its registers for value, MIN and MAX at Spring `n`. -/
def seamBits (q : Nat) : Nat := if q = 0 then 28 else if q = 1 then 25 else 18
/-- Registers of quantity `q`: value, MIN, MAX. -/
def seamRegs (q n : Nat) : Nat × Nat × Nat :=
  if q = 0 then (A.seamOfs n, A.seamOfsMin n, A.seamOfsMax n)
  else if q = 1 then (A.seamMag n, A.seamMagMin n, A.seamMagMax n) else (A.seamDly n, A.seamDlyMin n, A.seamDlyMax n)

/-- The number that a register of quantity `q` holds: DLY is unsigned, MAG and its bounds lie within ±0.02 (Table 5.1). -/
def seamNum (q : Nat) (w : Word) : Int :=
  let k := seamBits q
  if q = 2 then Int.ofNat (fld w 17 0)
  else let v := sx k (fld w (k - 1) 0); if q = 1 then clampI (-335544) 335544 v else v

/-- An integer as the register of quantity `q` holds it. -/
def seamWord (q : Nat) (v : Int) : Word := wd (lowBits (seamBits q) v)

/-- What R117 makes of a quantity that a commit writes: MIN and MAX, and which bound was forced, from a reader. A MAX below MIN is raised to
MIN first, and then a bound moves to the value (DESIGN CHOICE, assumption 109). -/
def seamForced (rd : Nat → Word) (q n : Nat) : Int × Int × Int × Option Nat :=
  let a := seamRegs q n
  let v := seamNum q (rd a.1)
  let mn := seamNum q (rd a.2.1)
  let mx0 := seamNum q (rd a.2.2)
  let mx := if mx0 < mn then mn else mx0
  if v < mn then (v, v, mx, some 0) else if mx < v then (v, mn, v, some 1) else (v, mn, mx, none)

/-- A commit that wrote the registers `written` wrote the value or the window of quantity `q` of Spring `n`. -/
def seamOwn (written : List Nat) (q n : Nat) : Bool :=
  let a := seamRegs q n
  written.contains a.1 || written.contains a.2.1 || written.contains a.2.2

/-- Bytes that a line of bar `b` takes in its seam line buffer `i` triggers after it joined the aligned lines, none before it has: each
channel of each sensor is a packet of 2 bytes a sample, which leaves when its delay ⌊d⌋ + 1 has passed (R104, R121, R313). -/
def State.seamBytes (s : State) (b : Nat) (i : Option Nat) (l : SeamLine) : Nat :=
  l.parts.foldl (fun a p =>
    let ds := match i with
      | some _ => (s.sensor b p.spring).delays
      | none => []
    a + (p.chans.mapIdx (fun c xs => if (match i with
      | some i => decide (i ≤ ds.getD c 0 / 256 + 1)
      | none => true) then up64 (2 * xs.length) else 0)).foldl (· + ·) 0) 0

/-- Bytes that lines take in the seam line buffer of bar `b`: those of the in-line bar; a Lake-fed bar's delay lines stand in its Lake
region (R120). -/
def State.seamFill (s : State) (b : Fin 4) : Nat :=
  let x := s.seam[b]
  if !s.isInline b then 0
  else x.inq.foldl (fun a l => a + s.seamBytes b none l) 0 + x.hist.zipIdx.foldl (fun a l => a + s.seamBytes b (some l.2) l.1) 0

/-- Lines have left the seam line buffer of bar `b`, which held `was` bytes (R315). -/
def State.seamRelease (s : State) (b : Fin 4) (was : Nat) : State := s.release (32 + b) (was - s.seamFill b)

/-- The seam buffer need of bar `b` in bytes, from a reader of the registers (R121): DLY is replaced by the window bound DLY_MAX,
which R117 moves where a commit wrote the delay, its window or its pin. -/
def State.seamNeed (s : State) (rd : Nat → Word) (b : Nat) (written : List Nat) : Nat :=
  let r := s.group b
  if !r.inline then 65536
  else r.springs.foldl (fun a n =>
    let dly := if seamOwn written 2 n || written.contains (A.seamCfg n) then (seamForced rd 2 n).2.2.1.toNat
      else fld (rd (A.seamDlyMax n)) 17 0
    (List.range r.channels).foldl (fun a c =>
      a + (min (r.depth * 256) (delayOf rd b n r.channels dly c) / 256 + 2) * s.sprCols n * 2) a) 65536

/-- Why a waiting commit of bar `b` is refused: 2 BAD_ORDER, 3 BAD_ANCHOR, 1 NO_ROOM, in the order of R119; 0 if it is not. -/
def State.seamRefusal (s : State) (b : Nat) (written : List Nat) : Nat :=
  let r := s.group b
  let oa := written.contains (A.seamBarCtl b) || (List.range 8).any (fun i => written.contains (A.seamBarOrder b i))
  if oa && (orderOf s.shadow b r.springs).isNone then 2
  else if oa && decide (r.springs.length ≤ fld (s.shadow (A.seamBarCtl b)) 12 8) then 3
  else if s.sramSize (32 + b) < s.seamNeed s.shadow b written then 1
  else 0

/-- PRESSING bits of Spring `n` (Table 5.5). -/
def State.seamPress (s : State) (n : Nat) : Nat := s.f (A.seamTrkStat n) 2 0

/-- The checks of R117 on one quantity of Spring `n` of bar `b` after a commit wrote its value, window or pin; `own` says that it
wrote the value or the window, at which PRESSING clears, as it does under a pin (R116). -/
def State.seamForce (s : State) (b q n : Nat) (own : Bool) : State :=
  let (_, mn, mx, forced) := seamForced s.rd q n
  let a := seamRegs q n
  let s1 := (s.wrK a.2.1 (seamWord q mn)).wrK a.2.2 (seamWord q mx)
  let s2 := if own || s1.b (A.seamCfg n) q then s1.setB (A.seamTrkStat n) q false else s1
  match forced with
  | none => s2
  | some bound =>
    let k := min 255 (s2.f (A.seamBarLog b) 31 24 + 1)
    (s2.wr (A.seamBarLog b) (wd (k * 2 ^ 24 + n % 32 * 65536 + q * 256 + bound))).raise (A.seamBarEvt b) 2

/-- A waiting commit of bar `b` takes effect or is refused (R117 to R119). -/
def State.seamTake (s : State) (b : Fin 4) : State :=
  let blk := A.seamBarCommit b
  let written := (s.written blk).map (·.1)
  let why := s.seamRefusal b written
  if why ≠ 0 then (s.refuseCommit blk why).raise (A.seamBarEvt b) 3
  else
    let old := s.order b
    let sp := (s.group b).springs
    let s1 := s.takeStaged blk
    let own := fun (q n : Nat) => seamOwn written q n
    let hit := fun (q n : Nat) => own q n || written.contains (A.seamCfg n)
    let s2 := forAll (fun n s => forAll (fun q s => if hit q n then s.seamForce b q n (own q n) else s) [0, 1, 2] s) sp s1
    let now := s2.order b
    let seamHit := fun (k : Nat) => written.contains (A.seamBarsBlend b k) || written.contains (A.seamBarsOvl b k)
    let drop := fun (n : Nat) => [0, 1, 2].any (fun q => hit q n) ||
      (List.range (now.length - 1)).any (fun k => seamHit k && (now.getD k 32 == n || now.getD (k + 1) 32 == n))
    let s3 := s2.onSeam b (fun x => { x with updates := x.updates.filter (fun u => !drop u.spring) })
    if s3.order b ≠ old ∧ s3.tnrRegion b then s3.tnrReset b else s3

/-! The tracker (R115, R116). -/

/-- Updates of bar `b` that wait for a frame not later than `frame` take effect. -/
def State.seamApply (s : State) (b : Fin 4) (frame : Nat) : State :=
  let due := (s.seam[b]).updates.filter (fun u => !isLater 32 u.frame frame)
  let s1 := s.onSeam b (fun x => { x with updates := x.updates.filter (fun u => isLater 32 u.frame frame) })
  forAll (fun (u : TrackUpd) s =>
    let n := u.spring
    let s1 := ((s.wrK (A.seamOfs n) (seamWord 0 u.ofs)).wrK (A.seamMag n) (seamWord 1 u.mag)).wrK (A.seamDly n) (seamWord 2 u.dly)
    let s2 := s1.setF (A.seamTrkStat n) 2 0 u.press
    if u.press = 0 then s2 else s2.raise (A.seamBarEvt b) 1) due s1

/-- What the measurement of one seam gives (R113, R114). -/
structure SeamMeas where
  valid : Bool
  /-- ξ and η in 1/256, μ in 2⁻²⁴, Q in u0.16. -/
  xi : Int
  eta : Int
  mu : Int
  q : Nat
  edge : Bool
  deriving DecidableEq, Repr

/-- Sample pairs of a seam's rows at the shift (i, j), over columns `lo` to `hi` − 1 of M (R113). -/
def seamPairs (rows : List MeasRow) (srx : Nat) (i j : Int) (lo hi : Nat → Nat) : List (Nat × Nat) :=
  rows.flatMap (fun r => match rows.find? (fun q => Int.ofNat q.line == Int.ofNat r.line + j) with
    | none => []
    | some q =>
      let m := r.a.length
      let margin := (q.b.length - m) / 2
      let off := (Int.ofNat margin + clampI (-Int.ofNat srx) (Int.ofNat srx) i).toNat
      ((r.a.zip (q.b.drop off)).drop (lo m)).take (hi m - lo m))

/-- n² times the variance of one side of sample pairs. -/
def spread (ps : List (Nat × Nat)) (f : Nat × Nat → Nat) : Nat :=
  let sum := fun (f : Nat × Nat → Nat) => ps.foldl (fun a p => a + f p) 0
  ps.length * sum (fun p => f p * f p) - sum f * sum f

/-- Sample pairs with one side constant, for which R113 gives no quotient: blank web (R114). -/
def blankPairs (ps : List (Nat × Nat)) : Bool := spread ps (·.1) == 0 || spread ps (·.2) == 0

/-- The normalised cross-correlation ρ of sample pairs (x, y), in units of 2⁻⁶⁴: the covariance over the square root of the product of the
variances (R113). Of pairs with one side constant it is free within −1 to 1. -/
def correlation (ps : List (Nat × Nat)) : Int :=
  let sum := fun (f : Nat × Nat → Nat) => ps.foldl (fun a p => a + f p) 0
  let n := ps.length
  let cov : Int := Int.ofNat (n * sum (fun p => p.1 * p.2)) - Int.ofNat (sum (·.1) * sum (·.2))
  let var := spread ps (·.1) * spread ps (·.2)
  if blankPairs ps then clampI (-(2 ^ 64)) (2 ^ 64) (Config.flatCorrelation ps)
  else Int.ofNat (rootFloor 2 (cov.natAbs * cov.natAbs * 2 ^ 128 / var) 65 0) * (if cov < 0 then -1 else 1)

/-- The place of a parabola's vertex through the values at −1, 0 and 1, as a fraction (numerator, positive denominator). -/
def vertex (l c r : Int) : Int × Nat :=
  let den := 2 * (2 * c - l - r)
  if den ≤ 0 then (0, 1) else (r - l, den.toNat)

/-- The shift of largest correlation among candidates; the first of equals. -/
def peakOf (rho : Int → Int) : List Int → Int → Int
  | [], best => best
  | i :: is, best => peakOf rho is (if rho best < rho i then i else best)

/-- The lateral fit along i: peak and refined place as a fraction, and whether the peak is at the edge. -/
def lateralFit (rho : Int → Int) (srx : Nat) : Int × (Int × Nat) × Bool :=
  let cands := (List.range (2 * srx + 1)).map (fun k => Int.ofNat k - Int.ofNat srx)
  let i0 := peakOf rho cands (-Int.ofNat srx)
  if i0.natAbs = srx then (i0, (i0, 1), true)
  else
    let v := vertex (rho (i0 - 1)) (rho i0) (rho (i0 + 1))
    (i0, (i0 * Int.ofNat v.2 + v.1, v.2), false)

/-- The measurement of one seam from its rows (R113, R114). Blank web is never valid: its quality, free, lies below QMIN. -/
def measureSeam (rows : List MeasRow) (srx sry m qmin : Nat) : SeamMeas :=
  let all := fun (i j : Int) => correlation (seamPairs rows srx i j (fun _ => 0) (fun m => m))
  let js := (List.range (2 * sry + 1)).map (fun k => Int.ofNat k - Int.ofNat sry)
  let best := fun (j : Int) => all (lateralFit (fun i => all i j) srx).1 j
  let j0 := peakOf best js (-Int.ofNat sry)
  let (i0, fx, edgeX) := lateralFit (fun i => all i j0) srx
  let edgeY := decide (0 < sry) && decide (j0.natAbs = sry)
  let fy : Int × Nat := if edgeY || sry == 0 then (j0, 1)
    else let v := vertex (all i0 (j0 - 1)) (all i0 j0) (all i0 (j0 + 1)); (j0 * Int.ofNat v.2 + v.1, v.2)
  let half := fun (lo hi : Nat → Nat) =>
    (lateralFit (fun i => correlation (seamPairs rows srx i j0 lo hi)) srx).2.1
  let l := half (fun _ => 0) (fun m => m / 2)
  let r := half (fun m => m / 2) (fun m => m)
  let blank := blankPairs (seamPairs rows srx i0 j0 (fun _ => 0) (fun m => m))
  let q0 := (clampI 0 65535 (rshr (all i0 j0) 48)).toNat
  let q := if blank then min q0 (qmin - 1) else q0
  { valid := decide (16 ≤ rows.length) && decide (16 ≤ m) && decide (qmin ≤ q) && !blank
    xi := rdiv (fx.1 * 256) fx.2, eta := rdiv (fy.1 * 256) fy.2
    mu := clampI (-(2 ^ 24)) (2 ^ 24 - 1) (rdiv (2 * (r.1 * Int.ofNat l.2 - l.1 * Int.ofNat r.2) * 2 ^ 24) (l.2 * r.2 * atLeast1 m))
    q := q, edge := edgeX || edgeY }

/-- The window rule of R115 for quantity `q` of Spring `n`: the value to put into force, and whether it presses. -/
def State.seamWindow (s : State) (q n : Nat) (v : Int) : Int × Bool :=
  let a := seamRegs q n
  let cur := seamNum q (s.rd a.1)
  let mn := seamNum q (s.rd a.2.1)
  let mx := seamNum q (s.rd a.2.2)
  if s.b (A.seamCfg n) q then (cur, false) else if v < mn then (mn, true) else if mx < v then (mx, true) else (v, false)

/-- A want register takes a value, held in its format. -/
def State.seamWant (s : State) (n : Nat) (ofs mag dly : Int) : State :=
  ((s.wr (A.seamOfsWant n) (seamWord 0 (clampI (-(2 ^ 27)) (2 ^ 27 - 1) ofs))).wr (A.seamMagWant n)
    (seamWord 1 (clampI (-335544) 335544 mag))).wr (A.seamDlyWant n) (seamWord 2 (clampI 0 (2 ^ 18 - 1) dly))

/-- The tracker's evaluation for the sensor at position `k` (R115): its want values, and an update if its seam was valid. -/
def State.trackSensor (s : State) (b : Fin 4) (frame k : Nat) (order : List Nat) (meas : Nat → Option SeamMeas) : State :=
  let n := order.getD k 0
  let anchor := s.anchor b
  let ofs := seamNum 0 (s.rd (A.seamOfs n))
  let mag := seamNum 1 (s.rd (A.seamMag n))
  let dly := seamNum 2 (s.rd (A.seamDly n))
  let hold := s.seamWant n ofs mag dly
  if k = anchor ∨ s.b (A.seamBarCtl b) 0 = false then hold
  else
    let right := decide (anchor < k)
    let sg : Int := if right then 1 else -1
    match meas (if right then k - 1 else k) with
    | none => hold
    | some m =>
      if !m.valid then hold
      else
        let gx := Int.ofNat (s.f (A.seamBarGain b) 7 0)
        let gm := Int.ofNat (s.f (A.seamBarGain b) 15 8)
        let gy := Int.ofNat (s.f (A.seamBarGain b) 23 16)
        let stx := Int.ofNat (s.f (A.seamBarStepXy b) 15 0)
        let sty := Int.ofNat (s.f (A.seamBarStepXy b) 31 16)
        let stm := Int.ofNat (s.f (A.seamBarStepM b) 15 0)
        let dm := clampI (-stm) stm (rdiv (gm * (-sg * m.mu)) 256)
        let (mn, pm) := s.seamWindow 1 n (mag + dm)
        let comp := rdiv (sg * Int.ofNat (s.sprCols n) * (mn - mag)) (2 ^ 17)
        let dx := clampI (-stx) stx (rdiv (gx * (-sg * m.xi)) 256 + comp)
        let dy := clampI (-sty) sty (rdiv (gy * (-sg * m.eta)) 256)
        let (on, po) := s.seamWindow 0 n (ofs + dx)
        let (dn, pd) := s.seamWindow 2 n (dly + dy)
        let u : TrackUpd := { spring := n, frame := (frame + 2) % 2 ^ 32, ofs := on, mag := mn, dly := dn,
                              press := (if po then 1 else 0) + (if pm then 2 else 0) + (if pd then 4 else 0) }
        (s.seamWant n (ofs + dx) (mag + dm) (dly + dy)).onSeam b (fun x => { x with updates := x.updates ++ [u] })

/-- The words of the SEAM block for a frame: per seam RES_XY, RES_M, QUAL, LINES, and then the geometry (Table 8.5). -/
def State.seamBlock (s : State) (b : Nat) (geo : List Word) : List Word :=
  (List.range ((s.group b).springs.length - 1)).flatMap (fun k =>
    [s.rd (A.seamBarsResXy b k), s.rd (A.seamBarsResM b k), s.rd (A.seamBarsQual b k), s.rd (A.seamBarsLines b k)]) ++ geo

/-- The results of a frame are kept for its statistics record. -/
def State.keepResults (s : State) (b : Fin 4) (frame : Nat) (geo : List Word) : State :=
  let w := s.seamBlock b geo
  s.onSeam b (fun x => { x with results := ((frame, w) :: x.results).take 8 })

/-- SEAM_MEASUREMENT_DONE: the measurements of the oldest frame of bar `b` that has ended complete, and the tracker evaluates
(R113 to R115). -/
def execSeamMeasurementDone (b : Fin 4) (s : State) : Host.Outcome State Fault Refusal :=
  .next (s.whenOn fun s =>
    match (s.seam[b]).done_ with
    | [] => s
    | f :: rest =>
      let order := s.order b
      let srx := atLeast1 (min 8 (s.f (A.seamBarSrch b) 3 0))
      let sry := min 4 (s.f (A.seamBarSrch b) 7 4)
      let qmin := s.f (A.seamBarQmin b) 15 0
      let seams := List.range (order.length - 1)
      let rows := fun (k : Nat) => f.rows.filter (fun r => r.seam == k)
      let width := fun (k : Nat) => f.overlaps.getD k 0
      let meas := fun (k : Nat) =>
        if width k < 16 ∨ (rows k).isEmpty then none
        else some (measureSeam (rows k) srx sry (min (width k) (clampN 16 512 (s.f (A.seamBarsOvl b k) 9 0))) qmin)
      let s1 := forAll (fun k s =>
        let a := width k
        let base := min 1023 a * 2 ^ 20
        let s0 := s.wr (A.seamBarsLines b k) (wd (rows k).length)
        match meas k with
        | none => s0.wr (A.seamBarsQual b k) (wd (base + (if a < 16 then 2 ^ 18 else 2 ^ 17)))
        | some m => ((s0.wr (A.seamBarsResXy b k) (wd (lowBits 16 m.eta * 65536 + lowBits 16 m.xi))).wr (A.seamBarsResM b k)
            (wd (lowBits 25 m.mu))).wr (A.seamBarsQual b k)
            (wd (base + (if m.edge then 2 ^ 19 else 0) + (if m.valid then 2 ^ 16 else 2 ^ 17) + m.q))) seams s
      let s2 := (s1.wr (A.seamBarFrame b) (wd f.frame)).onSeam b (fun x => { x with done_ := rest })
      let s3 := s2.keepResults b f.frame f.geo
      (forAll (fun k s => s.trackSensor b f.frame k order meas) (List.range order.length) s3).raise (A.seamBarEvt b) 0)

/-! Assembly. -/

/-- The measurement of a bar's current frame at the Seam Unit ends: its rows wait for SEAM_MEASUREMENT_DONE, or, with MEAS_EN
at 0, its results are the last ones (R113, Table 5.7). -/
def State.endMeas (s : State) (b : Fin 4) : State :=
  match (s.seam[b]).meas with
  | none => s
  | some f =>
    let s1 := s.onSeam b (fun x => { x with meas := none })
    if s.b (A.seamBarCtl b) 2 then s1.onSeam b (fun x => { x with done_ := x.done_ ++ [f] }) else s1.keepResults b f.frame f.geo

/-- What happens at a stitched line before it is assembled: at a frame's first one the frame before ends, tracker updates and
a waiting commit take effect; otherwise a line-boundary commit does (R115, R118). -/
def State.seamBoundary (s : State) (b : Fin 4) (frame : Nat) : State :=
  if (s.seam[b]).lastFrame = some frame then (if s.commitDue (A.seamBarCommit b) false then s.seamTake b else s)
  else
    let s1 := (s.endMeas b).seamApply b frame
    let s2 := if s1.commitDue (A.seamBarCommit b) true then s1.seamTake b else s1
    s2.onSeam b (fun x => { x with lastFrame := some frame, meas := some { frame := frame, geo := s2.geometry b } })

/-- DEPTH_SAT, and the overlaps and the openness of the seams of the line, which A_k and OPEN show at once (R103, R112). -/
def State.seamShow (s : State) (b : Fin 4) (frame : Nat) (st : Stitched) : State :=
  let s1 := forAll (fun (z : Sensor) s =>
    let old := s.f (A.seamTrkStat z.spring) 7 4
    let s1 := s.setF (A.seamTrkStat z.spring) 7 4 z.sat
    if (List.range 4).any (fun c => z.sat.testBit c && !old.testBit c) then s1.raise (A.seamBarEvt b) 6 else s1) st.sensors s
  let s2 := forAll (fun (k : Nat) s =>
    let a := overlapWidth (st.overlaps.getD k none)
    (s.setF (A.seamBarsQual b k) 29 20 (min 1023 a)).setF (A.seamBarsQual b k) 18 18 (if a < 16 then 1 else 0))
    (List.range st.overlaps.length) (s1.wr (A.seamBarUncov b) (wd st.uncov))
  if st.overlaps.any (fun o => decide (overlapWidth o < 16)) ∧ (s.seam[b]).openRaised ≠ some frame then
    (s2.raise (A.seamBarEvt b) 5).onSeam b (fun x => { x with openRaised := some frame })
  else s2

/-- A finished line of group `g` leaves the tone stage: its latency since `from_` (R133, R136). -/
def State.latency (s : State) (g : Nat) (from_ : Nat) : State :=
  let t := s.now - from_
  let s1 := s.peak (A.legLatMax g) (min 0xFFFFFFFF t)
  if s.isInline g && decide (54613 < t) then (s1.inc (A.legLatOver g)).raise (A.legEvt g) 1 else s1

/-- A line of group `g` after stitching passes the later stages, their taps, the Tally and the statistics streams
(Table 7.1). -/
def State.afterStitch (s : State) (g : Fin 12) (post : List Word) (l : TapLine) : State :=
  let s0 := s.tallyEnds g l.tag.frame true
  let s1 := ((s0.toStreams g 2 l).tallyTap g 2 l).tallyFlags g l
  let r := s1.postStages g post l
  let s2 := (s1.toStreams g 3 r.1).tallyTap g 3 r.1
  ((s2.toStreams g 4 r.2).tallyTap g 4 r.2).toStats g r.2

/-- A truncation marker of group `g` passes the later stages; frames before it have ended there. -/
def State.markerAfter (s : State) (g : Fin 12) (t : LineTag) (cause : Nat) : State :=
  (((([2, 3, 4].foldl (fun s tap => s.markStreams g tap t cause) s).markStats g t cause)).tallyEnds g t.frame true).tallyMarker g
    t cause true

/-- The stitched line named after `named` is made: what its boundary brings comes into force, the line is formed, and its columns are shown and
measured (R104 to R115). -/
def State.stitchNext (s : State) (b : Fin 4) (hist : List SeamLine) (ahead : Nat) (named : SeamLine) : State × TapLine :=
  let s1 := s.seamBoundary b named.tag.frame
  let mch := let c := s1.f (A.seamBarCtl b) 5 4; if c < (s1.group b).channels then c else 1
  let st := s1.stitch b hist ahead named mch
  let s2 := s1.seamShow b named.tag.frame st
  let rows := if s2.b (A.seamBarCtl b) 2 then s2.measureRows b st (s2.lineIn b named.tag) else []
  let s3 := s2.onSeam b (fun x => { x with meas := x.meas.map (fun f => { f with
    rows := f.rows ++ rows, overlaps := st.overlaps.map overlapWidth }) })
  (s3, st.line)

/-- The stitched line named after `named` is assembled and goes on to the later stages (R104 to R112). -/
def State.assemble (s : State) (b : Fin 4) (hist : List SeamLine) (ahead : Nat) (named : SeamLine) (from_ : Nat) : State :=
  s.underFrame b named.tag.frame fun s =>
  let g : Fin 12 := ⟨b.val, by omega⟩
  let r := s.stitchNext b hist ahead named
  (r.1.afterStitch g named.post r.2).latency g from_

/-- STITCHED_LINE_ASSEMBLE: the next line of bar `b` joins the aligned lines, and the stitched line named D_b triggers before
it is assembled (R104, R105). -/
def execStitchedLineAssemble (b : Fin 4) (s : State) : Host.Outcome State Fault Refusal :=
  .next (s.whenOn fun s =>
    match (s.seam[b]).inq with
    | [] => s
    | l :: rest =>
      if l.marker || decide (s.now < l.seen) then s
      else if (s.seam[b]).cut = some l.tag.frame then (s.onSeam b (fun x => { x with inq := rest })).seamRelease b (s.seamFill b)
      else
        let d := (s.group b).depth
        let s1 := (s.onSeam b (fun x => { x with inq := rest, hist := (l :: x.hist).take (d + 2), seen := x.seen + 1 })).seamRelease b (s.seamFill b)
        let x := s1.seam[b]
        match x.hist[d]? with
        | some named => if d < x.seen then s1.assemble b x.hist 0 named l.at_ else s1
        | none => s1)

/-- The stitched lines that a marker finds unassembled, oldest first: the j-th is `k` − j triggers from its assembly (R106). -/
def State.assembleRest (s : State) (b : Fin 4) (hist : List SeamLine) (d : Nat) : Nat → State
  | 0 => s
  | k + 1 =>
    let s1 := match hist[k]? with
      | some named => s.assemble b hist (d - k) named named.at_
      | none => s
    State.assembleRest s1 b hist d k

/-- A truncation marker at the Seam Unit: the stitched lines below L that are still unassembled are assembled at once, and
none at L or above (R106). -/
def State.seamMarker (s : State) (b : Fin 4) (t : LineTag) (cause : Nat) : State :=
  let g : Fin 12 := ⟨b.val, by omega⟩
  let x := s.seam[b]
  let d := (s.group b).depth
  let s1 := s.assembleRest b x.hist d (min x.seen d)
  let s2 := (s1.onSeam b (fun x => { x with hist := [], seen := 0 })).seamRelease b (s1.seamFill b)
  s2.underFrame b t.frame fun s2 =>
  let s3 := if (s2.seam[b]).lastFrame = some t.frame then s2.endMeas b else s2
  s3.markerAfter g t cause

/-- TRUNCATION_MARKER_AT_SEAM: the marker at the head of the lines of bar `b` reaches the Seam Unit. -/
def execTruncationMarkerAtSeam (b : Fin 4) (s : State) : Host.Outcome State Fault Refusal :=
  .next (s.whenOn fun s =>
    match (s.seam[b]).inq with
    | [] => s
    | l :: rest =>
      let s1 := s.onSeam b (fun x => { x with inq := rest })
      if !l.marker || decide (s.now < l.seen) then s else if (s.seam[b]).cut = some l.tag.frame then s1 else s1.seamMarker b l.tag l.cause)

/-- SEAM_TRACKER_APPLY: when the next stitched line of bar `b` begins a frame, the tracker's results for it take effect (R115). -/
def execSeamTrackerApply (b : Fin 4) (s : State) : Host.Outcome State Fault Refusal :=
  .next (s.whenOn fun s =>
    let x := s.seam[b]
    let d := (s.group b).depth
    let next : Option SeamLine := if d = 0 then x.inq.head? else if d ≤ x.seen then x.hist[d - 1]? else none
    match next with
    | none => s
    | some l => if x.lastFrame = some l.tag.frame then s else s.seamApply b l.tag.frame)

/-! Coefficients and status. -/

/-- A bank is in force in some bar (SEAM_GLB_BANKUSE). -/
def State.bankUsed (s : State) (k : Nat) : Bool := (List.range 4).any (fun b => s.defined b && s.f (A.seamBarCtl b) 1 1 == k)

/-- A write of word `i` of the coefficient table: discarded with TABLE_BUSY for a bank in force (R109). -/
def State.writeSeamCoef (s : State) (i : Nat) (v : Word) : State :=
  if s.bankUsed (i / 1024) then s.raise A.seamGlbEvt 0 else s.wrK (A.seamCoef i) v

/-- SEAM_COEF_WRITE. -/
def execSeamCoefWrite (i : Fin 2048) (v : Word) (s : State) : Host.Outcome State Fault Refusal :=
  .next (s.whenOn fun s => s.writeSeamCoef i v)

/-- ROLE of Spring `n` (Table 5.5). -/
def State.seamRole (s : State) (n : Nat) : Nat :=
  match s.groupOf n with
  | some b =>
    if 4 ≤ b then 0
    else
      let k := (s.order b).idxOf n
      let a := s.anchor b
      if k = a then 3 else if k < a then 1 else 2
  | none => 0

/-- Rounds with a tracked quantity pressing (R116). -/
def State.countSeamPress (s : State) : State :=
  forAll (fun n s =>
    let p := s.seamPress n
    let f := fun (i a : Nat) (s : State) => if p.testBit i then s.inc a else s
    f 0 (A.seamPressOfs n) (f 1 (A.seamPressMag n) (f 2 (A.seamPressDly n) s))) (List.range 32) s

end Sys2Proof.Machine
end

