-- ==== Sys2Proof/Machine/Ponds.lean ====
section
/-! DEFINITION. Ponds: chain ponds, packets of SRAM ponds, pond resets and their owners' reactions (R311 to R319). -/

namespace Sys2Proof.Machine
open Sys2Proof

/-! Chain ponds (R311, R312). -/

/-- Bits of an item of chain pond `p` (Table 14.4). -/
def itemBits (p : Nat) : Nat := if p < 94 then 128 else if p < 158 then 64 else if p < 178 then 32 else if p < 211 then 64 else 32

/-- Stages of chain pond `p` (Table 14.4). -/
def stages (p : Nat) : Nat :=
  if p < 94 then 16 else if p < 158 then 4 else if p < 178 then 16 else if p < 210 then 8 else 2

/-- Depth of chain pond `p`. -/
def State.chainDepth (s : State) (p : Nat) : Nat :=
  if p < 94 then ((fin? 8 (p - 86)).map (fun t => (s.stalls[t]).cpl.length)).getD 0
  else if p < 126 then ((fin? 32 (p - 94)).map (fun n => (s.twb[n]).calQ.length)).getD 0
  else if p < 158 then ((fin? 32 (p - 126)).map (fun n => (s.twb[n]).swQ.length)).getD 0
  else ((fin? 54 (p - 158)).map (fun i => (s.chains[i]).length)).getD 0

/-- The item at the head of chain pond `p` leaves. -/
def State.chainPop (s : State) (p : Nat) : State :=
  if p < 94 then forFin (fun (t : Fin 8) s => s.onStall t (fun x => { x with cpl := x.cpl.drop 1, taken := x.taken - 1 })) [p - 86] s
  else if p < 126 then forFin (fun (n : Fin 32) s => s.onTwb n (fun x => { x with calQ := x.calQ.drop 1 })) [p - 94] s
  else if p < 158 then forFin (fun (n : Fin 32) s => s.onTwb n (fun x => { x with swQ := x.swQ.drop 1 })) [p - 126] s
  else forFin (fun (i : Fin 54) s => { s with chains := vupd s.chains i (fun x => x.drop 1) }) [p - 158] s

/-- An item joins chain pond `p`: a completion item is its four words, word 0 lowest; a list start is the list's word (Table 8.11:
[31] Lake, [30:0] address or LRAM step; for the calendar queue [39:32] is the entry; [42:40] is the stall). An item is as wide as the
pond's items. -/
def State.chainAdd (s : State) (p : Nat) (item : BitVec 128) : State :=
  let v : BitVec 128 := BitVec.ofNat 128 (item.toNat % 2 ^ itemBits p)
  let w := fun k => wd (v.toNat / 2 ^ (32 * k))
  let list := fun (calendar : Bool) =>
    let w0 := w 0
    ({ calendar := calendar, entry := if calendar then fld (w 1) 7 0 else 0, lake := bit w0 31, stall := fld (w 1) 10 8,
       addr := if bit w0 31 then fld w0 30 0 else fld w0 7 0 } : TwList)
  let s1 :=
    if p < 94 then forFin (fun (t : Fin 8) s => s.onStall t (fun x => { x with
      cpl := x.cpl ++ [⟨w 0, w 1, w 2, w 3⟩], taken := x.taken + 1 })) [p - 86] s
    else if p < 126 then forFin (fun (n : Fin 32) s => s.onTwb n (fun x => { x with calQ := x.calQ ++ [list true] })) [p - 94] s
    else if p < 158 then forFin (fun (n : Fin 32) s => s.onTwb n (fun x => { x with swQ := x.swQ ++ [list false] })) [p - 126] s
    else forFin (fun (i : Fin 54) s => { s with chains := vupd s.chains i (fun x => x ++ [v]) }) [p - 158] s
  s1.peak (A.pndpPeak p) (s1.chainDepth p)

/-- CHAIN_POND_PUSH: in one cycle a producer offers an item to chain pond 86 + `p`, and `taken` tells that the consumer is ready.
The depth at the start of the cycle decides both (R312). -/
def execChainPondPush (p : Fin 126) (v : BitVec 128) (taken : Bool) (s : State) : Host.Outcome State Fault Refusal :=
  .next (s.whenOn fun s =>
    let n := p.val + 86
    let d := s.chainDepth n
    let s1 := if taken && decide (1 ≤ d) then s.chainPop n else s
    if d < stages n ∨ (taken ∧ 1 ≤ d) then s1.chainAdd n v else s1)

/-- CHAIN_POND_POP: the consumer takes the item at the head of chain pond 86 + `p`; an empty pond gives none (R312). -/
def execChainPondPop (p : Fin 126) (s : State) : Host.Outcome State Fault Refusal :=
  .next (s.whenOn fun s => if 1 ≤ s.chainDepth (p.val + 86) then s.chainPop (p.val + 86) else s)

/-! SRAM ponds (R313 to R316). -/

/-- The image defines the group or the stream that pond `p` belongs to; other ponds always exist (R318). -/
def State.pondDefined (s : State) (p : Nat) : Bool :=
  if p < 32 then ((fin? 32 p).bind (fun n => s.groupOf n)).isSome
  else if p < 36 then s.defined (p - 32)
  else if p < 52 then (List.range 16).any (fun n => (s.stream n).exists_ && (s.stream n).pond == p)
  else if p < 64 then s.defined (p - 52)
  else true

/-- Size of SRAM pond `p` (Table 14.4); ponds 32 to 63 as the image gives it; a pond whose group or stream the image does not define
has size 0 (R318). -/
def State.pondSize (s : State) (p : Nat) : Nat :=
  if !s.pondDefined p then 0 else if p < 32 then ingressSize else if p < 64 then s.sramSize p else netSize (p - 64)

/-- Fill of SRAM pond `p`, bytes. -/
def State.sramFill (s : State) (p : Nat) : Nat :=
  if p < 32 then ((fin? 32 p).map (fun n => pondFill (s.spr[n]).pond)).getD 0
  else if p < 36 then ((fin? 4 (p - 32)).map (fun b => s.seamFill b)).getD 0
  else if p < 52 then (List.range 16).foldl (fun a n => if (s.stream n).exists_ && (s.stream n).pond == p then
      a + ((fin? 16 n).map (fun n => recFill (s.out[n]).pond)).getD 0 else a) 0
  else if p < 64 then ((fin? 12 (p - 52)).map (fun g => statFill (s.tally[g]).closed)).getD 0
  else ((fin? 22 (p - 64)).map (fun i => packFill (s.netPonds[i]))).getD 0

/-- The read pointer of SRAM pond `p` (R313). -/
def State.readPointer (s : State) (p : Fin 86) : Nat := s.readPtr[p] % atLeast1 (s.pondSize p)

/-- Bytes of the packet that the producer of SRAM pond `p` is writing: the line that an ingress pond is taking in, which has its place and no
notice yet; every other packet is written whole (R314). -/
def State.underWay (s : State) (p : Nat) : Nat :=
  ((fin? 32 p).map (fun n => ((s.spr[n]).pond.filter (fun i => !i.done)).foldl (fun a i => a + i.size) 0)).getD 0

/-- The working write pointer of SRAM pond `p`: the fill past the read pointer (R313). -/
def State.workingPointer (s : State) (p : Fin 86) : Nat := (s.readPtr[p] + s.sramFill p) % atLeast1 (s.pondSize p)

/-- The committed write pointer of SRAM pond `p`: the working one less the packet under way (R313, R314). -/
def State.committedPointer (s : State) (p : Fin 86) : Nat :=
  (s.readPtr[p] + (s.sramFill p - s.underWay p)) % atLeast1 (s.pondSize p)

/-- A reset of SRAM pond `p` was detected in this very cycle: a notice or a release that falls in it is lost (R317). -/
def State.resetNow (s : State) (p : Nat) : Bool := (s.resets.lookup p).any (fun r => r.1 == s.now)

/-- POND_PACKET_NOTICE: a producer completes a packet of `len` bytes in pond 64 + `p` (R314, R316); the transmit pond of a link that is down
discards it without a notice (R373), and a notice in the cycle of a pointer mismatch is lost (R317). Ponds 0 to 63 take their packets in the
commands of their owners. -/
def execPondPacketNotice (p : Fin 22) (len : Nat) (s : State) : Host.Outcome State Fault Refusal :=
  .next (s.whenOn fun s =>
    if (p.val < 8 ∧ s.linkDown p) ∨ s.resetNow (64 + p) then s
    else if s.packRoom p len then s.addPacket p len none
    else s)

/-- POND_PACKET_RELEASE: the consumer has read the oldest packet of pond 64 + `p`, once it sees its notice, and releases it as a whole: a
segment goes out on its link, and a completion item joins its stall's pond, whereupon its credit is free again (R304, R314, R315). A release
in the cycle of a pointer mismatch is lost (R317). -/
def execPondPacketRelease (p : Fin 22) (s : State) : Host.Outcome State Fault Refusal :=
  .next (s.whenOn fun s =>
    match s.netPonds[p] with
    | [] => s
    | h :: rest =>
      if s.now < h.seen ∨ s.resetNow (64 + p) then s
      else
        let s1 := ({ s with netPonds := vupd s.netPonds p (fun _ => rest) } : State).release (64 + p) (packFill [h])
        let s2 := match h.frame with
          | some f => s1.sendFrame p f
          | none => s1
        let s3 := match h.cpl with
          | some (t, it) => s2.takeCpl t it
          | none => s2
        s3.takeCredits)

/-! Pond resets (R317, Table 14.5). -/

/-- The lines of a Spring's pond are lost: their frames are truncated at the lowest line lost, with the Spring as the cause (R72).
Lines without numbers yet are lost at their places. -/
def State.resetIngress (s : State) (n : Fin 32) : State :=
  let items := (s.spr[n]).pond
  let lines := items.filter (fun i => !i.marker && i.numbered)
  let lowest := fun (f : Nat) => lines.foldl (fun (a : Option LineTag) i =>
    if i.tag.frame != f then a else match a with
      | some t => if isLater 48 t.count i.tag.count then some i.tag else some t
      | none => some i.tag) none
  let s1 := (s.onSpr n (fun x => { x with pond := [], cur := x.cur.map (fun c => { c with drop := true }), overWm := false })).raise (A.sprEvt n) 14
  match s.groupOf n with
  | none => s1
  | some g => forFin (fun (g : Fin 12) s =>
      let s2 := (s.inc (A.sprCntLinesDrop n) lines.length).onGrp g (fun x => { x with
        lost := x.lost ++ (items.filter (fun i => !i.marker && !i.numbered)).map (fun i =>
          { place := i.place, spring := n, vc := 0, dt := 0, at_ := s.now }) })
      forAll (fun t s => s.overflow g n t 0 0 s.now) ((lines.map (·.tag.frame)).eraseDups.filterMap lowest) s2) [g] s1

/-- The lines of a bar's line buffer are lost: their frames end at the lowest line lost, and the Seam Unit starts alignment again
(Table 14.5, R105). The buffer of a Lake-fed bar holds only what it measures (R120). -/
def State.resetSeam (s : State) (b : Fin 4) : State :=
  if !s.isInline b then s.onSeam b (fun x => { x with meas := x.meas.map (fun f => { f with rows := [] }) })
  else
  let x := s.seam[b]
  let d := (s.group b).depth
  let lost := ((x.hist.take (min x.seen d)).filter (fun l => !l.marker)).reverse ++ x.inq
  let frames := (lost.map (·.tag.frame)).eraseDups
  let s1 := s.onSeam b (fun y => { y with inq := [], hist := [], seen := 0, cut := frames.getLast? })
  forAll (fun (f : Nat) s =>
    match lost.find? (fun l => l.tag.frame == f) with
    | some l =>
      let s' := if (s.seam[b]).lastFrame = some f then s.endMeas b else s
      s'.markerAfter ⟨b.val, by omega⟩ l.tag (if l.marker then l.cause else 4)
    | none => s) frames s1

/-- The records of an output pond are lost: counted, the rest of the newest one's frame is discarded, and one truncation record
with cause 4 is pending from the first record lost on (Table 14.5, Table 17.4). A telemetry record has no frame of its own to name
(DESIGN CHOICE, assumption 107). -/
def State.resetOutput (s : State) (n : Fin 16) : State :=
  let lost := (s.out[n]).pond
  let s1 := ((s.onOut n (fun x => { x with pond := [] })).noteFull n).inc (A.outCntDrop n) lost.length
  let of_ := lost.filter (fun r => r.type != 4)
  match of_.head?, of_.getLast? with
  | some a, some z =>
    let last := of_.foldl (fun f r => if isLater 32 r.lastFrame f then r.lastFrame else f) a.lastFrame
    let s2 := s1.makePend n a.tag.frame a.tag.line a.fromCount 4
    let s3 := if last = a.tag.frame then s2 else s2.makePend n last z.tag.line a.fromCount 4
    let keep := match (s.out[n]).discard with
      | some f => if isLater 32 f z.tag.frame then f else z.tag.frame
      | none => z.tag.frame
    (s3.onOut n (fun x => { x with discard := some keep })).raise (A.outEvt n) 1
  | _, _ => if lost.isEmpty then s else s1.raise (A.outEvt n) 1

/-- The statistics records of a group's assembly pond are lost on every statistics stream (Table 14.5, R206). -/
def State.resetAssembly (s : State) (g : Fin 12) : State :=
  let lost := (s.tally[g]).closed
  forAll (fun (r : StatRec) s => forFin (fun n s => s.loseStats n r.frame) r.todo s) lost
    (s.onTally g (fun x => { x with closed := [] }))

/-- SRAM pond `p` is reset, and its owner reacts (R317, Table 14.5). -/
def State.resetPond (s : State) (p : Nat) : State :=
  let s1 := ((((s.zeroPointers p).inc A.pndCntResets).inc (A.pndpResets p)).wr A.pndStatus (wd p)).raise A.pndEvt 0
  let held := ((fin? 22 (p - 64)).map (fun i => (s.netPonds[i]).length)).getD 0
  let clear := fun (s : State) => forFin (fun (i : Fin 22) s => { s with netPonds := vupd s.netPonds i (fun _ => []) }) [p - 64] s
  if p < 32 then forFin (fun n s => s.resetIngress n) [p] s1
  else if p < 36 then forFin (fun b s => s.resetSeam b) [p - 32] s1
  else if p < 52 then
    forFin (fun n s => s.resetOutput n) ((List.range 16).filter (fun n => (s.stream n).exists_ && (s.stream n).pond == p)) s1
  else if p < 64 then forFin (fun g s => s.resetAssembly g) [p - 52] s1
  else if p < 74 then clear s1
  else if p < 84 then
    let l := linkPort (p - 74)
    (clear s1).inc (A.ethlCntRxDrop l.1 l.2) held
  else if p = 84 then s1
  else ((forAll (fun _ s => s.emit (.value 6 0)) (List.range held) (clear s1)).inc A.brgCntTmo held).setB A.brgEvt 0
    (s1.b A.brgEvt 0 || decide (0 < held))

/-- POND_POINTER_MISMATCH: the copies of a pointer of SRAM pond `p` differ (R317). -/
def execPondPointerMismatch (p : Fin 86) (s : State) : Host.Outcome State Fault Refusal := .next (s.whenOn fun s => s.resetPond p)

/-- A write of PND_INJECT (Table 14.6): another key, or a chain pond, has no effect. -/
def State.pondInject (s : State) (v : Word) : State := if fld v 31 16 = 0xD00D ∧ fld v 7 0 < 86 then s.resetPond (fld v 7 0) else s

/-- POND_INJECT (R317). -/
def execPondInject (v : Word) (s : State) : Host.Outcome State Fault Refusal := .next (s.whenOn fun s => s.pondInject v)

end Sys2Proof.Machine
end

