-- ==== Sys2Proof/Machine/Engine.lean ====
section
/-! DEFINITION. The Line Engine: ready work, the slot decision, the chain over a group line, the Lake copy (R123 to R140,
R405). -/

namespace Sys2Proof.Machine
open Sys2Proof

/-! The structure under which the engine works (R42). -/

/-- Run an operation on the heads of the ponds of group `g` under the structure of the lines there. -/
def State.inPonds (s : State) (g : Fin 12) (op : State → State) : State :=
  if s.pondsOld g then { op { s with str := s.sic.old } with str := s.str } else op s

/-- The state with the structure under which the engine works on group `g`. -/
def State.engView (s : State) (g : Fin 12) : State := if s.engOld g then { s with str := s.sic.old } else s

/-- Run an operation of the engine on group `g` under that structure. -/
def State.inView (s : State) (g : Fin 12) (op : State → State) : State :=
  if s.engOld g then { op { s with str := s.sic.old } with str := s.str } else op s

/-! Ready work (R126). -/

/-- A truncation lies between two lines that follow each other in the ponds. -/
def Group.broken (x : Group) (a b : LineTag) : Bool := x.cuts.any (fun c => !c.passed && c.after a && !c.after b)

/-- The lines of a list up to the first truncation between two of them. -/
def Group.unbroken (x : Group) : List GLine → List GLine
  | [] => []
  | [a] => [a]
  | a :: b :: l => if x.broken a.tag b.tag then [a] else a :: x.unbroken (b :: l)

/-- No further line follows the first `k` lines of the ponds of group `g`: a truncation or the group's stop does. -/
def State.endsAfter (s : State) (g : Fin 12) (k : Nat) : Bool :=
  let springs := (s.group g).springs
  let items : Nat → List Item := fun n => match fin? 32 n with
    | some n => (s.spr[n]).pond.filter (fun i => !i.marker)
    | none => []
  let cut := (s.grp[g]).cuts.any (fun c => !c.passed && springs.all (fun n =>
    decide (((items n).filter (fun i => i.numbered && c.after i.tag)).length ≤ k) && (s.trigTags n).all (fun t => !c.after t)))
  let stop := !s.anyEnabled g && springs.all (fun n =>
    decide (((items n).filter (·.numbered)).length ≤ k) && (s.trigTags n).isEmpty)
  cut || stop

/-- The lines at the heads of the ponds of the in-line bar that can be served now or serve as neighbours, up to the first
truncation: none while a swap holds them. -/
def State.pondLines (s : State) (g : Fin 12) (k : Nat) : List GLine :=
  let ls := (s.grp[g]).unbroken (s.heads g k)
  match ls with
  | [] => []
  | a :: _ => if s.swapHold g a.tag.frame then [] else ls

/-- The entries of a Lake region that are not yet served, up to and without the first marker. -/
def regionLines : List GLine → List GLine
  | [] => []
  | l :: ls => if l.marker then [] else l :: regionLines ls

/-- The unserved entries of the Lake region of group `g`. -/
def State.unserved (s : State) (g : Fin 12) : List GLine := (s.engs[g]).region.drop (s.engs[g]).served

/-- Nothing more comes into the region of group `g` after what it holds. -/
def State.regionEnds (s : State) (g : Fin 12) : Bool :=
  (s.unserved g).any (·.marker) || (!s.anyEnabled g && (s.engs[g]).copying.isEmpty && s.endsAfter g 0)

/-- The lines of group `g` in order of service, at most the next three, and whether no more line follows them without a
break. -/
def State.lineWindow (s : State) (g : Fin 12) : List GLine × Bool :=
  if s.isInline g then
    let ls := s.pondLines g 3
    (ls, decide (ls.length < (s.heads g 3).length) || s.endsAfter g ls.length)
  else
    let ls := regionLines (s.unserved g)
    (ls.take 3, s.regionEnds g)

/-- A swap holds a line of Lake-fed group `g` that stands in its region: its raw region, or an output pond of one of its enabled streams, is
not free yet (R44). -/
def State.lineHeld (s : State) (g : Fin 12) (l : GLine) : Bool :=
  s.swapHold g l.tag.frame || (!s.oldFrame g l.tag.frame && (List.range 16).any (fun n =>
    s.outOn n && (s.stream n).group == g.val && s.outHeld n))

/-- A swap holds the next line of Lake-fed group `g`, in its region or, when that holds none, at the heads of its ponds (R44). -/
def State.nextHeld (s : State) (g : Fin 12) : Bool :=
  match s.unserved g with
  | l :: _ => s.lineHeld g l
  | [] => (s.engs[g]).copying.isEmpty && (s.heads g 1).any (fun l => s.swapHold g l.tag.frame)

/-- The group is blocked: an output pond of one of its enabled streams has too little room, or a swap holds its next line
(R44, R130). -/
def State.isBlocked (s : State) (g : Fin 12) : Bool := !s.isInline g && (s.pondBlocked g || s.nextHeld g)

/-- The seam line buffer of the in-line bar has room for its next line in the Line Engine's view: a word write waits for it (R315,
R316). -/
def State.seamRoom (s : State) (g : Fin 12) (l : GLine) : Bool :=
  match fin? 4 g.val with
  | some b => !s.isInline g ||
      decide (s.seamFill b + s.unseen (32 + b) + s.seamBytes b none { tag := l.tag, parts := l.parts } ≤ s.sramSize (32 + b))
  | none => true

/-- The accumulator samples for a segment of `k` samples of a line of Lake-fed bar `g` have arrived (R126). -/
def State.accHere (s : State) (g : Fin 12) (l : GLine) (pos k : Nat) : Bool :=
  !s.tnrOn g || decide (min l.samples (pos + k) ≤ ((s.engs[g]).arrived.lookup l.tag.count).getD 0)

/-- The ready lines of group `g`: their two following lines are complete or not to come, and a Lake-fed group's are neither blocked nor, for a
bar, short of the accumulator samples of their next segment (R126, R130). -/
def State.readyLines (s : State) (g : Fin 12) : List GLine :=
  if s.isInline g then
    let ls := s.pondLines g 4096
    if decide (ls.length < (s.heads g 4096).length) || s.endsAfter g ls.length then ls else ls.take (ls.length - 2)
  else if (s.engs[g]).blocked then []
  else
    let all := regionLines (s.unserved g)
    let ls := if s.regionEnds g then all else all.take (all.length - 2)
    ls.zipIdx.filterMap (fun x =>
      if !s.lineHeld g x.1 && s.accHere g x.1 (if x.2 = 0 then (s.engs[g]).pos else 0) 12288 then some x.1 else none)

/-- LE_Gg_BACKLOG: the ready group lines not yet served (R134). -/
def State.readyCount (s : State) (g : Fin 12) : Nat := (s.readyLines g).length

/-- The next line of group `g` is ready to have a segment of up to `k` samples served (R126). -/
def State.readyLine (s : State) (g : Fin 12) (k : Nat := 12288) : Option GLine :=
  let (ls, last) := s.lineWindow g
  match ls with
  | [] => none
  | l :: _ =>
    if ls.length < 3 && !last then none
    else if s.isInline g then some l
    else if (s.engs[g]).blocked || s.lineHeld g l || !s.accHere g l (s.engs[g]).pos k then none
    else some l

/-- The instant at which each line of group `g` became ready is kept until it is served (R136). -/
def State.noteReady (s : State) (g : Fin 12) : State :=
  let ls := s.readyLines g
  s.onEng g (fun e => { e with ready := ls.map (fun l => (l.tag.count, (e.ready.lookup l.tag.count).getD s.now)) })

/-! The chain over one group line. -/

/-- Tags that a group line carries at the taps: those of the line at position 0, which no block stamps again (R21). -/
def tapTagOf (l : GLine) : LineTag :=
  match l.parts.head? with
  | some p => { p.tag with frame := l.tag.frame, line := l.tag.line, gen := l.tag.gen, count := l.tag.count }
  | none => l.tag

/-- What happens at a group line's entry to the chain, before its samples (R142, R183): at a frame's first line the TNR updates for it and then
commits on a frame boundary, so that a field that the commit writes takes its value (R118, R154); else commits on a line boundary. -/
def State.chainBoundary (s : State) (g : Fin 12) (t : LineTag) : State :=
  if (s.engs[g]).frame = some t.frame then (if s.commitDue (A.corCommit g) false then s.corTake g false else s)
  else
    let s0 := match fin? 4 g.val with
      | some b => if s.tnrOn b then s.tnrApply b t.frame else s
      | none => s
    let s1 := if s0.commitDue (A.corCommit g) true then s0.corTake g true else s0
    let s2 := ((s1.tallyEnds g t.frame false).tallyBegin g t).forgetCuts g t.frame
    s2.onEng g (fun e => { e with frame := some t.frame })

/-- A group line passes the chain up to stitching: the taps and counts before it, and then the Seam Unit's queue for a bar,
the later stages for an auxiliary group (Table 7.1). `after` are the following raw lines, `from_` the start of its latency. -/
def State.chainLine (s : State) (g : Fin 12) (l0 : GLine) (after : List GLine) (from_ : Nat) : State :=
  let s0 := s.chainBoundary g (tapTagOf l0)
  let e := s0.engs[g]
  let mine := fun (r : List (Nat × Nat × Nat)) => (r.filter (fun x => x.1 == l0.tag.count)).map (·.2)
  let l := { l0 with parts := poisonParts l0.parts (mine e.eccBad) }
  let ch := (s0.group g).channels
  let nr := if s0.b (A.corCtl g) 0 then (s0.nrPar g).line e.hist after l else l
  let (r, s1) : TnrLine × State := match fin? 4 g.val with
    | some b => s0.tnrStage b nr e.skip e.segs
    | none => (({ line := nr, dev := nr.parts.map (fun p => { p with chans := p.chans.map (fun c => c.map (fun _ => 0)) }), flags := 0,
                  byp := List.replicate ch 0 } : TnrLine), s0)
  let skip := !e.skip.isEmpty
  let s2 := if skip then (s1.inc (A.legTnrSkip g)).raise (A.legEvt g) 4 else s1
  let own := r.flags ||| (if skip then 32 else 0)
  let flags := partFlags l.parts ||| own
  let tag := tapTagOf l
  let t0 := sideBySide ch tag flags r.line.parts
  let s3 := ((s2.toStreams g 0 t0).tallyTap g 0 t0).toStreams g 5 (sideBySide ch tag flags r.dev)
  let ff := if s3.b (A.corCtl g) 2 then r.line.parts.map (s3.ffPart g) else r.line.parts
  let df := if s3.b (A.corCtl g) 3 then ff.map (s3.defPart g) else ff
  let t1 := sideBySide ch tag flags df
  let s4 := (s3.toStreams g 1 t1).tallyTap g 1 t1
  let sat := (List.range ch).map (fun c => l.parts.foldl (fun a p => a + p.satIn.getD c 0) 0)
  let s5 := (s4.tallyChain g l.tag.frame flags sat r.byp (r.flags.testBit 6)).onEng g (fun e => { e with
    hist := (l0 :: e.hist).take 2, pos := 0, skip := [], segs := []
    eccBad := e.eccBad.filter (fun x => x.1 != l0.tag.count)
    arrived := e.arrived.filter (fun x => x.1 != l0.tag.count), ready := e.ready.filter (fun x => x.1 != l0.tag.count) })
  let s6 := match fin? 4 g.val with
    | some b => if (s5.tnr[b]).resetFrame = some l.tag.frame then s5.onAcc g l.tag.frame (fun a => { a with reset := true }) else s5
    | none => s5
  match fin? 4 g.val with
  | some b =>
    let v := s6.notice (32 + b)
    let line : SeamLine := {
      tag := tag, parts := df.map (fun (p : Part) => { p with flags := p.flags ||| own }), post := s6.postSet g, at_ := from_, seen := v.1 }
    let s7 := v.2.onSeam b (fun x => { x with inq := x.inq ++ [line] })
    s7.peak (A.pndpPeak (32 + b)) (s7.seamFill b)
  | none => (s6.afterStitch g (s6.postSet g) t1).latency g from_

/-- The line served last leaves its pond or region (R126, Lake-fed groups). -/
def State.freeLine (s : State) (g : Fin 12) : State :=
  if s.isInline g then s.popGroup g
  else
    let keep := if g.val < 4 then (s.group g).depth + 2 else 0
    s.onEng g (fun e =>
      let n := e.served + 1
      { e with region := e.region.drop (n - keep), served := min n keep })

/-- A truncation marker of group `g` passes the chain: the history breaks there (R144), the taps before stitching and the
Tally see it, and a bar's marker goes on to the Seam Unit. -/
def State.chainMarker (s : State) (g : Fin 12) (t : LineTag) (cause : Nat) : State :=
  let s1 := s.onEng g (fun e => { e with hist := [], pos := 0, skip := [], segs := [] })
  let s2 := ((([0, 5, 1].foldl (fun s tap => s.markStreams g tap t cause) s1).tallyEnds g t.frame false).tallyOpen g t.frame).tallyMarker g
    t cause false
  match fin? 4 g.val with
  | some b => s2.onSeam b (fun x => { x with inq := x.inq ++ [{ tag := t, marker := true, cause := cause, at_ := s.now }] })
  | none => s2.markerAfter g t cause

/-- Markers at the head of the work of group `g` pass. -/
def State.passMarkers : Nat → Fin 12 → State → State
  | 0, _, s => s
  | k + 1, g, s =>
    if s.isInline g then
      (match s.markerDue g with
      | none => s
      | some c =>
        State.passMarkers k g ((s.passMarker g c.frame).chainMarker g { frame := c.frame, line := c.l, count := c.count } 1))
    else
      match s.unserved g with
      | [] => s
      | l :: _ =>
        if !l.marker then s
        else
          let s1 := s.onEng g (fun e => { e with region := e.region.eraseIdx e.served })
          State.passMarkers k g (s1.chainMarker g l.tag l.cause)

/-- A range of late samples joins those before it (R132). -/
def joinRange (l : List (Nat × Nat)) (a b : Nat) : List (Nat × Nat) :=
  match l.getLast? with
  | some r => if r.2 = a then l.dropLast ++ [(r.1, b)] else l ++ [(a, b)]
  | none => [(a, b)]

/-- serve(g): the next samples of the group's ready work, up to `budget` (R128). -/
def State.serve : Nat → Fin 12 → Nat → State → State
  | 0, _, _, s => s
  | fuel + 1, g, budget, s0 =>
    let s := s0.inView g (fun s => s.passMarkers 16 g)
    let v := s.engView g
    match v.readyLine g budget with
    | none => s
    | some l =>
      if budget = 0 || !v.seamRoom g l then s
      else
        let e := s.engs[g]
        let total := l.samples
        let k := min budget (total - e.pos)
        let late := v.isInline g && v.tnrOn g && decide ((e.arrived.lookup l.tag.count).getD 0 < e.pos + k)
        let s1 := s.onEng g (fun e => { e with
          pos := e.pos + k, segs := e.segs ++ [(e.pos, e.pos + k)], skip := if late then joinRange e.skip e.pos (e.pos + k) else e.skip })
        let s2 := ({ s1 with engine := { s1.engine with samples := s1.engine.samples + k } }).inc64 (A.legSamplesLo g) (A.legSamplesHi g) k
        if e.pos + k < total then s2
        else
          let win := (v.lineWindow g).1
          let from_ := if v.isInline g then l.tag.cycle else (e.ready.lookup l.tag.count).getD s.now
          let s3 := s2.inView g (fun s => (s.chainLine g l (win.drop 1) from_).freeLine g)
          State.serve fuel g (budget - k) s3

/-! The slot decision (R127 to R130). -/

/-- CALENDAR(i): the group that owns a slot. -/
def State.slotOwner (s : State) (i : Nat) : Option Nat := s.str.calendar.getD i none

/-- RELEASE of a group; it has no effect on the in-line bar. -/
def State.released (s : State) (g : Nat) : Bool := !s.isInline g && s.b (A.legCtl g) 0

/-- Group `g` has ready work. -/
def State.isReady (s : State) (g : Nat) : Bool :=
  match fin? 12 g with
  | some g => ((s.engView g).readyLine g).isSome
  | none => false

/-- The state with the structure under which the engine works on group `g`, for a group number. -/
def State.engSees (s : State) (g : Nat) : State :=
  match fin? 12 g with
  | some i => s.engView i
  | none => s

/-- The groups on which the engine works: those defined, those of the old structure whose lines are still on their way, and those active
(R42, R129). -/
def State.engGroups (s : State) : List Nat :=
  (List.range 12).filter (fun g => (s.engSees g).defined g || ((fin? 12 g).map (fun i => (s.grp[i]).active)).getD false)

/-- The group that a released or free slot `i` serves: a Lake-fed group, of the old structure while its lines are there (R42, R127). -/
def State.releaseTo (s : State) (i : Nat) : Option Nat :=
  let fed := fun (g : Nat) => (s.engSees g).defined g && !(s.engSees g).isInline g
  match (List.range 256).find? (fun k => match s.slotOwner ((i + k + 1) % 256) with
      | some g => fed g && !s.released g && s.isReady g
      | none => false) with
  | some k => s.slotOwner ((i + k + 1) % 256)
  | none => (List.range 12).find? (fun g => fed g && s.isReady g && (s.released g || s.str.owned g == 0))

/-- The group that slot `i` serves, and whether as its owner. -/
def State.slotGroup (s : State) (i : Nat) : Option (Nat × Bool) :=
  let rel := (s.releaseTo i).map (fun g => (g, false))
  match s.slotOwner i with
  | none => rel
  | some o =>
    if s.isInline o then (if s.isReady o then some (o, true) else rel)
    else if !s.released o && s.isReady o then some (o, true) else rel

/-- The lines of a free-running group are counted anew from its next start: lines that never got a number go (R67, R76). -/
def State.forgetPlaces (s : State) (g : Fin 12) : State :=
  let s1 := forFin (fun (n : Fin 32) s => (s.shrinkPond n ((s.spr[n]).pond.filter (fun i => i.marker || i.numbered))).onSpr n (fun x => { x with
    started := 0 })) (s.group g).springs s
  s1.onGrp g (fun x => { x with refTags := [], refLines := 0, lost := [] })

/-- Every Spring of the group is disabled and its ready work has drained (R129). -/
def State.drained (s : State) (g : Fin 12) : Bool :=
  !s.anyEnabled g && s.endsAfter g 0 && (s.unserved g).isEmpty && (s.engs[g]).copying.isEmpty &&
    (s.group g).springs.all (fun n => match fin? 32 n with
      | some n => (s.spr[n]).pond.all (fun i => !i.marker && !i.numbered)
      | none => true) && (match fin? 4 g.val with
        | some b => (s.seam[b]).inq.isEmpty
        | none => true)

/-- The discard of a full region ends: LINES_DROP takes the lines of the frame from L to its end, where the running line count is that of the
next frame's first line, or the group's where the frame is its last (R135). -/
def State.endFull (s : State) (g : Fin 12) : State :=
  match (s.engs[g]).full with
  | none => s
  | some (f, _, c) =>
    let x := s.grp[g]
    let stop := match x.infos.find? (fun i => i.frame == (f + 1) % 2 ^ 32) with
      | some i => i.first.count
      | none => x.count
    (s.onEng g (fun e => { e with full := none })).inc (A.legLinesDrop g) ((stop + 2 ^ 48 - c) % 2 ^ 48)

/-- The structure under which group `g` stops: the old one until its mark has passed and its old lines are through (R42, R129). -/
def State.stopView (s : State) (g : Fin 12) (op : State → State) : State :=
  if s.engOld g || (s.passing && s.sic.awaiting.contains g.val) then { op { s with str := s.sic.old } with str := s.str } else op s

/-- A group whose Springs are all disabled and whose work has drained is no longer active; its context and the Seam Unit start
anew with its next line (R105, R129). -/
def State.settleActive (s : State) (g : Fin 12) : State :=
  if !s.drained g then s
  else
    let s0 := s.forgetPlaces g
    if !(s.grp[g]).active then s0
    else
      let s1 := (((s0.endFull g).onGrp g (fun x => { x with active := false })).noteRun s).onEng g (fun e => { e with
        hist := [], pos := 0, skip := [], segs := [], full := none })
      match fin? 4 g.val with
      | some b => (s1.onSeam b (fun x => { x with hist := [], seen := 0 })).seamRelease b (s1.seamFill b)
      | none => s1

/-- BLOCKED of group `g` at the start of a slot (R130). -/
def State.noteBlocked (s : State) (g : Fin 12) : State :=
  let b := s.isBlocked g
  let old := (s.engs[g]).blocked
  let s1 := s.onEng g (fun e => { e with blocked := b })
  if b && !old then s1.raise (A.legEvt g) 3 else s1

/-- The backlog of group `g`: its peak and watermark (R134). A backlog that reaches WM crosses it, and so does a standing one when WM is written
at or below it (DESIGN CHOICE, assumption 45). -/
def State.noteBacklog (s : State) (g : Fin 12) : State :=
  let n := s.readyCount g
  let wm := s.f (A.legBacklogWm g) 23 0
  let above := decide (wm ≠ 0) && decide (wm ≤ n)
  let s1 := (s.peak (A.legBacklogPeak g) n).onEng g (fun e => { e with overWm := above })
  if above && !(s.engs[g]).overWm then s1.raise (A.legEvt g) 2 else s1

/-- A line of group `g` waits for a swap, at the heads of its ponds or in its region, beyond the wait of at most a round for Switch
(R43, R44). -/
def State.noteWait (s : State) (g : Fin 12) : State :=
  let live := s.passing || s.sic.force
  let pond := (s.heads g 1).any (fun l => s.swapHold g l.tag.frame)
  let region := !s.isInline g && ((s.unserved g).take 1).any (s.lineHeld g)
  if live && (pond || region) then s.waited else s

/-- The lines that have become ready by this cycle are noted (R136). -/
def State.stampReady (s : State) : State :=
  forFin (fun (g : Fin 12) s => s.inView g (fun s => if s.isInline g then s else s.noteReady g)) s.engGroups s

/-- Slot `i` begins: markers at the heads pass, and what is blocked, ready, backlogged and held is noted of every group (R130, R134, R136). -/
def State.beginSlot (s : State) (i : Nat) : State :=
  let s1 := forFin (fun (g : Fin 12) s => s.inView g (fun s =>
    (((((s.purge g).passMarkers 16 g).noteBlocked g).noteReady g).noteBacklog g).noteWait g)) s.engGroups s
  let s2 := match s1.slotOwner i with
    | some o => (match fin? 12 o with
      | some g => if (s1.engs[g]).blocked then s1.onEng g (fun e => { e with blk := e.blk + 1 }) else s1
      | none => s1)
    | none => s1
  { s2 with engine := { s2.engine with slot := i + 1 } }

/-- SLOT_DECISION: the next slot of the round begins, and the group it serves has up to 12,288 samples processed (R127, R128). -/
def execSlotDecision (s : State) : Host.Outcome State Fault Refusal :=
  .next (s.whenOn fun s =>
    if 256 ≤ s.engine.slot then s
    else
      let i := s.engine.slot
      let s3 := s.beginSlot i
      let s4 := match s3.slotGroup i with
        | none => { s3 with engine := { s3.engine with idle := s3.engine.idle + 1 } }
        | some (g, own) => (match fin? 12 g with
          | none => s3
          | some g =>
            (s3.onEng g (fun e => if own then { e with own := e.own + 1 } else { e with extra := e.extra + 1 })).serve 12289 g 12288)
      forFin (fun (g : Fin 12) s => (s.inView g (fun s => s.noteBacklog g)).stopView g (fun s => s.settleActive g)) s4.engGroups s4)

/-! The copy to the Lake (R134, R135, R405). -/

/-- C(g): group lines that the Lake region of group `g` holds (R134). -/
def State.regionLines (s : State) (g : Nat) : Nat :=
  if s.isInline g then 0
  else match s.region 2 g with
    | none => 0
    | some r => r.size / atLeast1 ((s.group g).springs.foldl (fun a n => a + s.itemSize n (s.group g).channels) 0)

/-- A marker joins what goes to the region of group `g`. -/
def State.copyMarker (s : State) (g : Fin 12) (t : LineTag) (cause : Nat) : State :=
  let m : GLine := { tag := t, marker := true, cause := cause, at_ := s.now }
  s.onEng g (fun e => if e.copying.isEmpty then { e with region := e.region ++ [m] } else { e with copying := e.copying ++ [m] })

/-- Frame `f` is in the discard of a full region (R135). -/
def EngG.discards (e : EngG) (f : Nat) : Bool := match e.full with
  | some (u, _, _) => u == f
  | none => false

/-- The group line at the heads of the ponds of Lake-fed group `g` goes to the region, or finds it full (R135). -/
def State.copyLine (s0 : State) (g : Fin 12) (l : GLine) : State :=
  if (s0.engs[g]).discards l.tag.frame then s0.popGroup g
  else
    let s := s0.endFull g
    let e := s.engs[g]
    let shared := s.sic.old.regions 2 g == s.sic.next.regions 2 g
    let used := ((e.region ++ e.copying).filter (fun x =>
      !x.marker && (shared || s.oldFrame g x.tag.frame == s.oldFrame g l.tag.frame))).length
    if s.regionLines g ≤ used then
      let s2 := s.onEng g (fun e => { e with full := some (l.tag.frame, l.tag.line, l.tag.count) })
      let s3 := s2.copyMarker g { frame := l.tag.frame, line := l.tag.line, count := l.tag.count } 2
      ((s3.inc (A.legTrunc g)).raise (A.legEvt g) 0).popGroup g
    else (s.onEng g (fun e => { e with copying := e.copying ++ [l] })).popGroup g

/-- LAKE_LINE_COPY: what stands at the heads of the ponds of Lake-fed group `g`, a truncation marker or a group line, goes to its Lake region;
a line that a swap holds waits (R44, R135). -/
def execLakeLineCopy (g : Fin 12) (s : State) : Host.Outcome State Fault Refusal :=
  .next (s.whenOn fun s => s.inPonds g fun s0 =>
    let s := s0.purge g
    if !s.defined g || s.isInline g then s
    else match s.markerDue g with
    | some c =>
      let s1 := s.passMarker g c.frame
      let s2 := if (s1.engs[g]).discards c.frame then s1 else s1.endFull g
      (s2.copyMarker g { frame := c.frame, line := c.l, count := c.count } 1).noteReady g
    | none => match (s.heads g 1).head? with
      | none => s
      | some l => if s.swapHold g l.tag.frame then s else s.underFrame g l.tag.frame (fun s => (s.copyLine g l).noteReady g))

/-- The leading markers of a list and the rest. -/
def leadMarkers : List GLine → List GLine × List GLine
  | [] => ([], [])
  | l :: ls => if l.marker then let r := leadMarkers ls; (l :: r.1, r.2) else ([], l :: ls)

/-- LAKE_COPY_DONE: the Lake has accepted the last write of the oldest copy of group `g` (R405). -/
def execLakeCopyDone (g : Fin 12) (s : State) : Host.Outcome State Fault Refusal :=
  .next (s.whenOn fun s =>
    match (s.engs[g]).copying with
    | [] => s
    | l :: rest =>
      let r := leadMarkers rest
      (s.onEng g (fun e => { e with region := e.region ++ { l with at_ := s.now } :: r.1, copying := r.2 })).inView g
        (fun s => (s.noteReady g).noteBacklog g))

/-- TNR_READ_ARRIVE: the first `k` accumulator samples of the line with running count `count` have arrived for bar `b`
(R132). -/
def execTnrReadArrive (b : Fin 4) (count : BitVec 48) (k : Nat) (s : State) : Host.Outcome State Fault Refusal :=
  .next (s.whenOn fun s =>
    let g : Fin 12 := ⟨b.val, by omega⟩
    (s.onEng g (fun e =>
      let old := (e.arrived.lookup count.toNat).getD 0
      { e with arrived := (count.toNat, max old k) :: e.arrived.filter (fun x => x.1 != count.toNat) })).inView g (fun s => s.noteReady g))

/-- TNR_RESET_EFFECT: when the next group line of bar `b` begins a frame, a pending accumulator reset takes effect (R155). -/
def execTnrResetEffect (b : Fin 4) (s : State) : Host.Outcome State Fault Refusal :=
  .next (s.whenOn fun s =>
    let g : Fin 12 := ⟨b.val, by omega⟩
    match (s.engView g).readyLine g with
    | some l => if (s.tnr[b]).frame = some l.tag.frame then s else s.tnrResetEffect b
    | none => s)

/-- TNR_ADAPT_APPLY: when the next group line of bar `b` begins a frame, the values for it come into force (R152). -/
def execTnrAdaptApply (b : Fin 4) (s : State) : Host.Outcome State Fault Refusal :=
  .next (s.whenOn fun s =>
    let g : Fin 12 := ⟨b.val, by omega⟩
    match (s.engView g).readyLine g with
    | some l => if (s.tnr[b]).frame = some l.tag.frame then s else s.tnrApply b l.tag.frame
    | none => s)

/-! Rounds (R123, R139). -/

/-- The window counters are latched (R139). -/
def State.latchWindow (s : State) : State :=
  let e := s.engine
  let cap := 12288 * 256 * e.rounds
  let s1 := ((s.wr A.leUtil (wd (min 65535 ((e.samples * 131072 + cap) / (2 * atLeast1 cap))))).wr A.leIdleSlots (wd (min 0xFFFFFFFF e.idle))).raise A.leEvt 0
  let s2 := forFin (fun (g : Fin 12) s =>
    let x := s.engs[g]
    (((s.wr (A.legSlotsOwn g) (wd x.own)).wr (A.legSlotsExtra g) (wd x.extra)).wr (A.legSlotsBlocked g) (wd x.blk)).onEng g
      (fun y => { y with own := 0, extra := 0, blk := 0 })) (List.range 12) s1
  { s2 with engine := { s2.engine with rounds := 0, idle := 0, samples := 0 } }

/-- Rounds with a TNR quantity pressing (R154). -/
def State.countTnrPress (s : State) : State :=
  forFin (fun (b : Fin 4) s =>
    let p := (s.tnr[b]).press
    let s1 := if p.testBit 0 then s.inc (A.corTnrPressShift b) else s
    if p / 16 % 256 ≠ 0 then s1.inc (A.corTnrPressNoise b) else s1) (List.range 4) s

/-- A round ends: the round count, the pressing counters and the utilisation window (R116, R123, R139, R154, R246). -/
def State.endRound (s : State) : State :=
  let s1 := s.inc64 A.leRoundLo A.leRoundHi 1
  let s2 := ((s1.countSeamPress).countTnrPress).countTrimPress
  let s3 := { s2 with engine := { s2.engine with slot := 0, rounds := s2.engine.rounds + 1 } }
  if atLeast1 (s3.f A.leUtilWin 15 0) ≤ s3.engine.rounds then s3.latchWindow else s3

end Sys2Proof.Machine
end

