-- ==== Sys2Proof/Machine/Swap.lean ====
section
/-! DEFINITION. The structure image controller: slots, loading, checks, keys, and the hitless swap (R36 to R53). -/

namespace Sys2Proof.Machine
open Sys2Proof

/-! Slots (R38, R39, Table 2.9). -/

/-- Slot A or B. -/
def State.slot (s : State) (b : Bool) : Slot := if b then s.sic.slotB else s.sic.slotA

/-- A slot changes. -/
def State.onSlot (s : State) (b : Bool) (f : Slot → Slot) : State :=
  { s with sic := if b then { s.sic with slotB := f s.sic.slotB } else { s.sic with slotA := f s.sic.slotA } }

/-- A slot takes a state. -/
def State.setSlot (s : State) (b : Bool) (x : SlotState) : State := s.onSlot b (fun y => { y with state := x, cut := false })

/-- A load, a copy or a check of a slot is cut short and leaves it INVALID (R39). -/
def State.cutSlot (s : State) (b : Bool) : State := s.onSlot b (fun y => { y with state := .invalid, cut := true })

/-- SIC_ERR is written (Table 2.10). -/
def State.sicErr (s : State) (code : Nat) (sec detail : Nat := 0) : State :=
  s.wr A.sicErr (wd (detail % 65536 * 2 ^ 16 + sec % 256 * 2 ^ 8 + code % 256))

/-- A command is accepted: its code stands in SIC_STATUS.LAST (Table 2.8). -/
def State.sicLast (s : State) (code : Nat) : State := s.wr A.sicStatus (wd (code % 16 * 16))

/-- A commit is in Prepare, Armed, Switch or Settle. -/
def State.committing (s : State) : Bool :=
  match s.sic.phase with
  | .idle | .probation => false
  | _ => true

/-- SIC_STATUS.BUSY (Table 2.8). -/
def State.sicBusy (s : State) : Bool := s.sic.busy != .none || s.committing

/-- The named slot is the active one. -/
def State.isActive (s : State) (b : Bool) : Bool := !s.str.bare && s.sic.activeB == b

/-- What turns away every command but ABORT: BUSY (R52); in Probation, BAD_STATE (R49). -/
def State.sicGate (s : State) (f : State → State) : State :=
  if s.sicBusy then s.sicErr 0x20 else if s.sic.phase == .probation then s.sicErr 0x26 else f s

/-- A command that names a slot: the active one is refused with BAD_STATE (R38). -/
def State.slotGate (s : State) (b : Bool) (f : State → State) : State :=
  s.sicGate fun s => if s.isActive b then s.sicErr 0x26 else f s

/-- SIC_CMD ERASE of a slot; during LOADING, or a COPY or CHECK of the slot, it ends that and leaves the slot INVALID (R38, R39; the case
that R39 names comes before R52, assumption 25). -/
def State.sicErase (s : State) (b : Bool) : State :=
  if s.sic.busy = .copy b ∨ s.sic.busy = .check b then
    let s1 := (s.sicLast 1).cutSlot b
    { s1 with sic := { s1.sic with busy := .none } }
  else s.slotGate b fun s =>
    if (s.slot b).state = .loading then (s.sicLast 1).cutSlot b
    else { s.sicLast 1 with sic := { s.sic with busy := .erase b } }

/-- ERASE. -/
def execErase (b : Bool) (s : State) : Host.Outcome State Fault Refusal := .next (s.whenOn fun s => s.sicErase b)

/-- ERASE_DONE: an erase completes, and the slot is EMPTY (R38). -/
def execEraseDone (s : State) : Host.Outcome State Fault Refusal :=
  .next (s.whenOn fun s =>
    match s.sic.busy with
    | .erase b => { s.onSlot b (fun _ => {}) with sic := { (s.onSlot b (fun _ => {})).sic with busy := .none } }
    | _ => s)

/-- The load offset takes a value, which SIC_LOAD_OFS shows in its field. -/
def State.setLoadOfs (s : State) (o : Nat) : State :=
  { s.wr A.sicLoadOfs (wd (o % 2 ^ 23 / 4 * 4)) with sic := { s.sic with loadOfs := o } }

/-- SIC_CMD BEGIN_LOAD of a slot (R38). -/
def State.sicBegin (s : State) (b : Bool) : State :=
  s.slotGate b fun s =>
    let s1 := ((s.sicLast 2).onSlot b (fun _ => { state := .loading, bytes := [], loaded := 0 })).setLoadOfs 0
    { s1 with sic := { s1.sic with loadB := b } }

/-- BEGIN_LOAD. -/
def execBeginLoad (b : Bool) (s : State) : Host.Outcome State Fault Refusal := .next (s.whenOn fun s => s.sicBegin b)

/-- Bytes stored in a slot from an offset. -/
def slotStore : List Host.Cell → Nat → Bytes → List Host.Cell
  | m, _, [] => m
  | m, o, b :: bs => slotStore (cellSet lakeDef m o b) (o + 1) bs

/-- A write of SIC_LOAD_DATA stores four bytes at the offset and advances it, or is discarded with BAD_STATE (R38, R39): outside LOADING,
beyond the slot's end, or while a COPY fills the slot (assumption 26). -/
def State.loadData (s : State) (v : Word) : State :=
  let b := s.sic.loadB
  let o := s.sic.loadOfs
  if (s.slot b).state ≠ .loading ∨ 8388604 < o ∨ s.sic.busy = .copy b then s.sicErr 0x26
  else (s.onSlot b (fun x => { x with bytes := slotStore x.bytes o (leBytes 4 v.toNat), loaded := max x.loaded (o + 4) })).setLoadOfs (o + 4)

/-- SIC_LOAD_DATA_WRITE. -/
def execSicLoadDataWrite (v : Word) (s : State) : Host.Outcome State Fault Refusal := .next (s.whenOn fun s => s.loadData v)

/-- The source of an image copy lies in a readout buffer (Table 11.2). -/
def State.copyReach (s : State) (a n : Nat) : Bool := s.str.lake.any (fun r => r.kind == 5 && r.holds a n)

/-- SIC_CMD COPY into a slot, which is LOADING until END_LOAD (R38). A length of 0 or above 8 MiB is refused with BAD_STATE. -/
def State.sicCopy (s : State) (b : Bool) : State :=
  s.slotGate b fun s =>
    let n := (s.rd A.sicCopyLen).toNat
    if n = 0 ∨ 8388608 < n then s.sicErr 0x26
    else
      let s1 := (s.sicLast 3).onSlot b (fun _ => { state := .loading, bytes := [], loaded := 0 })
      { s1 with sic := { s1.sic with busy := .copy b, loadB := b, copyLen := n
                                     copySrc := (s.rd A.sicCopySrcHi).toNat * 2 ^ 32 + (s.rd A.sicCopySrcLo).toNat } }

/-- COPY. -/
def execCopy (b : Bool) (s : State) : Host.Outcome State Fault Refusal := .next (s.whenOn fun s => s.sicCopy b)

/-- COPY_DONE: the copy completes; or it ends, because its source is outside the readout buffers or a codeword of it has an
uncorrectable error, and leaves the slot INVALID (R38, R39, R248, Table 11.3). `ecc` gives the outcomes of the codewords read. -/
def execCopyDone (ecc : List (Nat × Ecc)) (s : State) : Host.Outcome State Fault Refusal :=
  .next (s.whenOn fun s =>
    match s.sic.busy with
    | .copy b =>
      let a := s.sic.copySrc
      let n := s.sic.copyLen
      let s1 := { s with sic := { s.sic with busy := .none } }
      if !s1.copyReach a n then s1.fence.cutSlot b
      else
        let r := s1.fetchLake a n ecc
        if r.1 < n then r.2.cutSlot b
        else (r.2.onSlot b (fun x => { x with bytes := slotStore [] 0 (r.2.lakeRead a n), loaded := n })).setLoadOfs n
    | _ => s)

/-- SIC_CMD END_LOAD (R38). -/
def State.sicEndLoad (s : State) (b : Bool) : State :=
  s.slotGate b fun s => if (s.slot b).state = .loading then (s.sicLast 4).setSlot b .loaded else s.sicErr 0x26

/-- END_LOAD. -/
def execEndLoad (b : Bool) (s : State) : Host.Outcome State Fault Refusal := .next (s.whenOn fun s => s.sicEndLoad b)

/-- The bytes of a public-key slot. -/
def State.keyBytes (s : State) (k : Nat) : Bytes := (List.range 8).flatMap (fun i => leBytes 4 (s.rd (A.sicPubkey (8 * k + i))).toNat)

/-- The checks of Table 2.4 on a slot, against the hardware as found (R40). -/
def State.checkSlot (s : State) (b : Bool) : Check :=
  checkImage (s.slot b).bytes (s.slot b).loaded s.power.stepping (s.rd A.sicSerialFloor).toNat s.lakeCap s.lakeSustained
    s.keyBytes

/-- The structure of a slot's image. -/
def State.slotStructure (s : State) (b : Bool) : Structure :=
  let cells := (s.slot b).bytes
  let hd := slotBytes cells 0 128
  let img := slotBytes cells 0 (leAt hd 8 4)
  decodeStructure img (leAt hd 4 2 == 2) (directory img (leAt hd 0x1C 4) (leAt hd 0x18 2))

/-- SERIAL of a slot's image. -/
def State.slotSerial (s : State) (b : Bool) : Nat := ofLe (slotBytes (s.slot b).bytes 0x10 4)

/-- SIC_CMD CHECK of a slot that holds an image (R38, R40). -/
def State.sicCheck (s : State) (b : Bool) : State :=
  s.slotGate b fun s =>
    match (s.slot b).state with
    | .loaded | .valid | .invalid =>
      let s1 := (s.sicLast 5).setSlot b .checking
      { s1 with sic := { s1.sic with busy := .check b } }
    | _ => s.sicErr 0x26

/-- CHECK. -/
def execCheck (b : Bool) (s : State) : Host.Outcome State Fault Refusal := .next (s.whenOn fun s => s.sicCheck b)

/-- CHECK_DONE: the slot is VALID or INVALID, and SIC_ERR tells the failure, or none (R40). -/
def execCheckDone (s : State) : Host.Outcome State Fault Refusal :=
  .next (s.whenOn fun s =>
    match s.sic.busy with
    | .check b =>
      let s1 := { s with sic := { s.sic with busy := .none } }
      (match s.checkSlot b with
      | .pass _ => (s1.setSlot b .valid).sicErr 0
      | .fail c sec d => (s1.setSlot b .invalid).sicErr c sec d).raise A.sicEvt 0
    | _ => s)

/-! Keys and the floor (R36, R37). -/

/-- Key slot `k` is locked. -/
def State.keyLocked (s : State) (k : Nat) : Bool := s.b A.sicKeyLock k

/-- SIC_CMD INSTALL_KEY (R36). -/
def State.sicInstall (s : State) (k : Fin 4) : State :=
  s.sicGate fun s =>
    if k.val = 0 || s.keyLocked k then s.sicErr 0x26
    else
      let s1 := s.sicLast 9
      { s1 with sic := { s1.sic with busy := .installKey k, keyNew := s.sic.keyStage } }

/-- INSTALL_KEY. -/
def execInstallKey (k : Fin 4) (s : State) : Host.Outcome State Fault Refusal := .next (s.whenOn fun s => s.sicInstall k)

/-- INSTALL_KEY_DONE: the key is in the retained store (R36, R362). -/
def execInstallKeyDone (s : State) : Host.Outcome State Fault Refusal :=
  .next (s.whenOn fun s =>
    match s.sic.busy with
    | .installKey k =>
      let s1 := forAll (fun i s => s.wr (A.sicPubkey (8 * k + i)) (s.sic.keyNew.getD i 0#32)) (List.range 8) s
      { s1 with sic := { s1.sic with busy := .none } }.requestCommit
    | _ => s)

/-- SIC_CMD LOCK_KEY (R36). -/
def State.sicLock (s : State) (k : Fin 4) : State :=
  s.sicGate fun s => ((s.sicLast 10).setB A.sicKeyLock k true).requestCommit

/-- LOCK_KEY. -/
def execLockKey (k : Fin 4) (s : State) : Host.Outcome State Fault Refusal := .next (s.whenOn fun s => s.sicLock k)

/-- SIC_CMD RAISE_FLOOR: the floor becomes the SERIAL of the active image and never decreases (R37); without an active image it is
refused. -/
def State.sicRaise (s : State) : State :=
  s.sicGate fun s =>
    if s.str.bare then s.sicErr 0x26
    else ((s.sicLast 11).wr A.sicSerialFloor (wd (max (s.rd A.sicSerialFloor).toNat s.str.serial))).requestCommit

/-- RAISE_FLOOR. -/
def execRaiseFloor (s : State) : Host.Outcome State Fault Refusal := .next (s.whenOn fun s => s.sicRaise)

/-! What a swap affects (R41). -/

/-- Streams whose source is group `g`, in a structure. -/
def Structure.streamsOf (t : Structure) (g : Nat) : List Nat :=
  (List.range 16).filter (fun n => (t.streams.getD n {}).exists_ && (t.streams.getD n {}).group == g)

/-- Group `g` is affected (R41). -/
def groupAffected (a b : Structure) (g : Nat) : Bool :=
  a.groups.getD g {} != b.groups.getD g {} ||
  (List.range 256).any (fun i => (a.calendar.getD i none == some g) != (b.calendar.getD i none == some g)) ||
  a.sram.lookup (32 + g) != b.sram.lookup (32 + g) && decide (g < 4) ||
  a.sram.lookup (52 + g) != b.sram.lookup (52 + g) ||
  a.regions 1 g != b.regions 1 g || a.regions 2 g != b.regions 2 g ||
  (a.streamsOf g ++ b.streamsOf g).any (fun n => a.streams.getD n {} != b.streams.getD n {})

/-- Stream `n` is affected (R41). -/
def streamAffected (a b : Structure) (n : Nat) : Bool :=
  let x := a.streams.getD n {}
  let y := b.streams.getD n {}
  x != y || (y.exists_ && (a.sram.lookup x.pond != b.sram.lookup y.pond || a.regions 3 n != b.regions 3 n || a.windowOf n != b.windowOf n))

/-- Groups `g` and `h` have a common frame mark source (R42): the same encoder repeat on the same base, or the same mark-sensor
input. The encoder repeat is REPEAT and ORIGIN in force. -/
def State.commonMark (s : State) (g h : Nat) : Bool :=
  g == h || (match (s.group g).mark, (s.group h).mark with
    | .encoder w _ _, .encoder v _ _ => w == v && s.markRepeat g == s.markRepeat h &&
        s.rd (A.frmOriginHi g) == s.rd (A.frmOriginHi h) && s.rd (A.frmOriginLo g) == s.rd (A.frmOriginLo h)
    | .sensor i _, .sensor j _ => i == j
    | _, _ => false)

/-- Every two of these groups have a common frame mark source. -/
def State.allCommon (s : State) (l : List Nat) : Bool :=
  match l with
  | [] => true
  | g :: rest => rest.all (s.commonMark g)

/-- Group `g` is active. -/
def State.activeGroup (s : State) (g : Nat) : Bool := ((fin? 12 g).map (fun i => (s.grp[i]).active)).getD false

/-! The phases of a commit (R42 to R49). -/

/-- A commit of structure `t` from slot `b` starts in Prepare. -/
def State.beginSwap (s : State) (b : Bool) (t : Structure) (force probation revert : Bool) : State :=
  let gs := (List.range 12).filter (groupAffected s.str t)
  let ss := (List.range 16).filter (streamAffected s.str t)
  let s1 := s.wr A.sicSwapStat (wd (gs.foldl (fun a g => a + 2 ^ g) 0))
  { s1 with sic := { s1.sic with
      phase := .prepare, target := b, force := force, probation := probation, revert := revert, since := s.now, next := t,
      affG := gs, affS := ss, awaiting := gs.filter s.activeGroup, instant := false, settling := [], old := s.str, marks := [] } }

/-- SIC_CMD COMMIT (R42, R43, R53). -/
def State.sicCommit (s : State) (b force probation : Bool) : State :=
  s.slotGate b fun s =>
    if (s.slot b).state ≠ .valid then s.sicErr 0x21
    else
      let t := s.slotStructure b
      let live := ((List.range 12).filter (groupAffected s.str t)).filter s.activeGroup
      if !force && !s.allCommon live then s.sicErr 0x22
      else ((s.sicLast 6).setSlot b .armed).beginSwap b t force probation false

/-- COMMIT. -/
def execCommit (b force probation : Bool) (s : State) : Host.Outcome State Fault Refusal :=
  .next (s.whenOn fun s => s.sicCommit b force probation)

/-- PREPARE_DONE: the shadow structure set is loaded, and the commit is Armed (R42). -/
def execPrepareDone (s : State) : Host.Outcome State Fault Refusal :=
  .next (s.whenOn fun s => if s.sic.phase = .prepare then { s with sic := { s.sic with phase := .armed } } else s)

/-- The commit blocks of an affected group: its own and those of its Springs, old and new. -/
def swapBlocks (a b : Structure) (gs ss : List Nat) : List Nat :=
  gs.flatMap (fun g => [A.frmCommit g, A.corCommit g, A.talCommit g] ++
    (if g < 4 then [A.seamBarCommit g, A.ltgCommit g] else []) ++
    (((a.groups.getD g {}).springs ++ (b.groups.getD g {}).springs).eraseDups.map A.sprCommit)) ++ ss.map A.outCommit

/-- Waiting commits of the blocks are discarded, and shadows take the values in force: the number discarded (R46). -/
def State.discardCommits : List Nat → State → Nat × State
  | [], s => (0, s)
  | b :: bs, s =>
    let r := s.dropCommit b
    let q := State.discardCommits bs r.2
    (q.1 + (if r.1 then 1 else 0), q.2)

/-- The FRM_ registers of group `g` take the values of its GROUPS record (R167, R169). -/
def State.loadMarks (s : State) (g : Nat) : State :=
  match (s.group g).mark with
  | .encoder _ rep org =>
    (((s.wr (A.frmRepeatLo g) (wd rep)).wr (A.frmRepeatHi g) (wd (rep / 2 ^ 32 % 2 ^ 16))).wr (A.frmOriginLo g) (wd org)).wr
      (A.frmOriginHi g) (wd (org / 2 ^ 32))
  | .count n => s.wr (A.frmCountN g) (wd (n % 2 ^ 24))
  | _ => s

/-- Sources whose EVENTS entry changes take the new priority and a TOFF of 0 (R346). -/
def State.switchEvents (s : State) (old : Structure) : State :=
  let entry := fun (t : Structure) (n : Nat) => if t.bare then ({ level := decide (n < 256) } : EventRec) else t.events.getD n {}
  forAll (fun n s =>
    let e := entry s.str n
    if e = entry old n then s
    else s.wr (A.evcsCfg n) (setFld (setFld (s.rd (A.evcsCfg n)) 23 20 e.prio) 19 0 0)) (List.range 768) s

/-- The record format of an affected stream at its next frame boundary: the new image's highest, or what the session in force negotiated
within it (R203, R219). -/
def State.restartFmt (s : State) (n : Fin 16) : State :=
  let top := (s.stream n).format
  let f := if (s.xpt[n]).session.isSome && (s.xpt[n]).recfmt != 0 then min (s.xpt[n]).recfmt top else top
  s.onOut n (fun o => { o with recfmtNext := some f })

/-- The windows at Switch (R45, R229): one that is removed or moved drains on its old binding, and a new one starts empty with SEQ 0 and no
session, its sessions numbered on; one whose region stays continues (R45). SEQ restarts at 0 (R221), but for a window that continues and holds
records or a gap record (DEDUCED, assumption 29). -/
def State.switchWindow (s : State) (n : Fin 16) : State :=
  let a := s.sic.old.streams.getD n {}
  let b := s.stream n
  let same := s.sic.old.regions 3 n == s.str.regions 3 n && s.sic.old.windowOf n == s.str.windowOf n
  if a.exists_ && b.exists_ && same then
    let clear := (s.xpt[n]).held.isEmpty && (s.xpt[n]).gap.isNone && (s.xpt[n]).newQ.isEmpty && (s.xpt[n]).tx.isNone
    (if (a.mode == .lossy && b.mode == .lossy) || clear then s.onXpt n (fun x => { x with seq := 0 }) else s).restartFmt n
  else
    let x := s.xpt[n]
    let auto := s.b (A.xptCtl n) 5
    let y := { x with session := if x.session.isNone && auto then some 0 else x.session }
    let key := 16 + (s.drainKeys n).foldl max n.val
    let d : Drain := { stream := n, key := key, region := s.sic.old.windowOf n, xpt := y, rec_ := a, viaP := s.viaNow n false, viaS := s.viaNow n true, from_ := s.now }
    let s1 := if a.exists_ && (!x.held.isEmpty || x.gap.isSome) then { s with drains := s.drains ++ [d] } else s
    let s2 := s1.onXpt n (fun x => { lastSession := x.lastSession })
    if a.exists_ then s2.restartFmt n else s2.onOut n (fun _ => {})

/-- The accumulator of bar `b` restarts at the bar's first new frame, unless its record and its region are unchanged (R45). -/
def State.switchTnr (s : State) (b : Fin 4) : State :=
  if s.sic.old.groups.getD b {} = s.group b ∧ s.sic.old.regions 1 b = s.str.regions 1 b then s
  else s.onTnr b (fun t => { t with swapPend := true })

/-- Records or lines of old frames of the old stream `n` are still in its scaler or its pond. -/
def State.oldRecords (s : State) (n : Fin 16) : Bool :=
  let g := (s.sic.old.streams.getD n {}).group
  (s.sic.old.streams.getD n {}).exists_ && (
    (match fin? 12 g with
      | some i => s.oldLines i
      | none => false) ||
    (s.out[n]).formed.any (fun o => s.oldFrame g o.line.tag.frame) || (s.out[n]).pond.any (fun r => s.oldFrame g r.tag.frame))

/-- A resource that a swap moves is free of old-frame lines (R42, R44). -/
def State.resFree (s : State) (r : SwapRes) : Bool :=
  match r with
  | .group g => ((fin? 12 g).map (fun g => !s.oldLines g)).getD true
  | .stream n =>
    let p := (s.stream n).pond
    ((fin? 16 n).map (fun i => !s.oldRecords i)).getD true &&
      (List.range 16).all (fun m => m == n || !(s.sic.old.streams.getD m {}).exists_ || (s.sic.old.streams.getD m {}).pond != p ||
        ((fin? 16 m).map (fun i => !s.oldRecords i)).getD true)

/-- Every affected group and stream has settled: the boot pointer is written to the retained store, SWAP_DONE is raised and the slots take
their states (R42 step 4, R48, R49). -/
def State.endSettle (s : State) : State :=
  let c := s.sic
  if c.phase ≠ .settle ∨ !c.settling.isEmpty then s
  else
    let oldBare := c.old.bare
    let s0 := if c.probation || c.revert then s else { s with sic := { s.sic with bootB := c.target } }.writeSystem
    let s1 := s0.raise A.sicEvt 1
    let s2 := if c.probation then
        let s' := s1.setSlot c.target .probation
        { s' with sic := { s'.sic with phase := .probation, probeSince := s.now } }
      else
        let s' := if s.str.bare then s1 else s1.setSlot c.target .active
        { s' with sic := { s'.sic with phase := .idle, revert := false } }
    if oldBare && !c.revert then s2 else s2.setSlot (if s.str.bare then c.target else !c.target) .valid

/-- Switch is over and Settle begins: what holds no old-frame line has settled already (R42 step 4). -/
def State.beginSettle (s : State) : State :=
  if s.sic.phase = .switch then
    let s1 := { s with sic := { s.sic with phase := .settle } }
    { s1 with sic := { s1.sic with settling := s1.sic.settling.filter (fun x => !s1.resFree x) } }.endSettle
  else s

/-- A settled resource passes to its new use; the last one ends Settle. -/
def State.releaseRes (s0 : State) (r : SwapRes) : State :=
  let s := s0.beginSettle
  if s.sic.phase = .settle ∧ s.sic.settling.contains r ∧ s.resFree r then
    { s with sic := { s.sic with settling := s.sic.settling.filter (· != r) } }.endSettle
  else s

/-- SWAP_RESOURCE_FREE: the resource of group `r` (0 to 11) or of stream `r` − 12 passes to its new use when the last old-frame line
has left it (R42, R44). -/
def execSwapResourceFree (r : Fin 28) (s : State) : Host.Outcome State Fault Refusal :=
  .next (s.whenOn fun s => s.releaseRes (if r.val < 12 then .group r else .stream (r - 12)))

/-- A commit in Armed is due at a round boundary: its swap instant has fallen, or no affected group that has still to pass its mark streams
(R42, R43). -/
def State.switchDue (s : State) : Bool :=
  s.sic.phase == .armed && s.engine.slot == 0 && (s.sic.instant || (s.sic.awaiting.filter s.activeGroup).isEmpty)

/-- A commit is abandoned (R47, R49). A revert that is abandoned leaves the structure under probation running, with a new
SIC_PROBE_TMO (assumption 28). -/
def State.abandon (s : State) (code : Nat) : State :=
  let c := s.sic
  let s1 := (if c.revert && c.next.bare then s else s.setSlot c.target .valid).sicErr code
  let sic := { s1.sic with phase := .idle, marks := [], awaiting := [], instant := false }
  { s1 with sic := if c.revert then
      { sic with phase := .probation, revert := false, target := if c.next.bare then c.target else !c.target, old := c.next, probeSince := s.now }
    else sic }.raise A.sicEvt 2

/-- The revert of a structure under probation starts (R48, R49). With no common frame mark source each group switches at its own
frame start. -/
def State.beginRevert (s : State) (code : Nat) : State :=
  let t := s.sic.old
  let b := !s.sic.target
  let live := ((List.range 12).filter (groupAffected s.str t)).filter s.activeGroup
  let s1 := (s.sicErr code).raise A.sicEvt 2
  let s2 := if t.bare then s1 else s1.setSlot b .armed
  s2.beginSwap (if t.bare then s.sic.target else b) t (!s.allCommon live) false true

/-- SIC_CMD ABORT (R47, R49, R52). -/
def State.sicAbort (s : State) : State :=
  match s.sic.phase with
  | .probation => (s.sicLast 7).beginRevert 0x24
  | .prepare | .armed => (s.sicLast 7).abandon 0x24
  | .idle => if s.sic.busy = .none then s.sicErr 0x26 else s.sicErr 0x20
  | _ => s.sicErr 0x26

/-- ABORT. -/
def execAbort (s : State) : Host.Outcome State Fault Refusal := .next (s.whenOn fun s => s.sicAbort)

/-- COMMIT_TIMEOUT: no swap instant within SIC_COMMIT_TMO of COMMIT (R47). A revert waits for its instant. -/
def execCommitTimeout (s : State) : Host.Outcome State Fault Refusal :=
  .next (s.whenOn fun s =>
    let waits := s.sic.phase = .prepare ∨ s.sic.phase = .armed
    if waits ∧ !s.sic.instant ∧ !s.sic.revert ∧ s.sic.since + ms (clampN 1 600000 (s.rd A.sicCommitTmo).toNat) ≤ s.now then
      s.abandon 0x23
    else s)

/-- SIC_CMD CONFIRM (R48, R49). -/
def State.sicConfirm (s : State) : State :=
  if s.sicBusy then s.sicErr 0x20
  else if s.sic.phase = .probation then
    let s1 := { s with sic := { s.sic with bootB := s.sic.target } }.writeSystem
    let s2 := (s1.sicLast 8).setSlot s.sic.target .active
    { s2 with sic := { s2.sic with phase := .idle } }
  else s.sicErr 0x26

/-- CONFIRM. -/
def execConfirm (s : State) : Host.Outcome State Fault Refusal := .next (s.whenOn fun s => s.sicConfirm)

/-- PROBATION_REVERT: SIC_PROBE_TMO has passed in Probation (R48). -/
def execProbationRevert (s : State) : Host.Outcome State Fault Refusal :=
  .next (s.whenOn fun s =>
    if s.sic.phase = .probation ∧ s.sic.probeSince + ms (clampN 1 3600000 (s.rd A.sicProbeTmo).toNat) ≤ s.now then
      s.beginRevert 0x25
    else s)

/-- A write of SIC_CMD (Table 2.7). -/
def State.sicCommand (s : State) (v : Word) : State :=
  let b := bit v 4
  let k : Fin 4 := two (fld v 11 10)
  match fld v 3 0 with
  | 1 => s.sicErase b
  | 2 => s.sicBegin b
  | 3 => s.sicCopy b
  | 4 => s.sicEndLoad b
  | 5 => s.sicCheck b
  | 6 => s.sicCommit b (bit v 8) (bit v 9)
  | 7 => s.sicAbort
  | 8 => s.sicConfirm
  | 9 => s.sicInstall k
  | 10 => s.sicLock k
  | 11 => s.sicRaise
  | _ => s.sicGate fun s => s.sicErr 0x26

/-! Registers that the controller's state gives. -/

/-- The code of a slot state (Table 2.9). -/
def SlotState.code : SlotState → Nat
  | .empty => 0
  | .loading => 1
  | .loaded => 2
  | .checking => 3
  | .valid => 4
  | .invalid => 5
  | .active => 6
  | .armed => 7
  | .probation => 8

/-- SIC_SLOTA_STATE or SIC_SLOTB_STATE. -/
def State.slotWord (s : State) (b : Bool) : Nat :=
  let x := (s.slot b).state
  x.code + (if x = .empty ∨ x = .invalid then 0 else s.slotSerial b % 65536 * 65536)

/-- SIC_STATUS. -/
def State.sicStatusWord (s : State) : Nat :=
  let p := match s.sic.phase with
    | .idle => 0
    | .prepare => 1
    | .armed => 2
    | .switch => 3
    | .settle => 4
    | .probation => 5
  p * 256 + s.f A.sicStatus 7 4 * 16 + (if s.sicBusy then 1 else 0)

/-- SIC_ACTIVE. -/
def State.sicActiveWord (s : State) : Nat :=
  (if s.str.bare then 4 else if s.sic.activeB then 1 else 0) + (if s.sic.bootB then 2 else 0)

end Sys2Proof.Machine
end

