-- ==== Sys2Proof/Machine/Reset.lean ====
section
/-! DEFINITION. Group resets and stall resets (R76, R138, R155, R210, R229, R308, R309). -/

namespace Sys2Proof.Machine
open Sys2Proof

/-! Group reset. -/

/-- The lines and markers of group `g` that a group reset loses (R76, R138): in the Seam Unit, the engine and the Springs. -/
def State.lostTags (s : State) (g : Fin 12) : List LineTag :=
  let e := s.engs[g]
  let seam : List LineTag := match fin? 4 g.val with
    | some b =>
      let x := s.seam[b]
      (((x.hist.take (min x.seen (s.group b).depth)).filter (fun l => !l.marker)).reverse ++ x.inq).map (·.tag)
    | none => []
  let region : List LineTag := (s.unserved g ++ e.copying).map (·.tag)
  let full : List LineTag := match e.full with
    | some (f, l, c) => [{ frame := f, line := l, count := c }]
    | none => []
  let cuts : List LineTag := ((s.grp[g]).cuts.filter (fun c => !c.passed)).map (fun c => { frame := c.frame, line := c.l, count := c.count })
  let spring : Nat → List LineTag := fun n => match fin? 32 n with
    | none => []
    | some n =>
      let x := s.spr[n]
      ((x.pond.filter (fun i => !i.marker && i.numbered)).map (·.tag)) ++ s.trigTags n.val ++
        (match x.cur with
          | some o => if o.drop then [] else [o.tag]
          | none => [])
  seam ++ region ++ full ++ cuts ++ (s.group g).springs.flatMap spring

/-- The lowest line of frame `f` among tags, by the running line count (R12, R28). -/
def lowestOf (f : Nat) (ts : List LineTag) : Option LineTag :=
  ts.foldl (fun (a : Option LineTag) t =>
    if t.frame != f then a else match a with
      | some u => if isLater 48 u.count t.count then some t else some u
      | none => some t) none

/-- Frames in their order. -/
def frameOrder (fs : List Nat) : List Nat := fs.eraseDups.mergeSort (fun a b => !isLater 32 a b)

/-- The one truncation of a group reset: the group's current frame at its lowest line lost, where it stands when none is (R76, R138,
R204). -/
def State.resetCut (s : State) (g : Fin 12) : Option LineTag :=
  let x := s.grp[g]
  let f := (s.rd (A.frmFrame g)).toNat
  if !x.begun then none
  else some ((lowestOf f (s.lostTags g)).getD { frame := f, line := x.lines % 2 ^ 24, count := x.count })

/-- The truncation of cause 3 at line `t` reaches every stream of the group and its Tally: the frame's record begins, if none of its lines
reached the chain, and ends (R184, R204). -/
def State.resetMarker (s : State) (g : Fin 12) (t : LineTag) : State :=
  let s1 := ((((([0, 5, 1].foldl (fun s tap => s.markStreams g tap t 3) s).tallyEnds g t.frame false).tallyOpen g t.frame).tallyMarker g t 3 false).markerAfter g t 3)
  s1.onAcc g t.frame (fun a => { a with dropped := a.trunc.map (fun x => ((s.grp[g]).count + 2 ^ 48 - x.2.2 % 2 ^ 48) % 2 ^ 48) })

/-- Frames before the current one that a reset deprives of lines: their records end with the lowest line lost (R184). -/
def State.resetOlder (s : State) (g : Fin 12) (lost : List LineTag) : State :=
  let f := (s.rd (A.frmFrame g)).toNat
  forAll (fun u s => match lowestOf u lost with
    | some t => ((s.tallyOpen g u).tallyMarker g t 3 false).tallyMarker g t 3 true
    | none => s) (frameOrder ((lost.map (·.frame)).filter (· != f))) s

/-- A Spring at a group reset: its triggers, its line and its pond are emptied, and an enabled one returns to IDLE, or to DESKEW above
1.5 Gb/s, where every lane needs an initial deskew again (R58, R76). -/
def State.resetSpring (s : State) (n : Fin 32) : State :=
  (({ s with edges := s.edges.filter (fun e => e.spring != n.val) }).release n (pondFill (s.spr[n]).pond)).onSpr n (fun x =>
    let again := decide (1500 < fld x.phyCfg 13 0) && (x.st == 2 || x.st == 3)
    { x with
      queue := [], cur := none, pond := [], started := 0, overWm := false, frameOpen := 0
      st := if again then 2 else if x.st = 3 then 1 else x.st
      deskewed := if again then 0 else x.deskewed
      lock := if again then 0 else x.lock })

/-- The group's mark in a structure commit that has not yet switched is the next one after the reset; in Settle its next frame is a
new one (R47). -/
def State.resetSwap (s : State) (g : Fin 12) : State :=
  let c := s.sic
  if !c.affG.contains g.val then s
  else match c.phase with
    | .armed =>
      let marks := c.marks.filter (fun m => m.1 != g.val)
      if (c.marks.lookup g.val).isSome then
        { s with sic := { c with marks := marks, awaiting := g.val :: c.awaiting, instant := c.instant && !c.force && !marks.isEmpty } }
      else s
    | .switch | .settle =>
      if c.awaiting.contains g.val then
        { s with sic := { c with awaiting := c.awaiting.filter (· != g.val), marks := c.marks ++ [(g.val, s.nextFrame g)] } }.wr
          (A.sicSwapFrm g) (wd (s.nextFrame g))
      else s
    | _ => s

/-- A reset of group `g` (R76, R89, R138, R155, R164, R172). -/
def State.resetGroup (s : State) (g : Fin 12) : State :=
  if !s.defined g then s
  else
    let cut := s.resetCut g
    let lost := s.lostTags g
    let s0 := s.endCuts g
    let s1 := match fin? 4 g.val with
      | some b => ((s0.endMeas b).onSeam b (fun x => { x with inq := [], hist := [], seen := 0, lastFrame := none, cut := none })).seamRelease b
          (s0.seamFill b)
      | none => s0
    let s2 := match cut with
      | some t => (s1.resetOlder g lost).resetMarker g t
      | none => s1
    let s3 := s2.endPends g (s2.grp[g]).count
    let s4 := forFin (fun n s => (s.resetSpring n).twReset n) (s.group g).springs s3
    let s5 := (s4.endFull g).onEng g (fun e => { e with
      region := [], served := 0, copying := [], full := none, ready := [], pos := 0, skip := [], segs := [], hist := [], arrived := [], eccBad := [], accBad := []
      blocked := false, overWm := false })
    let s6 := match fin? 4 g.val with
      | some b => if s5.tnrRegion b then s5.tnrReset b else s5
      | none => s5
    let s7 := if (s6.load[g]).active then s6.loadEnd g 4 else s6
    let s8 := s7.onGrp g (fun x => { x with openNext := true, edges := [], cuts := [], refTags := [], refLines := 0, lost := [] })
    s8.resetSwap g

/-- A write of STL_s_GRP_RESET by stall `t`: PERM when a named group is not wholly assigned to it (R309). -/
def State.groupReset (s : State) (t : Fin 8) (mask : Nat) : Nat × State :=
  let gs := bitsOf 12 mask
  if gs.all (fun g => s.ownsGroup t g) then (0, forFin (fun g s => s.resetGroup g) gs s) else (2, s)

/-- GROUP_RESET: the write answers its status. -/
def execGroupReset (t : Fin 8) (mask : BitVec 12) (s : State) : Host.Outcome State Fault Refusal :=
  .next (s.whenOn fun s => let r := s.groupReset t mask.toNat; r.2.emit (.value r.1 0))

/-! Stall reset. -/

/-- The frame and line of the first record that a reset stream does not deliver (R210), with its running count: a record of the pond, an
output line formed, or the anchor round(q) of the next one that it would form (R192). A telemetry record names no frame (DESIGN CHOICE,
assumption 107). -/
def State.firstUndelivered (s : State) (n : Fin 16) : Option LineTag :=
  let x := s.out[n]
  match x.pond.filter (fun r => r.type != 4), x.formed with
  | r :: _, _ => some { r.tag with count := r.fromCount.getD r.tag.count }
  | [], o :: _ => some o.line.tag
  | [], [] =>
    match x.tapFrame, x.tapTag with
    | some f, some t =>
      let o := s.outNow n
      let q := o.vPos x.m
      let v := q.2.1
      let anchor := max o.y0 (rshr q.1 17).toNat
      let y := if o.height = 0 then anchor else min anchor (o.y0 + o.height - 1)
      let open_ := s.outOn n && !s.isStats n && !x.await && x.endedFrame != some f && t.frame == f
      if open_ && (o.height == 0 || decide (v < o.y0 + o.height)) then
        some { frame := f, line := y % 2 ^ 24, count := (s.frameBase (s.stream n).group t + y) % 2 ^ 48 }
      else none
    | _, _ => none

/-- A stream at a reset of its stall (R210). -/
def State.resetStream (s : State) (n : Fin 16) : State :=
  let first := s.firstUndelivered n
  let s1 := (s.dropCommit (A.outCommit n)).2
  let s2 := match first with
    | some t => s1.makePend n t.frame t.line (some t.count) 6
    | none => s1
  (s2.release (s.stream n).pond (recFill (s.out[n]).pond)).onOut n (fun x => { x with lines := [], formed := [], pond := [], await := true, discard := none, tel := [] })

/-- Completion slots of stall `t` that operations still under way hold (R295). -/
def State.slotsHeld (s : State) (t : Nat) : Nat :=
  s.ctl.waitCpl.countP (fun x => x.1 == t) + (s.netPonds[(20 : Fin 22)]).countP (fun p => p.cpl.any (fun x => x.1 == t)) +
  let held := fun (l : TwList) => l.slot && l.stall == t
  (s.load.toList.countP (fun p => p.active && p.slot && p.stall == t)) +
    s.twb.toList.foldl (fun a x => a + (x.swQ ++ x.calQ).countP held + (match x.run with
      | some r => if held r.list then 1 else 0
      | none => 0)) 0

/-- The posted-error log of stall `t` is emptied. -/
def State.clearLog (s : State) (t : Nat) : State :=
  forAll (fun e s => forAll (fun k s => s.wr (A.stlPwlog t e k) 0#32) [0, 1, 2, 3] s) (List.range 16) (s.wr (A.stlPwlogPtr t) 0#32)

/-- A reset of stall `t` (R308). -/
def State.resetStall (s : State) (t : Fin 8) : State :=
  let s1 := s.closeWhere (fun x => x.stall == t.val)
  let s2 := { s1 with ctl := { s1.ctl with longOps := s1.ctl.longOps.filter (fun x => x.stall != t.val) } }
  let s3 := ((s2.onStall t (fun x => { x with cpl := [], taken := s2.slotsHeld t, resetSince := some s.now })).clearLog t).crcStallReset t
  let s4 := forFin (fun u s => s.resetTarget u) [2 * t.val, 2 * t.val + 1] s3
  let s5 := forFin (fun n s => (s.resetStream n).windowReset n)
    ((List.range 16).filter (fun n => (s.stream n).exists_ && (s.stream n).stall == t.val)) s4
  s5.setB (A.stlReset t) 0 true

/-- STALL_RESET: STL_s_RESET.STALL is set (R308). -/
def execStallReset (t : Fin 8) (s : State) : Host.Outcome State Fault Refusal := .next (s.whenOn fun s => s.resetStall t)

/-- STALL_RESET_DONE: the reset is complete and STALL clears (R308). -/
def execStallResetDone (t : Fin 8) (s : State) : Host.Outcome State Fault Refusal :=
  .next (s.whenOn fun s =>
    match (s.stalls[t]).resetSince with
    | some _ => (s.onStall t (fun x => { x with resetSince := none })).setB (A.stlReset t) 0 false
    | none => s)

end Sys2Proof.Machine
end

