-- ==== Sys2Proof/Machine/Start.lean ====
section
/-! DEFINITION. Device starts: what a start leaves, the restore of the retained store, start selection, and the structure coming
into force (R50, R242, R243, R258, R355, R364, R365, R383, R389). -/

namespace Sys2Proof.Machine
open Sys2Proof

/-! The restore (R364, R365). -/

/-- What of a record kind is restored: its newest valid copy; with FACTORY_L low, KEPT, FLATFIELD and TABLES take factory content, and
keys and the floor are erased (R364, R365). -/
def State.restored (s : State) (kind : Nat) : RecContent :=
  let ignored := !s.power.factoryL && [2, 3, 4, 5].contains kind
  match s.validOf kind with
  | some c => if ignored then factoryContent kind else match c.content with
    | .system b lock keys _ => if s.power.factoryL then c.content else .system b (lock % 2) (keys.map (fun _ => 0#32)) 0
    | c => c
  | none => factoryContent kind

/-- A record kind takes factory content (R364). -/
def State.takesFactory (s : State) (kind : Nat) : Bool :=
  (s.newestOf kind).isNone || (!s.power.factoryL && [3, 4, 5].contains kind)

/-- Bad copies and kinds without a valid copy are reported (R364). -/
def State.reportRecords (s : State) : State :=
  let bad := (allKinds.flatMap (fun k => [((s.recPair k).b0, k), ((s.recPair k).b1, k)])).countP (fun x => x.1.state x.2 == 2)
  let fact := allKinds.any s.takesFactory
  let s1 := if bad = 0 then s else (s.inc A.keepCntBad bad).raise A.keepEvt 1
  let s2 := if fact then s1.raise A.keepEvt 2 else s1
  { s2 with keep := { s2.keep with factoryUsed := fact, factoryStart := !s.power.factoryL } }

/-- SYSTEM and KEYS are restored: boot pointer, locks, key slots 1 to 3, floor, and the stall keys (R36, R37, R286, R364). -/
def State.restoreKeys (s : State) : State :=
  let s1 := match s.restored 1 with
    | .system b lock keys floor =>
      let s' := (s.wr A.sicKeyLock (wd lock)).wr A.sicSerialFloor (wd floor)
      let s'' := forAll (fun i s => s.wr (A.sicPubkey (8 + i)) (keys.getD i 0#32)) (List.range 24) s'
      { s'' with sic := { s''.sic with bootB := b } }
    | _ => s
  match s1.restored 2 with
  | .keys ks => forFin (fun (t : Fin 8) s => s.onStall t (fun x => { x with key := ks.getD t.val none })) (List.range 8) s1
  | _ => s1

/-- Baselines and epochs: each base begins at 0 with the recorded epoch plus 1 (R243, R258, R364). -/
def State.restoreLake (s : State) : State :=
  let s1 := match s.restored 6 with
    | .lake base _ => forFin (fun (c : Fin 12) s => s.onChan c (fun x => { x with baseline := base.lookup c.val })) (List.range 12) s
    | _ => s
  match s1.restored 7 with
  | .time es => forFin (fun (n : Fin 4) s => s.onTb n (fun t => { t with epoch := (es.getD n.val 0 + 1) % 256 })) [0, 1, 2, 3] s1
  | _ => s1

/-- The recorded tables go into both banks (R165). -/
def State.restoreTables (s : State) : State :=
  let put := fun (key : Nat → Nat → Nat) (m : List (Nat × Word)) (s : State) =>
    forAll (fun (x : Nat × Word) s => (s.tblSet (key 0 x.1) x.2).tblSet (key 1 x.1) x.2) m s
  let s1 := match s.restored 4 with
    | .flatfield m _ => put ffKey m s
    | _ => s
  match s1.restored 5 with
  | .tables d t _ => put (fun b i => toneKey b 0 i) t (put defKey d s1)
  | _ => s1

/-- The Kept fields of a register take a value in force, without further effect; what the SYSTEM record holds stays (R36, R37, R364, R404). -/
def State.restoreReg (s : State) (a : Nat) (v : Word) : State :=
  match rowOf a with
  | some r => if sysReg a then s else s.wr a (wd (((s.rd a).toNat &&& (0xFFFFFFFF ^^^ r.kept)) ||| (v.toNat &&& r.kept)))
  | none => s

/-- Registers restored as they were recorded. -/
def State.restoreRegs (s : State) (m : List (Nat × Word)) : State := forAll (fun (x : Nat × Word) s => s.restoreReg x.1 x.2) m s

/-- Every Kept field takes its factory value: after a wake from Still the registers of the Tarn still hold others (R8, R364). -/
def State.keptFactory (s : State) : State :=
  forAll (fun (x : Nat × Word) s => s.restoreReg x.1 (regDef x.1)) s.regs s

/-- Factory values that come from the straps and the image: link MACs, own clock identities, each from the MAC of the instance's first PTP
port (of link 0 for an instance with none, assumption 53), and the frame mark fields of the groups (Tables 8.5, 10.13 and 12.10). -/
def State.factoryFields (s : State) : State :=
  let id := s.power.devid
  let mac := fun (s : State) (p l code : Nat) =>
    let m := Config.linkMac id code
    (s.wr (A.ethlMacHi p l) (macWord m 0)).wr (A.ethlMacLo p l) (macWord m 4)
  let s1 := forAll (fun k s => mac s (k / 4) (k % 4) k) (List.range 8) s
  let s2 := mac (mac s1 2 0 8) 3 0 9
  let first := fun (k : Nat) => match [0, 1, 2, 3].find? (fun p => s2.f (A.ptpCtl p) 2 1 == k) with
    | some p => if p < 2 then 4 * p + s2.f (A.ptpCtl p) 9 8 else 6 + p
    | none => 0
  let s3 := forAll (fun k s => (s.wr (A.piClkidLo k 0) (clkIdWord (Config.linkMac id (first k)) 0)).wr (A.piClkidLo k 1)
    (clkIdWord (Config.linkMac id (first k)) 4)) [0, 1, 2, 3] s2
  forAll (fun g s => s.loadMarks g) s.definedGroups s3

/-- The factory values that hang on other fields, and then the Kept values `m`. -/
def State.withFactory (s : State) (m : List (Nat × Word)) : State := ((s.restoreRegs m).factoryFields).restoreRegs m

/-- Every Kept field takes its value from the KEPT record, else from the image, else its factory value; in the bare structure it takes
the factory value (R50, R364). -/
def State.restoreKept (s : State) : State :=
  let s := s.keptFactory
  if s.str.bare then s.factoryFields
  else
    let s1 := match s.validOf 3, s.restored 3 with
      | some c, .kept m =>
        if s.power.factoryL then
          let s' := s.restoreRegs m
          { s' with keep := { s'.keep with serialMismatch := c.head.serial != s.str.serial } }
        else s.withFactory (s.str.kept.map (fun (e : KeptRec) => (e.addr, e.value)))
      | _, _ => s.withFactory (s.str.kept.map (fun (e : KeptRec) => (e.addr, e.value)))
    let s2 := match s1.restored 4 with
      | .flatfield _ b => s1.restoreRegs b
      | _ => s1
    match s2.restored 5 with
    | .tables _ _ c => s2.restoreRegs c
    | _ => s2

/-! What a start leaves. -/

/-- A slot as a start finds it: a load, a copy or a check under way is lost, and leaves the slot INVALID (R39). -/
def Slot.found (x : Slot) : Slot :=
  match x.state with
  | .loading | .checking => { x with state := .invalid, cut := true }
  | _ => x

/-- The registers of the Tarn, which a wake from Still finds as they were (the blocks TRN_, KEEP_ and TEL_). -/
def tarnReg (a : Nat) : Bool := decide (0x6C0000 ≤ a) && decide (a < 0x740000)

/-- A start of a device that had not lost its supplies, after RESET_L or CTL_RESET or at a wake from Still, which is a device start in every
rule: no event is lost (R307, R346, R355). -/
def State.keepsEvents (s : State) (still : Bool) : Bool := still || (s.power.st == .on && (s.power.lastOff == 1 || s.power.lastOff == 2))

/-- EVC_Tt_NOTE, which goes on over a start (R346). -/
def noteReg (a : Nat) : Bool := (List.range 20).any (fun t => a == A.evctNote t)

/-- A source after a device start that found it delivered or waiting: edges are withdrawn and wait again, a level is seen afresh (R346). -/
def State.withdrawn (s : State) (n : Nat) (x : Source) : Source :=
  if s.levelSensed n then { level := x.level, latched := x.latched }
  else if x.phase == .pending || x.phase == .assigned || (x.phase == .active && x.refire) then { phase := .pending, level := x.level, latched := x.latched }
  else { level := x.level, latched := x.latched }

/-- The device right after its internal reset is released: the queue, the clocks' counts and what was sent, the retained store and
the image slots stay; after a wake from Still so do the Tarn's registers, its wake timers and its edge latches; all else is as at
reset, and the Lake trains; what a device reset or a wake from Still finds waiting in the event controller waits again
(R8, R26, R243, R307, R346, R355, R383, R389). -/
def State.beginStart (s : State) (still : Bool) (src devid : Nat) (factoryL : Bool) : State :=
  let p := s.power
  let keep : Keep := {
    recs := s.keep.recs, bank0Wr := s.keep.bank0Wr, bank1Wr := s.keep.bank1Wr, lastVerify := s.tarn, lastChange := s.tarn }
  let sic : Sic := { slotA := s.sic.slotA.found, slotB := s.sic.slotB.found }
  let power : Power := {
    pwrOk := p.pwrOk, lastOff := p.lastOff, wakeFrom := if still then 1 else p.wakeFrom, wakeSrc := if still then src else 0
    trip := if still then p.trip else none, tripPending := p.tripPending && still, pupFail := p.pupFail && still
    tmr0 := if still then p.tmr0 else {}, tmr1 := if still then p.tmr1 else {}, crystalAt := p.crystalAt
    vddTarn := true, popAtEntry := p.popAtEntry, slotAtEntry := if still && p.vddTarn then p.slotAtEntry else none
    devid := devid, factoryL := factoryL, stepping := p.stepping, lastTelRec := s.now
    armedT := if still then p.armedT else 0xFFFF, armedV := if still then p.armedV else 0xFFFFFF
    armedP := if still then p.armedP else true
    boot := some { still := still, src := src, at_ := s.now }, jtag := if still then {} else p.jtag }
  let lake : LakeCtl := {
    set_ := 0, speed := s.lakeCtl.speed, training := 0xFFF
    chans := s.lakeCtl.chans.map (fun c => { st := 1, dimm := c.dimm, refAt := s.now, stepAt := s.now }) }
  let f : State := {
    pending := s.pending, now := s.now, tarn := s.tarn
    regs := s.regs.filter (fun x => (still && tarnReg x.1) || (s.keepsEvents still && noteReg x.1))
    keep := keep, sic := sic, power := power, lakeCtl := lake, draws := s.draws, sent := s.sent
    sources := if s.keepsEvents still then s.sources.zipIdx.map (fun x => s.withdrawn x.2
      (if still then x.1 else { x.1 with level := false, latched := false })) else s.sources.map (fun _ => {})
    tb := s.tb.map (fun _ => { at_ := s.now })
    wp := s.wp.map (fun _ => { te := s.now })
    ltg := s.ltg.map (fun _ => { from_ := s.now }) }
  ((f.reportRecords.restoreKeys).restoreLake).restoreTables

/-! The structure comes into force. -/

/-- Blocks take what the restored registers say: Springs and controllers that are enabled start, ports take their mode, a PTP base
is unlocked and a PTP port waits for its link, an enabled generator starts, and seconds that pass from now on give pulses (R55, R89, R212,
R265, R268, R276, R278). -/
def State.activate (s : State) : State :=
  let s1 := forFin (fun (n : Fin 32) s =>
    if !s.b (A.sprCtl n) 0 then s
    else if (s.groupOf n).isSome then s.sprStart n else s.setB (A.sprCtl n) 0 false) (List.range 32) s
  let s2 := forFin (fun (n : Fin 32) s => s.twReset n) (List.range 32) s1
  let s3 := forFin (fun (p : Fin 4) s =>
    let w := s.rd (A.ethCtl p)
    let m := fld w 2 1
    let mode := if p.val < 2 then (if m = 3 then 0 else m) else (if m = 1 then 1 else 0)
    if bit w 0 then { s with portMode := vupd s.portMode p (fun _ => mode) } else s) [0, 1, 2, 3] s2
  let s4 := forFin (fun (n : Fin 4) s =>
    if s.tbSrc n = 1 then s.onTb n (fun t => { t with st := .unlocked }) else s) [0, 1, 2, 3] s3
  let s5 := forFin (fun (p : Fin 4) s => if s.ptpOn p then s.setPortState p psFaulty else s) [0, 1, 2, 3] s4
  let s6 := forFin (fun (b : Fin 4) s => if s.b (A.ltgCtl b) 0 then s.onLtg b (fun x => { x with
    next := some (s.trigBeyond b (s.ltgPos b)), from_ := s.now }) else s) [0, 1, 2, 3] s5
  let s7 := forFin (fun (i : Fin 16) s => s.onGpio i (fun g => { g with lastSec := s.wholeSec (two (s.f (A.gpioCtl i) 7 6)) })) (List.range 16) s6
  (s7.switchEvents {}).ffCheck

/-- The feasibility tests alone, on a slot that has passed its other checks (R355). -/
def State.feasible (s : State) (b : Bool) : Bool :=
  let cells := (s.slot b).bytes
  let hd := slotBytes cells 0 128
  let img := slotBytes cells 0 (leAt hd 8 4)
  let dir := directory img (leAt hd 0x1C 4) (leAt hd 0x18 2)
  let defined := (records img dir 1 64).map (fun r => Config.imageField 1 0 r != 0)
  (feasibility (s.slotStructure b) defined s.lakeCap s.lakeSustained (fun _ => 0)).isNone

/-- A slot passes its complete check (R40, R50). One whose load, copy or check was cut short is INVALID and does not (R39; DEDUCED,
assumption 30). -/
def State.passes (s : State) (b : Bool) : Bool :=
  (s.slot b).state != .empty && !(s.slot b).cut && (match s.checkSlot b with
    | .pass _ => true
    | .fail _ _ _ => false)

/-- The resume rule applies to the boot-pointer slot (R355). -/
def State.resumable (s : State) : Bool :=
  (match s.power.boot with
    | some x => x.still
    | none => false) && s.power.factoryL && s.power.slotAtEntry == some s.sic.bootB && s.lakeSetOf == s.power.popAtEntry

/-- The start selection (R50, R355): the slot to start under (none: bare), whether FALLBACK is raised, whether by the resume rule. -/
def State.selectStart (s : State) : Option Bool × Bool × Bool :=
  if !s.power.factoryL then (none, false, false)
  else
    let b := s.sic.bootB
    if s.resumable then
      (if s.feasible b then (some b, false, true) else if s.passes (!b) then (some (!b), true, true) else (none, true, true))
    else if s.passes b then (some b, false, false)
    else if s.passes (!b) then (some (!b), true, false)
    else (none, true, false)

/-- The states of the slots after the selection (R38, R39, R50, Table 2.9): the chosen one is ACTIVE; one whose check failed in the selection
is INVALID; and of the rest one that ran, was armed or was under probation is VALID, and any other stays as the start found it
(DESIGN CHOICE, assumption 30). -/
def State.slotStates (s : State) (chosen : Option Bool) : State :=
  let failed := if !s.power.factoryL || chosen == some s.sic.bootB then [] else if chosen.isSome then [s.sic.bootB] else [false, true]
  forAll (fun b s =>
    if (s.slot b).state = .empty then s
    else if chosen = some b then s.setSlot b .active
    else if failed.contains b then s.setSlot b .invalid
    else match (s.slot b).state with
      | .active | .armed | .probation => s.setSlot b .valid
      | _ => s) [false, true] s

/-- The latched pins of a wake become PENDING as one edge each, with their bits in EVC_LATCHED, and the latches clear; level pins are
sampled (R347). -/
def State.takeLatches (s : State) : State :=
  forFin (fun (n : Fin 768) s =>
    let s1 := if !(s.sources[n]).latched then s
      else ((s.setB A.evcLatched (n - 256) true).onSrc n (fun x => { x with latched := false })).raiseSource n
    if s1.levelSensed n && s1.asserted n then s1.raiseSource n else s1)
    ((List.range 20).map (· + 256)) s

/-- A wake ends in Ready: WAKE and STATE are raised and the wake is counted; TRIP and PUP_FAIL tell of what came before (R355, R360,
Table 16.10). -/
def State.reportWake (s : State) : State :=
  let s1 := ((s.raise A.trnEvt 1).raise A.trnEvt 0).inc A.trnCntWake
  let s2 := if s1.power.tripPending then s1.raise A.trnEvt 3 else s1
  let s3 := if s2.power.pupFail then s2.raise A.trnEvt 4 else s2
  { s3 with power := { s3.power with tripPending := false, pupFail := false, trip := none } }.takeLatches

/-- SPEED at a start: the restored value of LAKE_CTL, else the factory value (R241, R364). -/
def State.startSpeed (s : State) : Nat :=
  match s.restored 3 with
  | .kept m => if s.power.factoryL then fld ((m.lookup A.lakeCtl).getD (regDef A.lakeCtl)) 6 4 else 4
  | _ => 4

/-- The start completes: the Lake has trained, the structure is selected, the Kept values are in force, and the device is in Ready
(R50, R242, R355, R364, R365). -/
def State.finishStart (s : State) (res : List TrainResult) : State :=
  let t := s.trained 0xFFF s.startSpeed false res
  let s0 := { t with keep := s.keep }
  let newBase := (List.range 12).any (fun c => match fin? 12 c with
    | some i => (t.lakeCtl.chans[i]).baseline != (s.lakeCtl.chans[i]).baseline
    | none => false)
  let sel := s0.selectStart
  let s1 := match sel.1 with
    | some b => { s0 with str := s0.slotStructure b, sic := { s0.sic with activeB := b, bootB := b } }
    | none => s0
  let s2 := { s1 with sic := { s1.sic with slotA := (s0.slotStates sel.1).sic.slotA, slotB := (s0.slotStates sel.1).sic.slotB } }
  let s3 := if sel.2.1 then (s2.raise A.sicEvt 3).raise A.twbtAlert 4 else s2
  let s4 := forFin (fun (b : Fin 4) s => if s.tnrRegion b then s.tnrReset b else s) [0, 1, 2, 3] s3.restoreKept.activate
  let wake := match s.power.boot with
    | some x => x.still
    | none => false
  let s5 := { s4 with power := { s4.power with boot := none, resumed := sel.2.2, slotAtEntry := none, popAtEntry := [] } }
  let s6 := if wake then s5.reportWake else s5
  let s7 := if s.power.factoryL then s6 else (s6.writeRecord 1 (s6.content 1)).writeRecord 2 (s6.content 2)
  let s8 := (if newBase then s7.requestCommitOf [6] else s7).requestCommitOf [7]
  if sel.1.any (· != s0.sic.bootB) then s8.writeSystem else s8

/-- LAKE_TRAINING_DONE: the training under way ends with a result for each channel: at a start it leads to the selection and to Ready;
after FULL_TRAIN it sets states, population set and baselines (R242 to R244). -/
def execLakeTrainingDone (res : Vector TrainResult 12) (s : State) : Host.Outcome State Fault Refusal :=
  .next (
    if s.power.st = .on ∧ !s.power.held ∧ !s.power.resetLow ∧ s.power.boot.isSome then s.finishStart res.toList
    else s.whenOn fun s => if s.lakeCtl.training = 0 then s else s.trained s.lakeCtl.training (s.f A.lakeCtl 6 4) true res.toList)

end Sys2Proof.Machine
end

