-- ==== Sys2Proof/Machine/Power.lean ====
section
/-! DEFINITION. Operating states, resets, wake sources and the wake timers (R25, R307, R350 to R360, R389 to R391, R395). -/

namespace Sys2Proof.Machine
open Sys2Proof

/-- The power state machine changes. -/
def State.onPower (s : State) (f : Power → Power) : State := { s with power := f s.power }

/-! Resets and loss of supply (R307, R356, R389 to R391). -/

/-- The internal reset is asserted: a commit under way is cut short, and an entry is abandoned (R307, R363, R391). -/
def State.assertReset (s : State) (cause : Nat) : State :=
  s.cutCommit.onPower (fun p => { p with
    st := .on, held := true, entering := .none, boot := none, lastOff := cause, wakeFrom := 0, supplyWait := none, slotAtEntry := none })

/-- The device is in Off (R356). -/
def State.powerOff (s : State) (pwrOk : Bool) : State :=
  s.cutCommit.onPower (fun p => { p with
    st := .off, held := false, entering := .none, boot := none, lastOff := 3, wakeFrom := 3, pwrOk := pwrOk, supplyWait := none
    slotAtEntry := none, trip := none, tripPending := false, pupFail := false, crystalAt := none })

/-- The TAP holds the device in reset: EXTEST, HIGHZ or CLAMP is in force (R399). -/
def State.tapHolds (s : State) : Bool := s.power.jtag.ir == 0 || s.power.jtag.ir == 3 || s.power.jtag.ir == 4

/-- COLD_POWER_UP: the start instant, 1 ms after the later of PWR_OK and RESET_L rose, or after CTL_RESET: straps are sampled, and the
start begins (R307, R383, R389). While a supply is below its fail threshold the device stays as it was, in Off or in reset (R356), and
while the TAP holds the balls it stays in reset (R399). -/
def execColdPowerUp (devid : BitVec 14) (factoryL : Bool) (s : State) : Host.Outcome State Fault Refusal :=
  .next (
    if s.power.st ≠ .off ∧ (s.power.st ≠ .on ∨ !s.power.held) then s
    else
      let s1 := s.onPower (fun p => { p with resetLow := false, pwrOk := true })
      if !s1.power.low.isEmpty then s1
      else if s1.tapHolds then s1.onPower (fun p => { p with st := .on, held := true })
      else s1.beginStart false 0 devid.toNat factoryL)

/-- RESET_L_LOW: RESET_L has been low for `low` ns. Below 1 µs it is ignored; else it is a device reset, from every powered state; in Off
the pin alone changes (R307, R389, R391). -/
def execResetLLow (low : Nat) (s : State) : Host.Outcome State Fault Refusal :=
  .next (
    if low < us 1 then s else
    let s1 := s.onPower (fun p => { p with resetLow := true })
    if s.power.st = .off then s1 else s1.assertReset 1)

/-- A write of CTL_RESET (R307). -/
def State.ctlReset (s : State) (v : Word) : State := if fld v 31 16 = 0xA5A5 ∧ bit v 0 then s.assertReset 2 else s

/-- CTL_RESET. -/
def execCtlReset (v : Word) (s : State) : Host.Outcome State Fault Refusal := .next (s.whenOn fun s => s.ctlReset v)

/-- PWR_OK_LOW: Off at once (R356). -/
def execPwrOkLow (s : State) : Host.Outcome State Fault Refusal := .next (s.powerOff false)

/-- In Still the core supplies may be removed: by CORE_OFF, and after a thermal trip (R354, R360). -/
def State.coreSpare (s : State) : Bool := s.power.st == .still && (s.b A.trnPowerCfg 0 || s.power.trip.isSome)

/-- In Still VDD_IO may be removed (R354). -/
def State.ioSpare (s : State) : Bool :=
  s.power.st == .still && s.b A.trnPowerCfg 1 &&
    (List.range 20).all (fun i => !s.b (A.evcsCfg (256 + i)) 27 && !s.b (A.evcsCfg (256 + i)) 28)

/-- CORE_PWR_EN is driven low; at a wake the Tarn releases it and waits for the supply (R354, R355, R360). -/
def State.coreOff (s : State) : Bool := s.coreSpare && s.power.supplyWait.isNone

/-- IO_PWR_EN is driven low (R354, R355). -/
def State.ioOff (s : State) : Bool := s.ioSpare && s.power.supplyWait.isNone

/-- The state requires the supply of monitor `j`: one that Still lets be removed is not required while the Tarn waits for it, either
(Table 16.4, R354 to R356). -/
def State.needs (s : State) (j : Nat) : Bool :=
  if 8 ≤ j ∧ j ≤ 9 then true else if 22 ≤ j then !s.ioSpare else !s.coreSpare

/-- The fail comparator of monitor `j` sees the supply below its threshold, or above it again. Without VDD_CORE or VDD_IO the TAP loses its
state (R356, R398). -/
def State.noteSupply (s : State) (j : Nat) (below : Bool) : State :=
  s.onPower (fun p => { p with
    low := (List.range 24).filter (fun i => if i = j then below else p.low.contains i)
    jtag := if below ∧ (j < 8 ∨ 22 ≤ j) then {} else p.jtag })

/-- SUPPLY_FAIL: the fail comparator of monitor `j` acts at `mv`. Below its threshold, in a state that requires the supply, the device is in
Off at once, and stays there until every supply is above its threshold again (R356, R390). -/
def execSupplyFail (j : Fin 24) (mv : BitVec 16) (s : State) : Host.Outcome State Fault Refusal :=
  .next (
    let below := decide (mv.toNat < supplyFailMv j)
    let s1 := s.noteSupply j below
    if below ∧ s.power.st ≠ .off ∧ s.needs j then s1.powerOff s.power.pwrOk else s1)

/-- VDD_IO is absent in Still (R386). -/
def State.ioGone (s : State) : Bool := s.power.st == .still && (s.power.low.contains 22 || s.power.low.contains 23)

/-- REFCLK_LOSS: SYSREF_CLK has been absent for 20 µs in Ready or Run (R391). -/
def execRefclkLoss (s : State) : Host.Outcome State Fault Refusal := .next (s.whenOn fun s => s.powerOff s.power.pwrOk)

/-! Entry to Doze and Still (R350, R351). -/

/-- A request is refused with BUSY while something of R350 holds. -/
def State.lowerBusy (s : State) : Bool :=
  s.running || s.sicBusy || s.lakeCtl.training != 0 || s.load.toList.any (·.active) || s.crc.toList.any (·.feed.isSome) ||
    !s.ctl.longOps.isEmpty || s.power.entering != .none

/-- TRN_CMD_STAT: a code and the command (Table 16.10). -/
def State.cmdStat (s : State) (code cmd : Nat) : State := s.wr A.trnCmdStat (wd (code * 2 ^ 28 + cmd))

/-- A request for a lower state, command 1 (Doze) or 2 (Still) (R350, R351 step 1). -/
def State.requestEntry (s : State) (cmd : Nat) : State :=
  if s.lowerBusy then (s.cmdStat 1 cmd).raise A.trnEvt 2
  else ((s.cmdStat 0 cmd).onPower (fun p => { p with entering := if cmd = 1 then .doze else .still })).requestCommit

/-- ENTER_DOZE. -/
def execEnterDoze (s : State) : Host.Outcome State Fault Refusal := .next (s.whenOn fun s => s.requestEntry 1)

/-- ENTER_STILL. -/
def execEnterStill (s : State) : Host.Outcome State Fault Refusal := .next (s.whenOn fun s => s.requestEntry 2)

/-- A write of TRN_CMD (Table 16.10). -/
def State.trnCommand (s : State) (v : Word) : State :=
  if !s.on then s
  else match fld v 3 0 with
    | 1 => s.requestEntry 1
    | 2 => s.requestEntry 2
    | _ => s

/-- Wake source `n` stands: its block or its latch asserts it, and it is in the watcher's set (R347, R357). -/
def State.wakeStands (s : State) (n : Fin 768) : Bool := s.watched n && (if isPin n then (s.sources[n]).latched else s.blockAsserted n)

/-- Some wake source stands. -/
def State.anyWake (s : State) : Bool := wakeSources.any (fun n => match fin? 768 n with
  | some n => s.wakeStands n
  | none => false)

/-- ENTRY_COMPLETE: the commit is done, the Lake is in self-refresh, XA and XB are in electrical idle and the fast clocks stop; or the entry
is cancelled by a wake source or an active group (R351, R352, Table 18.4). A list that runs ends ABORTED; the bus-clear of R89 is not run
then (DESIGN CHOICE, assumption 98). -/
def execEntryComplete (s : State) : Host.Outcome State Fault Refusal :=
  .next (s.whenOn fun s =>
    if s.power.entering = .none then s
    else if s.running || s.anyWake then s.haltEntry
    else if s.keep.busy then s
    else
      let s1 := forFin (fun (n : Fin 32) s => if (s.twb[n]).run.isSome then s.abortRun n else s) (List.range 32) s
      let s2 := forFin (fun (c : Fin 12) s => s.onChan c (fun x => { x with st := if x.st = 2 then 3 else x.st })) (List.range 12) s1
      let s3 := forFin (fun (l : Fin 8) s => (s.onLink l (fun x => { x with aligned := false })).linkEval l (s.linkOk l)) (List.range 8) s2
      (s3.wr A.evcLatched 0#32).onPower (fun p => { p with
        st := if p.entering = .doze then .doze else .still
        entering := .none, pointTarn := s.tarn, popAtEntry := s.lakeSetOf
        slotAtEntry := if s.str.bare then none else some s.sic.activeB }))

/-- EDGE_LATCH: an edge of pin `i` while the fabric clock is stopped and VDD_IO is present: its latch catches it if LATCH is set and the edge
is of the configured polarity (R347, R384). -/
def execEdgeLatch (i : Fin 20) (falling : Bool) (s : State) : Host.Outcome State Fault Refusal :=
  .next (
    if s.power.st = .doze ∨ (s.power.st = .still ∧ !s.ioGone) then
      let n : Fin 768 := ⟨256 + i.val, by omega⟩
      let hit := s.b (A.evcsCfg n) 28 && (s.b (A.evcsCfg n) 26 || s.b (A.evcsCfg n) 25 == falling)
      s.onSrc n (fun x => { x with level := !falling, latched := x.latched || hit })
    else s)

/-! Waking (R353 to R360). -/

/-- The Tarn time from which the crystal has timed what began at `t0` (R395). -/
def State.exactFrom (s : State) (t0 : Nat) : Nat := max t0 (s.power.crystalAt.getD s.tarn)

/-- The time since `t0` in nanoseconds as the Tarn measures it: what ran on the crystal exactly, what ran on the RC oscillator to within ±2 %
(R395). -/
def State.measured (s : State) (t0 : Nat) : Nat × State :=
  let t1 := s.exactFrom t0
  if t1 = t0 then (s.tarn - t0, s)
  else let r := s.choose 40001; ((t1 - t0) * (980000 + r.1) / 1000000 + (s.tarn - t1), r.2)

/-- The watcher accepts source `n` in Still (Table 16.3): of the requests BMC_REQ alone, of the temperatures the Tarn's sensor. -/
def State.stillSource (s : State) (n : Nat) : Bool :=
  if n = 244 then s.b A.trnReqEvt 0 else if n = 245 then s.b A.telThermEvt 15 && s.b A.telThermEvtEn 15 else true

/-- After a thermal trip BMC_REQ alone wakes, after 1 s and with the Tarn's sensor below its alarm limit (R360). -/
def State.tripAllows (s : State) (n : Nat) : Bool :=
  match s.power.trip with
  | none => true
  | some t => n == 244 && s.b A.trnReqEvt 0 && decide (t + 10 ^ 9 < s.tarn) &&
      decide (sx 16 (s.f (A.telT 15) 15 0) < sx 16 (s.f (A.telTAlarm 15) 15 0))

/-- WAKE_DOZE: wake source `src` restarts the clocks: the Lake leaves self-refresh, the time bases step by the time in Doze, latched and
level pin sources are seen, and the device is in Ready (R347, R353, Table 16.1). -/
def execWakeDoze (src : Fin 768) (s : State) : Host.Outcome State Fault Refusal :=
  .next (
    if s.power.st ≠ .doze ∨ !s.wakeStands src then s
    else
      let m := s.measured s.power.pointTarn
      let ticks := m.1 * 32768 / 10 ^ 9
      let s1 := forFin (fun (c : Fin 12) s => s.onChan c (fun x => { x with
        st := if x.st = 3 then 2 else x.st, wakeStep := x.wakeStep || x.st == 3 })) (List.range 12) m.2
      let s2 := forFin (fun (n : Fin 4) s =>
        let t := s.tb[n]
        let s' := (s.cancelPend n).stepTb n (t.valueAt s.now + Int.ofNat (ticks * (10 ^ 9 * 2 ^ 33)))
        if s'.tbSrc n = 1 then s'.onTb n (fun t => { t with st := .unlocked, first := none }) else s') [0, 1, 2, 3] s1
      let s3 := s2.onPower (fun p => { p with st := .on, wakeFrom := 2, wakeSrc := src, slotAtEntry := none })
      s3.reportWake)

/-- The monitors read `mv`: the readings stand in TEL_Vj, and the fail comparators follow (R355, R356). -/
def State.readSupplies (s : State) (mv : Vector (BitVec 16) 24) : State :=
  forAll (fun (x : BitVec 16 × Nat) s => (s.wr (A.telV x.2) (wd x.1.toNat)).noteSupply x.2 (decide (x.1.toNat < supplyFailMv x.2)))
    mv.toList.zipIdx s

/-- Every supply is within its alarm limits in the readings `mv`, and above its fail threshold (R355, R356). -/
def State.suppliesGood (s : State) (mv : Vector (BitVec 16) 24) : Bool :=
  mv.toList.zipIdx.all (fun x =>
    let w := s.rd (A.telVLim x.2)
    decide (fld w 15 0 ≤ x.1.toNat) && decide (x.1.toNat ≤ fld w 31 16) && decide (supplyFailMv x.2 ≤ x.1.toNat))

/-- WAKE_STILL: wake source `src` releases the supply enables; once the monitors read every supply within its limits the core leaves reset and
the device starts, and until then the Tarn waits (R354, R355). -/
def execWakeStill (src : Fin 768) (devid : BitVec 14) (factoryL : Bool) (supplies : Vector (BitVec 16) 24) (s : State) :
    Host.Outcome State Fault Refusal :=
  .next (
    let ok := s.power.supplyWait.isSome || (s.wakeStands src && s.stillSource src && s.tripAllows src)
    if s.power.st ≠ .still ∨ s.power.held ∨ s.power.resetLow ∨ !ok then s
    else
      let s1 := s.readSupplies supplies
      if s.suppliesGood supplies then
        s1.beginStart true (if s.power.supplyWait.isSome then s.power.wakeSrc else src) devid.toNat factoryL
      else if s.power.supplyWait.isSome then s1
      else s1.onPower (fun p => { p with supplyWait := some s.tarn, wakeSrc := src }))

/-- SUPPLY_WAIT_TIMEOUT: the supplies were not within range by TRN_PUP_TMO; the device stays in Still (R355). -/
def execSupplyWaitTimeout (s : State) : Host.Outcome State Fault Refusal :=
  .next (
    match s.power.supplyWait with
    | some t =>
      if s.power.st = .still ∧ t + ms (atLeast1 (s.f A.trnPupTmo 7 0)) ≤ s.tarn then
        (s.setF A.trnCmdStat 31 28 3).onPower (fun p => { p with supplyWait := none, pupFail := true })
      else s
    | none => s)

/-- THERMAL_TRIP: a sensor has read above TEL_TRIP for 1 ms: Still without a commit; in Still already, the core supplies are given up too
(R360). -/
def execThermalTrip (s : State) : Host.Outcome State Fault Refusal :=
  .next (
    let p := s.power
    if !p.hot.any (fun x => decide (x.2 + ms 1 ≤ s.tarn)) then s
    else if p.st = .doze ∨ (p.st = .on ∧ !p.held ∧ !p.resetLow) then
      s.cutCommit.onPower (fun p => { p with
        st := .still, entering := .none, boot := none, lastOff := 4, trip := some s.tarn, tripPending := true, pointTarn := s.tarn
        popAtEntry := s.lakeSetOf, slotAtEntry := if s.str.bare then none else some s.sic.activeB })
    else if p.st = .still ∧ p.trip.isNone then
      s.onPower (fun p => { p with lastOff := 4, trip := some s.tarn, tripPending := true, supplyWait := none })
    else s)

/-- The wake timers. -/
def State.timer (s : State) (k : Fin 2) : WakeTimer := if k = 0 then s.power.tmr0 else s.power.tmr1

/-- A wake timer counts from a Tarn time. -/
def State.setTimer (s : State) (k : Fin 2) (t : Nat) : State :=
  s.onPower (fun p => if k = 0 then { p with tmr0 := { start := t } } else { p with tmr1 := { start := t } })

/-- A write of TRN_TMRk_CTL: setting EN starts the count; one that runs goes on (R359). -/
def State.writeTmrCtl (s : State) (k : Fin 2) (v : Word) : State :=
  let s1 := s.wr (A.trnTmr0Ctl k) (wd (v.toNat &&& 3))
  if bit v 0 && !s.b (A.trnTmr0Ctl k) 0 then s1.setTimer k s.tarn else s1

/-- A write of TRN_TMRk_LOAD restarts a running count (R359). -/
def State.writeTmrLoad (s : State) (k : Fin 2) (v : Word) : State :=
  let s1 := s.wrK (A.trnTmr0Load k) v
  if s.b (A.trnTmr0Ctl k) 0 then s1.setTimer k s.tarn else s1

/-- The interval of a wake timer in Tarn nanoseconds. -/
def State.tmrNs (s : State) (k : Fin 2) : Nat := (atLeast1 (s.rd (A.trnTmr0Load k)).toNat * 10 ^ 9 + 32767) / 32768

/-- WAKE_TIMER_EXPIRE: timer `k` has counted its load; a periodic one goes on from the instant of its expiry, which is known to the tick on
the crystal (R359, R395). -/
def execWakeTimerExpire (k : Fin 2) (s : State) : Host.Outcome State Fault Refusal :=
  .next (
    if s.power.st = .off ∨ s.power.held ∨ !s.b (A.trnTmr0Ctl k) 0 then s
    else
      let m := s.measured (s.timer k).start
      if m.1 < s.tmrNs k then m.2
      else
        let s1 := m.2.raise A.trnTmrEvt k.val
        if s1.b (A.trnTmr0Ctl k) 1 then
          s1.setTimer k (if s1.exactFrom (s1.timer k).start = (s1.timer k).start then (s1.timer k).start + s1.tmrNs k else s1.tarn)
        else s1.setB (A.trnTmr0Ctl k) 0 false)

/-- An address match of TWT in Doze or Still is a board-controller request to the Tarn watcher (R97, R386). -/
def State.bmcReq (s : State) : State :=
  if (s.power.st = .doze ∨ (s.power.st = .still ∧ !s.ioGone)) ∧ s.b A.twbtCtl 8 then s.raise A.trnReqEvt 0 else s

/-- BMC_REQ: an address match of TWT in Doze or Still (R97, R386). -/
def execBmcReq (s : State) : Host.Outcome State Fault Refusal := .next s.bmcReq

/-- TARN_CRYSTAL_STARTED: the crystal has run for 1,024 cycles (R395). -/
def execTarnCrystalStarted (s : State) : Host.Outcome State Fault Refusal :=
  .next (if s.power.st = .off ∨ s.power.crystalAt.isSome then s else s.onPower (fun p => { p with crystalAt := some s.tarn }))

/-! Registers that the power state gives. -/

/-- TRN_STATE (Table 16.13). -/
def State.trnStateWord (s : State) : Nat :=
  let p := s.power
  let st := match p.st with
    | .still => 1
    | .doze => 2
    | .on => if s.running then 4 else 3
    | .off => 0
  p.wakeSrc % 1024 * 2 ^ 20 + p.wakeFrom % 8 * 2 ^ 16 + p.lastOff % 16 * 2 ^ 12 + (if p.resumed then 2 ^ 8 else 0) +
    (if p.entering = .none then 0 else 8) + st

/-- TRN_TMRk_NOW: ticks remaining, as the Tarn measures them (R359, R395). -/
def State.tmrNow (s : State) (k : Fin 2) : Nat :=
  if s.b (A.trnTmr0Ctl k) 0 then atLeast1 (s.rd (A.trnTmr0Load k)).toNat - (s.measured (s.timer k).start).1 * 32768 / 10 ^ 9 else 0

/-- KEEP_STATUS (Table 16.14). -/
def State.keepStatusWord (s : State) : Nat :=
  let k := s.keep
  (if k.serialMismatch then 32 else 0) + (if k.factoryStart then 16 else 0) + (if k.factoryUsed then 8 else 0) +
    (if k.verifying then 4 else 0) + (if s.dirty then 2 else 0) + (if k.busy then 1 else 0)

/-- KEEP_RECk, word `j`, for the record of KIND k (Table 16.11). -/
def State.keepRecWord (s : State) (k j : Nat) : Nat :=
  if k < 1 ∨ 7 < k then 0
  else
    let p := s.recPair k
    let h := ((s.validOf k).map (·.head)).getD {}
    match j with
    | 0 => h.gen % 2 ^ 32
    | 1 => p.b0.state k + 4 * p.b1.state k + (if s.newestOf k = some true then 16 else 0)
    | 2 => h.len % 2 ^ 32
    | _ => h.serial % 2 ^ 32

end Sys2Proof.Machine
end

