-- ==== Sys2Proof/Machine/Telemetry.lean ====
section
/-! DEFINITION. Telemetry: samples, alarms and payloads (R360, R368, R369). -/

namespace Sys2Proof.Machine
open Sys2Proof

/-! Samples and alarms (R368). -/

/-- Sensor `i` reads `t`: its alarm and its arming, and how long it has been above TEL_TRIP (R360, R368). -/
def State.sampleTemp (s : State) (i : Nat) (t : BitVec 16) : State :=
  let v := t.toInt
  let lim := sx 16 (s.f (A.telTAlarm i) 15 0)
  let s1 := s.wr (A.telT i) (wd t.toNat)
  let hot := decide (sx 16 (s.f A.telTrip 15 0) < v)
  let s2 := s1.onPower (fun p => { p with
    hot := if !hot then p.hot.filter (fun x => x.1 != i) else if p.hot.any (fun x => x.1 == i) then p.hot else (i, s.tarn) :: p.hot })
  let armed := s2.power.armedT.testBit i
  if lim < v ∧ armed then
    ((s2.raise A.telThermEvt i).raise A.twbtAlert 0).onPower (fun p => { p with armedT := p.armedT ^^^ 2 ^ i })
  else if v ≤ lim - 80 ∧ !armed then s2.onPower (fun p => { p with armedT := p.armedT ||| 2 ^ i })
  else s2

/-- Monitor `j` reads `mv`: its alarm and its arming; a supply that the state lets be removed raises none (R368). VDD_TARN out of range
rules the resume of R355 out. -/
def State.sampleSupply (s : State) (j : Nat) (mv : Nat) : State :=
  let w := s.rd (A.telVLim j)
  let hi := fld w 31 16
  let lo := fld w 15 0
  let s1 := s.wr (A.telV j) (wd mv)
  let out := decide (mv < lo) || decide (hi < mv)
  let s2 := if out && (j == 8 || j == 9) then s1.onPower (fun p => { p with vddTarn := false }) else s1
  let armed := s2.power.armedV.testBit j
  if out && armed && s.needs j then
    ((s2.raise A.telSupEvt j).raise A.twbtAlert 1).onPower (fun p => { p with armedV := p.armedV ^^^ 2 ^ j })
  else if !armed && decide (lo + 10 ≤ mv) && decide (mv + 10 ≤ hi) then s2.onPower (fun p => { p with armedV := p.armedV ||| 2 ^ j })
  else s2

/-- TEL_SAMPLE: the Tarn samples its sensors and monitors and estimates the power, every 1 ms in every state (R368). Source 247 does not change
in Doze and Still (R357). -/
def execTelSample (temps : Vector (BitVec 16) 16) (volts : Vector (BitVec 16) 24) (power : BitVec 20) (s : State) :
    Host.Outcome State Fault Refusal :=
  .next (
    if s.power.st = .off ∨ s.power.held then s
    else
      let s1 := forAll (fun (x : BitVec 16 × Nat) s => s.sampleTemp x.2 x.1) temps.toList.zipIdx s
      let s2 := forAll (fun (x : BitVec 16 × Nat) s => s.sampleSupply x.2 x.1.toNat) volts.toList.zipIdx s1
      let s3 := s2.wr A.telPower (wd power.toNat)
      let above := decide (s3.f A.telPowerLim 19 0 < power.toNat)
      if s.power.st ≠ .on then s3
      else
        let s4 := if above && s3.power.armedP then s3.raise A.telEvt 1 else s3
        s4.onPower (fun p => { p with armedP := !above }))

/-! Payloads (R369, Table 16.9). -/

/-- The counters of class `k` of the telemetry payload: corrected Lake errors of channels 0 to 11, then Spring errors, uncorrectable Lake
errors, pond resets, stack faults, Bridge timeouts, watchdog trips, bad copies and truncation records. -/
def telClass (k : Nat) : List Nat :=
  if k < 12 then [A.lakeChCntCe k]
  else match k with
    | 12 => (List.range 32).flatMap (fun n => (List.range 13).map (fun i => A.sprCntEccCorr n + 4 * i))
    | 13 => (List.range 12).map A.lakeChCntUe
    | 14 => [A.pndCntResets]
    | 15 => [A.evcCntFault]
    | 16 => [A.brgCntTmo]
    | 17 => (List.range 8).map (fun l => A.ethlCntPfcWd (l / 4) (l % 4))
    | 18 => [A.keepCntBad]
    | 19 => (List.range 16).map A.outCntTrunc
    | _ => []

/-- The classes of the payload. -/
def telClasses : List Nat := List.range 20

/-- A read of the RC register at `a` clears `v` from it: the classes that count it go on from there (R369). -/
def State.telCleared (s : State) (a v : Nat) : State :=
  if telClasses.all (fun k => !(telClass k).contains a) then s
  else s.onPower (fun p => { p with
    telBase := telClasses.map (fun k => p.telBase.getD k 0 + (if (telClass k).contains a then v else 0)) })

/-- The total of class `k`, reads notwithstanding. -/
def State.telTotal (s : State) (k : Nat) : Nat :=
  (telClass k).foldl (fun acc a => acc + (s.rd a).toNat) 0 + s.power.telBase.getD k 0

/-- The status byte of a link. -/
def State.telLink (s : State) (l : Nat) : Nat :=
  let down := if s.power.telDown.testBit l then 8 else 0
  match fin? 8 l with
  | some i => let x := s.links[i]; (if s.linkOk l then 1 else 0) + (if x.lfault then 2 else 0) + (if x.rfault then 4 else 0) + down
  | none =>
    let st := fun i => s.b (A.ethStatus (l - 6)) i
    (if st 0 then 1 else 0) + (if st 4 then 2 else 0) + (if st 8 then 4 else 0) + down

/-- The telemetry payload (Table 16.9). -/
def State.telPayload (s : State) : Bytes :=
  let inc := fun (k : Nat) => leBytes 4 (min 0xFFFFFFFF (s.telTotal k - s.power.telPrev.getD k 0))
  let used := s.lakeSetOf.foldl (fun a c => a + 2 ^ c) 0
  leBytes 2 1 ++ leBytes 2 16 ++ leBytes 2 24 ++ leBytes 2 0 ++ leBytes 4 (s.rd A.telPower).toNat ++
    leBytes 4 (used * 2 ^ 16 + s.trnStateWord % 8) ++
    (List.range 16).flatMap (fun i => leBytes 2 (s.f (A.telT i) 15 0)) ++
    (List.range 24).flatMap (fun j => leBytes 2 (s.f (A.telV j) 15 0)) ++
    (List.range 12).flatMap inc ++
    (List.range 10).flatMap (fun l => leBytes 1 (s.telLink l)) ++ leBytes 6 0 ++
    ((List.range 8).map (· + 12)).flatMap inc ++ leBytes 8 s.round ++ List.replicate 24 0#8

/-- TEL_RECORD: TEL_PERIOD has passed; the payload goes to every statistics stream with TEL (R207, R369). -/
def execTelRecord (s : State) : Host.Outcome State Fault Refusal :=
  .next (s.whenOn fun s =>
    let p := s.f A.telPeriod 15 0
    if p = 0 ∨ s.now < s.power.lastTelRec + ms p then s
    else
      let bytes := s.telPayload
      let totals := telClasses.map s.telTotal
      let s1 := (s.raise A.telEvt 0).onPower (fun q => { q with lastTelRec := s.now, telPrev := totals, telDown := 0 })
      forFin (fun (n : Fin 16) s =>
        if s.isStats n && s.outOn n && s.b (A.outCtl n) 24 then (s.onOut n (fun x => { x with tel := x.tel ++ [bytes] })).enterTel n else s)
        (List.range 16) s1)

end Sys2Proof.Machine
end

