-- ==== Sys2Proof/Machine/View.lean ====
section
/-! DEFINITION. What the registers read: fields that the device computes from its state, shadow values of RWS registers, the companion
words that a latching read leaves, and the zeros of instances that the image does not define. Reading here changes nothing. -/

namespace Sys2Proof.Machine
open Sys2Proof

/-- 2^i when `b`. -/
abbrev flag (b : Bool) (i : Nat) : Nat := if b then 2 ^ i else 0

/-- A word with bit `i` set for every `i` below `n` with `p i`. -/
def mask (n : Nat) (p : Nat → Bool) : Nat := (List.range n).foldl (fun a i => a + flag (p i) i) 0

/-- The member `n` of a family, or a default. -/
def member {α β : Type} (k n : Nat) (f : Fin k → α) (g : α → β) (d : β) : β := match fin? k n with
  | some i => g (f i)
  | none => d

/-! The computed registers, block by block; `o` is the offset in the instance. -/

/-- GLB_ registers (R403). -/
def State.viewGlb (s : State) (a : Nat) : Word :=
  let p := s.power
  if a = A.glbId then wd (0x632 * 2 ^ 20 + p.stepping % 16 * 2 ^ 16 + p.devid % 2 ^ 14)
  else if a = A.glbStrap then wd (flag p.factoryL 16 + p.devid % 2 ^ 14)
  else s.rd a

/-- SIC_ registers (R51). -/
def State.viewSic (s : State) (a : Nat) : Word :=
  if a = A.sicStatus then wd s.sicStatusWord
  else if a = A.sicActive then wd s.sicActiveWord
  else if a = A.sicSlotaState then wd (s.slotWord false)
  else if a = A.sicSlotbState then wd (s.slotWord true)
  else s.rd a

/-- SPRn_STATUS (Table 3.7). -/
def State.sprStatusWord (s : State) (n : Fin 32) : Nat :=
  let x := s.spr[n]
  let press := mask 4 (fun i => s.b (A.sprDskVal n i) 23)
  let disc := match s.groupOf n with
    | some g => member 12 g (fun i => s.grp[i]) (fun y => y.cuts.any (·.active)) false
    | none => false
  x.errClass % 16 * 2 ^ 28 + press * 2 ^ 24 + flag disc 12 + x.lock % 16 * 2 ^ 8 + (x.lanes - 1) % 4 * 2 ^ 4 + x.st % 8

/-- SPR_ registers of Spring `n` (R77). -/
def State.viewSpr (s : State) (n : Fin 32) (a : Nat) : Word :=
  if a = A.sprStatus n then wd (s.sprStatusWord n)
  else if a = A.sprPondFill n then wd (pondFill (s.spr[n]).pond)
  else s.rd a

/-- TWB_ registers (R99). TWBT_STATUS shows the port idle: each transfer through it is one command. -/
def State.viewTwb (s : State) (a : Nat) : Word :=
  if a = A.twbtStatus then wd (flag ((s.rd A.twbtAlert &&& s.rd A.twbtAlertEn) != 0) 8)
  else match fin? 32 (inst a 0x180000 0x800) with
    | some n => if a = A.twbStatus n then wd (s.twbStatusWord n) else s.rd a
    | none => s.rd a

/-- SEAM_ registers of the sensor at Spring `n` (R122). -/
def State.viewSensor (s : State) (n a : Nat) : Word :=
  let bar := match s.groupOf n with
    | some g => decide (g < 4)
    | none => false
  let o := a % 0x100
  if o = 0x50 then setFld (s.rd a) 9 8 (s.seamRole n)
  else if 0x30 ≤ o ∧ o < 0x4C then
    if !bar then 0#32
    else if o = 0x30 then s.rd (A.seamOfs n)
    else if o = 0x34 then s.rd (A.seamMag n)
    else if o = 0x38 then s.rd (A.seamDly n)
    else s.rd a
  else s.rd a

/-- SEAM_BARb_CFG (Table 5.6). -/
def State.barCfgWord (s : State) (b : Nat) : Nat :=
  let r := s.group b
  if !s.defined b then 0
  else flag (s.isInline b) 31 + 2 ^ 30 + (r.springs.length - 1) % 32 * 2 ^ 24 + (r.channels - 1) % 4 * 2 ^ 16 + r.depth % 1024

/-- SEAM_ registers of bar `b` and of the whole unit (R122). -/
def State.viewBar (s : State) (b a : Nat) : Word :=
  let o := a % 0x1000
  if o = 0x000 then wd (s.barCfgWord b)
  else if o = 0x00C then setBit (s.rd a) 19 (s.defined b && s.defaultOrder b)
  else if o = 0x060 then (if s.defined b then wd (s.seamNeed s.shadow b ((s.written (A.seamBarCommit b)).map (·.1))) else 0#32)
  else if o = 0x064 then wd (s.sramSize (32 + b))
  else if 0x100 ≤ o ∧ o < 0x500 ∧ (s.group b).springs.length ≤ (o - 0x100) / 0x20 + 1 then 0#32
  else s.rd a

/-- LE_STATUS (Table 6.2). -/
def State.leStatusWord (s : State) : Nat :=
  mask 12 (fun g => s.activeGroup g) * 2 ^ 16 + flag s.running 4 + s.inlineBar.getD 15

/-- LE_CALENDAR: the owners of slots 4i to 4i + 3, 0xFF free (R124). -/
def State.calendarWord (s : State) (i : Nat) : Nat :=
  (List.range 4).foldl (fun a j => a + (s.slotOwner (4 * i + j)).getD 0xFF * 2 ^ (8 * j)) 0

/-- LE_Gg_STATUS (Table 6.5). -/
def State.legStatusWord (s : State) (g : Fin 12) : Nat :=
  let e := s.engs[g]
  let wait := !s.isInline g && decide (g.val < 4) && (match Sys2Proof.Machine.regionLines (s.unserved g) with
    | l :: _ => s.tnrOn g && decide ((e.arrived.lookup l.tag.count).getD 0 < min l.samples (e.pos + 12288))
    | [] => false)
  s.str.owned g * 2 ^ 16 + flag wait 5 + flag e.full.isSome 4 + flag e.blocked 3 + flag (s.grp[g]).active 2 + flag (s.isInline g) 1 + flag (s.defined g) 0

/-- LE_Gg_LAT_BOUND, ns (R133, R136 with B = 0). -/
def State.latBound (s : State) (g : Nat) : Nat :=
  if s.isInline g then 54613
  else
    let own := s.str.owned g
    if own = 0 then 0xFFFFFFFF
    else
      let segs := ((s.group g).columns * (s.group g).channels + 12287) / 12288
      min 0xFFFFFFFF (((1 + (segs + own - 1) / own) * 32768 * 10 + 6) / 12)

/-- LE_ registers (R140). -/
def State.viewLe (s : State) (a : Nat) : Word :=
  if a = A.leStatus then wd s.leStatusWord
  else if 0x280100 ≤ a ∧ a < 0x280200 then wd (s.calendarWord ((a - 0x280100) / 4))
  else if a < 0x281000 then s.rd a
  else match fin? 12 (inst a 0x281000 0x100) with
    | none => 0#32
    | some g =>
      let o := a % 0x100
      if o = 0x00 then (if s.isInline g then 0#32 else s.rd a)
      else if o = 0x04 then wd (s.legStatusWord g)
      else if o = 0x08 then wd (min 0xFFFFFF (rdiv (Int.ofNat ((s.group g).demand * 256)) demandUnit).toNat)
      else if o = 0x0C then wd (s.readyCount g)
      else if o = 0x18 then wd (min 0xFFFFFF (s.regionLines g))
      else if o = 0x1C then wd (s.latBound g)
      else s.rd a

/-- COR_Gg_STATUS (Table 7.5). -/
def State.corStatusWord (s : State) (g : Fin 12) : Nat :=
  let conv := member 4 g (fun b => s.tnr[b]) (fun x => decide (x.i < s.tnrConv g)) false
  flag (s.load[g]).active 3 + flag (s.tnrOn g && conv) 2 + flag (s.tnrOn g) 1 + flag (s.defined g) 0

/-- COR_ registers of group `g` (R166). -/
def State.viewCor (s : State) (g : Fin 12) (a : Nat) : Word :=
  let o := a % 0x1000
  let tnr := fun (f : Tnr → Nat) => wd (member 4 g (fun b => s.tnr[b]) f 0)
  if o = 0x000 then (if s.tnrRegion g then s.shadow a else setBit (s.shadow a) 1 false)
  else if o = 0x00C then wd (s.corStatusWord g)
  else if o = 0x0C0 then tnr (·.wantShift)
  else if o = 0x0C4 then wd (lowBits 8 (s.tnrShift g))
  else if 0x0D0 ≤ o ∧ o < 0x0E0 then tnr (·.wantN0.getD ((o - 0x0D0) / 4) 0)
  else if 0x0E0 ≤ o ∧ o < 0x0F0 then tnr (·.wantN1.getD ((o - 0x0E0) / 4) 0)
  else if 0x0F0 ≤ o ∧ o < 0x100 then s.rd (A.corTnrN0 g ((o - 0x0F0) / 4))
  else if 0x100 ≤ o ∧ o < 0x110 then s.rd (A.corTnrN1 g ((o - 0x100) / 4))
  else if o = 0x110 then tnr (fun x => x.i % 65536 * 65536 + x.press % 4096)
  else if o = 0x114 then wd (s.tnrRows g)
  else s.rd a

/-- FRM_Gg_SRC (Table 8.9). -/
def State.frmSrcWord (s : State) (g : Nat) : Nat :=
  let r := s.group g
  let k := match r.mark with
    | .none => 0
    | .encoder wp _ _ => 2 ^ 30 + wp % 4 * 2 ^ 28
    | .sensor i falling => 2 * 2 ^ 30 + i % 16 * 2 ^ 24 + flag falling 23
    | .count _ => 3 * 2 ^ 30
  k + flag r.free 22 + r.refSpring % 32

/-- Output columns of stream `n` in force (R191); 0 for a statistics stream. -/
def State.outCols (s : State) (n : Nat) : Nat :=
  let r := s.stream n
  if !r.exists_ || s.isStats n then 0 else (s.outNow n).cols (s.tapWidth r.group r.tap)

/-- OUT_STn_CFG (Table 9.9). -/
def State.outCfgWord (s : State) (n : Nat) : Nat :=
  let r := s.stream n
  let mode := match r.mode with
    | .reliable => 0
    | .lossy => 1
    | .lossyPressure => 2
  2 ^ 31 + r.stall % 8 * 2 ^ 25 + r.group % 16 * 2 ^ 20 + r.tap % 8 * 2 ^ 16 + mode * 2 ^ 14 + r.format % 4 * 2 ^ 12 + r.pond % 256

/-- OUT_STn_STATUS (Table 9.11). -/
def State.outStatusWord (s : State) (n : Fin 16) : Nat :=
  let x := s.out[n]
  s.recFmt n % 4 * 2 ^ 16 + flag (s.outNow n).forced 8 + flag x.pend.isSome 2 + flag x.discard.isSome 1 +
    flag (s.outOn n && s.activeGroup (s.stream n).group) 0

/-- OUT_ registers of a defined stream `n` (R211). -/
def State.viewOut (s : State) (n : Fin 16) (a : Nat) : Word :=
  let r := s.stream n
  let o := a % 0x400
  if o = 0x000 then wd (s.outCfgWord n)
  else if o = 0x030 then wd (s.outStatusWord n)
  else if o = 0x034 then wd (s.outCols n)
  else if o = 0x038 then
    (if s.isStats n then s.rd a
      else wd ((s.outNext n).recMax (s.recFmt n) (s.tapWidth r.group r.tap) (s.group r.group).channels))
  else if o = 0x03C then wd (s.outSize n)
  else if o = 0x040 then wd (s.nextAlive n % 65536)
  else if o = 0x058 then wd (recFill (s.out[n]).pond)
  else s.rd a

/-- Records held in all windows, those that drain included. -/
def State.winUsed (s : State) : Nat :=
  (s.carriers.filterMap s.carrier).foldl (fun a (c : StreamRec × Xpt) => a + c.2.held.length) 0

/-- XPT_STn_STATUS (Table 10.11). -/
def State.xptStatusWord (s : State) (n : Fin 16) : Nat :=
  let r := s.stream n
  let x := s.xpt[n]
  let wait := (s.sessionOf n x).isSome && (match (s.out[n]).pond with
    | c :: _ => !s.hasCredit n x c.bytes.length
    | [] => false)
  usedLink r x % 8 * 2 ^ 16 + x.recfmt % 4 * 2 ^ 8 + flag x.gap.isSome 6 + flag x.silent 5 + flag (s.noLink r) 4 + flag wait 3 + flag x.winFull 2 +
    flag x.standby 1 + flag (s.sessionOf n x).isSome 0

/-- XPT_ registers of a defined stream `n` (R239). -/
def State.viewXpt (s : State) (n : Fin 16) (a : Nat) : Word :=
  let r := s.stream n
  let x := s.xpt[n]
  let o := a % 0x100
  if o = 0x0C then wd (s.xptStatusWord n)
  else if o = 0x10 then wd (x.session.getD 0)
  else if o = 0x14 then wd x.seq
  else if o = 0x18 then wd x.mark
  else if o = 0x1C then wd x.held.length
  else if o = 0x20 then wd (if r.mode = .lossy then 0 else r.window)
  else if o = 0x24 then wd x.sent
  else if o = 0x28 then wd (x.sent / 2 ^ 32)
  else if o = 0x2C then wd x.limit
  else if o = 0x30 then wd (x.limit / 2 ^ 32)
  else s.rd a

/-- ETH_p_STATUS of a stream port (Table 10.13). -/
def State.ethStatusWord (s : State) (p : Nat) : Nat :=
  let link := fun (f : Link → Bool) => mask 4 (fun l => s.linkExists (4 * p + l) && member 8 (4 * p + l) (fun i => s.links[i]) f false)
  mask 4 (fun l => s.linkOk (4 * p + l)) + link (·.lfault) * 2 ^ 4 + link (·.rfault) * 2 ^ 8 + link (·.aligned) * 2 ^ 12

/-- MKT_, XPT_ and ETH_ registers (R239). -/
def State.viewMkt (s : State) (a : Nat) : Word :=
  if a = A.mktStatus then wd (mask 8 (fun l => s.linkOk l))
  else if a = A.mktWinUsed then wd (min 0x1FFFF s.winUsed)
  else if 0x500100 ≤ a ∧ a < 0x500120 then wd (s.share ((a - 0x500100) / 4) % 128)
  else if 0x501000 ≤ a ∧ a < 0x502000 then member 16 (inst a 0x501000 0x100) id (fun n => s.viewXpt n a) 0#32
  else if a = A.ethStatus 0 then wd (s.ethStatusWord 0)
  else if a = A.ethStatus 1 then wd (s.ethStatusWord 1)
  else s.rd a

/-- TBn_STATUS (Table 12.7). -/
def State.tbStatusWord (s : State) (n : Fin 4) : Nat :=
  let t := s.tb[n]
  let st := match t.st with
    | .free => 0
    | .unlocked => 1
    | .locked => 2
    | .holdover => 3
    | .delaySuspect => 4
  t.epoch % 256 * 2 ^ 24 + t.fail % 8 * 2 ^ 16 + st * 2 ^ 8 + flag (s.slewing n) 7 + flag t.pend.isSome 6 + flag t.gmDir 5 + flag t.gmStep 4

/-- TIM_ registers (R279). -/
def State.viewTim (s : State) (a : Nat) : Word :=
  let o := a % 0x1000
  if 0x581000 ≤ a ∧ a < 0x585000 then
    member 4 (inst a 0x581000 0x1000) id (fun n =>
      let t := s.timeAt n s.now
      if o = 0x04 then wd (s.tbStatusWord n)
      else if o = 0x0C then wd t.1
      else if o = 0x10 then wd (t.1 / 2 ^ 32)
      else if o = 0x14 then wd t.2.1
      else if o = 0x2C then wd (lowBits 32 (s.tb[n]).rate)
      else if o = 0x30 then wd (lowBits 32 (s.tb[n]).freq)
      else s.rd a) 0#32
  else if 0x585000 ≤ a ∧ a < 0x589000 then
    member 4 (inst a 0x585000 0x1000) id (fun n =>
      let w := s.wp[n]
      if o = 0x04 then wd (flag w.stopped 0 + flag w.back 1 + flag w.delta.isSome 2)
      else if o = 0x08 then wd (s.wpAt n s.now)
      else if o = 0x0C then wd (s.wpAt n s.now / 2 ^ 32)
      else if o = 0x10 then wd (lowBits 32 (s.wpVel n))
      else s.rd a) 0#32
  else if 0x58D000 ≤ a ∧ a < 0x591000 ∧ o = 0x04 then
    member 4 (inst a 0x58D000 0x1000) (fun i => s.ptp[i]) (fun x => wd (x.state % 16 + flag x.suspect 4)) 0#32
  else if 0x595000 ≤ a ∧ a < 0x5A5000 ∧ o = 0x04 then
    member 16 (inst a 0x595000 0x1000) (fun i => s.gpio[i]) (fun x => wd x.fifo.length) 0#32
  else s.rd a

/-- LAKE_ registers (R255). -/
def State.viewLake (s : State) (a : Nat) : Word :=
  if a = A.lakeStatus then wd s.lakeStatusWord
  else if a = A.lakeCapLo then wd s.lakeCap
  else if a = A.lakeCapHi then wd (s.lakeCap / 2 ^ 32)
  else if a = A.lakeScrubPos then wd (min 0xFFFF s.scrubFraction)
  else if a = A.lakeScrubPasses then wd s.lakeCtl.passes
  else if a = A.lakeErrlogPtr then wd (s.lakeCtl.errPtr % 16)
  else if 0x5C0800 ≤ a ∧ a < 0x5C1000 then wd (s.lakeRegWord ((a - 0x5C0800) / 0x20) (a % 0x20 / 4))
  else if 0x5C1000 ≤ a ∧ a < 0x5C1C00 ∧ a % 0x100 = 0 then member 12 (inst a 0x5C1000 0x100) id (fun c => wd (s.lakeChanWord c)) 0#32
  else if 0x5C2000 ≤ a ∧ a < 0x5CA000 ∧ a % 0x1000 = 8 then
    member 8 (inst a 0x5C2000 0x1000) id (fun t => setBit (s.rd a) 0 (s.apValid t false)) 0#32
  else s.rd a

/-- STL_s_STATUS (Table 13.11). -/
def State.stlStatusWord (s : State) (t : Fin 8) : Nat :=
  let x := s.stalls[t]
  (s.ctl.sessions.countP (fun c => c.stall == t.val)) % 8 + flag (s.chanHolder (2 * t.val)).isSome 4 + flag (s.chanHolder (2 * t.val + 1)).isSome 5 +
    flag x.key.isSome 6 + flag (decide (255 < (s.winPages t).length)) 7 + min 16 x.taken * 2 ^ 8

/-- STL_s_SESSj, word `k` (Table 13.11). -/
def State.sessWord (s : State) (t j k : Nat) : Nat :=
  match s.ctl.sessions.find? (fun x => x.stall == t && x.place == j) with
  | some x => if k = 0 then x.number % 2 ^ 32 else 2 ^ 31 + x.chans % 4 * 2 ^ 18 + x.mgmtPort % 2 * 2 ^ 16 + x.version % 256 * 2 ^ 8
  | none => 0

/-- Entry `j` of STL_s_WINMAP: [15] valid, [11:0] page; entry 0 is the STL_ page (R299). -/
def State.winEntry (s : State) (t j : Nat) : Nat :=
  if j = 0 then 0x8000 + 0x641 + t
  else match (s.winPages t)[j - 1]? with
    | some p => 0x8000 + p
    | none => 0

/-- CTL_, STL_ and BRG_ registers (R310). -/
def State.viewCtl (s : State) (a : Nat) : Word :=
  if a = A.ctlStatus then wd (s.ctl.sessions.length % 64 + flag (s.ctl.sessions.any (·.provisioning)) 8)
  else if a = A.brgStatus then wd (min 32 s.ctl.split.length + s.credits * 2 ^ 8)
  else if 0x641000 ≤ a ∧ a < 0x649000 then
    member 8 (inst a 0x641000 0x1000) id (fun t =>
      let o := a % 0x1000
      if o = 0x000 then wd (s.stlStatusWord t)
      else if o = 0x00C then wd (s.stalls[t]).cpl.length
      else if o = 0x010 then ((s.stalls[t]).cpl.head?.map (·.w0)).getD 0#32
      else if 0x040 ≤ o ∧ o < 0x060 then wd (s.sessWord t ((o - 0x040) / 8) (o % 8 / 4))
      else if 0x800 ≤ o ∧ o < 0xA00 then
        wd (s.winEntry t ((o - 0x800) / 2) + s.winEntry t ((o - 0x800) / 2 + 1) * 65536)
      else s.rd a) 0#32
  else s.rd a

/-- PND_ registers of pond `p`, by offset: INFO and FILL (R319). -/
def State.viewPond (s : State) (p a : Nat) : Word :=
  let sram := decide (p < 86)
  if a % 0x10 = 0 then
    (if sram then let z := s.pondSize p; wd (2 ^ 31 + flag (decide (0 < z)) 30 + min 0x1FFFFFF z) else wd (2 ^ 30 + stages p))
  else if a % 0x10 = 4 then wd (if sram then s.sramFill p else s.chainDepth p)
  else s.rd a

/-- CRC_ registers of unit `k` (R327). -/
def State.viewCrc (s : State) (k : Fin 16) (a : Nat) : Word :=
  let o := a % 0x100
  if 0x10 ≤ o ∧ o < 0x30 then wd (s.crcReadCfg k a (o % 8 == 4))
  else if o = 0x30 then wd (s.crcResultOf k)
  else if o = 0x34 then wd (s.crcResultOf k / 2 ^ 32)
  else s.rd a

/-- EVC_Tt_STATUS (Table 15.9). -/
def State.evctStatusWord (s : State) (t : Fin 20) : Nat :=
  let x := s.targets[t]
  x.takeCause % 16 * 2 ^ 28 + flag x.waking 24 + x.stack.length % 32 * 2 ^ 16 + flag x.stack.isEmpty 12 + (runPrio x.stack).getD 0 % 16 * 2 ^ 8 +
    flag (s.modWait t) 3 + flag (decide (16 ≤ t.val) || (s.chanHolder t).isSome) 2 + flag (s.awake t) 1 + flag x.asleep 0

/-- A stack entry as it reads: [31] valid, [19:16] priority, [9:0] source. -/
def stackWord (e : Option (Nat × Nat)) : Nat := match e with
  | some (n, p) => 2 ^ 31 + p % 16 * 2 ^ 16 + n % 1024
  | none => 0

/-- EVC_SRCn_CFG (Table 15.11): SENSE comes from the image. -/
def State.srcCfgWord (s : State) (n : Nat) : Nat :=
  if !sourceExists n then 0 else (setBit (s.rd (A.evcsCfg n)) 24 (s.levelSensed n)).toNat

/-- EVC_SRCn_STAT (Table 15.12). -/
def State.srcStatWord (s : State) (n : Fin 768) : Nat :=
  let x := s.sources[n]
  flag (x.phase == .pending) 31 + flag (x.phase == .assigned) 30 + flag (x.phase == .active) 29 + flag x.refire 28 +
    flag (if isPin n then s.pinActive n x.level else decide (n.val < 256) && s.blockAsserted n) 27 +
    x.target % 32 * 2 ^ 20 + (if isPin n then s.f (A.evcsStat n) 7 0 else 0)

/-- EVC_ registers (R348). -/
def State.viewEvc (s : State) (a : Nat) : Word :=
  if a = A.evcStatus then wd ((s.sources.toList.countP (fun x => x.phase == .pending)) % 1024 * 2 ^ 16 + flag s.held 0)
  else if 0x681000 ≤ a ∧ a < 0x682400 then
    member 20 (inst a 0x681000 0x100) id (fun t =>
      let o := a % 0x100
      let st := (s.targets[t]).stack
      if o = 0x04 then wd (s.evctStatusWord t)
      else if o = 0x24 then wd (stackWord st.head?)
      else if 0x40 ≤ o ∧ o < 0x80 then wd (stackWord (st.reverse[(o - 0x40) / 4]?))
      else if 0x80 ≤ o ∧ o < 0xE0 then
        let l := s.setBits t
        wd (mask 32 (fun b => l.contains (32 * ((o - 0x80) / 4) + b)))
      else s.rd a) 0#32
  else if 0x684000 ≤ a ∧ a < 0x685800 then
    member 768 (inst a 0x684000 8) id (fun n => wd (if a % 8 = 0 then s.srcCfgWord n else s.srcStatWord n)) 0#32
  else s.rd a

/-- TRN_, KEEP_ and TEL_ registers (R370). -/
def State.viewTarn (s : State) (a : Nat) : Word :=
  if a = A.trnState then wd s.trnStateWord
  else if a = A.trnTmr0Now 0 then wd (s.tmrNow 0)
  else if a = A.trnTmr0Now 1 then wd (s.tmrNow 1)
  else if a = A.trnReqEvtEn then setBit (s.rd a) 0 true
  else if a = A.keepStatus then wd s.keepStatusWord
  else if a = A.keepBank0Wr 0 then wd (min 0xFFFFFFFF s.keep.bank0Wr)
  else if a = A.keepBank0Wr 1 then wd (min 0xFFFFFFFF s.keep.bank1Wr)
  else if 0x6E0100 ≤ a ∧ a < 0x6E0200 then wd (s.keepRecWord ((a - 0x6E0100) / 0x10) (a % 0x10 / 4))
  else s.rd a

/-! The register space. -/

/-- The instance of an instanced block at `a` is defined by the image; the registers of one that is not read 0 and ignore writes (R140,
R166, R186, R187, R239, R400). MA and MB have link 0 only (Table 10.13). Seam registers at or above a bar's last seam are handled with their bar. -/
def State.instDefined (s : State) (a : Nat) : Bool :=
  if 0x204000 ≤ a ∧ a < 0x207F00 then s.defined (inst a 0x204000 0x1000)
  else if 0x281000 ≤ a ∧ a < 0x281C00 then s.defined (inst a 0x281000 0x100)
  else if 0x301000 ≤ a ∧ a < 0x30D000 then s.defined (inst a 0x301000 0x1000)
  else if 0x400000 ≤ a ∧ a < 0x400C00 then s.defined (inst a 0x400000 0x100)
  else if 0x440000 ≤ a ∧ a < 0x458000 then s.defined (inst a 0x440000 0x2000)
  else if 0x480000 ≤ a ∧ a < 0x484000 then (s.stream (inst a 0x480000 0x400)).exists_
  else if 0x501000 ≤ a ∧ a < 0x502000 then (s.stream (inst a 0x501000 0x100)).exists_
  else if 0x542000 ≤ a ∧ a < 0x544000 then decide (a % 0x1000 < 0x180) && a % 0x1000 != 0x00C
  else true

/-- The registers that stand outside every instance's summary: a seam at or above N − 1 of its bar (R122). -/
def State.seamBeyond (s : State) (a : Nat) : Bool :=
  decide (0x204000 ≤ a) && decide (a < 0x207F00) && decide (0x100 ≤ a % 0x1000) && decide (a % 0x1000 < 0x500) &&
    decide ((s.group (inst a 0x204000 0x1000)).springs.length ≤ (a % 0x1000 - 0x100) / 0x20 + 1)

/-- What a register computed by its block reads; other registers read what they hold. -/
def State.computed (s : State) (a : Nat) : Word :=
  if a < 0x10000 then s.viewGlb a
  else if a < 0x100000 then s.viewSic a
  else if a < 0x180000 then member 32 (inst a 0x100000 0x4000) id (fun n => s.viewSpr n a) 0#32
  else if a < 0x200000 then s.viewTwb a
  else if a < 0x202000 then s.viewSensor (inst a 0x200000 0x100) a
  else if a < 0x207F00 then s.viewBar (inst a 0x204000 0x1000) a
  else if a = A.seamGlbBankuse then wd (flag (s.bankUsed 0) 0 + flag (s.bankUsed 1) 1)
  else if a < 0x280000 then s.rd a
  else if a < 0x300000 then s.viewLe a
  else if a < 0x301000 then s.rd a
  else if a < 0x400000 then member 12 (inst a 0x301000 0x1000) id (fun g => s.viewCor g a) 0#32
  else if a < 0x410000 then (if a % 0x100 = 0 then wd (s.frmSrcWord (inst a 0x400000 0x100)) else s.rd a)
  else if 0x410000 ≤ a ∧ a < 0x430000 ∧ a % 0x1000 = 4 then s.expStatusWord (inst a 0x410000 0x1000)
  else if a < 0x480000 then s.rd a
  else if a < 0x484000 then member 16 (inst a 0x480000 0x400) id (fun n => s.viewOut n a) 0#32
  else if a = A.outGlbSetuse then wd (mask 8 s.hSetUsed + mask 8 s.vSetUsed * 2 ^ 8)
  else if a < 0x500000 then s.rd a
  else if a < 0x580000 then s.viewMkt a
  else if a < 0x5C0000 then s.viewTim a
  else if a < 0x600000 then s.viewLake a
  else if a = A.pndStatus then wd ((s.rd a).toNat % 256 + flag (s.resets.any (fun r => decide (s.now < r.2.2))) 8)
  else if a < 0x601000 then s.rd a
  else if a < 0x620000 then s.viewPond (inst a 0x601000 0x10) a
  else if a < 0x640000 then member 16 (inst a 0x620000 0x100) id (fun k => s.viewCrc k a) 0#32
  else if a < 0x680000 then s.viewCtl a
  else if a < 0x6C0000 then s.viewEvc a
  else s.viewTarn a

/-- The value that the register at the aligned address `a` shows now: an RWS register its shadow value (R3, R5), WO fields 0, an offset
that holds no register 0 (R7). -/
def State.peekReg (s : State) (a : Nat) : Word :=
  match rowOf a with
  | none => 0#32
  | some r =>
    if !s.instDefined a || s.seamBeyond a then 0#32
    else
      let v := if r.rws != 0 && r.base != A.corCtl 0 then s.shadow a else s.computed a
      wd (v.toNat &&& (0xFFFFFFFF ^^^ r.wo))

/-! Latching reads (R292). -/

/-- The companion words that a read of the low word at `a` latches. -/
def companions (a : Nat) : List Nat :=
  let o4 := a % 0x1000
  if 0x100000 ≤ a ∧ a < 0x180000 then
    (if a % 0x4000 = 0xF8 then [a + 4] else if a % 0x4000 = 0x100 then [a + 4, a + 8, a + 12, a + 16, a + 20, a + 24, a + 32] else [])
  else if 0x200000 ≤ a ∧ a < 0x202000 then (if a % 0x100 = 0x30 then [a + 4, a + 8, a + 16, a + 20, a + 24] else [])
  else if a = A.leRoundLo then [a + 4]
  else if 0x281000 ≤ a ∧ a < 0x281C00 then (if a % 0x100 = 0x30 then [a + 4] else [])
  else if 0x301000 ≤ a ∧ a < 0x30D000 then
    (if o4 = 0x0C4 then (a - 4) :: (List.range 16).map (fun i => a + 12 + 4 * i) else [])
  else if 0x400000 ≤ a ∧ a < 0x400C00 then (if a % 0x100 = 0x34 then [a + 4] else [])
  else if 0x480000 ≤ a ∧ a < 0x484000 then (if a % 0x400 = 0x44 then [a + 4] else [])
  else if 0x501000 ≤ a ∧ a < 0x502000 then (if a % 0x100 = 0x24 ∨ a % 0x100 = 0x2C then [a + 4] else [])
  else if a = A.lakeCapLo then [a + 4]
  else if 0x581000 ≤ a ∧ a < 0x585000 then (if o4 = 0x0C then [a + 4, a + 8] else [])
  else if 0x585000 ≤ a ∧ a < 0x589000 then (if o4 = 0x08 then [a + 4] else [])
  else if 0x591000 ≤ a ∧ a < 0x595000 then (if o4 = 0x20 then [a + 4] else [])
  else if 0x620000 ≤ a ∧ a < 0x621000 then (if a % 0x100 = 0x30 then [a + 4] else [])
  else []

/-- The value that a read of `a` returns: a companion word shows what the last read of its low word latched, and before the first its value
now (DESIGN CHOICE, assumption 91). -/
def State.readReg (s : State) (a : Nat) : Word :=
  match s.latch.lookup a with
  | some v => if s.instDefined a then v else 0#32
  | none => s.peekReg a

/-- The companions of `a` are latched at this moment. -/
def State.latchAt (s : State) (a : Nat) : State :=
  forAll (fun c s => { s with latch := (c, s.peekReg c) :: s.latch.filter (fun x => x.1 != c) }) (companions a) s

end Sys2Proof.Machine
end

