-- ==== Sys2Proof/Machine/Bus.lean ====
section
/-! DEFINITION. Register accesses: what a read and a write of each register do, the checks and windows of a stall's access, and the
commands that a stall makes on its own (R3 to R7, R287, R291 to R293, R297 to R303, R401). -/

namespace Sys2Proof.Machine
open Sys2Proof

/-! Reads with their side effects. -/

/-- Registers whose count in [31:24] is cleared by a read (Tables 5.3, 7.5, 11.4 and 15.6). -/
def isLog (a : Nat) : Bool :=
  (decide (0x204000 ≤ a) && decide (a < 0x207F00) && a % 0x1000 == 0x078) || a == A.lakeLog || a == A.evcFaultLog ||
  (decide (0x301000 ≤ a) && decide (a < 0x30D000) && a % 0x1000 == 0x12C)

/-- A 32-bit read of the register at the aligned address `a`: its value, and what the read changes (R3, R164, R277, R292, R296). -/
def State.loadReg (s : State) (a : Nat) : Word × State :=
  if !s.instDefined a then (0#32, s)
  else if 0x641000 ≤ a ∧ a < 0x649000 ∧ a % 0x1000 = 0x010 then
    match fin? 8 (inst a 0x641000 0x1000) with
    | some t => s.cplRead t
    | none => (0#32, s)
  else if 0x595000 ≤ a ∧ a < 0x5A5000 ∧ a % 0x1000 = 0x008 then
    match fin? 16 (inst a 0x595000 0x1000) with
    | some i => s.capRead i
    | none => (0#32, s)
  else if 0x301000 ≤ a ∧ a < 0x30D000 ∧ a % 0x1000 = 0x194 then
    match fin? 12 (inst a 0x301000 0x1000) with
    | some g => s.loadRead g
    | none => (0#32, s)
  else
    let v := s.readReg a
    if isLog a then (v, s.setF a 31 24 0)
    else match rowOf a with
      | some r =>
        if r.rc ≠ 0 then (v, (s.wr a (wd ((s.rd a).toNat &&& (0xFFFFFFFF ^^^ r.rc)))).telCleared a v.toNat)
        else (v, s.latchAt a)
      | none => (0#32, s)

/-! Writes. -/

/-- A register takes a written value by its type codes; a change of a Kept value is noted for R362. -/
def State.storePlain (s : State) (r : RegRow) (a : Nat) (v : Word) : State :=
  let w := saturate a (writeByCodes r (s.rd a) v)
  if r.kept = 0 then s.wr a w else s.wrK a w

/-- A write of SPRn_CTL: the other fields, then EN (R55, R76). -/
def State.writeSprCtl (s : State) (r : RegRow) (n : Fin 32) (v : Word) : State :=
  let a := A.sprCtl n
  let s1 := s.storePlain r a (setBit v 0 (s.b a 0))
  if bit v 0 then s1.sprEnable n else s1.sprDisable n

/-- Writes of the registers of Spring `n` (R77). -/
def State.storeSpr (s : State) (r : RegRow) (n : Fin 32) (a : Nat) (v : Word) : State :=
  let o := a % 0x4000
  if o = 0x000 then s.writeSprCtl r n v
  else if 0x020 ≤ o ∧ o < 0x030 then s.writeDskVal n ((o - 0x020) / 4) (fld v 7 0) (bit v 16)
  else if 0x030 ≤ o ∧ o < 0x040 then s.writeDskWin n ((o - 0x030) / 4) (fld v 7 0) (fld v 15 8) (fld v 19 16)
  else if o = 0x090 then
    let s1 := s.storePlain r a (setBit v 6 false)
    if bit v 6 then s1.softTrigger n else s1
  else if o = 0x098 then
    let s1 := s.storePlain r a (setBit v 1 false)
    if bit v 1 then s1.xrstPulse n else s1
  else s.storePlain r a v

/-- Writes of the two-wire registers by stall `t` (R99). -/
def State.storeTwb (s : State) (t : Fin 8) (r : RegRow) (a : Nat) (v : Word) : State :=
  if a = A.twbtSoftSet then (if bit v 0 then s.raise A.twbtAlert 5 else s)
  else match fin? 32 (inst a 0x180000 0x800) with
    | some n =>
      if a = A.twbCtl n then s.writeTwbCtl n v
      else if a = A.twbCmd n then s.twCommand n v t
      else if 0x400 ≤ a % 0x800 then s.storePlain r a (wd (v.toNat &&& stepMask v))
      else s.storePlain r a v
    | none => s.storePlain r a v

/-- Writes of the correction registers by stall `t` (R166). -/
def State.storeCor (s : State) (t : Fin 8) (r : RegRow) (a : Nat) (v : Word) : State :=
  if a < 0x301000 then (if a < 0x300180 then s.writeFfBase ((a - 0x300100) / 4) v else s)
  else match fin? 12 (inst a 0x301000 0x1000) with
    | some g =>
      let o := a % 0x1000
      if o = 0x044 then
        (match fin? 4 g.val with
          | some b => if bit v 0 then s.tnrResetCmd b else s
          | none => s)
      else if o = 0x180 then
        let s1 := s.storePlain r a (setBit v 0 false)
        if bit v 0 then s1.loadStart g t else s1
      else if o = 0x194 then s.loadWrite g v
      else s.storePlain r a v
    | none => s

/-- The effect of a command written to XPT_STn_CMD (Table 10.9). -/
def State.xptCommand (s : State) (n : Fin 16) (v : Word) : State :=
  match fld v 3 0 with
  | 1 => s.switchTo n false
  | 2 => s.switchTo n true
  | 3 => s.closeStream n
  | 4 => s.onXpt n Xpt.rtoResend
  | _ => s

/-- Writes of the market, transport and Ethernet registers (R239). -/
def State.storeMkt (s : State) (r : RegRow) (a : Nat) (v : Word) : State :=
  if 0x501000 ≤ a ∧ a < 0x502000 ∧ a % 0x100 = 0x08 then
    (match fin? 16 (inst a 0x501000 0x100) with
      | some n => s.xptCommand n v
      | none => s)
  else if 0x540000 ≤ a ∧ a % 0x1000 = 0 then
    (match fin? 4 (inst a 0x540000 0x1000) with
      | some p => s.writeEthCtl p v
      | none => s)
  else s.storePlain r a v

/-- What a command of TBn_CMD does (Table 12.8). -/
def State.tbCommand (s : State) (n : Fin 4) (v : Word) : State :=
  match fld v 3 0 with
  | 1 => s.tbSet n
  | 2 => s.tbStep n (bit v 4) (bit v 5) (two (fld v 7 6))
  | 3 => s.tbSlew n
  | 4 => s.tbCancel n
  | 5 => s.tbRelock n
  | _ => s

/-- A PTP port or instance is switched on or off: its portState follows (R264, R265). -/
def State.ptpSwitch (s old : State) (p : Fin 4) : State :=
  if s.ptpOn p = old.ptpOn p && s.ptpInst p = old.ptpInst p then s
  else
    let s1 := s.onPtp p (fun x => { x with best := none, sync := none, req := none, pd := none })
    let st := if !(s1.ptp[p]).linkUp then psFaulty else if s1.ptpOn p then psListening else psDisabled
    ((s1.setPortState p st).bmca (old.ptpInst p)).bmca (s1.ptpInst p)

/-- Writes of the Time Unit's registers (R279). A write that changes the role or the data set of a PTP instance has its BMCA select again
(R264). -/
def State.storeTim (s : State) (r : RegRow) (a : Nat) (v : Word) : State :=
  let o := a % 0x1000
  if a = A.timCmd then
    (if bit v 0 then s.timSnap else s)
  else if 0x581000 ≤ a ∧ a < 0x585000 then
    (match fin? 4 (inst a 0x581000 0x1000) with
      | some n =>
        if o = 0x00 then s.writeTbCtl n v
        else if o = 0x08 then s.tbCommand n v
        else if o = 0x2C then (if s.tbSrc n = 2 then s.writeRate n (sx 32 v.toNat) else s)
        else s.storePlain r a v
      | none => s)
  else if 0x585000 ≤ a ∧ a < 0x589000 then
    (match fin? 4 (inst a 0x585000 0x1000) with
      | some n => if o = 0x00 then s.writeWpCtl n v else s.storePlain r a v
      | none => s)
  else if (0x589000 ≤ a ∧ a < 0x58D000 ∨ 0x58D000 ≤ a ∧ a < 0x591000) ∧ o = 0x00 then
    let s1 := s.storePlain r a v
    let s2 := (forFin (fun p x => x.ptpSwitch s p) [0, 1, 2, 3] s1).ptpFollow
    if a < 0x58D000 then (match fin? 4 (inst a 0x589000 0x1000) with
      | some k => s2.bmca k
      | none => s2) else s2
  else if 0x589000 ≤ a ∧ a < 0x58D000 ∧ (o = 0x04 ∨ o = 0x08 ∨ o = 0x10 ∨ o = 0x14) then
    (match fin? 4 (inst a 0x589000 0x1000) with
      | some k => (s.storePlain r a v).bmca k
      | none => s)
  else if 0x595000 ≤ a ∧ a < 0x5A5000 ∧ o = 0x00 then
    (match fin? 16 (inst a 0x595000 0x1000) with
      | some i => (s.storePlain r a v).gpioSwitch s i
      | none => s)
  else s.storePlain r a v

/-- Writes of the Lake's registers (R255). -/
def State.storeLake (s : State) (r : RegRow) (a : Nat) (v : Word) : State :=
  if a = A.lakeCmd then (if bit v 31 then s.fullTrain (fld v 11 0) else s)
  else if 0x5C1000 ≤ a ∧ a < 0x5C1C00 then
    (match fin? 12 (inst a 0x5C1000 0x100) with
      | some c =>
        if a % 0x100 = 0x0C then s.writeTrim c v
        else if a % 0x100 = 0x10 then s.writeTrimWin c v
        else s
      | none => s)
  else if 0x5C2000 ≤ a then
    (match fin? 8 (inst a 0x5C2000 0x1000) with
      | some t =>
        if a % 0x1000 = 0 then s.writeApBase t false v else if a % 0x1000 = 4 then s.writeApBase t true v else s
      | none => s)
  else s.storePlain r a v

/-- Writes of the CTL_, STL_ and BRG_ registers: their status and effect (R308 to R310). -/
def State.storeCtl (s : State) (r : RegRow) (a : Nat) (v : Word) : Nat × State :=
  if a = A.ctlReset then (0, s.ctlReset v)
  else if 0x641000 ≤ a ∧ a < 0x649000 then
    match fin? 8 (inst a 0x641000 0x1000) with
    | some t =>
      let o := a % 0x1000
      if o = 0x004 then (0, if bit v 0 then s.resetStall t else s)
      else if o = 0x008 then s.groupReset t (fld v 11 0)
      else if 0x080 ≤ o ∧ o < 0x0A0 then (0, s.stageKey t ((o - 0x080) / 4) v)
      else if o = 0x0A0 then
        let s1 := if bit v 1 then s.eraseKey t else s
        (0, if bit v 0 then s1.installKey t else s1)
      else (0, s.storePlain r a v)
    | none => (0, s)
  else (0, s.storePlain r a v)

/-- A 32-bit write of half `hi` of c (R322). -/
def State.crcValHalf (s : State) (k : Fin 16) (hi : Bool) (v : Word) : State :=
  let c := s.crcC k
  s.crcVal k (if hi then v.toNat * 2 ^ 32 + c % 2 ^ 32 else c / 2 ^ 32 * 2 ^ 32 + v.toNat)

/-- Writes of the registers of unit `k` (R327). -/
def State.storeCrc (s : State) (r : RegRow) (k : Fin 16) (a : Nat) (v : Word) : State :=
  let o := a % 0x100
  if o = 0x00 then s.crcWriteCtl k v
  else if o = 0x04 then
    (match fld v 3 0 with
      | 1 => s.crcInit k
      | 2 => s.crcStart k
      | 3 => s.crcAbort k
      | _ => s)
  else if o = 0x0C then s.crcData k 0 2 v.toNat
  else if 0x10 ≤ o ∧ o < 0x28 then s.crcWriteCfg k a (o % 8 == 4) v
  else if o = 0x28 ∨ o = 0x2C then s.crcValHalf k (o == 0x2C) v
  else s.storePlain r a v

/-- A write of EVC_SRCn_CFG by stall `t`: the fields that the source has, and of TOFF only the stall's own targets (R348, Table 15.11). -/
def State.writeSrcCfg (s : State) (t n : Nat) (v : Word) : State :=
  let a := A.evcsCfg n
  let fields := 0xF00000 ||| (if isPin n then 0x16000000 else 0) ||| (if 242 ≤ n ∧ n < 276 then 0x8000000 else 0)
  let own := if t = 0 then 0xFFFFF else 3 * 2 ^ (2 * t)
  let m := fields ||| own
  if sourceExists n then s.wrK a (wd (((s.rd a).toNat &&& (0xFFFFFFFF ^^^ m)) ||| (v.toNat &&& m))) else s

/-- Writes of the event controller's registers by stall `t` (R348). -/
def State.storeEvc (s : State) (t : Fin 8) (r : RegRow) (a : Nat) (v : Word) : State :=
  if a = A.evcSwSet then s.swSet t (fld v 9 0)
  else if 0x681000 ≤ a ∧ a < 0x682400 then
    (match fin? 20 (inst a 0x681000 0x100) with
      | some u =>
        let o := a % 0x100
        if o = 0x00 then s.writeTgtCtl u v
        else if o = 0x1C then s.take u (fld v 9 0)
        else if o = 0x20 then s.done u (fld v 9 0)
        else if 0x80 ≤ o ∧ o < 0xE0 then
          forFin (fun n s => s.dismiss u n) ((bitsOf 32 v.toNat).map (fun b => 32 * ((o - 0x80) / 4) + b)) s
        else s.storePlain r a v
      | none => s)
  else if 0x684000 ≤ a ∧ a < 0x685800 then
    (let n := inst a 0x684000 8
     if a % 8 = 0 then s.writeSrcCfg t n v else if isPin n then s.wrK a (wd (fld v 7 0)) else s)
  else s.storePlain r a v

/-- Writes of the TRN_, KEEP_ and TEL_ registers (R370). -/
def State.storeTarn (s : State) (r : RegRow) (a : Nat) (v : Word) : State :=
  if a = A.trnCmd then s.trnCommand v
  else if a = A.trnTmr0Ctl 0 then s.writeTmrCtl 0 v
  else if a = A.trnTmr0Ctl 1 then s.writeTmrCtl 1 v
  else if a = A.trnTmr0Load 0 then s.writeTmrLoad 0 v
  else if a = A.trnTmr0Load 1 then s.writeTmrLoad 1 v
  else if a = A.trnReqEvtEn then s.storePlain r a (setBit v 0 true)
  else if a = A.keepCmd then
    (match fld v 3 0 with
      | 1 => s.requestCommit
      | 2 => s.startVerify
      | _ => s)
  else s.storePlain r a v

/-- The address is a block's commit register (R300). -/
def isCommit (a : Nat) : Bool :=
  let o := a % 0x1000
  (decide (0x100000 ≤ a) && decide (a < 0x180000) && a % 0x4000 == 0x010) ||
  (decide (0x204000 ≤ a) && decide (a < 0x207F00) && o == 0x008) ||
  (decide (0x301000 ≤ a) && decide (a < 0x30D000) && o == 0x004) ||
  (decide (0x400000 ≤ a) && decide (a < 0x400C00) && a % 0x100 == 0x20) ||
  (decide (0x440000 ≤ a) && decide (a < 0x458000) && a % 0x2000 == 0x0004) ||
  (decide (0x480000 ≤ a) && decide (a < 0x484000) && a % 0x400 == 0x008) ||
  (decide (0x591000 ≤ a) && decide (a < 0x595000) && o == 0x004)

/-- Key bytes of INSTALL_KEY (R36). -/
def State.stageImageKey (s : State) (i : Nat) (v : Word) : State :=
  { s with sic := { s.sic with keyStage := updAt s.sic.keyStage i (fun _ => v) } }

/-- A 32-bit write of `v` by stall `t` to the register at the aligned address `a`: its status and its effect. An address without a
register, and a register of an instance that is not defined, ignore it (R7, R400). -/
def State.storeReg (s : State) (t : Fin 8) (a : Nat) (v : Word) : Nat × State :=
  match rowOf a with
  | none => (0, s)
  | some r =>
    if !s.instDefined a || s.seamBeyond a then (0, s)
    else if isCommit a then (0, s.writeCommit a v)
    else if r.rws ≠ 0 then (0, s.stage a (saturate a (wd (v.toNat &&& r.rws))))
    else if a < 0x100000 then
      (0, if a = A.sicCmd then s.sicCommand v
        else if a = A.sicLoadData then s.loadData v
        else if a = A.sicLoadOfs then s.setLoadOfs (fld v 22 2 * 4)
        else if 0x10180 ≤ a ∧ a < 0x101A0 then s.stageImageKey ((a - 0x10180) / 4) v
        else s.storePlain r a v)
    else if a < 0x180000 then
      (match fin? 32 (inst a 0x100000 0x4000) with
        | some n => (0, s.storeSpr r n a v)
        | none => (0, s))
    else if a < 0x200000 then (0, s.storeTwb t r a v)
    else if 0x208000 ≤ a ∧ a < 0x20A000 then (0, s.writeSeamCoef ((a - 0x208000) / 4) v)
    else if 0x281000 ≤ a ∧ a < 0x281C00 ∧ a % 0x100 = 0 then
      (0, if s.isInline (inst a 0x281000 0x100) then s else s.storePlain r a v)
    else if a < 0x300000 then (0, s.storePlain r a v)
    else if a < 0x400000 then (0, s.storeCor t r a v)
    else if 0x410000 ≤ a ∧ a < 0x430000 ∧ 0x400 ≤ a % 0x1000 then
      (0, s.writeEntry (inst a 0x410000 0x1000) ((a % 0x1000 - 0x400) / 0x20) (a % 0x20 / 4) v)
    else if 0x484000 ≤ a ∧ a < 0x484C00 then (0, s.writeOutCoef ((a - 0x484000) / 4) v)
    else if a < 0x500000 then (0, s.storePlain r a v)
    else if a < 0x580000 then (0, s.storeMkt r a v)
    else if a < 0x5C0000 then (0, s.storeTim r a v)
    else if a < 0x600000 then (0, s.storeLake r a v)
    else if a < 0x620000 then (0, if a = A.pndInject then s.pondInject v else s.storePlain r a v)
    else if a < 0x640000 then
      (match fin? 16 (inst a 0x620000 0x100) with
        | some k => (0, s.storeCrc r k a v)
        | none => (0, s))
    else if a < 0x680000 then s.storeCtl r a v
    else if a < 0x6C0000 then (0, s.storeEvc t r a v)
    else (0, s.storeTarn r a v)

/-! Accesses of a stall. -/

/-- A read of `k` bytes at `a` by stall `t`, or by a provisioning session: status, value and state (R287, R293, R297, R299). `ecc` is
what a codeword of the Lake behind an aperture shows. -/
def State.busRead (s : State) (prov : Bool) (t : Fin 8) (a k : Nat) (ecc : Ecc) (rmw : Bool := false) : Nat × Nat × State :=
  match s.globalAddr t a with
  | none => (2, 0, s.noteFail 2)
  | some a =>
    let st := s.check prov t a k true rmw
    if st ≠ 0 then (st, 0, s.noteFail st)
    else if isAperture a then
      let r := s.apRead t (a % 0x4000) k ecc
      (r.1, r.2.1, r.2.2.noteFail r.1)
    else if k = 8 then
      let r := s.loadReg a
      (0, r.1.toNat + (s.peekReg (a + 4)).toNat * 2 ^ 32, r.2)
    else if k = 4 then
      let r := s.loadReg a
      (0, r.1.toNat, r.2)
    else (0, (s.readReg (a / 4 * 4)).toNat / 2 ^ (8 * (a % 4)) % 2 ^ (8 * k), s)

/-- A write of `k` bytes at `a` by stall `t`: status and state. A failed partial write of the Lake is logged with the message's SEQ and
session (R306). -/
def State.busWrite (s : State) (prov : Bool) (t : Fin 8) (a k v : Nat) (ecc : Ecc) (seq session : Nat) : Nat × State :=
  match s.globalAddr t a with
  | none => (2, s.noteFail 2)
  | some a =>
    let st := s.check prov t a k false true
    if st ≠ 0 then (st, s.noteFail st)
    else if isAperture a then
      let r := s.apWrite t (a % 0x4000) k v ecc seq session
      (if r.1 = 5 then 0 else r.1, r.2.noteFail r.1)
    else if k = 8 then
      (match fin? 16 (inst a 0x620000 0x100) with
        | some u =>
          if a % 0x100 = 0x28 then (0, s.crcVal u v)
          else (0, (s.crcWriteCfg u a false (wd v)).crcWriteCfg u (a + 4) true (wd (v / 2 ^ 32)))
        | none => (0, s))
    else if k = 4 then
      let r := s.storeReg t a (wd v)
      (r.1, r.2.noteFail r.1)
    else
      (match fin? 16 (inst a 0x620000 0x100) with
        | some u =>
          if 0x620000 ≤ a ∧ a % 0x100 / 4 * 4 = 0x0C then (0, s.crcData u (a % 4) (if k = 1 then 0 else 1) v) else (0, s)
        | none => (0, s))

/-- Bytes of an item by its SIZE code (Table 13.5). -/
def sizeBytes (c : Nat) : Nat := 2 ^ (c % 4)

/-! Commands. -/

/-- REGISTER_WRITE: stall `t` writes an item of 2^`size` bytes; the write answers its status (R3, R287, R297). -/
def execRegisterWrite (t : Fin 8) (a : BitVec 24) (size : Fin 4) (v : BitVec 64) (s : State) : Host.Outcome State Fault Refusal :=
  .next (s.whenOn fun s =>
    let r := s.busWrite false t a.toNat (sizeBytes size) v.toNat .clean 0 0
    r.2.emit (.value r.1 0))

/-- READ_CLEAR: stall `t` reads a 32-bit register; an RC register is cleared by it (R3, R4). -/
def execReadClear (t : Fin 8) (a : BitVec 24) (s : State) : Host.Outcome State Fault Refusal :=
  .next (s.whenOn fun s =>
    let r := s.busRead false t a.toNat 4 .clean
    r.2.2.emit (.value r.1 r.2.1))

/-- LATCHING_READ: stall `t` reads a low word, or a pair as 64 bits; the companion words are latched (R292). -/
def execLatchingRead (t : Fin 8) (a : BitVec 24) (wide : Bool) (s : State) : Host.Outcome State Fault Refusal :=
  .next (s.whenOn fun s =>
    let r := s.busRead false t a.toNat (if wide then 8 else 4) .clean
    r.2.2.emit (.value r.1 r.2.1))

/-- The commit register of a block with staged fields. -/
def commitAddr : CommitBlock → Nat
  | .spr n => A.sprCommit n
  | .bar b => A.seamBarCommit b
  | .cor g => A.corCommit g
  | .frm g => A.frmCommit g
  | .tal g => A.talCommit g
  | .out n => A.outCommit n
  | .ltg b => A.ltgCommit b

/-- COMMIT_WRITE: stall `t` writes the commit register of a block (R300, R303). -/
def execCommitWrite (t : Fin 8) (b : CommitBlock) (v : Word) (s : State) : Host.Outcome State Fault Refusal :=
  .next (s.whenOn fun s =>
    let r := s.busWrite false t (commitAddr b) 4 v.toNat .clean 0 0
    r.2.emit (.value r.1 0))

/-- A waiting commit of a block takes effect, by the block's own check and rules. -/
def State.takeCommit (s : State) : CommitBlock → State
  | .spr n => s.sprTake n
  | .bar b => s.seamTake b
  | .cor g => s.corTake g true
  | .frm g => s.takeStaged (A.frmCommit g)
  | .tal g => s.talTake g
  | .out n => s.outCommitIdle n
  | .ltg b => s.ltgTake b

/-- COMMIT_TAKE_EFFECT: the group of the block is not active, and a waiting commit takes effect within a microsecond of its write
(R300). In an active group the boundaries of the group's lines take it. -/
def execCommitTakeEffect (b : CommitBlock) (s : State) : Host.Outcome State Fault Refusal :=
  .next (s.whenOn fun s =>
    let a := commitAddr b
    let active := match s.blockGroup a with
      | some g => s.activeGroup g
      | none => false
    if active || (s.waiting a).isNone then s else s.takeCommit b)

/-- TWBT_SOFT_SET: a stall calls the board controller (R98, Table 4.10). -/
def execTwbtSoftSet (v : Word) (s : State) : Host.Outcome State Fault Refusal :=
  .next (s.whenOn fun s => if bit v 0 then s.raise A.twbtAlert 5 else s)

end Sys2Proof.Machine
end

