-- ==== Sys2Proof/Machine/Board.lean ====
section
/-! DEFINITION. The board target port TWT (R92 to R98). -/

namespace Sys2Proof.Machine
open Sys2Proof

/-- TWT answers its address: it is enabled, out of Reset, and its lines and the Tarn or the control fabric have power (R94, R97, R384). -/
def State.twtAnswers (s : State) : Bool :=
  s.b A.twbtCtl 8 && ((s.power.st == .on && !s.power.held && !s.power.resetLow) || s.power.st == .doze || (s.power.st == .still && !s.ioGone))

/-- What TWT reaches at an address (Table 4.4): nothing, reads, or reads and writes. -/
inductive TwtReach where
  | none | read | write
  deriving DecidableEq, Repr

/-- Table 4.4. -/
def twtRange (a : Nat) : TwtReach :=
  if a < 0x10000 ∨ a = A.sicStatus ∨ a = A.sicActive ∨ a = A.sicSlotaState ∨ a = A.sicSlotbState ∨ (0x10100 ≤ a ∧ a < 0x10180) then .read
  else if 0x190000 ≤ a ∧ a < 0x190100 then .write
  else if 0x6C0000 ≤ a ∧ a < 0x6E0000 then .write
  else if 0x6E0000 ≤ a ∧ a < 0x740000 then .read
  else .none

/-- What TWT reaches until Ready: the TRN_ range, and the Tarn's status registers in the KEEP_ and TEL_ ranges (R97). -/
def twtRangeAsleep (a : Nat) : TwtReach :=
  if 0x6C0000 ≤ a ∧ a < 0x6E0000 then .write
  else if (0x6E0000 ≤ a ∧ a < 0x6E0100) ∨ (0x700000 ≤ a ∧ a < 0x700300) then .read
  else .none

/-- What TWT reaches now, and the cause of a refusal outside it: RANGE or ASLEEP (Table 4.9). -/
def State.twtReach (s : State) (a : Nat) : TwtReach × Nat := if s.on then (twtRange a, 1) else (twtRangeAsleep a, 4)

/-- A refused access of the board controller: ACCESS_ERR, with the cause and the address in TWBT_ERR (R95). -/
def State.twtRefuse (s : State) (cause a : Nat) : State :=
  (s.wr A.twbtErr (wd (cause % 16 * 2 ^ 28 + a % 2 ^ 24))).raise A.twbtAlert 3

/-- One complete group of a write: whether its fourth byte is acknowledged, and the state (R94, R95). -/
def State.twtGroup (s : State) (a : Nat) (v : Word) : Bool × State :=
  match s.twtReach a with
  | (.write, _) => (true, (s.storeReg 0 a v).2)
  | (.read, c) => (false, s.twtRefuse (if c = 1 then 2 else c) a)
  | (.none, c) => (false, s.twtRefuse c a)

/-- The complete groups of the written bytes, with `n` of fuel: data bytes acknowledged, and the state. -/
def State.twtGroups : Nat → State → Nat → Bytes → Nat × State
  | n + 1, s, a, b0 :: b1 :: b2 :: b3 :: rest =>
    let g := s.twtGroup (a % 2 ^ 24) (wd (ofLe [b0, b1, b2, b3]))
    let r := State.twtGroups n g.2 (a + 4) rest
    ((if g.1 then 4 else 3) + r.1, r.2)
  | _, s, _, rest => (rest.length, s)

/-- The data bytes of a write at address `a` up to its end: each complete group writes one register, and a group left incomplete is
discarded (R94). -/
def State.twtWrite (s : State) (a : Nat) (data : Bytes) : Nat × State :=
  if a % 4 ≠ 0 then (0, s.twtRefuse 3 a) else State.twtGroups data.length s a data

/-- TWT_WRITE: the board controller writes `data` from register address `a` (R94, R95, R97). -/
def execTwtWrite (a : BitVec 24) (data : Bytes) (s : State) : Host.Outcome State Fault Refusal :=
  .next (if s.twtAnswers then
    let r := s.bmcReq.twtWrite a.toNat data
    r.2.emit (.twt [] r.1)
  else s)

/-- One register of a read, without side effects (R94, R95). -/
def State.twtReadGroup (s : State) (a : Nat) : Bytes × State :=
  match s.twtReach a with
  | (.none, c) => (List.replicate 4 0xFF#8, s.twtRefuse c a)
  | _ => (leBytes 4 (s.peekReg a).toNat, s)

/-- `k` registers from address `a`. -/
def State.twtReadGroups : Nat → State → Nat → Bytes × State
  | 0, s, _ => ([], s)
  | k + 1, s, a =>
    let g := s.twtReadGroup (a % 2 ^ 24)
    let r := State.twtReadGroups k g.2 (a + 4)
    (g.1 ++ r.1, r.2)

/-- TWT_READ: the board controller reads `n` bytes from register address `a` (R94, R95, R97). -/
def execTwtRead (a : BitVec 24) (n : Nat) (s : State) : Host.Outcome State Fault Refusal :=
  .next (if s.twtAnswers then
    let s1 := s.bmcReq
    if a.toNat % 4 ≠ 0 then (s1.twtRefuse 3 a.toNat).emit (.twt (List.replicate n 0xFF#8) 0)
    else
      let r := State.twtReadGroups ((n + 3) / 4) s1 a.toNat
      r.2.emit (.twt (r.1.take n) 0)
  else s)

/-- What a write that is cut off has done: its complete groups (R92, R94, R96). -/
def State.twtCut (s : State) (a : BitVec 24) (data : Bytes) : State := (s.twtWrite a.toNat data).2

/-- TWT_PROTO_VIOLATION: a START or STOP in the acknowledge window of a transfer in which `data` had been written and acknowledged
from register address `a` (none: a read) discards the rest and is counted (R92). -/
def execTwtProtoViolation (w : Option (BitVec 24 × Bytes)) (s : State) : Host.Outcome State Fault Refusal :=
  .next (if s.twtAnswers then
    let s1 := s.bmcReq
    let s2 := match w with
      | some (a, data) => s1.twtCut a data
      | none => s1
    (s2.inc A.twbtCntProto).raise A.twbtAlert 2
  else s)

/-- TWT_SCL_TIMEOUT: the board controller holds SCL low for `low` nanoseconds in a transfer in which `data` had been written from
register address `a` (none: a read). Beyond TWBT_TMO the transfer is abandoned without being counted; its complete groups have been
written (R96). -/
def execTwtSclTimeout (w : Option (BitVec 24 × Bytes)) (low : Nat) (s : State) : Host.Outcome State Fault Refusal :=
  .next (if s.twtAnswers ∧ us (100 * atLeast1 (s.f A.twbtTmo 15 0)) < low then
    let s1 := s.bmcReq
    match w with
    | some (a, data) => s1.twtCut a data
    | none => s1
  else s)

end Sys2Proof.Machine
end

