-- ==== Sys2Proof/Machine/Frame.lean ====
section
/-! DEFINITION. Frames as they arrive on a link: the headers, what a link accepts, and what a management port watches in Doze
(R215 to R217, R358). -/

namespace Sys2Proof.Machine
open Sys2Proof

/-! Reading a frame: destination to FCS, most significant byte first. -/

/-- What a frame without its FCS carries: a raw payload under its EtherType, an IP payload, or a header that R216 discards. -/
inductive Carried where
  /-- An IPv4 fragment, a header with options or one that contradicts itself: the frame is discarded (safe). -/
  | broken
  | raw (etype : Nat) (body : Bytes)
  | ip (v6 : Bool) (src dst proto : Nat) (body : Bytes)
  deriving DecidableEq, Repr

/-- The frame without its FCS. -/
def frameData (f : Bytes) : Bytes := f.take (f.length - 4)

/-- The frame has its addresses, a type and a good FCS. -/
def fcsGood (f : Bytes) : Bool := decide (18 ≤ f.length) && leAt f (f.length - 4) 4 == crc32 (frameData f)

/-- The frame from its EtherType on, without an 802.1Q tag. -/
def untagged (f : Bytes) : Bytes := if beAt f 12 2 = 0x8100 then (frameData f).drop 16 else (frameData f).drop 12

/-- An IPv4 packet: no options, no fragment, and a good header checksum (R216). -/
def readIp4 (p : Bytes) : Carried :=
  let n := beAt p 2 2
  if p.length < n ∨ n < 20 ∨ beAt p 0 1 ≠ 0x45 ∨ beAt p 6 2 % 2 ^ 14 ≠ 0 ∨ inetSum (p.take 20) ≠ 0 then .broken
  else .ip false (beAt p 12 4) (beAt p 16 4) (beAt p 9 1) (slice p 20 (n - 20))

/-- An IPv6 packet. -/
def readIp6 (p : Bytes) : Carried :=
  let n := beAt p 4 2
  if p.length < 40 + n ∨ beAt p 0 1 / 16 ≠ 6 then .broken else .ip true (beAt p 8 16) (beAt p 24 16) (beAt p 6 1) (slice p 40 n)

/-- What the frame carries. -/
def readFrame (f : Bytes) : Carried :=
  let u := untagged f
  let t := beAt u 0 2
  if t = 0x0800 then readIp4 (u.drop 2) else if t = 0x86DD then readIp6 (u.drop 2) else .raw t (u.drop 2)

/-- The UDP datagram of an IP payload: its destination port and data. A checksum of 0 is accepted over IPv4; a bad one is not (R216). -/
def readUdp (v6 : Bool) (src dst : Nat) (b : Bytes) : Option (Nat × Bytes) :=
  let n := beAt b 4 2
  if b.length < n ∨ n < 8 then none
  else
    let d := b.take n
    if (!v6 && beAt d 6 2 == 0) || (beAt d 6 2 != 0 && inetSum (pseudo v6 src dst 17 n ++ d) == 0) then some (beAt d 2 2, d.drop 8) else none

/-- An ARP request, and the address it asks for. -/
def readArp (b : Bytes) : Option Nat :=
  if beAt b 0 8 = 0x0001080006040001 then some (beAt b 24 4) else none

/-- An ICMPv6 message with a good checksum: its type. -/
def readIcmp6 (src dst : Nat) (b : Bytes) : Option Nat :=
  if inetSum (pseudo true src dst 58 b.length ++ b) = 0 then some (beAt b 0 1) else none

/-! What a link accepts (R216). -/

/-- What becomes of a frame on a link. -/
inductive Fate where
  /-- Its FCS is bad: discarded and counted as such. -/
  | badFcs
  /-- Not a frame that the link accepts: discarded. -/
  | dropped
  /-- A transport message whose MAGIC, XVER or KIND is not valid (R217). -/
  | badMsg
  /-- A frame of R215, R217, R231, R265 or R280: the command of its own kind says what it does. -/
  | taken
  deriving DecidableEq, Repr

/-- A transport message: discarded by R217 unless MAGIC, XVER and KIND are valid. A host sends ACK, OPEN and CLOSE. -/
def messageFate (b : Bytes) : Fate :=
  if b.length < 32 ∨ beAt b 0 2 ≠ 0x464C ∨ beAt b 2 1 ≠ 1 ∨ ¬ [2, 3, 5].contains (beAt b 3 1) then .badMsg else .taken

/-- The link of PTP port `p` (R265). -/
def State.ptpLinkOf (s : State) (p : Nat) : Nat := if p < 2 then 4 * p + s.f (A.ptpCtl p) 9 8 else 6 + p

/-- A PTP frame on link `l`: for an enabled PTP port of that link with that transport (R216, R265). -/
def State.ptpFate (s : State) (l transport : Nat) : Fate :=
  if [0, 1, 2, 3].any (fun (p : Fin 4) => s.ptpOn p && s.ptpLinkOf p == l && s.ptpTransport p == transport) then .taken else .dropped

/-- A UDP datagram on link `l`, at the link's address `mine`: a transport message on a stream link, ICP on a management port, or PTP. -/
def State.udpFate (s : State) (l : Nat) (v6 mine : Bool) (dport : Nat) (data : Bytes) : Fate :=
  if mine && decide (l < 8) && dport == s.f A.mktUdpBase 15 0 then messageFate data
  else if mine && decide (8 ≤ l) && dport == s.f A.ctlPort 15 0 then .taken
  else if dport = 319 ∨ dport = 320 then s.ptpFate l (if v6 then 2 else 1)
  else .dropped

/-- What becomes of frame `f` on link `l` (R216). -/
def State.fate (s : State) (l : Nat) (f : Bytes) : Fate :=
  if !fcsGood f then .badFcs
  else
    let toMe := beAt f 0 6 == s.linkMac l
    match readFrame f with
    | .broken => .dropped
    | .raw t b =>
      if toMe && decide (l < 8) && t == s.f A.mktEtype 15 0 then messageFate b
      else if t = 0x8808 then (if l < 8 ∧ (beAt b 0 2 = 0x0101 ∨ beAt b 0 2 = 1) then .taken else .dropped)
      else if t = 0x0806 then (if (readArp b).isSome then .taken else .dropped)
      else if t = 0x88F7 then s.ptpFate l 0
      else .dropped
    | .ip v6 src dst proto b =>
      let mine := toMe && dst == (if v6 then s.linkIp6 l else s.linkIp4 l)
      if proto = 17 then (match readUdp v6 src dst b with
        | some (p, d) => s.udpFate l v6 mine p d
        | none => .dropped)
      else if v6 then (match proto == 58, readIcmp6 src dst b with
        | true, some 135 => .taken
        | true, some 128 => if mine then .taken else .dropped
        | _, _ => .dropped)
      else if proto = 1 ∧ beAt b 0 1 = 8 ∧ inetSum b = 0 ∧ mine then .taken else .dropped

/-- ETH_FRAME_REJECT: frame `frame`, destination MAC to FCS, arrives on link `l`: what the link does not accept is discarded and counted
(R216), a transport message without valid MAGIC, XVER or KIND as R217 says; any other is for the command of its kind. -/
def execEthFrameReject (l : Fin 10) (frame : Bytes) (s : State) : Host.Outcome State Fault Refusal :=
  .next (s.whenOn fun s =>
    if !s.canRx l then s
    else match s.fate l frame with
      | .badFcs => (s.dropFrame l).inc (A.ethlCntFcs (linkPort l).1 (linkPort l).2)
      | .dropped => s.dropFrame l
      | .badMsg => (s.rxFrame l).badMsg
      | .taken => s)

/-! Wake frames (R358). -/

/-- The frame carries the wake-on-LAN pattern of a MAC: six bytes 0xFF and 16 copies of it. -/
def isMagic (mac : Nat) (f : Bytes) : Bool :=
  let p := List.replicate 6 0xFF#8 ++ (List.replicate 16 (beBytes 6 mac)).flatten
  let d := (frameData f).drop 12
  (List.range d.length).any (fun o => (d.drop o).take 102 == p)

/-- The frame is a UDP datagram to CTL_PORT at an address of link `l`. -/
def State.isIcpFrame (s : State) (l : Nat) (f : Bytes) : Bool :=
  match readFrame f with
  | .ip v6 src dst 17 b => dst == (if v6 then s.linkIp6 l else s.linkIp4 l) && (match readUdp v6 src dst b with
    | some (p, _) => p == s.f A.ctlPort 15 0
    | none => false)
  | _ => false

/-- The frame asks for an address of link `l`: an ARP request for IPv4, a neighbour solicitation for IPv6. -/
def State.isAsked (s : State) (l : Nat) (f : Bytes) : Bool :=
  match readFrame f with
  | .raw t b => t == 0x0806 && readArp b == some (s.linkIp4 l)
  | .ip true src dst 58 b => readIcmp6 src dst b == some 135 && beAt b 8 16 == s.linkIp6 l
  | _ => false

/-- A wake frame by TRN_WAKE_CFG (R358). -/
def State.isWakeFrame (s : State) (l : Nat) (f : Bytes) : Bool :=
  fcsGood f && ((s.b A.trnWakeCfg 0 && isMagic (s.linkMac l) f) || (s.b A.trnWakeCfg 1 && s.isIcpFrame l f) ||
    (s.b A.trnWakeCfg 2 && s.isAsked l f))

/-- WAKE_FRAME: a frame arrives on MA (0) or MB (1) in Doze: a wake frame is a request to the Tarn watcher, and is neither delivered nor
answered; no other frame is watched (R358). -/
def execWakeFrame (port : Fin 2) (frame : Bytes) (s : State) : Host.Outcome State Fault Refusal :=
  .next (
    if s.power.st = .doze ∧ s.b (A.ethCtl (2 + port)) 0 ∧ s.isWakeFrame (8 + port) frame then s.raise A.trnReqEvt (1 + port.val) else s)

end Sys2Proof.Machine
end

