-- ==== Sys2Proof/Machine/Pins.lean ====
section
/-! DEFINITION. What the device drives on its balls in each state, and the TAP, which takes them in reset (R98, R339, R354, R384, R386, R398, R399,
Table 18.4). -/

namespace Sys2Proof.Machine
open Sys2Proof

/-- The state of a ball or of a transmitter (Table 18.4). An open-drain output that is released is `highZ`; `active` is a ball that its block
drives or receives on. -/
inductive Ball where
  | highZ | low | high | electricalIdle | idleOnly | selfRefresh | active
  deriving DecidableEq, Repr

/-- The columns of Table 18.4. -/
inductive PinColumn where
  | off | reset | still | doze | running
  deriving DecidableEq, Repr

/-- The column of Table 18.4 that holds for a group whose own supply has the monitors `own`: Off while that supply or VDD_IO is absent, that is
below its fail threshold; Reset from RESET_L or PWR_OK low until the internal reset is released (R384). -/
def State.pinColumn (s : State) (own : List Nat) : PinColumn :=
  if s.power.low.any (fun j => own.contains j || decide (22 ≤ j)) then .off
  else match s.power.st with
    | .off => .reset
    | .still => .still
    | .doze => .doze
    | .on => if s.power.held || s.power.resetLow then .reset else .running

/-- A driven level. -/
def Ball.level (v : Bool) : Ball := if v then .high else .low

/-! The functional drivers (Table 18.4). -/

/-- SPn_TRIG: its level, in Doze as at the point of no return (R73, R384). -/
def State.trigBall (s : State) (n : Fin 32) : Ball :=
  match s.pinColumn [] with
  | .running | .doze => .level (s.trigLevel n)
  | _ => .highZ

/-- SPn_XRST_L: driven low from the release of reset until the restored value applies (R74, R384). -/
def State.xrstBall (s : State) (n : Fin 32) : Ball :=
  match s.pinColumn [] with
  | .running => if s.power.boot.isSome then .low else .level (s.xrstLevel n)
  | .doze => .level (s.xrstLevel n)
  | _ => .highZ

/-- The receivers of Spring n (R76, R384). -/
def State.springBall (s : State) (n : Fin 32) : Ball :=
  match s.pinColumn [14, 15, 16, 17] with
  | .running => if s.b (A.sprCtl n) 0 then .active else .highZ
  | _ => .highZ

/-- SPn_SCL and SPn_SDA: with their controller while it is enabled, and released otherwise (R384). -/
def State.twoWireBall (s : State) (n : Fin 32) : Ball :=
  match s.pinColumn [] with
  | .running => if (s.twb[n]).st = 0 then .highZ else .active
  | _ => .highZ

/-- IRQi_L, an open-drain output (R339, R344, R384). -/
def State.irqBall (s : State) (i : Fin 4) : Ball :=
  match s.pinColumn [] with
  | .running | .doze => if s.irqLow i then .low else .highZ
  | _ => .highZ

/-- TWT_ALERT_L, an open-drain output: low while TWBT_ALERT and TWBT_ALERT_EN have a bit in common (R98). TWT is released in Off and in
Reset; the Tarn serves it in Doze and in Still (R384, R386). -/
def State.alertBall (s : State) : Ball :=
  match s.pinColumn [] with
  | .running | .doze | .still => if (s.rd A.twbtAlert).toNat &&& (s.rd A.twbtAlertEn).toNat != 0 then .low else .highZ
  | _ => .highZ

/-- GPIOi: the pulse that FUNC 2 drives, and high-impedance otherwise; held in Doze (R278, R384). -/
def State.gpioBall (s : State) (i : Fin 16) : Ball :=
  match s.pinColumn [] with
  | .running | .doze => if s.f (A.gpioCtl i) 1 0 = 2 then .level (s.gpio[i]).pulse.isSome else .highZ
  | _ => .highZ

/-- CORE_PWR_EN, an open-drain output (R354). -/
def State.coreEnBall (s : State) : Ball := if s.coreOff then .low else .highZ

/-- IO_PWR_EN, an open-drain output (R354). -/
def State.ioEnBall (s : State) : Ball := if s.ioOff then .low else .highZ

/-- LAKEc_RESET_L (R252, R384): it is still low at the start instant, and rises when Lake training begins, 0.2 ms later (Tables 16.2, 18.7). -/
def State.lakeResetBall (s : State) : Ball :=
  match s.pinColumn [18, 19, 20, 21] with
  | .reset => .low
  | .running => match s.power.boot with
    | some b => .level (decide (b.at_ + us 200 ≤ s.now))
    | none => .high
  | .doze => .high
  | _ => .highZ

/-- The other Lake balls (R252, R384). -/
def State.lakeBall (s : State) : Ball :=
  match s.pinColumn [18, 19, 20, 21] with
  | .running => .active
  | .doze => .selfRefresh
  | _ => .highZ

/-- The transmitters of Ethernet port `p`: XA, XB, MA and MB in that order (R352, R384). -/
def State.ethTx (s : State) (p : Fin 4) : Ball :=
  match s.pinColumn [10, 11, 12, 13] with
  | .running => if s.b (A.ethCtl p) 0 then .active else .electricalIdle
  | .doze => if 2 ≤ p.val ∧ s.b (A.ethCtl p) 0 then .idleOnly else .electricalIdle
  | _ => .electricalIdle

/-! The TAP (R398, R399). -/

/-- The TAP runs: VDD_CORE and VDD_IO are present, in Reset, Ready, Run and Doze (R398). -/
def State.tapRuns (s : State) : Bool := s.pinColumn [0, 1, 2, 3, 4, 5, 6, 7] != .off && s.power.st != .still

/-- TDO is high-impedance except while the TAP shifts (R384). -/
def State.tdoBall (s : State) (shifting : Bool) : Ball := if s.tapRuns && shifting then .active else .highZ

/-- EXTEST, HIGHZ or CLAMP has the balls in its control, while RESET_L is low (R399). -/
def State.tapTakesBalls (s : State) : Bool := s.power.resetLow && s.tapRuns && s.tapHolds

/-- The balls that have boundary-scan cells and that the device can drive (R398, Table 18.3). -/
inductive ScanBall where
  | trig (n : Fin 32) | xrst (n : Fin 32) | scl (n : Fin 32) | sda (n : Fin 32) | irq (i : Fin 4) | alert | gpio (i : Fin 16)
  | coreEn | ioEn | lakeReset (c : Fin 12)
  deriving DecidableEq, Repr

/-- A number for each such ball. -/
def ScanBall.index : ScanBall → Nat
  | .trig n => n
  | .xrst n => 32 + n
  | .scl n => 64 + n
  | .sda n => 96 + n
  | .irq i => 128 + i
  | .alert => 132
  | .gpio i => 136 + i
  | .coreEn => 152
  | .ioEn => 153
  | .lakeReset c => 160 + c

/-- What the device drives on a ball by itself (Table 18.4). -/
def State.driven (s : State) : ScanBall → Ball
  | .trig n => s.trigBall n
  | .xrst n => s.xrstBall n
  | .scl n | .sda n => s.twoWireBall n
  | .irq i => s.irqBall i
  | .alert => s.alertBall
  | .gpio i => s.gpioBall i
  | .coreEn => s.coreEnBall
  | .ioEn => s.ioEnBall
  | .lakeReset _ => s.lakeResetBall

/-- What a ball carries: under HIGHZ nothing; under EXTEST and CLAMP its cells' values; else what the device drives (R399). -/
def State.ball (s : State) (b : ScanBall) : Ball :=
  if !s.tapTakesBalls then s.driven b
  else if s.power.jtag.ir = 3 then .highZ
  else
    let cells := s.power.jtag.cells
    let k := Config.scanCells b.index
    if cells.getD k.2 false then .level (cells.getD k.1 false) else .highZ

/-- The balls with cells that the device can drive. -/
def scanBalls : List ScanBall :=
  (List.finRange 32).flatMap (fun n => [.trig n, .xrst n, .scl n, .sda n]) ++ (List.finRange 4).map .irq ++ [.alert, .coreEn, .ioEn] ++
    (List.finRange 16).map .gpio ++ (List.finRange 12).map .lakeReset

/-- What boundary-scan cell `k` captures: the level of a ball that the device drives, and else a level that the board gives, `free` (R398). -/
def State.scanCapture (s : State) (free : Nat) (k : Nat) : Bool :=
  match scanBalls.find? (fun b => (Config.scanCells b.index).1 == k) with
  | some b => match s.ball b with
    | .low => false
    | .high => true
    | _ => free.testBit k
  | none => free.testBit k

/-- An instruction is loaded into the TAP; the bypass register captures 0 when it is selected (R398). -/
def State.loadTap (s : State) (ir : Nat) : State :=
  if s.tapRuns then s.onPower (fun p => { p with jtag := { p.jtag with ir := ir, bypass := if ir = 31 then false else p.jtag.bypass } }) else s

/-- An instruction that takes the balls: in force while RESET_L is low, else it acts as BYPASS (R399). -/
def State.loadBallTap (s : State) (ir : Nat) : State := s.loadTap (if s.power.resetLow then ir else 31)

/-- JTAG_EXTEST. -/
def execJtagExtest (s : State) : Host.Outcome State Fault Refusal := .next (s.loadBallTap 0)

/-- JTAG_SAMPLE_PRELOAD: the cells capture the levels of the balls, which shift out while the values `cells` shift in (R398). -/
def execJtagSamplePreload (cells : List Bool) (s : State) : Host.Outcome State Fault Refusal :=
  .next (
    if s.tapRuns then
      let n := cells.length
      let r := s.choose (2 ^ n)
      ((r.2.loadTap 1).onPower (fun p => { p with jtag := { p.jtag with cells := cells } })).emit
        (.jtag ((List.range n).map (s.scanCapture r.1)))
    else s)

/-- The IDCODE register: stepping, part 0x0632, manufacturer 0x2B9, and a one (R398). -/
def State.idcode (s : State) : Nat := s.power.stepping % 16 * 2 ^ 28 + 0x0632 * 2 ^ 12 + 0x2B9 * 2 + 1

/-- The low `n` bits of a number, least significant first. -/
def bitList (n v : Nat) : List Bool := (List.range n).map v.testBit

/-- JTAG_IDCODE: the IDCODE register is selected and shifts out (R398). -/
def execJtagIdcode (s : State) : Host.Outcome State Fault Refusal :=
  .next (if s.tapRuns then (s.loadTap 2).emit (.jtag (bitList 32 s.idcode)) else s)

/-- JTAG_HIGHZ. -/
def execJtagHighz (s : State) : Host.Outcome State Fault Refusal := .next (s.loadBallTap 3)

/-- JTAG_CLAMP. -/
def execJtagClamp (s : State) : Host.Outcome State Fault Refusal := .next (s.loadBallTap 4)

/-- JTAG_BYPASS: BYPASS, or an opcode that names no instruction, selects the bypass register (R398). -/
def execJtagBypass (opcode : Fin 32) (s : State) : Host.Outcome State Fault Refusal :=
  .next (if opcode.val ≤ 4 then s else s.loadTap 31)

/-- JTAG_TEST_LOGIC_RESET selects IDCODE (R398). -/
def execJtagTestLogicReset (s : State) : Host.Outcome State Fault Refusal := .next (s.loadTap 2)

end Sys2Proof.Machine
end

