-- ==== Sys2Proof/Machine/Protocol.lean ====
section
/-! DEFINITION. Requests of the control protocol: their operations, sequence numbers and responses (R283, R287 to R290). -/

namespace Sys2Proof.Machine
open Sys2Proof

/-! Operations (R287). The operand `lake` is what the data fabric answers to reads through an aperture: the state of the codeword, or
no response yet: the operation, or the REQ, is then held until the response comes or CTL_ACC_TMO has passed (R305). -/

/-- A read that reached an aperture and has no response returns TIMEOUT, and its late response is to come (R305). -/
def State.apTimeout (s : State) (t : Fin 8) : State :=
  (({ s with ctl := { s.ctl with late := s.ctl.late ++ [t.val] } } : State).inc A.brgCntTmo).raise A.brgEvt 0

/-- One item read by a session of stall `t`: status, value, state. -/
def State.itemRead (s : State) (prov : Bool) (t : Fin 8) (a k : Nat) (lake : Option Ecc) (rmw : Bool) : Nat × Nat × State :=
  match lake with
  | some ecc => s.busRead prov t a k ecc rmw
  | none =>
    let r := s.busRead prov t a k .clean rmw
    let ap := match s.globalAddr t a with
      | some g => isAperture g
      | none => false
    if r.1 == 0 && ap then (6, 0, r.2.2.apTimeout t) else r

/-- What the items of an operation did: items completed, the status of the failing item (0: none failed) and its address, the bytes
returned, the state. -/
structure Items where
  done : Nat
  status : Nat
  addr : Nat
  data : Bytes
  s : State

/-- `n` items of `k` bytes read from `a` in ascending order (R287). -/
def State.readItems (prov : Bool) (t : Fin 8) (k : Nat) (lake : Option Ecc) : Nat → State → Nat → Items
  | 0, s, a => { done := 0, status := 0, addr := a, data := [], s := s }
  | n + 1, s, a =>
    let r := s.itemRead prov t a k lake false
    if r.1 ≠ 0 then { done := 0, status := r.1, addr := a, data := [], s := r.2.2 }
    else
      let q := State.readItems prov t k lake n r.2.2 (a + k)
      { q with done := q.done + 1, data := beBytes k r.2.1 ++ q.data }

/-- `n` items of `k` bytes, from the front of `bs`, written from `a` in ascending order (R287). -/
def State.writeItems (prov : Bool) (t : Fin 8) (k : Nat) (ecc : Ecc) (seq session : Nat) : Nat → State → Nat → Bytes → Items
  | 0, s, a, _ => { done := 0, status := 0, addr := a, data := [], s := s }
  | n + 1, s, a, bs =>
    let r := s.busWrite prov t a k (ofBe (bs.take k)) ecc seq session
    if r.1 ≠ 0 then { done := 0, status := r.1, addr := a, data := [], s := r.2 }
    else
      let q := State.writeItems prov t k ecc seq session n r.2 (a + k) (bs.drop k)
      { q with done := q.done + 1 }

/-- The written bits of an RMW: (old AND NOT MASK) OR (VALUE AND MASK), on `k` bytes (R287). -/
def rmwValue (k old mask value : Nat) : Nat := (old &&& ((2 ^ (8 * k) - 1) ^^^ mask)) ||| (value &&& mask)

/-- An RMW of one item of `k` bytes (R287). -/
def State.rmwItem (s : State) (prov : Bool) (t : Fin 8) (k : Nat) (lake : Option Ecc) (seq session a : Nat) (bs : Bytes) : Items :=
  let r := s.itemRead prov t a k lake true
  if r.1 ≠ 0 then { done := 0, status := r.1, addr := a, data := [], s := r.2.2 }
  else
    let v := rmwValue k r.2.1 (ofBe (bs.take k)) (ofBe ((bs.drop k).take k))
    let w := r.2.2.busWrite prov t a k v (lake.getD .clean) seq session
    if w.1 ≠ 0 then { done := 0, status := w.1, addr := a, data := [], s := w.2 }
    else { done := 1, status := 0, addr := a, data := beBytes k r.2.1, s := w.2 }

/-- The first version in which an operation can be used (Table 13.4). -/
def opSince (o : IcpOp) : Nat :=
  let bySize := if o.size = 3 then 0x20 else if o.size.toNat < 2 then 0x11 else 0x10
  let byCount := if 1 < o.count.toNat then 0x20 else 0x10
  if o.op = 5 then 0x21 else max bySize byCount

/-- An operation of session `x`, `later` when it is not the first of its REQ: status and address of the failing item, items done, the
bytes of the result and the state (R287, Table 13.4). -/
def State.runOp (s : State) (x : Session) (o : IcpOp) (later : Bool) (lake : Option Ecc) (seq : Nat) : Items :=
  let k := sizeBytes o.size.toNat
  let a := o.addr.toNat
  let none_ : Items := { done := 0, status := 7, addr := a, data := [], s := s }
  if x.version < opSince o || (later && decide (x.version < 0x20)) then none_
  else match fin? 8 x.stall with
    | none => none_
    | some t =>
      if o.op = 1 then State.readItems x.provisioning t k lake o.count.toNat s a
      else if o.op = 3 then s.rmwItem x.provisioning t k lake seq x.number a o.payload
      else if o.op = 5 then
        let d := o.payload
        let r := s.startLong x (beAt d 0 1) (beAt d 4 8) (beAt d 12 4) (beAt d 16 4)
        { done := if r.1 = 0 then 1 else 0, status := r.1, addr := a, data := if r.1 = 0 then beBytes 4 r.2.1 else [], s := r.2.2 }
      else State.writeItems x.provisioning t k (lake.getD .clean) seq x.number o.count.toNat s a o.payload

/-- A result in a RSP: STATUS, DONE and the data, padded (R289). -/
def resultBytes (status done : Nat) (data : Bytes) : Bytes := padTo 4 (beBytes 1 status ++ [0#8] ++ beBytes 2 done ++ data)

/-- The operations of a non-posted REQ in entry order: their results and the state. After a failure under STOP_ON_ERR each returns
SKIPPED; what follows a device reset that one of them causes does not run (R287, R289). -/
def State.runOps (x : Session) (stop : Bool) (lake : Option Ecc) (seq : Nat) : List IcpOp → Bool → Bool → State → Bytes × State
  | [], _, _, s => ([], s)
  | o :: os, later, failed, s =>
    if !s.on then ([], s)
    else if failed && stop then
      let q := State.runOps x stop lake seq os true true s
      (resultBytes 10 0 [] ++ q.1, q.2)
    else
      let r := s.runOp ((s.session? x.number).getD x) o later lake seq
      let q := State.runOps x stop lake seq os true (failed || r.status != 0) r.s
      (resultBytes r.status r.done r.data ++ q.1, q.2)

/-- A failed posted write enters the stall's log with the address of the failing item (R306). -/
def State.postedFail (s : State) (x : Session) (r : Items) (seq : Nat) : State :=
  if r.status = 0 then s
  else match fin? 8 x.stall with
    | some t => s.postErr t r.addr r.status seq x.number
    | none => s

/-- The operations of a posted REQ in entry order (R288, R306). -/
def State.runPosted (x : Session) (stop : Bool) (lake : Option Ecc) (seq : Nat) : List IcpOp → Bool → Bool → State → State
  | [], _, _, s => s
  | o :: os, later, failed, s =>
    if !s.on || (failed && stop) then s
    else
      let r := s.runOp x o later lake seq
      State.runPosted x stop lake seq os true (failed || r.status != 0) (r.s.postedFail x r seq)

/-! REQ (R283, R288 to R290). -/

/-- The bytes of an operation entry (Table 13.5). -/
def opBytes (o : IcpOp) : Bytes :=
  [o.op, o.size] ++ beBytes 2 o.count.toNat ++ beBytes 4 o.addr.toNat ++ padTo 4 o.payload

/-- The payload length that Table 13.5 gives an operation. -/
def payloadBytes (o : IcpOp) : Nat :=
  let k := sizeBytes o.size.toNat
  if o.op = 1 then 0 else if o.op = 3 then 2 * k else if o.op = 5 then 24 else o.count.toNat * k

/-- An operation entry lies within Table 13.5: a listed OP and SIZE, a COUNT of 1 to 256 (1 for RMW and LONG), and its payload. -/
def opGood (o : IcpOp) : Bool :=
  decide (1 ≤ o.op.toNat) && decide (o.op.toNat ≤ 5) && decide (o.size.toNat ≤ 3) && decide (1 ≤ o.count.toNat)
    && decide (o.count.toNat ≤ if o.op = 3 ∨ o.op = 5 then 1 else 256) && o.payload.length == payloadBytes o

/-- The most bytes an operation's result can take in a RSP (R289). -/
def resultMax (o : IcpOp) : Nat :=
  let k := sizeBytes o.size.toNat
  let d := if o.op = 1 then o.count.toNat * k else if o.op = 3 then k else if o.op = 5 then 4 else 0
  4 + (d + 3) / 4 * 4

/-- The body of a RSP: MSTAT, NOPS and the results (R289). -/
def rspBody (mstat nops : Nat) (results : Bytes) : Bytes := beBytes 1 mstat ++ [0#8] ++ beBytes 2 nops ++ results

/-- Send a RSP of session `x` to SEQ `q` and keep it for a retransmission (R283). -/
def State.answer (s : State) (x : Session) (h : IcpHead) (q : Nat) (body : Bytes) : State :=
  let mac := if x.provisioning then zero16 else icpMac x.key x.version 4 x.stall 0 x.number q body
  let msg := icpBytes x.version 4 x.stall 0 x.number q mac body
  (s.icpEmit h.port h.peer msg).onSession x.number (fun y => { y with cache := ((q, msg) :: y.cache).take 4 })

/-- A SEQ is later than every SEQ accepted in the session (R283). -/
def Session.isFresh (x : Session) (q : Nat) : Bool :=
  match x.lastSeq with
  | some l => isLater 32 q l
  | none => true

/-- The first aperture read of a list of operations of stall `t`: its offset and whether it is of 64 bits. -/
def State.firstAperture (s : State) (t : Fin 8) (ops : List IcpOp) : Option (Nat × Bool) :=
  firstSome (fun (o : IcpOp) =>
    let k := sizeBytes o.size.toNat
    if o.op = 1 ∨ o.op = 3 then
      firstSome (fun i => match s.globalAddr t (o.addr.toNat + k * i) with
        | some g => if isAperture g then some (g % 0x4000, k == 8) else none
        | none => none) (List.range o.count.toNat)
    else none) ops

/-- What the operations of a session leave when reads through the stall's aperture have no response: `gone` is the state in which they
have timed out. If there is one, they are held until a response or the timeout comes, as an access of the second bridge, which
holds 32 of them and lets others wait behind (R305; DEDUCED, assumption 65). -/
def State.holdOps (s : State) (x : Session) (ops : List IcpOp) (w : SplitFor) (gone : State) : State :=
  match fin? 8 x.stall with
  | none => gone
  | some t => match s.firstAperture t ops with
    | some (o, wide) =>
      if s.ctl.late.length < gone.ctl.late.length then
        { s with ctl := { s.ctl with split := s.ctl.split ++ [{ stall := t, ofs := o, wide := wide, at_ := s.now, waits := w }] } }
      else gone
    | none => gone

/-- The operations of a non-posted REQ are executed, and a RSP answers (R287, R289). -/
def State.runReq (s : State) (x : Session) (h : IcpHead) (ops : List IcpOp) (lake : Option Ecc) : State :=
  let r := State.runOps x (bit (wd h.flags.toNat) 1 && decide (0x13 ≤ x.version)) lake h.seq.toNat ops false false s
  if r.2.on then r.2.answer x h h.seq.toNat (rspBody 0 ops.length r.1) else r.2

/-- A non-posted REQ whose SEQ is new: it is executed, or refused as TOO_LARGE (R287, R290), or held for an access to the data
fabric (R305). -/
def State.execNonPosted (s : State) (x : Session) (h : IcpHead) (ops : List IcpOp) (lake : Option Ecc) : State :=
  let q := h.seq.toNat
  if s.icpLimit h.port h.peer < 36 + (ops.map resultMax).foldl (· + ·) 0 then s.answer x h q (rspBody 2 0 [])
  else match lake with
    | some _ => s.runReq x h ops lake
    | none => s.holdOps x ops (.req x.number h ops) (s.runReq x h ops none)

/-- An authenticated REQ of session `x` by its SEQ (R283, R288). -/
def State.handleReq (s : State) (x : Session) (h : IcpHead) (ops : List IcpOp) (lake : Option Ecc) : State :=
  let q := h.seq.toNat
  let posted := bit (wd h.flags.toNat) 0
  if !ops.all opGood || (posted && !ops.all (fun o => o.op == 4)) then s.malformed
  else if x.isFresh q then
    let s1 := s.onSession x.number (fun y => { y with lastSeq := some q })
    if posted then State.runPosted x (bit (wd h.flags.toNat) 1 && decide (0x13 ≤ x.version)) lake q ops false false s1
    else s1.execNonPosted x h ops lake
  else match x.cache.lookup q with
    | some m => s.icpEmit h.port h.peer m
    | none =>
      let s1 := s.inc A.ctlCntReplay
      if posted then s1 else s1.icpSend x 4 0 q (rspBody 1 0 [])

/-- REQ: a request message with its operations (R281, R283, R284, R287 to R290, R345). -/
def execReq (h : IcpHead) (ops : List IcpOp) (lake : Option Ecc) (s : State) : Host.Outcome State Fault Refusal :=
  .next (s.whenOn fun s =>
    let body := ops.flatMap opBytes
    s.icpGate h (32 + body.length) fun s => match s.authed h 3 body with
      | none => s.authFail
      | some x =>
        let s1 := (s.heard x h).wakeChans x
        s1.handleReq ((s1.session? x.number).getD x) h ops lake)

/-! Single operations of a session, as they stand in a REQ (R287, R288). -/

/-- One operation of session `x` is executed: its result. -/
def State.runOne (s : State) (x : Session) (o : IcpOp) (lake : Option Ecc) : State :=
  let r := s.runOp x o false lake 0
  r.s.emit (.result r.status r.done r.data)

/-- One operation of the open session with number `n`: its result, or it is held (R305). -/
def State.oneOp (s : State) (n : Nat) (o : IcpOp) (lake : Option Ecc) : State :=
  match s.session? n with
  | some x => match lake with
    | some _ => s.runOne x o lake
    | none => s.holdOps x [o] (.op n o) (s.runOne x o none)
  | none => s

/-! Accesses to the data fabric (R253, R305). -/

/-- The held accesses after the one at place `i` has left; if that was one of the 32 that the bridge holds, the 33rd is issued now. -/
def leaveSplit (now i : Nat) (l : List Split) : List Split :=
  let l' := l.eraseIdx i
  if i < 32 then l'.take 31 ++ ((l'.drop 31).take 1).map (fun e => { e with at_ := now }) ++ l'.drop 32 else l'

/-- What waited for a held access goes on, with the response `lake` or with a timeout: a read returns its result, an operation and a REQ
run. -/
def State.resume (s : State) (e : Split) (lake : Option Ecc) : State :=
  match e.waits with
  | .read => match lake with
    | some ecc =>
      let r := s.apRead e.stall e.ofs (if e.wide then 8 else 4) ecc
      r.2.2.emit (.value r.1 r.2.1)
    | none => (s.apTimeout e.stall).emit (.value 6 0)
  | .op n o => match s.session? n with
    | some x => s.runOne x o lake
    | none => if lake.isNone then s.apTimeout e.stall else s
  | .req n h ops => match s.session? n with
    | some x => s.runReq x h ops lake
    | none => if lake.isNone then s.apTimeout e.stall else s

/-- APERTURE_READ: a non-posted read of 32 or 64 bits through the aperture of stall `t` (R253). The data fabric answers it, or has not
answered yet (none): the bridge then holds it as one of up to 32 split accesses; those after the 32nd wait outside, behind them. An
answer to a held access is its response: the access returns its result (R305). Failed accesses are counted (R310). -/
def execApertureRead (t : Fin 8) (o : Fin 0x4000) (wide : Bool) (answer : Option Ecc) (s : State) : Host.Outcome State Fault Refusal :=
  .next (s.whenOn fun s =>
    let k := if wide then 8 else 4
    let wait := fun (s : State) =>
      ({ s with ctl := { s.ctl with split := s.ctl.split ++ [{ stall := t, ofs := o, wide := wide, at_ := s.now }] } } : State)
    if o.val % k ≠ 0 ∨ s.apValid t false = false then
      let r := s.apRead t o k .clean
      (r.2.2.noteFail r.1).emit (.value r.1 0)
    else match answer with
      | none => wait s
      | some ecc =>
        match (s.ctl.split.take 32).findIdx? (fun e => e.stall == t && e.ofs == o.val && e.wide == wide) with
        | some i => match s.ctl.split[i]? with
          | some e => ({ s with ctl := { s.ctl with split := leaveSplit s.now i s.ctl.split } } : State).resume e (some ecc)
          | none => s
        | none =>
          if 32 ≤ s.ctl.split.length then wait s
          else
            let r := s.apRead t o k ecc
            r.2.2.emit (.value r.1 r.2.1))

/-- ACCESS_TIMEOUT: the oldest access to the data fabric has had no response for CTL_ACC_TMO: it returns TIMEOUT, and is counted; its
response is to come (R305). -/
def execAccessTimeout (s : State) : Host.Outcome State Fault Refusal :=
  .next (s.whenOn fun s => match s.ctl.split with
    | [] => s
    | e :: _ =>
      if e.at_ + us (atLeast1 (s.f A.ctlAccTmo 15 0)) ≤ s.now then
        ({ s with ctl := { s.ctl with split := leaveSplit s.now 0 s.ctl.split } } : State).resume e none
      else s)

/-- ICP_READ: a READ of `count` items of 2^`size` bytes from `a` (R287, R293). -/
def execIcpRead (n : BitVec 32) (size : Fin 4) (count : Fin 256) (a : BitVec 32) (lake : Option Ecc) (s : State) :
    Host.Outcome State Fault Refusal :=
  .next (s.whenOn fun s => s.oneOp n.toNat { op := 1, size := BitVec.ofNat 8 size, count := BitVec.ofNat 16 (count.val + 1), addr := a } lake)

/-- ICP_WRITE: a WRITE of items to `a` (R287, R293). -/
def execIcpWrite (n : BitVec 32) (size : Fin 4) (items : List (BitVec 64)) (a : BitVec 32) (lake : Option Ecc) (s : State) :
    Host.Outcome State Fault Refusal :=
  .next (s.whenOn fun s =>
    let p := items.flatMap (fun v => beBytes (sizeBytes size) v.toNat)
    s.oneOp n.toNat { op := 2, size := BitVec.ofNat 8 size, count := BitVec.ofNat 16 items.length, addr := a, payload := p } lake)

/-- ICP_RMW: an atomic read, mask and write of one item, which returns the old value (R287). -/
def execIcpRmw (n : BitVec 32) (size : Fin 4) (a : BitVec 32) (mask value : BitVec 64) (lake : Option Ecc) (s : State) :
    Host.Outcome State Fault Refusal :=
  .next (s.whenOn fun s =>
    let p := beBytes (sizeBytes size) mask.toNat ++ beBytes (sizeBytes size) value.toNat
    s.oneOp n.toNat { op := 3, size := BitVec.ofNat 8 size, addr := a, payload := p } lake)

/-- ICP_PWRITE: a posted write of items to `a` under SEQ `seq`; its failure enters the posted-error log (R288, R306). -/
def execIcpPwrite (n seq : BitVec 32) (size : Fin 4) (items : List (BitVec 64)) (a : BitVec 32) (ecc : Ecc) (s : State) :
    Host.Outcome State Fault Refusal :=
  .next (s.whenOn fun s => match s.session? n.toNat with
    | some x =>
      let p := items.flatMap (fun v => beBytes (sizeBytes size) v.toNat)
      let o : IcpOp := { op := 4, size := BitVec.ofNat 8 size, count := BitVec.ofNat 16 items.length, addr := a, payload := p }
      let r := s.runOp x o false (some ecc) seq.toNat
      r.s.postedFail x r seq.toNat
    | none => s)

end Sys2Proof.Machine
end

