-- ==== Sys2Proof/Machine/Switch.lean ====
section
/-! DEFINITION. Switch: the new structure and the FORCE entries of its KEPT section come into force at a round boundary (R42, R43, R45,
R46, R123). -/

namespace Sys2Proof.Machine
open Sys2Proof

/-- A staged register takes a value in force at once, with what its block does when the value changes (R42, R117, R154, R158, R183, R276). -/
def State.forceStaged (s : State) (a : Nat) (w : Word) : State :=
  let s1 := s.wrK a w
  match s.blockOf a with
  | none => s1
  | some blk =>
    let near := fun (k : Nat) (f : Nat → Nat) => (List.range k).filter (fun i => f i == blk)
    let s3 := forAll (fun b t => forAll (fun n t => forAll (fun q t =>
      let r := seamRegs q n
      if r.1 = a ∨ r.2.1 = a ∨ r.2.2 = a then t.seamForce b q n true else t) [0, 1, 2] t) (t.group b).springs t) (near 4 A.seamBarCommit) s1
    let s4 := forFin (fun (b : Fin 4) t =>
      let u := forAll (fun (x : TnrQty) t => if (tnrRegs b x).contains a then t.tnrForce b x else t) tnrQtys t
      if u.tnrPitch b = s.tnrPitch b || !u.tnrRegion b then u else u.tnrReset b) (near 4 A.corCommit) s3
    let s5 := forFin (fun (g : Fin 12) t => t.noteTal s g) (near 12 A.talCommit) s4
    forFin (fun (b : Fin 4) t => t.onLtg b (fun x => { x with next := some (t.trigBeyond b (t.ltgPos b)), from_ := t.now })) (near 4 A.ltgCommit) s5

/-- A value of KEPT with FORCE takes effect at Switch: what the owner's write of the Kept fields does, or, for a staged register, the value
comes into force (R42, R46). Coefficients come into force whether or not their set is in use. -/
def State.forceValue (s : State) (a : Nat) (v : Word) : State :=
  match rowOf a with
  | none => s
  | some r =>
    if sysReg a || r.kept == 0 then s
    else
      let w := wd (((s.rd a).toNat &&& (0xFFFFFFFF ^^^ r.kept) &&& (r.rw ||| r.rws)) ||| (v.toNat &&& r.kept))
      if r.rws ≠ 0 then s.forceStaged a w
      else if (0x208000 ≤ a ∧ a < 0x20A000) ∨ (0x484000 ≤ a ∧ a < 0x484C00) then s.wrK a w
      else (s.storeReg 0 a w).2

/-- Switch (R42 step 3, R45, R46): the new structure is in force, except for frames that began before their group's mark. A Spring that
changes its group begins frames anew, and a session keeps only the channels that the new structure enables (R282). -/
def State.switchNow (s : State) : State :=
  let c := s.sic
  let springs := c.affG.flatMap (fun g => (s.str.groups.getD g {}).springs ++ (c.next.groups.getD g {}).springs)
  let s0 := s.cancelArmed springs.eraseDups
  let r := State.discardCommits (swapBlocks s.str c.next c.affG c.affS) s0
  let late := c.affG.filter (fun g => s.activeGroup g && !c.awaiting.contains g && (c.marks.lookup g).isNone)
  let idle := c.affG.filter (fun g => !s.activeGroup g)
  let nf := fun (g : Nat) => ((fin? 12 g).map s.nextFrame).getD 0
  let s1 := r.2.setF A.sicSwapStat 31 24 (min 255 r.1)
  let s2 := forAll (fun g s => s.wr (A.sicSwapFrm g) (wd (nf g))) (late ++ idle) s1
  let s3 := { s2 with
    str := c.next
    sic := { s2.sic with phase := .switch, old := s.str, activeB := c.target, marks := c.marks ++ late.map (fun g => (g, nf g))
                         awaiting := c.awaiting.filter s.activeGroup
                         settling := c.affG.map SwapRes.group ++ c.affS.map SwapRes.stream } }
  let s4 := s3.switchEvents s.str
  let fresh := c.affG.filter (fun g => (s.str.groups.getD g {}).springs.isEmpty && s3.defined g)
  let s5 := forFin (fun (g : Fin 12) s => (s.loadMarks g).onGrp g (fun x => { x with openNext := true })) fresh s4
  let s6 := forFin (fun b s => s.switchTnr b) c.affG s5
  let s6 := forFin (fun (n : Fin 32) t => if t.groupOf n = s.groupOf n then t else t.onSpr n (fun x => { x with lastFrame := none })) (List.range 32) s6
  let s6 := { s6 with ctl := { s6.ctl with sessions := s6.ctl.sessions.map (fun x =>
    { x with chans := x.chans &&& (s6.stallRec x.stall).chans }) } }
  let s7 := forFin (fun n s => (s.switchWindow n).onOut n (fun x => { x with aliveRestart := true })) c.affS s6
  (forAll (fun (e : KeptRec) s => if e.force then s.forceValue e.addr e.value else s) c.next.kept s7).ffCheck

/-- SWAP_SWITCH: the first round boundary at or after the swap instant (R42). -/
def execSwapSwitch (s : State) : Host.Outcome State Fault Refusal :=
  .next (s.whenOn fun s => if s.switchDue then s.switchNow else s)

/-- ROUND_BOUNDARY: a round ends, and a commit that is due switches (R42, R123). -/
def execRoundBoundary (s : State) : Host.Outcome State Fault Refusal :=
  .next (s.whenOn fun s =>
    let s1 := s.endRound
    if s1.switchDue then s1.switchNow else s1)

end Sys2Proof.Machine
end

