-- ==== Sys2Proof/Machine/Dispatch.lean ====
section
/-! DEFINITION. The effect of every command: one meaning per constructor. -/

namespace Sys2Proof.Machine
open Sys2Proof

/-- The effect of a command on everything but the queue. -/
def exec (i : Instr) (s : State) : Host.Outcome State Fault Refusal :=
  match i with
  | .registerWrite t a size v => Sys2Proof.Machine.execRegisterWrite t a size v s
  | .readClear t a => Sys2Proof.Machine.execReadClear t a s
  | .latchingRead t a wide => Sys2Proof.Machine.execLatchingRead t a wide s
  | .commitWrite t b v => Sys2Proof.Machine.execCommitWrite t b v s
  | .commitTakeEffect b => Sys2Proof.Machine.execCommitTakeEffect b s
  | .coldPowerUp devid factoryL => Sys2Proof.Machine.execColdPowerUp devid factoryL s
  | .resetLLow low => Sys2Proof.Machine.execResetLLow low s
  | .ctlReset v => Sys2Proof.Machine.execCtlReset v s
  | .pwrOkLow => Sys2Proof.Machine.execPwrOkLow s
  | .supplyFail j mv => Sys2Proof.Machine.execSupplyFail j mv s
  | .refclkLoss => Sys2Proof.Machine.execRefclkLoss s
  | .thermalTrip => Sys2Proof.Machine.execThermalTrip s
  | .erase b => Sys2Proof.Machine.execErase b s
  | .eraseDone => Sys2Proof.Machine.execEraseDone s
  | .beginLoad b => Sys2Proof.Machine.execBeginLoad b s
  | .sicLoadDataWrite v => Sys2Proof.Machine.execSicLoadDataWrite v s
  | .copy b => Sys2Proof.Machine.execCopy b s
  | .copyDone ecc => Sys2Proof.Machine.execCopyDone ecc s
  | .endLoad b => Sys2Proof.Machine.execEndLoad b s
  | .check b => Sys2Proof.Machine.execCheck b s
  | .checkDone => Sys2Proof.Machine.execCheckDone s
  | .commit b force probation => Sys2Proof.Machine.execCommit b force probation s
  | .prepareDone => Sys2Proof.Machine.execPrepareDone s
  | .swapSwitch => Sys2Proof.Machine.execSwapSwitch s
  | .swapResourceFree r => Sys2Proof.Machine.execSwapResourceFree r s
  | .abort => Sys2Proof.Machine.execAbort s
  | .commitTimeout => Sys2Proof.Machine.execCommitTimeout s
  | .confirm => Sys2Proof.Machine.execConfirm s
  | .probationRevert => Sys2Proof.Machine.execProbationRevert s
  | .installKey k => Sys2Proof.Machine.execInstallKey k s
  | .installKeyDone => Sys2Proof.Machine.execInstallKeyDone s
  | .lockKey k => Sys2Proof.Machine.execLockKey k s
  | .raiseFloor => Sys2Proof.Machine.execRaiseFloor s
  | .windowDrainEnd n => Sys2Proof.Machine.execWindowDrainEnd n s
  | .springEnable n => Sys2Proof.Machine.execSpringEnable n s
  | .springDisable n => Sys2Proof.Machine.execSpringDisable n s
  | .deskewSequence n k initial eye => Sys2Proof.Machine.execDeskewSequence n k initial eye s
  | .dskValueWrite n k v pin => Sys2Proof.Machine.execDskValueWrite n k v pin s
  | .dskWindowWrite n k lo hi step => Sys2Proof.Machine.execDskWindowWrite n k lo hi step s
  | .longPacket n pairs => Sys2Proof.Machine.execLongPacket n pairs s
  | .shortPacket n pairs => Sys2Proof.Machine.execShortPacket n pairs s
  | .lineAssociation n vc dt => Sys2Proof.Machine.execLineAssociation n vc dt s
  | .triggerExpiry n => Sys2Proof.Machine.execTriggerExpiry n s
  | .assemblyTimeout n => Sys2Proof.Machine.execAssemblyTimeout n s
  | .softTrigger n => Sys2Proof.Machine.execSoftTrigger n s
  | .triggerPulseEnd n => Sys2Proof.Machine.execTriggerPulseEnd n s
  | .xrstPulse n => Sys2Proof.Machine.execXrstPulse n s
  | .xrstPulseEnd n => Sys2Proof.Machine.execXrstPulseEnd n s
  | .pondPointerMismatch p => Sys2Proof.Machine.execPondPointerMismatch p s
  | .pondInject v => Sys2Proof.Machine.execPondInject v s
  | .pondPacketNotice p len => Sys2Proof.Machine.execPondPacketNotice p len s
  | .pondPacketRelease p => Sys2Proof.Machine.execPondPacketRelease p s
  | .chainPondPush p v taken => Sys2Proof.Machine.execChainPondPush p v taken s
  | .chainPondPop p => Sys2Proof.Machine.execChainPondPop p s
  | .listStartCmd n lake notify t => Sys2Proof.Machine.execListStartCmd n lake notify t s
  | .controllerReset n hold => Sys2Proof.Machine.execControllerReset n hold s
  | .busClearRetry n hold => Sys2Proof.Machine.execBusClearRetry n hold s
  | .clearCmd n hold => Sys2Proof.Machine.execClearCmd n hold s
  | .flushCmd n => Sys2Proof.Machine.execFlushCmd n s
  | .controllerDisable n => Sys2Proof.Machine.execControllerDisable n s
  | .listBegin n ecc => Sys2Proof.Machine.execListBegin n ecc s
  | .listDelayEnd n resp => Sys2Proof.Machine.execListDelayEnd n resp s
  | .listEnd n resp hold => Sys2Proof.Machine.execListEnd n resp hold s
  | .arbitrationLost n resp k => Sys2Proof.Machine.execArbitrationLost n resp k s
  | .stretchTimeout n resp k low hold => Sys2Proof.Machine.execStretchTimeout n resp k low hold s
  | .busBusyTimeout n => Sys2Proof.Machine.execBusBusyTimeout n s
  | .foreignCondition n resp k => Sys2Proof.Machine.execForeignCondition n resp k s
  | .twtWrite a data => Sys2Proof.Machine.execTwtWrite a data s
  | .twtRead a n => Sys2Proof.Machine.execTwtRead a n s
  | .twtProtoViolation w => Sys2Proof.Machine.execTwtProtoViolation w s
  | .twtSclTimeout w low => Sys2Proof.Machine.execTwtSclTimeout w low s
  | .twbtSoftSet v => Sys2Proof.Machine.execTwbtSoftSet v s
  | .bmcReq => Sys2Proof.Machine.execBmcReq s
  | .lineTrigger b => Sys2Proof.Machine.execLineTrigger b s
  | .lineTriggerTimed b => Sys2Proof.Machine.execLineTriggerTimed b s
  | .entryArm n e => Sys2Proof.Machine.execEntryArm n e s
  | .entryCancel n e => Sys2Proof.Machine.execEntryCancel n e s
  | .stitchedLineAssemble b => Sys2Proof.Machine.execStitchedLineAssemble b s
  | .truncationMarkerAtSeam b => Sys2Proof.Machine.execTruncationMarkerAtSeam b s
  | .seamMeasurementDone b => Sys2Proof.Machine.execSeamMeasurementDone b s
  | .seamTrackerApply b => Sys2Proof.Machine.execSeamTrackerApply b s
  | .seamCoefWrite k v => Sys2Proof.Machine.execSeamCoefWrite k v s
  | .roundBoundary => Sys2Proof.Machine.execRoundBoundary s
  | .slotDecision => Sys2Proof.Machine.execSlotDecision s
  | .lakeLineCopy g => Sys2Proof.Machine.execLakeLineCopy g s
  | .lakeCopyDone g => Sys2Proof.Machine.execLakeCopyDone g s
  | .tnrReadArrive b count k => Sys2Proof.Machine.execTnrReadArrive b count k s
  | .groupReset t mask => Sys2Proof.Machine.execGroupReset t mask s
  | .tnrResetCmd b => Sys2Proof.Machine.execTnrResetCmd b s
  | .tnrResetEffect b => Sys2Proof.Machine.execTnrResetEffect b s
  | .tnrAdaptUpdate b => Sys2Proof.Machine.execTnrAdaptUpdate b s
  | .tnrAdaptApply b => Sys2Proof.Machine.execTnrAdaptApply b s
  | .ffBaseWrite n v => Sys2Proof.Machine.execFfBaseWrite n v s
  | .tableLoadStart g t => Sys2Proof.Machine.execTableLoadStart g t s
  | .tableLoadDataWrite g v => Sys2Proof.Machine.execTableLoadDataWrite g v s
  | .tableLoadDataRead g => Sys2Proof.Machine.execTableLoadDataRead g s
  | .tableLoadDone g ecc => Sys2Proof.Machine.execTableLoadDone g ecc s
  | .gpioEdge k falling held => Sys2Proof.Machine.execGpioEdge k falling held s
  | .captureRead k => Sys2Proof.Machine.execCaptureRead k s
  | .statsRecordClose g => Sys2Proof.Machine.execStatsRecordClose g s
  | .statsRecordEnter g => Sys2Proof.Machine.execStatsRecordEnter g s
  | .statsRecordTimeout n => Sys2Proof.Machine.execStatsRecordTimeout n s
  | .outputLineForm n => Sys2Proof.Machine.execOutputLineForm n s
  | .recordComplete n => Sys2Proof.Machine.execRecordComplete n s
  | .truncationRecordEnter n => Sys2Proof.Machine.execTruncationRecordEnter n s
  | .outCoefWrite k v => Sys2Proof.Machine.execOutCoefWrite k v s
  | .ethPortEnable p v => Sys2Proof.Machine.execEthPortEnable p v s
  | .linkFault l aligned lfault rfault => Sys2Proof.Machine.execLinkFault l aligned lfault rfault s
  | .linkDown l => Sys2Proof.Machine.execLinkDown l s
  | .linkUp l => Sys2Proof.Machine.execLinkUp l s
  | .failback n => Sys2Proof.Machine.execFailback n s
  | .receiverSilence n => Sys2Proof.Machine.execReceiverSilence n s
  | .marketTakeRecord n => Sys2Proof.Machine.execMarketTakeRecord n s
  | .segmentSend l => Sys2Proof.Machine.execSegmentSend l s
  | .openMessage l src h xmin xmax rmin rmax credit => Sys2Proof.Machine.execOpenMessage l src h xmin xmax rmin rmax credit s
  | .closeMessage l src h => Sys2Proof.Machine.execCloseMessage l src h s
  | .ackMessage l src h cum bitmap limit aflags => Sys2Proof.Machine.execAckMessage l src h cum bitmap limit aflags s
  | .resendTimeout n old => Sys2Proof.Machine.execResendTimeout n old s
  | .switchPrimary n => Sys2Proof.Machine.execSwitchPrimary n s
  | .switchStandby n => Sys2Proof.Machine.execSwitchStandby n s
  | .xptClose n => Sys2Proof.Machine.execXptClose n s
  | .xptResend n => Sys2Proof.Machine.execXptResend n s
  | .pfcFrame l prios => Sys2Proof.Machine.execPfcFrame l prios s
  | .pauseQuantaExpire l q => Sys2Proof.Machine.execPauseQuantaExpire l q s
  | .pauseFrame l => Sys2Proof.Machine.execPauseFrame l s
  | .pfcWatchdog l q => Sys2Proof.Machine.execPfcWatchdog l q s
  | .pfcIgnoreEnd l q => Sys2Proof.Machine.execPfcIgnoreEnd l q s
  | .arpRequest l src target => Sys2Proof.Machine.execArpRequest l src target s
  | .echoRequest l src ident seq payload => Sys2Proof.Machine.execEchoRequest l src ident seq payload s
  | .ethFrameReject l frame => Sys2Proof.Machine.execEthFrameReject l frame s
  | .lakeTrainingDone res => Sys2Proof.Machine.execLakeTrainingDone res s
  | .fullTrain mask => Sys2Proof.Machine.execFullTrain mask s
  | .lakeRetrainStep c rd wr => Sys2Proof.Machine.execLakeRetrainStep c rd wr s
  | .lakeTrimWrite c rd wr => Sys2Proof.Machine.execLakeTrimWrite c rd wr s
  | .scrubRead ecc => Sys2Proof.Machine.execScrubRead ecc s
  | .lakeRefresh c mr4 hot => Sys2Proof.Machine.execLakeRefresh c mr4 hot s
  | .lakeRequest q a len write ecc => Sys2Proof.Machine.execLakeRequest q a len write ecc s
  | .apertureRead t o wide answer => Sys2Proof.Machine.execApertureRead t o wide answer s
  | .apertureWrite t o wide v ecc by_ => Sys2Proof.Machine.execApertureWrite t o wide v ecc by_ s
  | .tbSet n => Sys2Proof.Machine.execTbSet n s
  | .tbStep n useReg atFrame bar => Sys2Proof.Machine.execTbStep n useReg atFrame bar s
  | .tbSlew n => Sys2Proof.Machine.execTbSlew n s
  | .slewDone n => Sys2Proof.Machine.execSlewDone n s
  | .tbCancel n => Sys2Proof.Machine.execTbCancel n s
  | .tbRelock n => Sys2Proof.Machine.execTbRelock n s
  | .tbFormatChange n binary => Sys2Proof.Machine.execTbFormatChange n binary s
  | .timSnap => Sys2Proof.Machine.execTimSnap s
  | .encoderEdge n a b delay held => Sys2Proof.Machine.execEncoderEdge n a b delay held s
  | .encoderIndex n rising delay held => Sys2Proof.Machine.execEncoderIndex n rising delay held s
  | .encoderStall n => Sys2Proof.Machine.execEncoderStall n s
  | .ptpSync p m => Sys2Proof.Machine.execPtpSync p m s
  | .ptpFollowUp p m => Sys2Proof.Machine.execPtpFollowUp p m s
  | .ptpDelayReq p m => Sys2Proof.Machine.execPtpDelayReq p m s
  | .ptpDelayResp p m => Sys2Proof.Machine.execPtpDelayResp p m s
  | .ptpPdelayReq p m => Sys2Proof.Machine.execPtpPdelayReq p m s
  | .ptpPdelayResp p m t3 => Sys2Proof.Machine.execPtpPdelayResp p m t3 s
  | .dsLong p => Sys2Proof.Machine.execDsLong p s
  | .ptpAnnounce p m d => Sys2Proof.Machine.execPtpAnnounce p m d s
  | .ptpManagement p => Sys2Proof.Machine.execPtpManagement p s
  | .ptpSyncTimeout k => Sys2Proof.Machine.execPtpSyncTimeout k s
  | .ptpMessageSend p kind => Sys2Proof.Machine.execPtpMessageSend p kind s
  | .ppsPulse k => Sys2Proof.Machine.execPpsPulse k s
  | .hello h vmin vmax chans hnonce => Sys2Proof.Machine.execHello h vmin vmax chans hnonce s
  | .icpMessageReject h magic type blen body => Sys2Proof.Machine.execIcpMessageReject h magic type blen body s
  | .icpRead n size count a lake => Sys2Proof.Machine.execIcpRead n size count a lake s
  | .icpWrite n size items a lake => Sys2Proof.Machine.execIcpWrite n size items a lake s
  | .icpRmw n size a mask value lake => Sys2Proof.Machine.execIcpRmw n size a mask value lake s
  | .icpPwrite n seq size items a ecc => Sys2Proof.Machine.execIcpPwrite n seq size items a ecc s
  | .lakeReadOp n lake len tag => Sys2Proof.Machine.execLakeReadOp n lake len tag s
  | .lakeWriteOp n lake len tag => Sys2Proof.Machine.execLakeWriteOp n lake len tag s
  | .bulkSend opid ecc => Sys2Proof.Machine.execBulkSend opid ecc s
  | .bulkReceive h opid offset data ecc => Sys2Proof.Machine.execBulkReceive h opid offset data ecc s
  | .longOpDone opid => Sys2Proof.Machine.execLongOpDone opid s
  | .longOpTimeout opid => Sys2Proof.Machine.execLongOpTimeout opid s
  | .bye h => Sys2Proof.Machine.execBye h s
  | .keepalive h => Sys2Proof.Machine.execKeepalive h s
  | .sessionTimeout n => Sys2Proof.Machine.execSessionTimeout n s
  | .accessTimeout => Sys2Proof.Machine.execAccessTimeout s
  | .lateResponse => Sys2Proof.Machine.execLateResponse s
  | .stallKeyInstall t => Sys2Proof.Machine.execStallKeyInstall t s
  | .stallKeyStored t => Sys2Proof.Machine.execStallKeyStored t s
  | .stallKeyErase t => Sys2Proof.Machine.execStallKeyErase t s
  | .stallReset t => Sys2Proof.Machine.execStallReset t s
  | .completionRead t => Sys2Proof.Machine.execCompletionRead t s
  | .crcInit k => Sys2Proof.Machine.execCrcInit k s
  | .crcLakeFeed k => Sys2Proof.Machine.execCrcLakeFeed k s
  | .crcAbort k => Sys2Proof.Machine.execCrcAbort k s
  | .crcLakeFeedDone k ecc => Sys2Proof.Machine.execCrcLakeFeedDone k ecc s
  | .crcDataWrite k o size v => Sys2Proof.Machine.execCrcDataWrite k o size v s
  | .crcValWrite k v => Sys2Proof.Machine.execCrcValWrite k v s
  | .eventSourceRaise n level held => Sys2Proof.Machine.execEventSourceRaise n level held s
  | .eventSourceDeassert n held => Sys2Proof.Machine.execEventSourceDeassert n held s
  | .eventDelivery room => Sys2Proof.Machine.execEventDelivery room s
  | .eventNotify t => Sys2Proof.Machine.execEventNotify t s
  | .eventRenotify t => Sys2Proof.Machine.execEventRenotify t s
  | .eventTake t n => Sys2Proof.Machine.execEventTake t n s
  | .eventDone t n => Sys2Proof.Machine.execEventDone t n s
  | .eventDismiss t n => Sys2Proof.Machine.execEventDismiss t n s
  | .sleep h chans => Sys2Proof.Machine.execSleep h chans s
  | .targetSleepWrite t v => Sys2Proof.Machine.execTargetSleepWrite t v s
  | .eventIdleSet t => Sys2Proof.Machine.execEventIdleSet t s
  | .wakeAction t => Sys2Proof.Machine.execWakeAction t s
  | .wolRetry t => Sys2Proof.Machine.execWolRetry t s
  | .evcSwSet t v => Sys2Proof.Machine.execEvcSwSet t v s
  | .evcHoldWrite hold => Sys2Proof.Machine.execEvcHoldWrite hold s
  | .edgeLatch k falling => Sys2Proof.Machine.execEdgeLatch k falling s
  | .enterDoze => Sys2Proof.Machine.execEnterDoze s
  | .enterStill => Sys2Proof.Machine.execEnterStill s
  | .entryComplete => Sys2Proof.Machine.execEntryComplete s
  | .wakeDoze src => Sys2Proof.Machine.execWakeDoze src s
  | .wakeStill src devid factoryL supplies => Sys2Proof.Machine.execWakeStill src devid factoryL supplies s
  | .supplyWaitTimeout => Sys2Proof.Machine.execSupplyWaitTimeout s
  | .wakeTimerExpire k => Sys2Proof.Machine.execWakeTimerExpire k s
  | .wakeFrame port frame => Sys2Proof.Machine.execWakeFrame port frame s
  | .keepCommit => Sys2Proof.Machine.execKeepCommit s
  | .keepAutoCommit => Sys2Proof.Machine.execKeepAutoCommit s
  | .commitDone => Sys2Proof.Machine.execCommitDone s
  | .keepVerify => Sys2Proof.Machine.execKeepVerify s
  | .keepVerifyPeriod => Sys2Proof.Machine.execKeepVerifyPeriod s
  | .verifyDone bad => Sys2Proof.Machine.execVerifyDone bad s
  | .telSample temps volts power => Sys2Proof.Machine.execTelSample temps volts power s
  | .telRecord => Sys2Proof.Machine.execTelRecord s
  | .jtagExtest => Sys2Proof.Machine.execJtagExtest s
  | .jtagSamplePreload cells => Sys2Proof.Machine.execJtagSamplePreload cells s
  | .jtagIdcode => Sys2Proof.Machine.execJtagIdcode s
  | .jtagHighz => Sys2Proof.Machine.execJtagHighz s
  | .jtagClamp => Sys2Proof.Machine.execJtagClamp s
  | .jtagBypass opcode => Sys2Proof.Machine.execJtagBypass opcode s
  | .jtagTestLogicReset => Sys2Proof.Machine.execJtagTestLogicReset s
  | .phyError n => Sys2Proof.Machine.execPhyError n s
  | .managementLinkDown m aligned lfault rfault => Sys2Proof.Machine.execManagementLinkDown m aligned lfault rfault s
  | .managementLinkUp m => Sys2Proof.Machine.execManagementLinkUp m s
  | .announceReceiptTimeout p => Sys2Proof.Machine.execAnnounceReceiptTimeout p s
  | .ppsPulseEnd k => Sys2Proof.Machine.execPpsPulseEnd k s
  | .req h ops lake => Sys2Proof.Machine.execReq h ops lake s
  | .stallResetDone t => Sys2Proof.Machine.execStallResetDone t s
  | .drainGapTimeout n => Sys2Proof.Machine.execDrainGapTimeout n s
  | .ethPortDisable p v => Sys2Proof.Machine.execEthPortDisable p v s
  | .tarnCrystalStarted => Sys2Proof.Machine.execTarnCrystalStarted s

end Sys2Proof.Machine
end

