-- ==== Sys2Proof/Machine/Step.lean ====
section
/-! DEFINITION. One step of the machine: the command at the front of the queue, or the passing of time. -/

namespace Sys2Proof.Machine
open Sys2Proof

/-- One nanosecond passes with no command: the time clock and the Tarn's time run in the states in which their clocks run (R259, R353), and
delayed trigger edges reach their Springs (R73), simulated web positions move (R263), and Settle follows Switch (R42). -/
def State.tick (s : State) : State :=
  match s.power.st with
  | .off => s
  | .on =>
    let s0 := s.stampReady
    let s1 := { s0 with now := s0.now + 1, tarn := s0.tarn + 1 }
    let s2 := if s.edges.isEmpty then s1 else State.edgesDue s.edges s1
    let s2 := forFin (fun (n : Fin 4) s => s.simulate n) [0, 1, 2, 3] s2
    if s.sic.phase = .switch then s2.beginSettle else s2
  | _ => { s with tarn := s.tarn + 1 }

/-- A step takes the command at the front of the queue and runs it on the state with the queue's rest; on an empty queue a nanosecond
passes (DESIGN CHOICE). -/
def step (s : State) : Host.Outcome State Fault Refusal :=
  match s.pending with
  | [] => .next s.tick
  | c :: rest => exec c { s with pending := rest }

/-- The state with the command that a word spells put at the front of its queue; unchanged, since no word spells one. -/
def State.withFetchWord (s : State) (nbits w : Nat) : State :=
  match decodeTableWord nbits w with
  | some c => { s with pending := c :: s.pending }
  | none => s

end Sys2Proof.Machine
end

