-- ==== Sys2Proof/Safety.lean ====
section
/-! DEFINITION. The vocabulary of the claims: what a command leaves as it was, when it completes, and the forms that every
state keeps. -/

namespace Sys2Proof.Safety
open Sys2Proof Sys2Proof.Machine

/-- A piece of the state that a command changes or leaves: the register in force at an address, the byte of the Lake at an address,
the table entry at an address, one member of a family, or a field of `State`. -/
inductive Piece where
  | reg (a : Nat) | byte (a : Nat) | table (a : Nat)
  | pending | now | tarn | staged | commits | latch | power | keep | sic | str | ctl
  | stall (t : Fin 8) | source (n : Fin 768) | target (t : Fin 20) | timeBase (n : Fin 4) | webPos (n : Fin 4) | gen (b : Fin 4)
  | gpio (i : Fin 16) | ptp (p : Fin 4) | spring (n : Fin 32) | group (g : Fin 12) | twoWire (n : Fin 32) | context (g : Fin 12)
  | engine | seam (b : Fin 4) | tnr (b : Fin 4) | tally (g : Fin 12) | load (g : Fin 12) | stream (n : Fin 16) | transport (n : Fin 16)
  | drains | link (l : Fin 8) | portMode (p : Fin 4) | lakeCtl | crc (k : Fin 16) | netPond (p : Fin 22) | chain (p : Fin 54)
  | edges | readPtr (p : Fin 86) | releases | resets
  | draws | sent
  deriving DecidableEq, Repr

/-- The piece is the same in both states. -/
def Piece.Same (s t : State) : Piece → Prop
  | .reg a => t.rd a = s.rd a
  | .byte a => t.lakeGet a = s.lakeGet a
  | .table a => t.tbl a = s.tbl a
  | .pending => t.pending = s.pending
  | .now => t.now = s.now
  | .tarn => t.tarn = s.tarn
  | .staged => t.staged = s.staged
  | .commits => t.commits = s.commits
  | .latch => t.latch = s.latch
  | .power => t.power = s.power
  | .keep => t.keep = s.keep
  | .sic => t.sic = s.sic
  | .str => t.str = s.str
  | .ctl => t.ctl = s.ctl
  | .stall n => t.stalls[n] = s.stalls[n]
  | .source n => t.sources[n] = s.sources[n]
  | .target n => t.targets[n] = s.targets[n]
  | .timeBase n => t.tb[n] = s.tb[n]
  | .webPos n => t.wp[n] = s.wp[n]
  | .gen n => t.ltg[n] = s.ltg[n]
  | .gpio n => t.gpio[n] = s.gpio[n]
  | .ptp n => t.ptp[n] = s.ptp[n]
  | .spring n => t.spr[n] = s.spr[n]
  | .group n => t.grp[n] = s.grp[n]
  | .twoWire n => t.twb[n] = s.twb[n]
  | .context n => t.engs[n] = s.engs[n]
  | .engine => t.engine = s.engine
  | .seam n => t.seam[n] = s.seam[n]
  | .tnr n => t.tnr[n] = s.tnr[n]
  | .tally n => t.tally[n] = s.tally[n]
  | .load n => t.load[n] = s.load[n]
  | .stream n => t.out[n] = s.out[n]
  | .transport n => t.xpt[n] = s.xpt[n]
  | .drains => t.drains = s.drains
  | .link n => t.links[n] = s.links[n]
  | .portMode n => t.portMode[n] = s.portMode[n]
  | .lakeCtl => t.lakeCtl = s.lakeCtl
  | .crc n => t.crc[n] = s.crc[n]
  | .netPond n => t.netPonds[n] = s.netPonds[n]
  | .chain n => t.chains[n] = s.chains[n]
  | .edges => t.edges = s.edges
  | .readPtr p => t.readPtr[p] = s.readPtr[p]
  | .releases => t.releases = s.releases
  | .resets => t.resets = s.resets
  | .draws => t.draws = s.draws
  | .sent => t.sent = s.sent

/-- The fields of `State`, with the registers by block (Table 19.1). -/
inductive Kind where
  | regs (block : Nat) | bytes | tables | pending | now | tarn | staged | commits | latch | power | keep | sic | str | ctl | stalls
  | sources | targets | timeBases | webPos | gens | gpio | ptp | springs | groups | twoWire | contexts | engine | seams | tnrs
  | tallies | loads | streams | transports | drains | links | portModes | lakeCtl | crcs | netPonds | chains | edges | readPtrs | releases | resets
  | draws | sent
  deriving DecidableEq, Repr

/-- The block of Table 19.1 that an address lies in, by the block's first address. -/
def regBlock (a : Nat) : Nat :=
  let firsts := [0x10000, 0x100000, 0x180000, 0x200000, 0x280000, 0x300000, 0x400000, 0x410000, 0x440000, 0x480000, 0x500000, 0x540000,
    0x580000, 0x5C0000, 0x600000, 0x620000, 0x640000, 0x680000, 0x6C0000, 0x6E0000, 0x700000]
  firsts.foldl (fun b f => if f ≤ a then f else b) 0

/-- The kind of a piece. -/
def Piece.kind : Piece → Kind
  | .reg a => .regs (regBlock a)
  | .byte _ => .bytes
  | .table _ => .tables
  | .pending => .pending
  | .now => .now
  | .tarn => .tarn
  | .staged => .staged
  | .commits => .commits
  | .latch => .latch
  | .power => .power
  | .keep => .keep
  | .sic => .sic
  | .str => .str
  | .ctl => .ctl
  | .stall _ => .stalls
  | .source _ => .sources
  | .target _ => .targets
  | .timeBase _ => .timeBases
  | .webPos _ => .webPos
  | .gen _ => .gens
  | .gpio _ => .gpio
  | .ptp _ => .ptp
  | .spring _ => .springs
  | .group _ => .groups
  | .twoWire _ => .twoWire
  | .context _ => .contexts
  | .engine => .engine
  | .seam _ => .seams
  | .tnr _ => .tnrs
  | .tally _ => .tallies
  | .load _ => .loads
  | .stream _ => .streams
  | .transport _ => .transports
  | .drains => .drains
  | .link _ => .links
  | .portMode _ => .portModes
  | .lakeCtl => .lakeCtl
  | .crc _ => .crcs
  | .netPond _ => .netPonds
  | .chain _ => .chains
  | .edges => .edges
  | .readPtr _ => .readPtrs
  | .releases => .releases
  | .resets => .resets
  | .draws => .draws
  | .sent => .sent

/-- A frame: nothing but these pieces, and pieces of these kinds, differs between the two states. -/
def Only (ps : List Piece) (ks : List Kind) (s t : State) : Prop := ∀ p : Piece, p ∉ ps → p.kind ∉ ks → p.Same s t

/-! The forms that every state keeps. -/

/-- The sparse stores are in their canonical form: the Lake's bytes, the registers in force, the table entries and the image slots; and no
register is staged twice (R5, R300). -/
def Canonical (s : State) : Prop :=
  Memory.wf s.lake = true ∧ cellWf regDef s.regs = true ∧ cellWf tblDef s.tables = true ∧ cellWf lakeDef s.sic.slotA.bytes = true ∧
    cellWf lakeDef s.sic.slotB.bytes = true ∧ (s.staged.map (·.1)).Nodup

/-- The queues stay within the depths that the spec gives: 16 triggers at a Spring (R66), 16 captures at a GPIO (R277), 16 sources in
service at a target (R335). -/
def Bounded (s : State) : Prop :=
  (∀ n : Fin 32, (s.spr[n]).queue.length ≤ 16) ∧ (∀ i : Fin 16, (s.gpio[i]).fifo.length ≤ 16) ∧
    (∀ t : Fin 20, (s.targets[t]).stack.length ≤ 16)

/-- What every step keeps. -/
def Form (s : State) : Prop := Canonical s ∧ Bounded s

/-- The commands that act while the device's clocks stand or it is in reset: power, pins, the board's buses, waking and the TAP. -/
def unclocked : Instr → Bool
  | .coldPowerUp .. | .resetLLow .. | .pwrOkLow | .supplyFail .. | .thermalTrip | .edgeLatch .. | .wakeDoze .. | .wakeStill .. => true
  | .supplyWaitTimeout | .wakeTimerExpire .. | .wakeFrame .. | .bmcReq | .tarnCrystalStarted | .telSample .. => true
  | .twtWrite .. | .twtRead .. | .twtProtoViolation .. | .twtSclTimeout .. | .encoderEdge .. => true
  | .jtagExtest | .jtagSamplePreload .. | .jtagIdcode | .jtagHighz | .jtagClamp | .jtagBypass .. | .jtagTestLogicReset => true
  | _ => false

/-- A command that may take the device, as it stands in `s`, to the operating state `b`, another than its own (Table 1.4): a device reset leads from
a lower state to reset, and from there on to Ready. -/
def leaves (c : Instr) (s : State) (b : PState) : Bool :=
  let a := s.power.st
  match b with
  | .off => c == .pwrOkLow || (c == .refclkLoss && s.on) || (match c with
    | .supplyFail _ _ => true
    | _ => false)
  | .still => (c == .thermalTrip && (a == .doze || (a == .on && !s.power.held && !s.power.resetLow))) ||
      (c == .entryComplete && s.on && s.power.entering == .still)
  | .doze => c == .entryComplete && s.on && s.power.entering == .doze
  | .on => (match c with
    | .resetLLow _ => a == .still || a == .doze
    | .coldPowerUp _ _ => a == .off
    | .wakeDoze _ => a == .doze
    | .wakeStill _ _ _ _ => a == .still
    | _ => false)

end Sys2Proof.Safety
end

