-- ==== Sys2Proof/Certificates/Slice0/Obligations.lean ====
section
/-! DEFINITION. The statements for the provers, by the spec's rules. Each clause of a statement says that a command answers a next
state for every state and operands that meet its hypotheses, what that state holds, and, by `Only`, that nothing else of the state differs. -/

namespace Sys2Proof.Says
open Sys2Proof Sys2Proof.Machine Sys2Proof.Safety

/-! What the clauses speak of. -/

/-- A write of the register at `a` does more than its fields' codes say: the register is a command register, a data port, a table, a
trim or a per-unit control with a rule of its own. -/
def ownEffect (a : Nat) : Bool :=
  let o := a % 0x1000
  let within := fun (lo hi : Nat) => decide (lo ≤ a) && decide (a < hi)
  a == A.sicCmd || a == A.sicLoadData || a == A.sicLoadOfs || within 0x10180 0x101A0 ||
  (within 0x100000 0x180000 && (a % 0x4000 == 0 || (decide (0x20 ≤ a % 0x4000) && decide (a % 0x4000 < 0x40)) || a % 0x4000 == 0x90 ||
    a % 0x4000 == 0x98)) ||
  a == A.twbtSoftSet || (within 0x180000 0x190000 && (a % 0x800 == A.twbCtl 0 % 0x800 || a % 0x800 == A.twbCmd 0 % 0x800)) ||
  (within 0x180000 0x190000 && decide (0x400 ≤ a % 0x800)) || within 0x208000 0x20A000 || (within 0x281000 0x281C00 && a % 0x100 == 0) || within 0x300000 0x301000 ||
  (within 0x301000 0x400000 && (o == 0x044 || o == 0x180 || o == 0x194)) || (within 0x410000 0x430000 && decide (0x400 ≤ o)) ||
  within 0x484000 0x484C00 || (within 0x501000 0x502000 && a % 0x100 == 8) || (within 0x540000 0x580000 && o == 0) ||
  a == A.timCmd || (within 0x581000 0x585000 && (o == 0 || o == 8 || o == 0x2C)) || (within 0x585000 0x589000 && (o == 0 || o == 0x20)) ||
  (within 0x589000 0x591000 && o == 0) || a == A.lakeCmd || within 0x5C1000 0x600000 || a == A.pndInject || within 0x620000 0x640000 ||
  a == A.ctlReset || (within 0x641000 0x649000 && (o == 4 || o == 8 || (decide (0x80 ≤ o) && decide (o ≤ 0xA0)))) ||
  a == A.evcSwSet || (within 0x681000 0x682400 && (a % 0x100 == 0 || a % 0x100 == 0x1C || a % 0x100 == 0x20 || decide (0x80 ≤ a % 0x100))) ||
  within 0x684000 0x685800 || a == A.trnCmd || a == A.trnTmr0Ctl 0 || a == A.trnTmr0Ctl 1 || a == A.trnTmr0Load 0 ||
  a == A.trnTmr0Load 1 || a == A.trnReqEvtEn || a == A.keepCmd

/-- A read of the register at `a` takes an entry of a queue or of a table: it is a command of its own. -/
def readPort (a : Nat) : Bool :=
  let o := a % 0x1000
  (decide (0x595000 ≤ a) && decide (a < 0x5A5000) && o == 0x008) || (decide (0x301000 ≤ a) && decide (a < 0x30D000) && o == 0x194) ||
  (decide (0x641000 ≤ a) && decide (a < 0x649000) && o == 0x010)

/-- The block's own check lets a waiting commit take effect (Table 13.8): the order and the seam memory of a bar, a table that is being
loaded, and the records of a stream. -/
def blockAccepts (s : State) : CommitBlock → Bool
  | .bar b => s.seamRefusal b ((s.written (A.seamBarCommit b)).map (·.1)) == 0
  | .cor g => !s.loadBusy g
  | .out n => s.isStats n || decide ((s.outNext n).recMax (s.recFmt n) (s.tapWidth (s.stream n).group (s.stream n).tap)
      (s.group (s.stream n).group).channels + 128 ≤ s.outSize n)
  | _ => true

/-- The group of a block is active: its commits wait for a boundary of the group's lines (R300). -/
def blockActive (s : State) (b : CommitBlock) : Bool := match s.blockGroup (commitAddr b) with
  | some g => s.activeGroup g
  | none => false

/-- The fields of a commit that a block's own rules may move when they come into force: tracked quantities of a bar, and the estimates of
its temporal stage (R116, R152). -/
def ruled (b : CommitBlock) (a : Nat) : Bool := match b with
  | .bar _ => decide (0x200000 ≤ a) && decide (a < 0x204000)
  | .cor g => decide (g.val < 4) && decide (0x301000 ≤ a) && decide (a < 0x305000)
  | _ => false

/-- The bytes and registers that a loss of the commit under way may touch: its count of records written, and the Kept controller. -/
def cutPieces : List Piece := [.power, .keep, .draws, .reg A.keepCntCommit]

/-- What of the state after a start is not as at reset whatever happened before, besides the sources, clocks, keys and tables (see below): the keys and the floor of SIC, and what the retained
store reports (R364). -/
def startPieces : List Piece :=
  [.pending, .now, .tarn, .draws, .sent, .power, .keep, .sic, .lakeCtl, .reg A.sicKeyLock, .reg A.sicSerialFloor] ++
    (List.range 24).map (fun i => .reg (A.sicPubkey (8 + i)))

/-- The content of a SYSTEM record: the boot pointer, the locks, the key slots and the floor (Table 16.5). -/
def systemOf : RecContent → Option (Bool × Nat × List Word × Nat)
  | .system b lock keys floor => some (b, lock, keys, floor)
  | _ => none

/-- A start has restored what the records hold (R36, R37, R243, R258, R286, R364): locks, key slots, floor and boot pointer from SYSTEM, the stall keys from KEYS, the tables into both
banks, the epochs, each one on, with the bases and the web positions beginning at this moment, and the baselines. -/
def startRestores (u : State) : Prop :=
  (∀ x ∈ systemOf (u.restored 1), u.rd A.sicKeyLock = wd x.2.1 ∧ u.rd A.sicSerialFloor = wd x.2.2.2 ∧
    (∀ i : Fin 24, u.rd (A.sicPubkey (8 + i)) = x.2.2.1.getD i 0#32) ∧ u.sic.bootB = x.1) ∧
  (∀ t : Fin 8, u.stalls[t] = { key := match u.restored 2 with
    | .keys ks => ks.getD t none
    | _ => none }) ∧
  u.tables = ({ State.reset with keep := u.keep, power := u.power } : State).restoreTables.tables ∧
  (∀ n : Fin 4, u.tb[n] = { at_ := u.now, epoch := match u.restored 7 with
    | .time es => (es.getD n 0 + 1) % 256
    | _ => 0 } ∧ u.wp[n] = { te := u.now } ∧ u.ltg[n] = { from_ := u.now }) ∧
  (∀ c : Fin 12, (u.lakeCtl.chans[c]).baseline = match u.restored 6 with
    | .lake base _ => base.lookup c.val
    | _ => none)

/-- No SIC command is under way and no structure is on probation: a command other than ABORT and CONFIRM is taken (R49, R52). -/
def sicFree (s : State) : Prop := s.on = true ∧ s.sic.busy = .none ∧ s.sic.phase = .idle

/-- The commands of SIC_CMD but ABORT (Table 2.7). -/
def sicCommand : Instr → Bool
  | .erase _ | .beginLoad _ | .copy _ | .endLoad _ | .check _ | .commit _ _ _ | .confirm | .installKey _ | .lockKey _ | .raiseFloor => true
  | _ => false

/-- The commands of SIC_CMD that name a slot. -/
def slotCommand (b : Bool) : Instr → Bool
  | .erase x | .beginLoad x | .copy x | .endLoad x | .check x | .commit x _ _ => x == b
  | _ => false

/-- The code of a failed check of Table 2.4. -/
def failure : Check → Option Nat
  | .pass _ => none
  | .fail c _ _ => some c

/-- A key slot verifies the signature of an image of `len` bytes: it is not empty, and Ed25519 accepts the last 64 bytes over what stands before
them (R35, R36). -/
def verifies (img : Bytes) (len : Nat) (key : Bytes) : Bool :=
  !key.all (· == 0#8) && ed25519Verify key (img.take (len - 64)) (slice img (len - 64) 64)

/-- The feasibility tests of a structure in the order of Table 2.4: the code of the first that fails. -/
def infeasible (st : Structure) (defined : List Bool) (cap band : Nat) : Option Nat :=
  let g := fun k => st.groups.getD k {}
  let marked := ((List.range 12).filter (fun k => (g k).inline && !(g k).springs.isEmpty))
  let channel := fun t => (st.stalls.getD (t / 2) {}).chans.testBit (t % 2)
  if !((List.range 32).all (fun n => decide ((st.groups.flatMap (·.springs)).countP (· == n) ≤ 1))) then some 0x10
  else if (st.groups.zipIdx.any (fun x => groupLimit st (defined.getD x.2 false) x.2 x.1)) then some 0x11
  else if marked.any (fun k => decide (4 ≤ k)) || ((List.range 4).any (fun b => !(g b).springs.isEmpty) && marked.length != 1) then some 0x12
  else if (st.groups.zipIdx.any (fun x => decide (st.owned x.2 * demandUnit < x.1.demand))) ||
      decide (256 * demandUnit < (st.groups.map (·.demand)).foldl (· + ·) 0) then some 0x13
  else if st.calendar.any (fun o => o.any (fun k => (g k).springs.isEmpty)) then some 0x14
  else if (sramFail st).isSome then some 0x15
  else if st.lake.any (fun r => decide (cap < r.base + r.size)) then some 0x16
  else if st.lake.zipIdx.any (fun x => (st.lake.take x.2).any (regionClash x.1)) then some 0x17
  else if band < st.demand then some 0x18
  else if st.streams.zipIdx.any (fun x => streamRef st x.2 x.1) then some 0x19
  else if 65536 < ((st.streams.filter (·.exists_)).map (·.window)).foldl (· + ·) 0 then some 0x1A
  else if (stallFail st).isSome then some 0x1B
  else if st.events.any (fun e => (List.range 16).any (fun t => e.targets.testBit t && !channel t)) then some 0x1C
  else if st.kept.any keptBad then some 0x1D
  else none

/-- What a check tests of the image in `cells`, of which `loaded` bytes were loaded, in the order of Table 2.4 (R40): the code of the first
test that fails. -/
def checkCode (cells : List Host.Cell) (loaded stepping floor cap band : Nat) (keys : Nat → Bytes) : Option Nat :=
  let at_ := fun o n => ofLe (slotBytes cells o n)
  let len := at_ 8 4
  let v2 := at_ 4 2 == 2
  let hdr := if v2 then 64 else 128
  if slotBytes cells 0 4 ≠ [0x50#8, 0x4C#8, 0x58#8, 0x4F#8] then some 1
  else if (at_ 4 2 ≠ 2 ∧ at_ 4 2 ≠ 3) ∨ at_ 6 2 ≠ hdr then some 2
  else if len < 4096 ∨ 8388608 < len ∨ len % 4 ≠ 0 ∨ len ≠ loaded then some 3
  else if at_ 0xC 2 ≠ 0x0632 ∨ stepping < at_ 0xE 1 then some 4
  else if crc32c (slotBytes cells 0 (hdr - 4)) ≠ at_ (hdr - 4) 4 then some 5
  else
    let n := at_ 0x18 2
    let o := at_ 0x1C 4
    let img := slotBytes cells 0 len
    let dir := directory img o n
    let key := at_ 0xF 1
    if n < 1 ∨ 32 < n ∨ o % 64 ≠ 0 ∨ o < hdr ∨ len - 68 < o + 16 * n then some 0xD
    else if crc32c (slotBytes cells 0 (len - 68)) ≠ at_ (len - 68) 4 then some 6
    else if dir.any (fun e => e.ofs % 64 != 0 || decide (len - 68 < e.ofs + e.len) || rangesMeet e.ofs e.len 0 hdr ||
        rangesMeet e.ofs e.len o (16 * n) || dir.any (fun d => d.index != e.index && rangesMeet e.ofs e.len d.ofs d.len) ||
        crc32c (slice img e.ofs e.len) != e.scrc) then some 7
    else if !(if v2 then [1, 2, 3, 4, 5, 6] else [1, 2, 3, 4, 5, 6, 7]).all (fun t => dir.any (fun e => e.type == t)) ||
        dir.any (fun e => dir.any (fun d => decide (d.index < e.index) && d.type == e.type)) then some 8
    else if dir.any (fun e => decide (e.type < 0x8000) && (decide (e.type < 1) || decide (8 < e.type) || e.sver != 1)) then some 9
    else if dir.any (fun e => (sectionFormat img e).isSome) then some 0xE
    else if !v2 && (decide (3 < key) || (keys key).all (· == 0#8)) then some 0xA
    else if !(if v2 then [0, 1, 2, 3].any (fun k => verifies img len (keys k)) else verifies img len (keys key)) then some 0xB
    else if at_ 0x10 4 < floor then some 0xC
    else infeasible (decodeStructure img v2 dir) ((records img dir 1 64).map (fun r => Config.imageField 1 0 r != 0)) cap band

/-- The SYSTEM record stands written as the state holds it: a valid copy with the next generation is in the bank that held no newest valid copy, and the
other copy and the other records stay (R42, R48, R363). -/
def systemWritten (s u : State) : Prop :=
  let b := (s.newestOf 1).getD true
  ((u.recPair 1).bank (!b)).content = u.content 1 ∧ ((u.recPair 1).bank (!b)).state 1 = 1 ∧
    ((u.recPair 1).bank (!b)).head.gen = (if (s.newestOf 1).isNone then 1 else (((s.recPair 1).bank b).head.gen + 1) % 2 ^ 32) ∧
    (u.recPair 1).bank b = (s.recPair 1).bank b ∧ ∀ k ∈ allKinds, k ≠ 1 → u.recPair k = s.recPair k

/-- Kinds that a line may change on its way into a Spring's pond. -/
def ingressKinds : List Kind :=
  [.springs, .draws, .groups, .commits, .staged, .keep, .power, .sic, .stalls, .timeBases, .tnrs, .twoWire, .regs 0x10000, .regs 0x100000,
   .regs 0x180000, .regs 0x200000, .regs 0x280000, .regs 0x300000, .regs 0x400000, .regs 0x410000, .regs 0x580000, .regs 0x600000,
   .regs 0x640000, .edges]

/-- Kinds that the loss of a pond's content may change. -/
def pondKinds : List Kind :=
  [.groups, .springs, .netPonds, .streams, .seams, .tallies, .sent, .readPtrs, .releases, .resets, .draws, .transports, .regs 0x100000, .regs 0x200000, .regs 0x440000, .regs 0x480000,
   .regs 0x540000, .regs 0x600000, .regs 0x640000, .edges]

/-- The start of a list as an item of a controller's queue (Table 8.11): [31] in the Lake, [30:0] its address or its step, [39:32] the calendar
entry and [42:40] the stall. -/
def listItem (calendar : Bool) (v : BitVec 128) : TwList :=
  { calendar := calendar, entry := if calendar then v.toNat / 2 ^ 32 % 256 else 0, lake := v.toNat.testBit 31,
    stall := v.toNat / 2 ^ 40 % 8, addr := if v.toNat.testBit 31 then v.toNat % 2 ^ 31 else v.toNat % 256 }

/-- Kinds that the end of a list may change. -/
def listKinds : List Kind :=
  [.twoWire, .stalls, .springs, .regs 0x180000, .regs 0x410000, .regs 0x600000, .regs 0x640000]

/-- Kinds that the check of the bus may change besides. -/
def clearKinds : List Kind := listKinds ++ [.sent, .regs 0x100000]

/-- What the recorded end of a list shows (R87, Table 4.5): RESULT holds the code, the lists and failures are counted, and the event is
raised. -/
def listEnded (s u : State) (n : Fin 32) (code : Nat) : Prop :=
  u.f (A.twbResult n) 31 27 = code ∧ (u.rd (A.twbCntLists n 0)).toNat = min 0xFFFFFFFF ((s.rd (A.twbCntLists n 0)).toNat + 1) ∧
  (code ≠ 0 → (u.rd (A.twbCntLists n 1)).toNat = min 0xFFFFFFFF ((s.rd (A.twbCntLists n 1)).toNat + 1) ∧ u.b (A.twbEvt n) 1 = true) ∧
  (code = 0 → u.b (A.twbEvt n) 0 = true)

/-- The bus that a check meets is free, or freed by it (R89). -/
def busFree (hold : BusCheck) : Prop := hold.sclStuck = false ∧ (hold.sdaLow = false ∨ hold.stopOk = true)

/-- What the procedure of R89 leaves: a free bus leaves the controller IDLE with its queues; a bus that is still held counts STUCK, fails
the queued lists, and leaves the controller STUCK, or waiting for another try where XRST_TRY and the attempts before allow one. -/
def checked (s u : State) (n : Fin 32) (attempt : Nat) (hold : BusCheck) : Prop :=
  (busFree hold → (u.twb[n]).st = 1 ∧ (u.twb[n]).swQ = (s.twb[n]).swQ ∧ (u.twb[n]).calQ = (s.twb[n]).calQ) ∧
  (¬busFree hold → (u.rd (A.twbCntLists n 6)).toNat = min 0xFFFFFFFF ((s.rd (A.twbCntLists n 6)).toNat + 1) ∧
    (attempt = 0 → u.b (A.twbEvt n) 4 = true) ∧ (u.twb[n]).swQ = [] ∧ (u.twb[n]).calQ = [] ∧
    (if s.b (A.twbCtl n) 4 = true ∧ attempt ≠ 3 then (u.twb[n]).st = 5 ∧ (u.twb[n]).attempt = attempt + 1 ∧ u.b (A.twbEvt n) 7 = true ∧
        u.b (A.sprXrst n) 1 = true
      else (u.twb[n]).st = 4))

/-- What a line trigger may change: its generator, the groups and Springs it drives, the calendar's lists, and what a group's frame logic
and a commit of the generator touch. -/
def trigKinds : List Kind :=
  [.regs 0x10000, .regs 0x100000, .regs 0x180000, .regs 0x300000, .regs 0x400000, .regs 0x410000, .regs 0x580000, .regs 0x600000,
   .regs 0x640000, .regs 0x6C0000, .edges, .commits, .groups, .keep, .power, .sent, .sic, .springs, .staged, .stalls, .timeBases, .tnrs, .twoWire]

/-- The 64-bit count of triggers of generator `b`. -/
def trigCount (s : State) (b : Fin 4) : Nat := (s.rd (A.ltgCntTrigLo b 1)).toNat * 2 ^ 32 + (s.rd (A.ltgCntTrigLo b 0)).toNat

/-- The minimum trigger period of generator `b` has passed since its last trigger (R275). -/
def minPassed (s : State) (b : Fin 4) : Prop :=
  (s.ltg[b]).last.all (fun t => decide (t + max 1000 (s.f (A.ltgMinPeriod b) 15 0) ≤ s.now)) = true

/-- The issue point of entry `e` of Spring `n` is the trigger at web position `pos` of a generator of pitch `pitch`, or stands before it (R175,
R177): its target frame less K is not later than the current frame; or in a group that counts lines at most LEAD lines are left to the first
line of the frame before which the list must end; or with an encoder mark the web is at most LEAD pitches before that frame's mark; or, with
any other mark source, that frame is the next. -/
def issuePoint (s : State) (g : Fin 12) (n : Fin 32) (e : Fin 64) (pos pitch : Nat) : Bool :=
  let t := (s.rd (A.expeTarget n e)).toNat
  let cur := (s.rd (A.frmFrame g)).toNat
  let d := wrapDiff 32 ((t + 2 ^ 32 - s.f (A.expProfile n) 1 0) % 2 ^ 32) cur
  let lead := s.f (A.expProfile n) 27 16
  let len := if s.f (A.frmMaxlen g) 24 0 = 0 then s.f (A.frmCountN g) 23 0 + 1 else min (s.f (A.frmCountN g) 23 0 + 1) (s.f (A.frmMaxlen g) 24 0)
  let every := max 65536 ((s.rd (A.frmRepeatHi g)).toNat % 2 ^ 16 * 2 ^ 32 + (s.rd (A.frmRepeatLo g)).toNat)
  if !isLater 32 t cur || decide (d ≤ 0) then true
  else match (s.group g).mark, (s.group g).free with
    | .count _, _ => decide ((len : Int) - ((s.grp[g]).lines - 1 : Nat) + (d - 1) * len ≤ lead)
    | .encoder _ _ _, false => (s.grp[g]).nextMark.any (fun m =>
        decide (0 ≤ wrapDiff 64 pos (lowBits 64 (Int.ofNat m + (d - 1) * Int.ofNat every - Int.ofNat (lead * pitch)))))
    | _, _ => decide (d ≤ 1)

/-- What a line of a bar may change on its way through the Seam Unit and the stages behind it. -/
def seamKinds : List Kind :=
  [.regs 0x200000, .regs 0x280000, .regs 0x300000, .regs 0x440000, .regs 0x480000, .regs 0x600000, .commits, .groups, .keep, .streams,
   .staged, .str, .tallies, .tnrs, .readPtrs, .releases, .draws]

/-- The sample of column `x` and channel `c` of the stitched line named after `named` (R108 to R112): the filter at the column's place on the one sensor
that covers it, the blend of two in their overlap, the nearer edge in a gap between neighbours, or 0. -/
def stitchedSample (s : State) (b : Nat) (hist : List SeamLine) (ahead : Nat) (named : SeamLine) (c x : Nat) : Nat :=
  let zs := (s.order b).map (s.sensor b)
  let val := fun (k : Nat) (at_ : Sensor → Int × Nat) => match zs[k]? with
    | some z => resampleAt (s.seamBank (s.f (A.seamBarCtl b) 1 1)) (z.aligned hist ahead named.tag.gen c).1.toArray z.w (at_ z).1 (at_ z).2
    | none => 0
  let own := fun (k : Nat) => val k (fun z => z.at (Int.ofNat x))
  match colSrc (zs.map (fun z => z.cover (s.group b).width)) (fun k => s.rd (A.seamBarsBlend b k)) x with
  | .one k => own k
  | .blend k w => (rshr (Int.ofNat (own k * (256 - w) + own (k + 1) * w)) 8).toNat
  | .last k => val k (fun z => (Int.ofNat z.w - 1, 0))
  | .first k => val k (fun _ => (0, 0))
  | .zero => 0

/-- The tracker's law of R115 for a sensor of value `(ofs, mag, dly)` and windows `win`, on the right chain or the left, from the measurement of its seam:
the wanted and the applied OFS, MAG and DLY, and PRESSING. Gains are in 1/256; each product is rounded to its quantity's format (R11). -/
def trackLaw (right : Bool) (w : Nat) (gx gm gy stx stm sty : Nat) (ofs mag dly : Int) (win : Nat → Int → Int × Bool) (m : SeamMeas) :
    (Int × Int × Int) × (Int × Int × Int) × Nat :=
  let toward : Int → Int := fun v => if right then -v else v
  let dm := max (-Int.ofNat stm) (min (Int.ofNat stm) (rdiv (Int.ofNat gm * toward m.mu) 256))
  let mn := win 1 (mag + dm)
  let comp := rdiv (Int.ofNat w * -(toward (mn.1 - mag))) (2 ^ 17)
  let dx := max (-Int.ofNat stx) (min (Int.ofNat stx) (rdiv (Int.ofNat gx * toward m.xi) 256 + comp))
  let dy := max (-Int.ofNat sty) (min (Int.ofNat sty) (rdiv (Int.ofNat gy * toward m.eta) 256))
  let on := win 0 (ofs + dx)
  let dn := win 2 (dly + dy)
  ((ofs + dx, mag + dm, dly + dy), (on.1, mn.1, dn.1), (if on.2 then 1 else 0) + (if mn.2 then 2 else 0) + (if dn.2 then 4 else 0))

/-- The window rule of R115: a pinned quantity stays, one outside its window takes the bound and presses, any other takes the value. -/
def heldIn (pin : Bool) (value mn mx v : Int) : Int × Bool :=
  if pin then (value, false) else if v < mn then (mn, true) else if mx < v then (mx, true) else (v, false)

/-- The window rule for quantity `q` of Spring `n`. -/
def windowRule (s : State) (n q : Nat) (v : Int) : Int × Bool :=
  let held := fun (a : Nat) => seamNum q (s.rd a)
  heldIn (s.b (A.seamCfg n) q) (held (seamRegs q n).1) (held (seamRegs q n).2.1) (held (seamRegs q n).2.2) v

/-- The measurement of seam `k` in the frame (R113, R114): none while the seam is open or gave no line. -/
def seamMeasured (s : State) (b : Fin 4) (f : MeasFrame) (k : Nat) : Option SeamMeas :=
  if f.overlaps.getD k 0 < 16 ∨ f.rows.countP (fun r => r.seam == k) = 0 then none
  else some (measureSeam (f.rows.filter (fun r => r.seam == k)) (max 1 (min 8 (s.f (A.seamBarSrch b) 3 0))) (min 4 (s.f (A.seamBarSrch b) 7 4))
    (min (f.overlaps.getD k 0) (clampN 16 512 (s.f (A.seamBarsOvl b k) 9 0))) (s.f (A.seamBarQmin b) 15 0))

/-- The round count LE_ROUND. -/
def rounds (s : State) : Nat := (s.rd A.leRoundHi).toNat * 2 ^ 32 + (s.rd A.leRoundLo).toNat

/-- The group that a slot serves, and whether as its owner (R127): the owner with ready work, unless it has released its slots; else the Lake-fed
group with ready work and its slots not released whose next owned slot comes soonest; else the lowest-numbered Lake-fed group with ready work that
has released its slots or owns none. The in-line bar has its own slots alone. -/
def slotServes (s : State) (i : Nat) : Option (Nat × Bool) :=
  let fed := fun (g : Nat) => (s.engSees g).defined g && !(s.engSees g).isInline g && s.isReady g
  let next := ((List.range 256).filterMap (fun k => s.slotOwner ((i + 1 + k) % 256))).filter (fun g => fed g && !s.released g)
  let last := (List.range 12).filter (fun g => fed g && (s.released g || s.str.owned g == 0))
  let free := (next ++ last).head?.map (fun g => (g, false))
  match s.slotOwner i with
  | some o => if s.isReady o && (s.isInline o || !s.released o) then some (o, true) else free
  | none => free

/-- The structure of the lines at the heads of a group's ponds, and what stands there once what is stale has left (R42). -/
def pondsView (s : State) (g : Fin 12) : State := (if s.pondsOld g then { s with str := s.sic.old } else s).purge g

/-- The structure of the frame of line `l` of a group (R42). -/
def lineView (s : State) (g : Fin 12) (l : GLine) : State :=
  if (pondsView s g).oldFrame g l.tag.frame then { pondsView s g with str := s.sic.old } else pondsView s g

/-- The group line at the heads has left each of its Springs' ponds, and what is stale behind it has too. -/
def headLeaves (s : State) (g : Fin 12) (l : GLine) (u : State) : Prop :=
  ∀ n ∈ ((lineView s g l).group g).springs.filterMap (fin? 32),
    (u.spr[n]).pond = (purgeHead (s.grp[g]) (popItem ((pondsView s g).spr[n]).pond)).2

/-- The lines that count against the region's capacity for line `l`: those in it and on their way there, of the same region where a swap moves it. -/
def regionUsed (s : State) (g : Fin 12) (l : GLine) : Nat :=
  (((s.engs[g]).region ++ (s.engs[g]).copying).filter (fun x => !x.marker && (s.sic.old.regions 2 g == s.sic.next.regions 2 g ||
    s.oldFrame g x.tag.frame == s.oldFrame g l.tag.frame))).length

/-- A line of Lake-fed group `g` stands at the heads of its ponds, and no swap holds it (R44, R135). -/
def copyReady (s : State) (g : Fin 12) (l : GLine) : Prop :=
  let w := pondsView s g
  w.defined g = true ∧ w.isInline g = false ∧ w.markerDue g = none ∧ (w.heads g 1).head? = some l ∧ w.swapHold g l.tag.frame = false ∧
    ((lineView s g l).group g).springs.Nodup

/-- The groups of a mask that the structure defines, and their Springs. -/
def resetGroups (s : State) (m : Nat) : List Nat := (bitsOf 12 m).filter s.defined

/-- The Springs of those groups. -/
def resetSprings (s : State) (m : Nat) : List Nat := (resetGroups s m).flatMap (fun g => (s.group g).springs)

/-- A bin's mean level, and its mean of d² corrected by (2 − w)/2 with w = 2^−KW (R152). -/
def binPoint (kw : Nat) (x : NoiseBin) : Rat × Rat :=
  ((x.a : Rat) / x.n, (x.d2 : Rat) / x.n * (2 - 1 / 2 ^ kw) / 2)

/-- A want value of R152: to the nearest, from 0 up, in its 24 bits. -/
def wantOf (v : Rat) : Nat := min (2 ^ 24 - 1) (v + 1 / 2).floor.toNat

/-- The least-squares fit of q = N0 + N1 × a over the bins with 1,024 samples or more (R152): N0, and N1 in 2^−16 where two levels are distinct; with
one level alone N0 is fitted under the held N1, and without a bin neither. -/
def noiseWant (kw n1 : Nat) (bins : List NoiseBin) : Option (Nat × Option Nat) :=
  let ps := bins.map (binPoint kw)
  let sum := fun (f : Rat × Rat → Rat) => ps.foldl (fun a p => a + f p) (0 : Rat)
  let k : Rat := bins.length
  let den := k * sum (fun p => p.1 * p.1) - sum (·.1) * sum (·.1)
  let slope := (k * sum (fun p => p.1 * p.2) - sum (·.1) * sum (·.2)) / den
  if bins = [] then none
  else if den = 0 then some (wantOf ((sum (·.2) - (n1 : Rat) / 65536 * sum (·.1)) / k), none)
  else some (wantOf ((sum (·.2) - slope * sum (·.1)) / k), some (wantOf (slope * 65536)))

/-- What the estimates of an ended frame want of a quantity (R152, R153): none where it is held. -/
def tnrWant (e : TnrEnded) (x : TnrQty) : Option Int :=
  if x.q = 0 then (if e.own.shiftTrk = true ∧ 1 ≤ e.i ∧ 64 ≤ e.lines then some (bestShift e.own.shift e.sums) else none)
  else if e.own.noiseTrk = true ∧ e.own.conv ≤ e.i then
    (noiseWant e.own.kw (e.own.n1.getD x.c 0) (((e.bins.drop (16 * x.c)).take 16).filter (fun y => decide (1024 ≤ y.n)))).bind (fun f =>
      if x.q = 1 then some (Int.ofNat f.1) else f.2.map Int.ofNat)
  else none

/-- The table, bank and first entry that the registers of a load port name (Tables 7.4 and 7.5). -/
def loadNames (s : State) (g : Fin 12) : Nat × Nat × Nat :=
  let ctl := s.rd (A.corTldCtl g)
  (fld ctl 17 16, fld ctl 12 12, s.loadFirst (fld ctl 17 16) (s.rd (A.corTldDst g)))

/-- The state as a stream works on frame `f` in it: during a swap, frames before the mark have the old structure (R42). -/
def ofFrame (s : State) (n : Fin 16) (f : Nat) : State :=
  if s.oldFrame (s.sic.old.streams.getD n {}).group f then { s with str := s.sic.old } else s

/-- To the nearest, ties away from zero, of a number that is not negative (R11). -/
def nearest (x : Rat) : Nat := (x + 1 / 2).floor.toNat

/-- To the nearest, ties away from zero, saturated to u16.0 (R11). -/
def nearest16 (x : Rat) : Nat := if x < 0 then 0 else min 65535 (nearest x)

/-- A position as a line or column and a phase in sixteenths (R191, R192). -/
def phased (p : Rat) : Int × Nat :=
  let ph := nearest ((p - p.floor) * 16)
  if ph = 16 then (p.floor + 1, 0) else (p.floor, ph)

/-- What a pixel format puts into a column: channels, each in one byte or two (Table 9.2). -/
def pixelLayout (fmt chsel ch : Nat) : List (Nat × Nat) :=
  match fmt with
  | 0 => [(chsel, 1)]
  | 1 => [(chsel, 2)]
  | 2 => [(0, 1), (1, 1), (2, 1)]
  | 3 => [(0, 2), (1, 2), (2, 2)]
  | 4 => [(0, 2), (1, 2), (2, 2), (3, 2)]
  | _ => (List.range ch).map (fun c => (c, 2))

/-- Deficit round robin: the first candidate (key, cost), in order, whose deficit covers its cost after the fewest rounds, each of which adds its quantum, and the
number of rounds (R234). -/
def drrLaw (limit : Nat) (cands : List (Nat × Nat)) (quant deficit : Nat → Nat) : Option (Nat × Nat) :=
  (List.range limit).findSome? (fun r => (cands.find? (fun e => decide (e.2 ≤ deficit e.1 + r * quant e.1))).map (fun e => (e.1, r)))

/-- The streams eligible on a link, with the bytes that their next segments cost (R234). -/
def eligibleOn (s : State) (l : Nat) : List (Nat × Nat) :=
  s.carriers.filterMap (fun k => (s.segCost l k).bind (fun c => if c.1 then some (k, c.2) else none))

/-- A stream has a segment waiting on a link. -/
def waitsOn (s : State) (l k : Nat) : Bool := s.carriers.contains k && (s.segCost l k).isSome

/-- The deficit of stream `k` on link `l`. -/
def streamDeficit (s : State) (l k : Nat) : Nat := ((((s.carrier k).map (fun c => c.2.deficits)).getD []).lookup l).getD 0

/-- The stream level within stall `t` (R234): WEIGHT × 1,024 bytes a round. -/
def streamLaw (s : State) (l t : Nat) : Option (Nat × Nat) :=
  drrLaw 64 ((eligibleOn s l).filter (fun e => s.stallOf e.1 == t)) (fun k => max 1 (s.f (A.xptCtl (k % 16)) 31 24) * 1024) (streamDeficit s l)

/-- The stalls with an eligible stream on a link, from the one after `p` on in a circle. -/
def stallsFrom (s : State) (l p : Nat) : List Nat :=
  let ts := (List.range 8).filter (fun t => (eligibleOn s l).any (fun e => s.stallOf e.1 == t))
  ts.filter (fun t => p < t) ++ ts.filter (fun t => t ≤ p)

/-- The stall level (R234): the stall that sends on while its deficit covers, or the next; a round adds 92,160 bytes × its share. Deficits in tenths of a
byte. Stalls without a share are served in turn when no other is eligible. Answers the stall and its rounds. -/
def stallLaw (s : State) (l : Fin 8) : Option (Nat × Nat) :=
  let last := (s.links[l]).lastStall
  let shared := (stallsFrom s l last).filter (fun t => 0 < s.share t)
  let order := shared.filter (fun t => t == last) ++ shared.filter (fun t => t != last)
  if shared = [] then ((stallsFrom s l last).head?).map (fun t => (t, 0))
  else drrLaw 256 (order.filterMap (fun t => (streamLaw s l t).map (fun k => (t, 10 * (((eligibleOn s l).lookup k.1).getD 0)))))
    (fun t => s.share t * 9216) (fun t => ((s.links[l]).deficits.lookup t).getD 0)

/-- The stall and the stream that the Market serves next on a link (R234). -/
def marketLaw (s : State) (l : Fin 8) : Option (Nat × Nat) := (stallLaw s l).bind (fun t => (streamLaw s l t.1).map (fun k => (t.1, k.1)))

/-- What a stream sends next on its link (R233): the record under way, unless it was a resend of a record that has been acknowledged; then a gap record that is
due, then resends, then new records. -/
def sendsNext (s : State) (k : Nat) (r : StreamRec) (x : Xpt) : Option Tx :=
  let via := s.viaWords k x.standby
  let open_ := fun (q : Nat) => x.held.find? (fun h => h.seq == q && !h.acked)
  let under := x.tx.filter (fun t => t.gap || r.mode == .lossy || !t.resend || (open_ t.seq).isSome)
  let gap := if x.gapDue then x.gap.map (fun g => { gap := true, seq := g.last, bytes := g.bytes, resend := g.resend, offset := 0, link := usedLink r x, via := via }) else none
  let again := (x.resendQ.findSome? open_).map (fun h =>
    { gap := false, seq := h.seq, bytes := h.record.bytes, resend := true, offset := 0, link := usedLink r x, via := via })
  let fresh := x.newQ.head?.map (fun e => { gap := false, seq := e.1, bytes := e.2.bytes, resend := false, offset := 0, link := usedLink r x, via := via })
  ((under.or gap).or again).or fresh

/-- A new record of the pond of stream `n` as its first transmission (R222). -/
def newTx (s : State) (n : Fin 16) (h : Rec) : Tx :=
  { gap := false, seq := (s.xpt[n]).seq, bytes := h.bytes, resend := false, offset := 0, link := usedLink (s.stream n) (s.xpt[n]), via := s.viaWords n (s.xpt[n]).standby }

/-- The segment that is next of a transmission: at most G bytes from its offset (R218). -/
def segBytes (s : State) (l : Fin 8) (k : Nat) (t : Tx) : Bytes := (t.bytes.drop t.offset).take (s.segSize l (s.viaOf (k % 16) t.via))

/-- The frame that carries it: a DATA message with the header of Table 10.3 in the stream's encapsulation (R214, R217, R218). -/
def segFrame (s : State) (l : Fin 8) (k : Nat) (r : StreamRec) (x : Xpt) (t : Tx) : Bytes :=
  let n := k % 16
  let seg := segBytes s l k t
  let flags := (if t.offset = 0 then 1 else 0) + (if t.bytes.length ≤ t.offset + seg.length then 2 else 0) + (if t.resend then 4 else 0) +
    (if t.gap then 8 else 0) + (if r.mode = .lossy then 16 else 0)
  s.encap l (s.f A.mktUdpBase 15 0 + 1 + n) (s.viaOf n t.via)
    ([0x46#8, 0x4C#8, 1#8, 1#8] ++ beBytes 2 (s.power.devid % 2 ^ 14) ++ [BitVec.ofNat 8 n, BitVec.ofNat 8 flags] ++ beBytes 4 ((s.sessionOf n x).getD 0) ++
      beBytes 4 t.seq ++ beBytes 4 t.bytes.length ++ beBytes 4 t.offset ++ beBytes 2 seg.length ++ [BitVec.ofNat 8 l.val] ++ List.replicate 5 0#8 ++ seg)

/-- The frame has joined the link's transmit pond, and the transmission stands behind its segment (R218, R371). -/
def segmentGone (s : State) (l : Fin 8) (k : Nat) (r : StreamRec) (x : Xpt) (t : Tx) (u : State) : Prop :=
  let p : Fin 22 := l.castLE (by decide)
  let rest := t.offset + (segBytes s l k t).length
  (u.netPonds[p]).dropLast = s.netPonds[p] ∧
    ((u.netPonds[p]).getLast?).map (fun y => (y.len, y.frame)) = some ((segFrame s l k r x t).length, some (segFrame s l k r x t)) ∧
    ((u.carrier k).map (fun c => c.2.tx)) = some (if t.bytes.length ≤ rest then none else some { t with offset := rest })

/-- Nothing is due at the head of any pond: no retirement, no discard, and WIN_FULL as it stands (R220, R225, R226). -/
def headsSettled (s : State) : Prop :=
  ∀ m : Fin 16, (s.atHead m).xpt[m] = s.xpt[m] ∧ ((s.atHead m).out[m]).pond = (s.out[m]).pond

/-- The receive counter and the discard counter of link `l`. -/
def rxCounts (l : Fin 10) : Nat × Nat := (A.ethlCntRx (linkPort l).1 (linkPort l).2, A.ethlCntRxDrop (linkPort l).1 (linkPort l).2)

/-- The value of trim `k` (0 read, 1 write) of channel `c`. -/
def trim (s : State) (c k : Nat) : Int := trimFld (s.rd (A.lakeChTrim c)) k

/-- The bridge holds no access that an answer to this one would belong to, and has room for one more (R305). -/
def apFree (s : State) (t : Fin 8) (o : Fin 0x4000) (wide : Bool) : Bool :=
  decide (s.ctl.split.length < 32) && s.ctl.split.all (fun e => e.stall != t || e.ofs != o.val || e.wide != wide)

/-- The edge is one that the encoder counts: the levels' next Gray step, in the decoding mode of the base (R261). -/
def encCounts (s : State) (n : Fin 4) (a b : Bool) : Bool :=
  let onA := (s.wp[n]).a != a
  let d := s.f (A.wpCtl n) 2 1
  (onA != ((s.wp[n]).b != b)) && (if d = 1 then onA else if d = 2 then onA && a else true)

/-- The edge is forward (R261). -/
def encForward (s : State) (n : Fin 4) (a b : Bool) : Bool :=
  (if (s.wp[n]).a != a then a != b else a == b) != s.b (A.wpCtl n) 3

/-- The offset t1 + dm + ASYM − t2 of a port's base from its master, by the base's format (R256, R267). -/
def ptpOffset (s : State) (p : Fin 4) (asym t1 t2 : Int) : Int := s.baseDiff (s.ptpInst p) (t1 + (s.ptp[p]).dm + up32 asym - t2)

/-- The kinds of message that a port may accept. -/
def ptpKinds (p : Fin 4) (m : PtpMsg) (d : AnnounceDs) (t3 : Int) (k : Fin 7) : Instr :=
  match k with
  | 0 => .ptpSync p m | 1 => .ptpFollowUp p m | 2 => .ptpDelayReq p m | 3 => .ptpDelayResp p m | 4 => .ptpPdelayReq p m
  | 5 => .ptpPdelayResp p m t3 | _ => .ptpAnnounce p m d

/-- What a message that the port accepts leaves unheeded: a Sync at a port that is no slave, a Follow_Up with no Sync of its number, a
Delay_Req at a port that is no master or measures peer to peer, an answer to no request of the port's, or before a Sync since it became a slave, a
Pdelay_Req at a port that measures end to end. -/
def ptpUnheeds (s : State) (p : Fin 4) (m : PtpMsg) (k : Fin 6) : Bool :=
  match k with
  | 0 => (s.ptp[p]).state != psSlave
  | 1 => (s.ptp[p]).sync.all (fun x => x.1 != m.seq)
  | 2 => (s.ptp[p]).state != psMaster || s.ptpP2p p
  | 3 => (s.ptp[p]).req.all (fun x => x.1 != m.seq) || (s.ptp[p]).state != psSlave || !(s.ptp[p]).synced || s.ptpP2p p
  | 4 => !s.ptpP2p p
  | _ => (s.ptp[p]).req.all (fun x => x.1 != m.seq) || !s.ptpP2p p

/-- A message on a port's wire, of its instance's domain, to the multicast address of its kind and transport (R264, R265). -/
def ptpOut (s : State) (p : Fin 4) (kind seq : Nat) (time corr : Int) (d : Option AnnounceDs) : Out :=
  .ptp p (s.f (A.piCtl (s.ptpInst p)) 15 8) kind seq time corr (ptpDest (s.ptpTransport p) kind) (s.tbBinary (s.ptpInst p)) d

/-- A message of `len` bytes comes to ICP: to an enabled management port, at its address and CTL_PORT, no longer than the port's limit and a
multiple of four (R280, R281). -/
def icpComes (s : State) (h : IcpHead) (len : Nat) : Bool :=
  s.b (A.ethCtl (2 + h.port)) 0 && s.icpTakes h && decide (len ≤ s.icpLimit h.port h.peer) && len % 4 == 0

/-- What the frame of a message counts (R235). -/
def rxOf (h : IcpHead) : Piece := .reg (A.ethlCntRx (2 + h.port) 0)

/-- What a message sent counts (R235). -/
def txOf (p : Nat) : Piece := .reg (A.ethlCntTx (2 + p) 0)

/-- The messages of a host: each with its length. -/
def icpKinds (h : IcpHead) (ops : List IcpOp) (data : Bytes) (k : Fin 6) : Instr × Nat :=
  match k with
  | 0 => (.hello h 0x10 0x23 0 0, 64)
  | 1 => (.icpMessageReject h 0x4943 77 (BitVec.ofNat 16 data.length) data, 32 + data.length)
  | 2 => (.bye h, 32)
  | 3 => (.keepalive h, 32)
  | 4 => (.req h ops none, 32 + (ops.flatMap opBytes).length)
  | _ => (.bulkReceive h 1 0 data [], 40 + data.length)

/-- A register whose read is no more than its value and what it latches: no read-to-clear bits, no log, no queue. -/
def plainReg (g : Nat) (r : RegRow) : Bool :=
  r.rc == 0 && !isLog g && !isAperture g && !(decide (0x641000 ≤ g) && decide (g < 0x649000) && g % 0x1000 == 0x010) &&
    !(decide (0x595000 ≤ g) && decide (g < 0x5A5000) && g % 0x1000 == 0x008) &&
    !(decide (0x301000 ≤ g) && decide (g < 0x30D000) && g % 0x1000 == 0x194)

/-- `n` + 1 words from `g` on are plain registers without companions, which stall `t` may read at `a`. -/
def plainWords (s : State) (prov : Bool) (t : Fin 8) (a g n : Nat) : Bool :=
  (List.range (n + 1)).all (fun j => s.globalAddr t (a + 4 * j) == some (g + 4 * j) && s.check prov t (g + 4 * j) 4 true false == 0 &&
    s.instDefined (g + 4 * j) && companions (g + 4 * j) == [] && (rowOf (g + 4 * j)).any (plainReg (g + 4 * j)))

/-- The status of an access of a session of stall `t` by the checks of R297 and R299. -/
def accessStatus (s : State) (prov : Bool) (t : Fin 8) (a k : Nat) (read write : Bool) : Nat :=
  match s.globalAddr t a with
  | some g => s.check prov t g k read write
  | none => 2

/-- A completion item sets out for its stall: it takes a credit, a place of pond 84, behind the items there, or waits on the data side for one, behind
those that wait (R295, R304). -/
def cplSetsOut (s u : State) (t : Fin 8) (it : CplItem) : Prop :=
  if s.ctl.waitCpl = [] ∧ 0 < s.credits then
    (u.netPonds[(20 : Fin 22)]).dropLast = s.netPonds[(20 : Fin 22)] ∧
      ((u.netPonds[(20 : Fin 22)]).getLast?).map (fun k => (k.len, k.frame, k.cpl)) = some (64, none, some (t, it)) ∧ u.ctl.waitCpl = []
  else u.netPonds = s.netPonds ∧ u.ctl.waitCpl = s.ctl.waitCpl ++ [(t, it)]

/-- The number of bytes that the next BULK of a LAKE_READ carries: at most 8,192, and within the port's limit (R280, R294). -/
def bulkLen (s : State) (x : LongOp) (y : Session) : Nat :=
  min (min 8192 (x.len - x.sent)) ((s.icpLimit y.mgmtPort y.peer - 40) / 4 * 4)

/-- An uncorrectable codeword lies in the `n` bytes from `a` on. -/
def badWithin (a n : Nat) (ecc : List (Nat × Ecc)) : Bool := ecc.any (fun e => e.2 == .bad && decide (64 * (a / 64 + e.1) < a + n))

/-- What the device answers a REQ with. -/
def rspOut (x : Session) (h : IcpHead) (body : Bytes) : Out :=
  .icp h.port h.peer (icpBytes x.version 4 x.stall 0 x.number h.seq.toNat
    (if x.provisioning then zero16 else icpMac x.key x.version 4 x.stall 0 x.number h.seq.toNat body) body)

/-- The targets that a flush notifies, in order: those whose moderation timer runs (R343). -/
def flushedBy (s : State) : List (Fin 20) := (List.finRange 20).filter (fun c => s.modWait c)

/-- The EVENT message with FLUSH that the flush sends for target `c`, to the session that holds it, with the session's next SEQ after those of the targets `before`
(R283, R337, R343). -/
def flushEvent (s : State) (before : List (Fin 20)) (c : Fin 20) : List Out :=
  match (if c.val < 16 then s.chanHolder c else none) with
  | some x =>
    let k := before.countP (fun (b : Fin 20) => decide (b.val < 16) && (s.chanHolder b).any (fun y => y.number == x.number))
    let q := if k = 0 then x.devSeq else (x.devSeq + k) % 2 ^ 32
    let body := (s.wr (A.evctNote c) (wd ((s.rd (A.evctNote c)).toNat + 1))).eventBody c 2
    [.icp x.mgmtPort x.peer (icpBytes x.version 5 x.stall 0 x.number q
      (if x.provisioning then zero16 else icpMac x.key x.version 5 x.stall 0 x.number q body) body)]
  | none => []

/-- The messages of a flush, the last sent first. -/
def flushEvents (s : State) : List Out :=
  ((flushedBy s).foldl (fun (a : List (Fin 20) × List Out) c => (a.1 ++ [c], flushEvent s a.1 c ++ a.2)) ([], [])).2

/-- What a flush, when there is one, and the targets `named` falling asleep make of target `c` (R343): a target whose timer runs is notified, whether it is the named one or another; any
other keeps its notification number, bits, stack and IDLE. -/
def afterSleep (s u : State) (named : List Nat) (c : Fin 20) : Prop :=
  u.b (A.evctCtl c) 0 = (named.contains c.val || s.b (A.evctCtl c) 0) ∧
  (if named ≠ [] ∧ s.modWait c = true then
    (u.targets[c]).asleep = (named.contains c.val || (s.targets[c]).asleep) ∧ (u.targets[c]).stack = (s.targets[c]).stack ∧
      u.setBits c = s.setBits c ∧ u.newCount c = 0 ∧ (u.targets[c]).lastNotify = s.now ∧ (u.targets[c]).notified = true ∧
      u.rd (A.evctNote c) = wd ((s.rd (A.evctNote c)).toNat + 1) ∧
      (u.rd (A.evctCntNotify c)).toNat = min 0xFFFFFFFF ((s.rd (A.evctCntNotify c)).toNat + 1) ∧ u.b (A.evctCtl c) 1 = false
  else u.targets[c] = { s.targets[c] with asleep := named.contains c.val || (s.targets[c]).asleep } ∧
    u.rd (A.evctNote c) = s.rd (A.evctNote c) ∧ u.rd (A.evctCntNotify c) = s.rd (A.evctCntNotify c) ∧
    u.b (A.evctCtl c) 1 = s.b (A.evctCtl c) 1)

/-- The monitors find every supply within its alarm limits and above its fail threshold (R355, R356). -/
def suppliesHold (s : State) (mv : Vector (BitVec 16) 24) : Bool :=
  (List.finRange 24).all (fun j => decide (s.f (A.telVLim j) 15 0 ≤ (mv[j]).toNat) && decide ((mv[j]).toNat ≤ s.f (A.telVLim j) 31 16) &&
    decide (supplyFailMv j ≤ (mv[j]).toNat))

/-- A frame with the pattern that asks a MAC to wake, after `n` other bytes, with its FCS. -/
def magicFrame (mac n : Nat) : Bytes :=
  let d := List.replicate (12 + n) 0x55#8 ++ List.replicate 6 0xFF#8 ++ (List.replicate 16 (beBytes 6 mac)).flatten
  d ++ leBytes 4 (crc32 d)

/-- A frame whose watch the configuration has on: with the port's magic pattern anywhere after its addresses, for the Control Processor's port,
or asking for the port's address (R358). -/
def watchedFrame (s : State) (port : Fin 2) (f : Bytes) : Prop :=
  fcsGood f = true ∧
    (s.b A.trnWakeCfg 0 = true ∧ isMagic (s.linkMac (8 + port)) f = true ∨ s.b A.trnWakeCfg 1 = true ∧ s.isIcpFrame (8 + port) f = true ∨
      s.b A.trnWakeCfg 2 = true ∧ s.isAsked (8 + port) f = true)

/-- No copy of any record is bad. -/
def copiesHold (s : State) : Bool := allKinds.all (fun k => (s.recPair k).b0.state k != 2 && (s.recPair k).b1.state k != 2)

/-- The layout of a telemetry payload (Table 16.9). -/
def telLayout (s : State) (p : Bytes) : Prop :=
  p.length = 224 ∧ leAt p 0 2 = 1 ∧ leAt p 2 2 = 16 ∧ leAt p 4 2 = 24 ∧ leAt p 6 2 = 0 ∧ leAt p 8 4 = (s.rd A.telPower).toNat ∧
  leAt p 0x0C 2 = (if s.running then 4 else 3) ∧ (∀ c : Fin 12, (leAt p 0x0E 2).testBit c = s.lakeSetOf.contains c.val) ∧ leAt p 0x0E 2 < 2 ^ 12 ∧
  (∀ i : Fin 16, leAt p (0x10 + 2 * i) 2 = s.f (A.telT i) 15 0) ∧ (∀ j : Fin 24, leAt p (0x30 + 2 * j) 2 = s.f (A.telV j) 15 0) ∧
  (∀ c : Fin 12, leAt p (0x60 + 4 * c) 4 = min 0xFFFFFFFF (s.telTotal c - s.power.telPrev.getD c 0)) ∧
  (∀ l : Fin 8, leAt p (0x90 + l) 1 = (if s.linkOk l then 1 else 0) + (if (s.links[l]).lfault then 2 else 0) + (if (s.links[l]).rfault then 4 else 0) +
    (if s.power.telDown.testBit l then 8 else 0)) ∧
  (∀ m : Fin 2, leAt p (0x98 + m) 1 = (if s.b (A.ethStatus (2 + m)) 0 then 1 else 0) + (if s.b (A.ethStatus (2 + m)) 4 then 2 else 0) +
    (if s.b (A.ethStatus (2 + m)) 8 then 4 else 0) + (if s.power.telDown.testBit (8 + m) then 8 else 0)) ∧
  leAt p 0x9A 6 = 0 ∧ (∀ k : Fin 8, leAt p (0xA0 + 4 * k) 4 = min 0xFFFFFFFF (s.telTotal (12 + k) - s.power.telPrev.getD (12 + k) 0)) ∧
  leAt p 0xC0 8 = s.round ∧ leAt p 0xC8 24 = 0

/-- Stream `n` takes its TYPE 4 record now: it has room, its pond is not held by a swap, and no truncation record is due first (R44, R204, R207). -/
def telGoes (s : State) (n : Fin 16) (len : Nat) : Bool :=
  s.outOn n && s.outRoom n (headBytes (s.recFmt n) + len + 4) && !(s.outHeld n && !s.oldToCome n) && (s.out[n]).pend.isNone

end Sys2Proof.Says

open Sys2Proof Sys2Proof.Machine Sys2Proof.Safety Sys2Proof.Says

/-- A step runs the command at the front of the queue on the state with the queue's rest. The queue is the block's, not the spec's (log entry 1). -/
def Obligations.StepRunsTheFrontCommand : Prop :=
  ∀ (c : Instr) (rest : List Instr) (s : State), step { s with pending := c :: rest } = exec c { s with pending := rest }

/-- With an empty queue time passes by the clocks that run in the state the device is in: DESIGN CHOICE, log entry 1. -/
def Obligations.EmptyQueueLetsTimePass : Prop :=
  ∀ s : State, s.pending = [] →
    (s.power.st = .off → step s = .next s) ∧
    (s.power.st = .doze ∨ s.power.st = .still → step s = .next { s with tarn := s.tarn + 1 }) ∧
    (s.power.st = .on → ∃ t, step s = .next t ∧ t.now = s.now + 1 ∧ t.tarn = s.tarn + 1 ∧
      ((∀ e ∈ s.edges, s.now + 1 < e.cycle) → (∀ n : Fin 4, s.wpSimulated n = false ∨ s.b (A.wpCtl n) 0 = false) → s.sic.phase ≠ .switch →
        t = { s with now := s.now + 1, tarn := s.tarn + 1 }))

/-- After reset the registers read their Reset column, the device is in Ready, and nothing is under way. What the spec leaves to the board is log entry 5. -/
def Obligations.ResetLeavesTheResetColumn : Prop :=
  (∀ a : Nat, State.reset.rd a = regDef a) ∧
    (∀ n : Fin 32, State.reset.readReg (A.sprTrigLat n) = 0x01F40000#32) ∧ State.reset.readReg A.mktSeg = 0x00002000#32 ∧
    (∀ k : Fin 16, State.reset.readReg (A.crcCtl k) = 0x0000031F#32) ∧
    (∀ t : Fin 20, State.reset.readReg (A.evctMod t) = 0x0000000A#32 ∧ State.reset.readReg (A.evctRenotify t) = 0x00000064#32 ∧
      State.reset.readReg (A.evctWake t) = 0x00640010#32) ∧
    (∀ x ∈ [(A.glbVersion, 0x23103291#32), (A.sicVersion, 0x00030002#32), (A.sicCommitTmo, 0x00002710#32), (A.sicProbeTmo, 0x0000EA60#32),
      (A.sicDrainTmo, 0x00000064#32), (A.sicKeyLock, 0x00000001#32), (A.sprCtl 0, 0x00004006#32), (A.sprPhyCfg 0, 0x00461770#32),
      (A.sprLaneMap 0, 0x000000E4#32), (A.sprDskVal 0 0, 0x00000080#32), (A.sprDskWin 0 0, 0x0004FF00#32), (A.sprLineLen 0, 0x000014FF#32),
      (A.sprAsmTmo 0, 0x000007D0#32), (A.sprTrigCtl 0, 0x00640000#32), (A.sprXrst 0, 0x00640001#32), (A.sprPondWm 0, 0x000C0000#32),
      (A.sprEvtEn 0, 0x0000FFFE#32), (A.twbCtl 0, 0x00000072#32), (A.twbTiming1 0, 0x00000005#32), (A.twbTmo 0, 0x138803E8#32),
      (A.twbXrstWait 0, 0x000003E8#32), (A.twbEvtEn 0, 0x000000FE#32), (A.twbtCtl, 0x0005014C#32), (A.twbtAlertEn, 0x0000001F#32),
      (A.twbtTmo, 0x0000015E#32), (A.seamOfsMin 0, 0x08000000#32), (A.seamOfsMax 0, 0x07FFFFFF#32), (A.seamMagMin 0, 0x01FAE148#32),
      (A.seamMagMax 0, 0x00051EB8#32), (A.leUtilWin, 0x00008F0D#32), (A.expProfile 0, 0x00100001#32), (A.expEvtEn 0, 0x0000000E#32),
      (A.outVCoef 0, 0x40000000#32), (A.outGlbEvtEn, 0x00000001#32), (A.mktLinkHold, 0x0000000A#32), (A.mktFailback, 0x000003E8#32),
      (A.mktPfcWd, 0x000007D0#32), (A.mktPfcIgn, 0x00000064#32), (A.mktUdpBase, 0x00005860#32), (A.mktEtype, 0x000088B5#32),
      (A.mktTtl, 0x00000040#32), (A.mktEvtEn, 0x00000001#32), (A.ethMaxframe 0, 0x00002400#32), (A.ethPfc 0, 0x000000FF#32),
      (A.tbThr 0, 0x000A03E8#32), (A.tbGain 0, 0x00000206#32), (A.tbEvtEn 0, 0x000001BE#32), (A.wpCtl 0, 0x00000501#32),
      (A.wpStall 0, 0x000003E8#32), (A.wpEvtEn 0, 0x00000003#32), (A.piPrio 0, 0xFEF880F8#32), (A.piVar 0, 0x0000FFFF#32),
      (A.piIntv 0, 0x030000FD#32), (A.ptpDs 0, 0x00C80032#32), (A.ptpDw 0, 0x00000004#32), (A.ltgPitch 0, 0x00010000#32),
      (A.ltgPeriod 0, 0x00001388#32), (A.ltgMinPeriod 0, 0x00001388#32), (A.ltgEvtEn 0, 0x00000003#32), (A.gpioCtl 0, 0x64000000#32),
      (A.gpioEvtEn 0, 0x00000002#32), (A.lakeCtl, 0x00000077#32), (A.lakeScrubPeriod, 0x00000018#32), (A.lakeRetrain, 0x003C000A#32),
      (A.lakeCeWm, 0x000003E8#32), (A.lakeEvtEn, 0x000000BF#32), (A.lakeChTrimWin 0, 0x00E02000#32), (A.pndEvtEn, 0x00000001#32),
      (A.crcPolyLo 0, 0x1EDC6F41#32), (A.crcInitLo 0, 0xFFFFFFFF#32), (A.crcXoroutLo 0, 0xFFFFFFFF#32), (A.crcValLo 0, 0xFFFFFFFF#32),
      (A.crcEvtEn 0, 0x00000006#32), (A.ctlVersion, 0x00002310#32), (A.ctlPort, 0x00005848#32), (A.ctlSessTmo, 0x00002710#32),
      (A.ctlAccTmo, 0x00000064#32), (A.ctlLongTmo, 0x000003E8#32), (A.ctlEvtEn, 0x00000001#32), (A.stlEvtEn 0, 0x00000003#32),
      (A.brgStatus, 0x00004000#32), (A.brgEvtEn, 0x00000001#32), (A.evcEvtEn, 0x00000001#32), (A.evctStatus 0, 0x00001000#32),
      (A.trnWakeCfg, 0x00000007#32), (A.trnPowerCfg, 0x00000003#32), (A.trnPupTmo, 0x0000000A#32), (A.trnEvtEn, 0x0000001E#32),
      (A.trnTmrEvtEn, 0x00000003#32), (A.trnReqEvtEn, 0x00000007#32), (A.keepAuto, 0x000003E8#32), (A.keepVerify, 0x00000018#32),
      (A.keepEvtEn, 0x0000000E#32), (A.telPeriod, 0x000003E8#32), (A.telPowerLim, 0x00013880#32), (A.telTrip, 0x00000A00#32),
      (A.telEvtEn, 0x00000002#32), (A.telThermEvtEn, 0x0000FFFF#32), (A.telSupEvtEn, 0x00FFFFFF#32), (A.telTAlarm 0, 0x000008C0#32),
      (A.telVLim 0, 0x03B10357#32)],
      State.reset.readReg x.1 = x.2) ∧
    fld (State.reset.readReg A.trnState) 2 0 = 3 ∧ State.reset.on = true ∧ State.reset.running = false ∧
    (∀ g : Fin 12, (State.reset.grp[g]).active = false) ∧ State.reset.str.bare = true ∧
    State.reset.pending = [] ∧ State.reset.commits = [] ∧
    State.reset.staged = [] ∧ State.reset.ctl.sessions = [] ∧ (∀ t : Fin 20, (State.reset.targets[t]).stack = [])

/-- The state after reset has the form that every step keeps. -/
def Obligations.ResetHasTheForm : Prop :=
  Form State.reset

/-- Every step, of any command on any state with the form, keeps the form. -/
def Obligations.EveryStepKeepsTheForm : Prop :=
  ∀ s t : State, Form s → step s = .next t → Form t

/-- The operating state changes only by the commands that Table 1.4 gives for the change. -/
def Obligations.OperatingStatesChangeOnlyAlongTheirTable : Prop :=
  ∀ (c : Instr) (s t : State), exec c s = .next t → t.power.st ≠ s.power.st → leaves c s t.power.st = true

/-- Every command completes, in no time of its own (log entry 1), and leaves the queue to step. -/
def Obligations.CommandsLeaveTheQueueAndTheClocks : Prop :=
  ∀ (c : Instr) (s : State), ∃ t : State, exec c s = .next t ∧ t.pending = s.pending ∧ t.now = s.now ∧ t.tarn = s.tarn

/-- While the fast clocks stand or the device is in reset, the clocked commands do nothing. -/
def Obligations.StoppedDeviceIgnoresClockedCommands : Prop :=
  ∀ (c : Instr) (s : State), s.on = false → unclocked c = false → exec c s = .next s

/-- R349, whole. -/
def Obligations.SoftwareSourcesAreRaisedOrDenied : Prop :=
  ∀ (s : State) (t : Fin 8) (v : Fin 1024) (n : Fin 768),
    s.on = true →
      (v.val = n.val → 512 ≤ n.val → (t = 0 ∨ n.val / 32 = 16 + t.val) →
        ∃ u, Sys2Proof.Machine.exec (.evcSwSet t v) s = .next u ∧
          (u.sources[n]).phase = (if (s.sources[n]).phase = .idle then
              (if (s.sources[n]).goneAt.any (fun x => x.1 == s.now) then .assigned else .pending) else (s.sources[n]).phase) ∧
          (u.sources[n]).refire = ((s.sources[n]).refire && (s.sources[n]).phase != .idle || (s.sources[n]).phase == .active) ∧
          (u.sources[n]).target = (s.sources[n]).target ∧ Only [.source n] [.targets] s u) ∧
      ((v.val < 512 ∨ 768 ≤ v.val ∨ (t ≠ 0 ∧ v.val / 32 ≠ 16 + t.val)) →
        ∃ u, Sys2Proof.Machine.exec (.evcSwSet t v) s = .next u ∧
          (u.rd A.evcCntSwDenied).toNat = min 0xFFFFFFFF ((s.rd A.evcCntSwDenied).toNat + 1) ∧ u.b A.evcEvt 3 = true ∧
          Only [.reg A.evcCntSwDenied, .reg A.evcEvt] [] s u)

/-- R341, whole. -/
def Obligations.ServiceCompletesOnlyTheStackTop : Prop :=
  (∀ (s : State) (t : Fin 20) (n : Fin 1024) (i : Fin 768) (p : Nat) (rest : List (Nat × Nat)),
    s.on = true → n.val = i.val → (s.targets[t]).stack = (i.val, p) :: rest →
      ∃ u, Sys2Proof.Machine.exec (.eventDone t n) s = .next u ∧
        (u.targets[t]).stack = rest ∧ (u.sources[i]).refire = false ∧
        (u.sources[i]).phase = (if s.levelSensed i then (if s.asserted i then .pending else .idle)
          else if (s.sources[i]).refire then .assigned else .idle) ∧
        (u.sources[i]).target = (s.sources[i]).target ∧
        (s.levelSensed i = false → (s.sources[i]).refire = true → (u.targets[t]).refired = true ∧ i.val ∈ (u.targets[t]).unseen ∨ (s.sources[i]).target ≠ t.val) ∧
        Only [.source i, .power] [.targets, .regs 0x6C0000] s u) ∧
  (∀ (s : State) (t : Fin 20) (n : Fin 1024),
    s.on = true → ((s.targets[t]).stack.head?).map (·.1) ≠ some n.val →
      ∃ u, Sys2Proof.Machine.exec (.eventDone t n) s = .next u ∧
        u.f A.evcFaultLog 9 0 = n.val ∧ u.f A.evcFaultLog 20 16 = t.val ∧ u.f A.evcFaultLog 31 24 = min 255 (s.f A.evcFaultLog 31 24 + 1) ∧
        (u.rd A.evcCntFault).toNat = min 0xFFFFFFFF ((s.rd A.evcCntFault).toNat + 1) ∧ u.b A.evcEvt 0 = true ∧
        Only [.reg A.evcFaultLog, .reg A.evcCntFault, .reg A.evcEvt] [] s u)

/-- A register access of a stall acts by its fields' codes, and a refused one does nothing. Its clauses cite their rules. -/
def Obligations.RegisterAccessesActByTheirCodes : Prop :=
  -- REGISTER_WRITE (R3, R297): a 32-bit write that the stall may make, of a defined register without staged fields and without an effect of its own,
  -- replaces RW fields, clears W1C bits written 1, sets W1S bits written 1, keeps the others, and answers status 0.
  (∀ (s : State) (t : Fin 8) (a : BitVec 24) (v : BitVec 64) (g : Nat) (r : RegRow),
    s.on = true → s.globalAddr t a.toNat = some g → s.check false t g 4 false true = 0 → rowOf g = some r → r.rws = 0 →
      isCommit g = false → ownEffect g = false → isAperture g = false → s.instDefined g = true → s.seamBeyond g = false →
      ∃ u, Sys2Proof.Machine.exec (.registerWrite t a 2 v) s = .next u ∧
        u.rd g = saturate g (writeByCodes r (s.rd g) (wd v.toNat)) ∧ u.sent = .value 0 0 :: s.sent ∧ Only [.reg g, .sent, .keep] [] s u) ∧
  -- REGISTER_WRITE of a word of list RAM (R84): the step's named bits are stored, and its reserved bits read 0 (R6).
  (∀ (s : State) (t : Fin 8) (a : BitVec 24) (v : BitVec 64) (g : Nat),
    s.on = true → s.globalAddr t a.toNat = some g → s.check false t g 4 false true = 0 → 0x180000 ≤ g → g < 0x190000 → 0x400 ≤ g % 0x800 →
      ∃ u, Sys2Proof.Machine.exec (.registerWrite t a 2 v) s = .next u ∧
        u.rd g = wd ((wd v.toNat).toNat &&& stepMask (wd v.toNat)) ∧ u.sent = .value 0 0 :: s.sent ∧ Only [.reg g, .sent, .keep] [] s u) ∧
  -- REGISTER_WRITE of a staged register (R5): the value is staged, and what is in force stays.
  (∀ (s : State) (t : Fin 8) (a : BitVec 24) (v : BitVec 64) (g : Nat) (r : RegRow),
    s.on = true → s.globalAddr t a.toNat = some g → s.check false t g 4 false true = 0 → rowOf g = some r → r.rws ≠ 0 →
      isCommit g = false → isAperture g = false → s.instDefined g = true → s.seamBeyond g = false →
      ∃ u, Sys2Proof.Machine.exec (.registerWrite t a 2 v) s = .next u ∧
        u.shadow g = saturate g (wd ((wd v.toNat).toNat &&& r.rws)) ∧ u.sent = .value 0 0 :: s.sent ∧ Only [.staged, .sent] [] s u) ∧
  -- An access that fails a check of R297 has no effect but its answer and the Bridge's counts.
  (∀ (s : State) (t : Fin 8) (a : BitVec 24) (size : Fin 4) (v : BitVec 64) (g : Nat),
    s.on = true → s.globalAddr t a.toNat = some g → s.check false t g (sizeBytes size) false true ≠ 0 →
      ∃ u, Sys2Proof.Machine.exec (.registerWrite t a size v) s = .next u ∧
        u.sent = .value (s.check false t g (sizeBytes size) false true) 0 :: s.sent ∧
        Only [.reg A.brgCntSize, .reg A.brgCntAlign, .reg A.brgCntPerm, .sent] [] s u) ∧
  -- REGISTER_WRITE of an offset that holds no register, or of a register of an instance that is not defined, is ignored: it answers status 0, at every
  -- size that is accepted there (R7, R292, R400).
  (∀ (s : State) (t : Fin 8) (a : BitVec 24) (size : Fin 4) (v : BitVec 64) (g : Nat),
    s.on = true → s.globalAddr t a.toNat = some g → s.check false t g (sizeBytes size) false true = 0 → isAperture g = false → size ≠ 3 →
      (rowOf (g / 4 * 4) = none ∨ s.instDefined g = false ∧ size = 2) →
      ∃ u, Sys2Proof.Machine.exec (.registerWrite t a size v) s = .next u ∧ u.sent = .value 0 0 :: s.sent ∧ Only [.sent] [] s u) ∧
  -- An access of an address behind which the stall has nothing, in a window page that is not mapped or in another stall's window, answers PERM and is
  -- counted (R297, R299).
  (∀ (s : State) (t : Fin 8) (a : BitVec 24) (size : Fin 4) (v : BitVec 64),
    s.on = true → s.globalAddr t a.toNat = none →
      (∃ u, Sys2Proof.Machine.exec (.registerWrite t a size v) s = .next u ∧ u.sent = .value 2 0 :: s.sent ∧ Only [.reg A.brgCntPerm, .sent] [] s u) ∧
      (∃ u, Sys2Proof.Machine.exec (.readClear t a) s = .next u ∧ u.sent = .value 2 0 :: s.sent ∧ Only [.reg A.brgCntPerm, .sent] [] s u) ∧
      (∃ u, Sys2Proof.Machine.exec (.latchingRead t a (size == 3)) s = .next u ∧ u.sent = .value 2 0 :: s.sent ∧ Only [.reg A.brgCntPerm, .sent] [] s u)) ∧
  -- A read that fails a check of R297 answers the status of the check and no value, clears nothing and latches nothing.
  (∀ (s : State) (t : Fin 8) (a : BitVec 24) (wide : Bool) (g : Nat),
    s.on = true → s.globalAddr t a.toNat = some g →
      (s.check false t g 4 true false ≠ 0 →
        ∃ u, Sys2Proof.Machine.exec (.readClear t a) s = .next u ∧ u.sent = .value (s.check false t g 4 true false) 0 :: s.sent ∧
          Only [.reg A.brgCntSize, .reg A.brgCntAlign, .reg A.brgCntPerm, .sent] [] s u) ∧
      (s.check false t g (if wide then 8 else 4) true false ≠ 0 →
        ∃ u, Sys2Proof.Machine.exec (.latchingRead t a wide) s = .next u ∧ u.sent = .value (s.check false t g (if wide then 8 else 4) true false) 0 :: s.sent ∧
          Only [.reg A.brgCntSize, .reg A.brgCntAlign, .reg A.brgCntPerm, .sent] [] s u)) ∧
  -- READ_CLEAR (R3, R4): a 32-bit read of a register with RC bits answers its value and clears those bits, and no other register.
  (∀ (s : State) (t : Fin 8) (a : BitVec 24) (g : Nat) (r : RegRow),
    s.on = true → s.globalAddr t a.toNat = some g → s.check false t g 4 true false = 0 → rowOf g = some r → r.rc ≠ 0 →
      isLog g = false → isAperture g = false → s.instDefined g = true → readPort g = false →
      ∃ u, Sys2Proof.Machine.exec (.readClear t a) s = .next u ∧
        u.rd g = wd ((s.rd g).toNat &&& (0xFFFFFFFF ^^^ r.rc)) ∧ u.sent = .value 0 (s.readReg g).toNat :: s.sent ∧
        Only [.reg g, .sent, .power] [] s u) ∧
  -- READ_CLEAR of a log register answers it and clears its count in [31:24] alone (Tables 5.3, 7.5, 11.4 and 15.6).
  (∀ (s : State) (t : Fin 8) (a : BitVec 24) (g : Nat),
    s.on = true → s.globalAddr t a.toNat = some g → s.check false t g 4 true false = 0 → isLog g = true → isAperture g = false →
      s.instDefined g = true →
      ∃ u, Sys2Proof.Machine.exec (.readClear t a) s = .next u ∧
        u.f g 31 24 = 0 ∧ u.f g 23 0 = s.f g 23 0 ∧ u.sent = .value 0 (s.readReg g).toNat :: s.sent ∧ Only [.reg g, .sent] [] s u) ∧
  -- LATCHING_READ (R292): a 32-bit read of the low word of a multiword register answers the word, latches the companion words as they are at this moment,
  -- and changes no register; a 64-bit read of a pair answers both words of one cycle and latches the same.
  (∀ (s : State) (t : Fin 8) (a : BitVec 24) (wide : Bool) (g : Nat) (r : RegRow),
    s.on = true → s.globalAddr t a.toNat = some g → s.check false t g (if wide then 8 else 4) true false = 0 → rowOf g = some r → r.rc = 0 →
      isLog g = false → isAperture g = false → s.instDefined g = true → readPort g = false →
      ∃ u, Sys2Proof.Machine.exec (.latchingRead t a wide) s = .next u ∧
        (∀ c ∈ companions g, u.latch.lookup c = some (s.peekReg c)) ∧
        u.latch.filter (fun x => !(companions g).contains x.1) = s.latch.filter (fun x => !(companions g).contains x.1) ∧
        u.sent = .value 0 ((s.readReg g).toNat + (if wide then (s.peekReg (g + 4)).toNat * 2 ^ 32 else 0)) :: s.sent ∧
        Only [.latch, .sent] [] s u)

/-- A commit write waits with its tag, and a commit that takes effect puts every staged value of its block in force. Its clauses cite their rules. -/
def Obligations.CommitsPutStagedValuesInForce : Prop :=
  -- COMMIT_WRITE (R300, R303): the commit waits with its tag and boundary, in place of any that waited; nothing is put into force.
  (∀ (s : State) (t : Fin 8) (b : CommitBlock) (v : Word),
    s.on = true → s.check false t (commitAddr b) 4 false true = 0 → s.instDefined (commitAddr b) = true →
      ∃ u, Sys2Proof.Machine.exec (.commitWrite t b v) s = .next u ∧
        u.waiting (commitAddr b) = some (fld v 15 0, bit v 16) ∧ u.staged = s.staged ∧ u.sent = .value 0 0 :: s.sent ∧
        (∀ c ∈ cmtStatOf (commitAddr b), u.b c 16 = true ∧ u.b c 17 = (s.waiting (commitAddr b)).isSome) ∧
        Only ([.commits, .sent, .reg (commitAddr b + 4)] ++ ((replacedEvt (commitAddr b)).map (fun e => Piece.reg e.1)).toList) [] s u) ∧
  -- COMMIT_WRITE that fails a check of R297, or of a block that is not defined, has no effect but its answer and the Bridge's counts.
  (∀ (s : State) (t : Fin 8) (b : CommitBlock) (v : Word),
    s.on = true → (s.check false t (commitAddr b) 4 false true ≠ 0 ∨ s.instDefined (commitAddr b) = false) →
      ∃ u, Sys2Proof.Machine.exec (.commitWrite t b v) s = .next u ∧
        u.sent = .value (s.check false t (commitAddr b) 4 false true) 0 :: s.sent ∧
        Only [.reg A.brgCntSize, .reg A.brgCntAlign, .reg A.brgCntPerm, .sent] [] s u) ∧
  -- COMMIT_TAKE_EFFECT (R300): outside an active group a waiting commit that its block's own check accepts puts every written field into force, reads its
  -- tag and no longer waits.
  (∀ (s : State) (b : CommitBlock) (tag : Nat) (line : Bool),
    s.on = true → blockActive s b = false → s.waiting (commitAddr b) = some (tag, line) → (s.staged.map (·.1)).Nodup → blockAccepts s b = true →
      ∃ u, Sys2Proof.Machine.exec (.commitTakeEffect b) s = .next u ∧
        u.waiting (commitAddr b) = none ∧ u.written (commitAddr b) = [] ∧
        (∀ c ∈ cmtStatOf (commitAddr b), u.b c 16 = false ∧ u.f c 15 0 = tag % 2 ^ 16) ∧
        (∀ x ∈ s.written (commitAddr b), x.1 ∉ cmtStatOf (commitAddr b) → ruled b x.1 = false → u.rd x.1 = x.2) ∧
        Only [.commits, .staged, .keep] [.regs (regBlock (commitAddr b)), .regs 0x200000, .regs 0x300000, .gens, .tallies, .seams, .tnrs, .streams,
          .chains, .transports, .releases, .readPtrs, .draws, .loads] s u) ∧
  -- COMMIT_TAKE_EFFECT of a frame or Tally block (R300, R183): the written fields come into force and nothing else changes but that the group's next
  -- statistics record says that its points changed.
  (∀ (s : State) (g : Fin 12) (tally : Bool),
    let b : CommitBlock := if tally then .tal g else .frm g
    s.on = true → s.activeGroup g = false → (s.waiting (commitAddr b)).isSome → (s.staged.map (·.1)).Nodup →
      ∃ u, Sys2Proof.Machine.exec (.commitTakeEffect b) s = .next u ∧
        (∀ x ∈ s.written (commitAddr b), x.1 ≠ commitAddr b + 4 → u.rd x.1 = x.2) ∧
        Only ([.commits, .staged, .keep, .reg (commitAddr b + 4)] ++ (if tally then [.tally g] else []) ++
          (s.written (commitAddr b)).map (fun x => .reg x.1)) [] s u) ∧
  -- COMMIT_TAKE_EFFECT of a commit that its block's own check refuses (R300): the commit no longer waits, REFUSED is set, and the written fields stay as
  -- they are, staged and not in force.
  (∀ (s : State) (b : CommitBlock),
    s.on = true → blockActive s b = false → (s.waiting (commitAddr b)).isSome → blockAccepts s b = false →
      ∃ u, Sys2Proof.Machine.exec (.commitTakeEffect b) s = .next u ∧
        u.waiting (commitAddr b) = none ∧ (∀ c ∈ cmtStatOf (commitAddr b), u.b c 16 = false ∧ u.b c 18 = true) ∧ u.staged = s.staged ∧
        Only [.commits] [.regs (regBlock (commitAddr b)), .streams, .chains, .transports, .releases, .readPtrs, .draws] s u) ∧
  -- COMMIT_TAKE_EFFECT with no commit waiting, or while the block's group is active and its boundaries take the commits, changes nothing (R300).
  (∀ (s : State) (b : CommitBlock),
    s.on = true → (blockActive s b = true ∨ s.waiting (commitAddr b) = none) → Sys2Proof.Machine.exec (.commitTakeEffect b) s = .next s)

/-- Start, device reset, loss of supply or clock and a thermal trip take the device where the power chapter says. Its clauses cite their rules. -/
def Obligations.ResetsAndSupplyLossStopTheDevice : Prop :=
  -- COLD_POWER_UP (R307, R356, R383, R389): from Off or in a device reset, with every supply above its fail threshold and no TAP instruction that holds
  -- the balls, the start begins at this instant: RESET_L and PWR_OK are high, the straps are sampled, the image slots and the retained records stay, a
  -- load, a copy or a check under way leaves its slot INVALID, every Lake channel trains, and the bare structure is in force with every register, group,
  -- Spring, stream, bus, engine, session and queue as at reset.
  (∀ (s : State) (devid : BitVec 14) (factoryL kept : Bool),
    (s.power.st = .off ∨ s.power.st = .on ∧ s.power.held = true) → s.power.low = [] → s.tapHolds = false →
      (kept = true ↔ s.power.st = .on ∧ (s.power.lastOff = 1 ∨ s.power.lastOff = 2)) →
      ∃ u, Sys2Proof.Machine.exec (.coldPowerUp devid factoryL) s = .next u ∧
        u.power = { lastOff := s.power.lastOff, wakeFrom := s.power.wakeFrom, crystalAt := s.power.crystalAt, popAtEntry := s.power.popAtEntry,
                    devid := devid.toNat, factoryL := factoryL, stepping := s.power.stepping, lastTelRec := s.now, jtag := s.power.jtag,
                    boot := some { at_ := s.now } } ∧
        u.pending = s.pending ∧ u.now = s.now ∧ u.tarn = s.tarn ∧ u.sent = s.sent ∧
        u.keep.recs = s.keep.recs ∧ u.keep.busy = false ∧ u.sic.slotA = s.sic.slotA.found ∧ u.sic.slotB = s.sic.slotB.found ∧
        u.sic.phase = .idle ∧ u.sic.busy = .none ∧ u.lakeCtl.training = 0xFFF ∧ (∀ c : Fin 12, (u.lakeCtl.chans[c]).st = 1) ∧ startRestores u ∧
        (∀ n : Fin 768, u.sources[n] = if kept then s.withdrawn n { s.sources[n] with level := false, latched := false } else {}) ∧
        (∀ t : Fin 20, u.rd (A.evctNote t) = if kept then s.rd (A.evctNote t) else regDef (A.evctNote t)) ∧
        Only (startPieces ++ (List.range 20).map (fun t => .reg (A.evctNote t)))
          [.sources, .timeBases, .webPos, .gens, .stalls, .tables, .regs 0x6E0000] State.reset u) ∧
  -- COLD_POWER_UP with a supply below its fail threshold leaves the device where it is, in Off or in its reset (R356), and one while EXTEST, HIGHZ or
  -- CLAMP holds the balls leaves it in its reset (R399); in a powered state that is in no reset it is none.
  (∀ (s : State) (devid : BitVec 14) (factoryL : Bool),
    ((s.power.st = .off ∨ s.power.held = true) → s.power.low ≠ [] →
      ∃ u, Sys2Proof.Machine.exec (.coldPowerUp devid factoryL) s = .next u ∧ u.power = { s.power with resetLow := false, pwrOk := true } ∧ Only [.power] [] s u) ∧
    ((s.power.st = .off ∨ s.power.held = true) → s.power.low = [] → s.tapHolds = true →
      ∃ u, Sys2Proof.Machine.exec (.coldPowerUp devid factoryL) s = .next u ∧
        u.power = { s.power with resetLow := false, pwrOk := true, st := .on, held := true } ∧ Only [.power] [] s u) ∧
    (s.power.st ≠ .off → s.power.held = false → Sys2Proof.Machine.exec (.coldPowerUp devid factoryL) s = .next s)) ∧
  -- RESET_L_LOW (R307, R391): RESET_L low for 1 µs asserts the internal reset in every powered state, and LAST_OFF is 1; a commit under way is cut short,
  -- an entry, a start and a wait for supplies are abandoned, and nothing else changes until the start instant.
  (∀ (s : State) (low : Nat),
    s.power.st ≠ .off → 1000 ≤ low →
      ∃ u, Sys2Proof.Machine.exec (.resetLLow low) s = .next u ∧
        u.power.resetLow = true ∧ u.power.held = true ∧ u.power.st = .on ∧ u.power.lastOff = 1 ∧ u.power.entering = .none ∧ u.on = false ∧
        u.power.boot = none ∧ u.power.supplyWait = none ∧ Only cutPieces [] s u) ∧
  -- RESET_L_LOW for less than 1 µs is ignored (R391); in Off it only holds the pin low (R389).
  (∀ (s : State) (low : Nat),
    (low < 1000 → Sys2Proof.Machine.exec (.resetLLow low) s = .next s) ∧
    (s.power.st = .off → 1000 ≤ low → ∃ u, Sys2Proof.Machine.exec (.resetLLow low) s = .next u ∧
      u.power.resetLow = true ∧ u.power.st = .off ∧ u.power.held = s.power.held ∧ Only [.power] [] s u)) ∧
  -- CTL_RESET (R307): a write of 0xA5A5 with bit 0 asserts the internal reset, and LAST_OFF is 2.
  (∀ (s : State) (v : Word),
    s.on = true → fld v 31 16 = 0xA5A5 → bit v 0 = true →
      ∃ u, Sys2Proof.Machine.exec (.ctlReset v) s = .next u ∧ u.power.held = true ∧ u.power.lastOff = 2 ∧ u.on = false ∧ Only cutPieces [] s u) ∧
  -- CTL_RESET without its key changes nothing (Table 13.10).
  (∀ (s : State) (v : Word),
    s.on = true → (fld v 31 16 ≠ 0xA5A5 ∨ bit v 0 = false) → Sys2Proof.Machine.exec (.ctlReset v) s = .next s) ∧
  -- PWR_OK_LOW (R356): Off at once.
  (∀ (s : State),
    ∃ u, Sys2Proof.Machine.exec .pwrOkLow s = .next u ∧ u.power.st = .off ∧ u.power.lastOff = 3 ∧ u.power.pwrOk = false ∧ Only cutPieces [] s u) ∧
  -- SUPPLY_FAIL (R356, R390): a required supply below its fail threshold takes the device to Off, and it stays marked as below until its comparator says
  -- otherwise.
  (∀ (s : State) (j : Fin 24) (mv : BitVec 16),
    s.power.st ≠ .off → s.needs j = true → mv.toNat < supplyFailMv j →
      ∃ u, Sys2Proof.Machine.exec (.supplyFail j mv) s = .next u ∧ u.power.st = .off ∧ u.power.lastOff = 3 ∧ u.power.pwrOk = s.power.pwrOk ∧
        (∀ i : Fin 24, u.power.low.contains i.val = (i == j || s.power.low.contains i.val)) ∧ Only cutPieces [] s u) ∧
  -- SUPPLY_FAIL of a supply that the state does not require, or at or above the threshold, changes nothing but the comparator's mark (R356); a loss of
  -- VDD_CORE or VDD_IO takes the TAP's state (R398).
  (∀ (s : State) (j : Fin 24) (mv : BitVec 16),
    (s.power.st = .off ∨ s.needs j = false ∨ supplyFailMv j ≤ mv.toNat) →
      ∃ u, Sys2Proof.Machine.exec (.supplyFail j mv) s = .next u ∧
        (∀ i : Fin 24, u.power.low.contains i.val = if i = j then decide (mv.toNat < supplyFailMv j) else s.power.low.contains i.val) ∧
        u.power = { s.power with low := u.power.low, jtag := u.power.jtag } ∧
        u.power.jtag = (if mv.toNat < supplyFailMv j ∧ (j.val < 8 ∨ 22 ≤ j.val) then {} else s.power.jtag) ∧ Only [.power] [] s u) ∧
  -- REFCLK_LOSS (R391): the loss of SYSREF_CLK in Ready or Run takes the device to Off.
  (∀ (s : State),
    s.on = true → ∃ u, Sys2Proof.Machine.exec .refclkLoss s = .next u ∧ u.power.st = .off ∧ u.power.lastOff = 3 ∧ Only cutPieces [] s u) ∧
  -- THERMAL_TRIP (R360): a sensor over TEL_TRIP for 1 ms takes a device in Ready, Run, Doze or its start to Still without a commit, and LAST_OFF is 4.
  (∀ (s : State),
    (s.power.st = .doze ∨ s.power.st = .on ∧ s.power.held = false ∧ s.power.resetLow = false) → (∃ x ∈ s.power.hot, x.2 + 1000000 ≤ s.tarn) →
      ∃ u, Sys2Proof.Machine.exec .thermalTrip s = .next u ∧
        u.power.st = .still ∧ u.power.lastOff = 4 ∧ u.power.trip = some s.tarn ∧ u.power.tripPending = true ∧ Only cutPieces [] s u) ∧
  -- THERMAL_TRIP in Still is noted (R360); without a sensor that has read above TEL_TRIP for 1 ms nothing changes.
  (∀ (s : State),
    ((∃ x ∈ s.power.hot, x.2 + 1000000 ≤ s.tarn) → s.power.st = .still → s.power.trip = none →
      ∃ u, Sys2Proof.Machine.exec .thermalTrip s = .next u ∧ u.power.st = .still ∧ u.power.lastOff = 4 ∧ u.power.trip = some s.tarn ∧ u.power.supplyWait = none ∧
        Only [.power] [] s u) ∧
    ((∀ x ∈ s.power.hot, s.tarn < x.2 + 1000000) → Sys2Proof.Machine.exec .thermalTrip s = .next s))

/-- The structure image controller erases and loads a slot that is not active, and refuses while it is busy. Its clauses cite their rules. -/
def Obligations.SlotErasureAndLoadingFollowTheSlotStates : Prop :=
  -- While BUSY every SIC_CMD command but ABORT, and but an ERASE of the slot that a copy fills or a check reads, is refused with BUSY, and nothing else
  -- happens (R39, R52).
  (∀ (s : State) (c : Instr),
    sicCommand c = true → (∀ b : Bool, c = .erase b → s.sic.busy ≠ .copy b ∧ s.sic.busy ≠ .check b) →
    s.on = true → s.sicBusy = true → ∃ u, Sys2Proof.Machine.exec c s = .next u ∧ u.rd A.sicErr = 0x20#32 ∧ Only [.reg A.sicErr] [] s u) ∧
  -- In Probation every SIC_CMD command but ABORT and CONFIRM is refused with BAD_STATE (R49).
  (∀ (s : State) (c : Instr),
    sicCommand c = true → c ≠ .confirm → s.on = true → s.sic.busy = .none → s.sic.phase = .probation →
      ∃ u, Sys2Proof.Machine.exec c s = .next u ∧ u.rd A.sicErr = 0x26#32 ∧ Only [.reg A.sicErr] [] s u) ∧
  -- A command on the active slot is refused with BAD_STATE (R38).
  (∀ (s : State) (b : Bool) (c : Instr),
    slotCommand b c = true →
    sicFree s → s.isActive b = true → ∃ u, Sys2Proof.Machine.exec c s = .next u ∧ u.rd A.sicErr = 0x26#32 ∧ Only [.reg A.sicErr] [] s u) ∧
  -- ERASE (R38, R39): the erase of a slot that is not loading starts, and the controller is BUSY.
  (∀ (s : State) (b : Bool),
    sicFree s → s.isActive b = false → (s.slot b).state ≠ .loading →
      ∃ u, Sys2Proof.Machine.exec (.erase b) s = .next u ∧ u.sic.busy = .erase b ∧ u.f A.sicStatus 7 4 = 1 ∧ u.slot b = s.slot b ∧ Only [.sic, .reg A.sicStatus] [] s u) ∧
  -- ERASE of a slot during LOADING leaves it INVALID (R38, R39).
  (∀ (s : State) (b : Bool),
    sicFree s → s.isActive b = false → (s.slot b).state = .loading →
      ∃ u, Sys2Proof.Machine.exec (.erase b) s = .next u ∧ (u.slot b).state = .invalid ∧ u.sic.busy = .none ∧ u.slot (!b) = s.slot (!b) ∧
        Only [.sic, .reg A.sicStatus] [] s u) ∧
  -- ERASE of a slot that a COPY fills or a CHECK reads ends that and leaves the slot INVALID (R38, R39).
  (∀ (s : State) (b : Bool),
    s.on = true → (s.sic.busy = .copy b ∨ s.sic.busy = .check b) →
      ∃ u, Sys2Proof.Machine.exec (.erase b) s = .next u ∧ (u.slot b).state = .invalid ∧ u.sic.busy = .none ∧ u.slot (!b) = s.slot (!b) ∧
        Only [.sic, .reg A.sicStatus] [] s u) ∧
  -- ERASE_DONE (R38): the slot is EMPTY, and the other slot is as it was.
  (∀ (s : State) (b : Bool),
    s.on = true → s.sic.busy = .erase b →
      ∃ u, Sys2Proof.Machine.exec .eraseDone s = .next u ∧ (u.slot b).state = .empty ∧ (u.slot b).bytes = [] ∧ u.sic.busy = .none ∧ u.slot (!b) = s.slot (!b) ∧
        Only [.sic] [] s u) ∧
  -- The end of an erase, a copy, a check or a key write that is not under way changes nothing.
  (∀ (s : State) (c : Instr),
    (c = .eraseDone ∧ (∀ b : Bool, s.sic.busy ≠ .erase b) ∨ c = .checkDone ∧ (∀ b : Bool, s.sic.busy ≠ .check b) ∨
      (c = .copyDone [] ∧ ∀ b : Bool, s.sic.busy ≠ .copy b) ∨ c = .installKeyDone ∧ (∀ k : Fin 4, s.sic.busy ≠ .installKey k)) →
      Sys2Proof.Machine.exec c s = .next s) ∧
  -- BEGIN_LOAD (R38): the slot is LOADING with no bytes, and the offset is 0.
  (∀ (s : State) (b : Bool),
    sicFree s → s.isActive b = false →
      ∃ u, Sys2Proof.Machine.exec (.beginLoad b) s = .next u ∧
        (u.slot b).state = .loading ∧ (u.slot b).bytes = [] ∧ u.sic.loadOfs = 0 ∧ u.sic.loadB = b ∧ u.f A.sicStatus 7 4 = 2 ∧
        u.slot (!b) = s.slot (!b) ∧ Only [.sic, .reg A.sicStatus, .reg A.sicLoadOfs] [] s u) ∧
  -- SIC_LOAD_DATA_WRITE (R38): four bytes, least significant first, are stored at the offset, which advances by 4.
  (∀ (s : State) (v : Word),
    s.on = true → s.sic.busy ≠ .copy s.sic.loadB → (s.slot s.sic.loadB).state = .loading → s.sic.loadOfs ≤ 8388604 →
    cellWf lakeDef (s.slot s.sic.loadB).bytes = true →
      ∃ u, Sys2Proof.Machine.exec (.sicLoadDataWrite v) s = .next u ∧
        slotBytes (u.slot s.sic.loadB).bytes s.sic.loadOfs 4 = leBytes 4 v.toNat ∧ u.sic.loadOfs = s.sic.loadOfs + 4 ∧
        (u.slot s.sic.loadB).state = .loading ∧ u.slot (!s.sic.loadB) = s.slot (!s.sic.loadB) ∧ Only [.sic, .reg A.sicLoadOfs] [] s u) ∧
  -- SIC_LOAD_DATA outside LOADING, beyond the slot's end or while a COPY fills the slot is discarded with BAD_STATE (R39).
  (∀ (s : State) (v : Word),
    s.on = true → ((s.slot s.sic.loadB).state ≠ .loading ∨ 8388604 < s.sic.loadOfs ∨ s.sic.busy = .copy s.sic.loadB) →
      ∃ u, Sys2Proof.Machine.exec (.sicLoadDataWrite v) s = .next u ∧ u.rd A.sicErr = 0x26#32 ∧ Only [.reg A.sicErr] [] s u) ∧
  -- END_LOAD (R38): a slot in LOADING is LOADED; in another state the command is refused with BAD_STATE.
  (∀ (s : State) (b : Bool),
    sicFree s → s.isActive b = false →
      ∃ u, Sys2Proof.Machine.exec (.endLoad b) s = .next u ∧
        if (s.slot b).state = .loading then (u.slot b).state = .loaded ∧ (u.slot b).bytes = (s.slot b).bytes ∧ Only [.sic, .reg A.sicStatus] [] s u
        else u.rd A.sicErr = 0x26#32 ∧ Only [.reg A.sicErr] [] s u)

/-- COPY fills a slot from memory and CHECK leaves the slot valid or invalid with its code. Its clauses cite their rules. -/
def Obligations.SlotCopiesAndChecksReportTheirResult : Prop :=
  -- COPY (R38): the copy of SIC_COPY_LEN bytes of the Lake starts, and the slot is LOADING.
  (∀ (s : State) (b : Bool),
    sicFree s → s.isActive b = false → 0 < (s.rd A.sicCopyLen).toNat → (s.rd A.sicCopyLen).toNat ≤ 8388608 →
      ∃ u, Sys2Proof.Machine.exec (.copy b) s = .next u ∧
        u.sic.busy = .copy b ∧ (u.slot b).state = .loading ∧ u.sic.copyLen = (s.rd A.sicCopyLen).toNat ∧ u.f A.sicStatus 7 4 = 3 ∧
        u.slot (!b) = s.slot (!b) ∧ Only [.sic, .reg A.sicStatus] [] s u) ∧
  -- COPY of no byte or of more than a slot holds is refused with BAD_STATE (R38).
  (∀ (s : State) (b : Bool),
    sicFree s → ((s.rd A.sicCopyLen).toNat = 0 ∨ 8388608 < (s.rd A.sicCopyLen).toNat) →
      ∃ u, Sys2Proof.Machine.exec (.copy b) s = .next u ∧ u.rd A.sicErr = 0x26#32 ∧ Only [.reg A.sicErr] [] s u) ∧
  -- COPY_DONE (R38, R250): the slot holds the bytes of the Lake from the source address; errors that were corrected are counted.
  (∀ (s : State) (b : Bool) (ecc : List (Nat × Ecc)),
    s.on = true → s.sic.busy = .copy b → s.copyReach s.sic.copySrc s.sic.copyLen = true → (∀ e ∈ ecc, e.2 ≠ .bad) →
      ∃ u, Sys2Proof.Machine.exec (.copyDone ecc) s = .next u ∧
        (u.slot b).bytes = slotStore [] 0 (s.lakeRead s.sic.copySrc s.sic.copyLen) ∧ (u.slot b).loaded = s.sic.copyLen ∧
        (u.slot b).state = (s.slot b).state ∧ u.sic.busy = .none ∧ u.slot (!b) = s.slot (!b) ∧
        Only [.sic, .reg A.sicLoadOfs] (if ecc = [] then [] else [.lakeCtl, .sent, .regs 0x5C0000]) s u) ∧
  -- COPY_DONE with an uncorrectable codeword in the source leaves the slot INVALID (R39, R249).
  (∀ (s : State) (b : Bool) (ecc : List (Nat × Ecc)),
    s.on = true → s.sic.busy = .copy b → s.copyReach s.sic.copySrc s.sic.copyLen = true → (0, Ecc.bad) ∈ ecc → 0 < s.sic.copyLen →
      ∃ u, Sys2Proof.Machine.exec (.copyDone ecc) s = .next u ∧ (u.slot b).state = .invalid ∧ u.sic.busy = .none ∧ u.slot (!b) = s.slot (!b) ∧
        Only [.sic] [.lakeCtl, .sent, .regs 0x5C0000] s u) ∧
  -- COPY_DONE of a source outside the readout buffers is refused and counted, and leaves the slot INVALID (R38, R248).
  (∀ (s : State) (b : Bool) (ecc : List (Nat × Ecc)),
    s.on = true → s.sic.busy = .copy b → s.copyReach s.sic.copySrc s.sic.copyLen = false →
      ∃ u, Sys2Proof.Machine.exec (.copyDone ecc) s = .next u ∧ (u.slot b).state = .invalid ∧ u.sic.busy = .none ∧ u.slot (!b) = s.slot (!b) ∧ u.b A.lakeEvt 5 = true ∧
        Only [.sic, .reg A.lakeCntFence, .reg A.lakeEvt] [] s u) ∧
  -- CHECK (R38, R40): a slot that holds an image is CHECKING, and the controller is BUSY.
  (∀ (s : State) (b : Bool),
    sicFree s → s.isActive b = false → (s.slot b).state ∈ [SlotState.loaded, .valid, .invalid] →
      ∃ u, Sys2Proof.Machine.exec (.check b) s = .next u ∧ (u.slot b).state = .checking ∧ u.sic.busy = .check b ∧ (u.slot b).bytes = (s.slot b).bytes ∧
        Only [.sic, .reg A.sicStatus] [] s u) ∧
  -- CHECK of a slot that holds no image is refused with BAD_STATE (R38, R39).
  (∀ (s : State) (b : Bool),
    sicFree s → (s.slot b).state ∉ [SlotState.loaded, .valid, .invalid] →
      ∃ u, Sys2Proof.Machine.exec (.check b) s = .next u ∧ u.rd A.sicErr = 0x26#32 ∧ Only [.reg A.sicErr] [] s u) ∧
  -- CHECK_DONE (R40): a slot that passes is VALID with SIC_ERR 0, one that fails is INVALID with the check's code, and CHECK_DONE is raised.
  (∀ (s : State) (b : Bool),
    s.on = true → s.sic.busy = .check b →
      ∃ u, Sys2Proof.Machine.exec .checkDone s = .next u ∧
        u.b A.sicEvt 0 = true ∧ u.sic.busy = .none ∧ u.slot (!b) = s.slot (!b) ∧ Only [.sic, .reg A.sicErr, .reg A.sicEvt] [] s u ∧
        (failure (s.checkSlot b) = none → (u.slot b).state = .valid ∧ u.rd A.sicErr = 0#32) ∧
        (∀ c ∈ failure (s.checkSlot b), (u.slot b).state = .invalid ∧ u.f A.sicErr 7 0 = c % 256)) ∧
  -- CHECK_DONE (R35 to R37, R40, Table 2.4): the slot is VALID if its image passes every test of Table 2.4, in magic, format, length, part, header and
  -- image check values, directory, sections, signature, serial number and feasibility; else it is INVALID and SIC_ERR has the code of the first test in
  -- the table's order that fails.
  (∀ (s : State) (b : Bool),
    s.on = true → s.sic.busy = .check b →
      ∃ u, Sys2Proof.Machine.exec .checkDone s = .next u ∧
        let e := checkCode (s.slot b).bytes (s.slot b).loaded s.power.stepping (s.rd A.sicSerialFloor).toNat s.lakeCap s.lakeSustained s.keyBytes
        ((u.slot b).state = if e = none then .valid else .invalid) ∧ u.f A.sicErr 7 0 = e.getD 0 ∧ u.b A.sicEvt 0 = true ∧
        Only [.sic, .reg A.sicErr, .reg A.sicEvt] [] s u)

/-- A structure commit prepares, waits for its marks, switches and settles. Its clauses cite their rules. -/
def Obligations.StructureCommitSwitchesHitlessly : Prop :=
  -- COMMIT (R42): a VALID slot whose affected active groups have a common frame mark source, or with FORCE, is ARMED, and the commit is in Prepare; no
  -- group has switched.
  (∀ (s : State) (b force probation : Bool),
    sicFree s → s.isActive b = false → (s.slot b).state = .valid →
    (force = true ∨ s.allCommon (((List.range 12).filter (groupAffected s.str (s.slotStructure b))).filter s.activeGroup) = true) →
      ∃ u, Sys2Proof.Machine.exec (.commit b force probation) s = .next u ∧
        (u.slot b).state = .armed ∧ u.sic.phase = .prepare ∧ u.sic.next = s.slotStructure b ∧ u.str = s.str ∧
        u.sic.probation = probation ∧ u.slot (!b) = s.slot (!b) ∧ Only [.sic, .reg A.sicStatus, .reg A.sicSwapStat] [] s u) ∧
  -- COMMIT without FORCE while active groups that it affects have no common frame mark source is refused with NO_COMMON_MARK (R42).
  (∀ (s : State) (b probation : Bool),
    sicFree s → s.isActive b = false → (s.slot b).state = .valid →
    s.allCommon (((List.range 12).filter (groupAffected s.str (s.slotStructure b))).filter s.activeGroup) = false →
      ∃ u, Sys2Proof.Machine.exec (.commit b false probation) s = .next u ∧ u.rd A.sicErr = 0x22#32 ∧ Only [.reg A.sicErr] [] s u) ∧
  -- COMMIT of a slot that is not VALID is refused with NOT_VALID (Table 2.10).
  (∀ (s : State) (b force probation : Bool),
    sicFree s → s.isActive b = false → (s.slot b).state ≠ .valid →
      ∃ u, Sys2Proof.Machine.exec (.commit b force probation) s = .next u ∧ u.rd A.sicErr = 0x21#32 ∧ Only [.reg A.sicErr] [] s u) ∧
  -- PREPARE_DONE (R42): the commit is Armed.
  (∀ (s : State),
    s.on = true → s.sic.phase = .prepare → ∃ u, Sys2Proof.Machine.exec .prepareDone s = .next u ∧ u.sic.phase = .armed ∧ u.str = s.str ∧ Only [.sic] [] s u) ∧
  -- SWAP_SWITCH (R42): at a round boundary with the swap instant past, the new structure is in force and Switch is in progress; Settle follows.
  (∀ (s : State),
    s.on = true → s.switchDue = true →
      ∃ u, Sys2Proof.Machine.exec .swapSwitch s = .next u ∧ u.str = s.sic.next ∧ u.sic.old = s.str ∧ u.sic.activeB = s.sic.target ∧ u.sic.phase = .switch ∧
        u.slot false = s.slot false ∧ u.slot true = s.slot true ∧
        ((∀ e ∈ s.sic.next.kept, e.force = false) →
          (∀ n : Fin 32, (u.spr[n]).pond = (s.spr[n]).pond) ∧ ∀ n : Fin 16, (u.out[n]).pond = (s.out[n]).pond) ∧
        Only [] [.regs 0x10000, .regs 0x100000, .regs 0x180000, .regs 0x200000, .regs 0x280000, .regs 0x300000, .regs 0x400000,
          .regs 0x410000, .regs 0x440000, .regs 0x480000, .regs 0x500000, .regs 0x540000, .regs 0x580000, .regs 0x5C0000, .regs 0x600000,
          .regs 0x620000, .regs 0x640000, .regs 0x680000, .regs 0x6C0000, .regs 0x6E0000, .regs 0x700000, .commits, .staged, .drains, .groups,
          .keep, .links, .streams, .portModes, .power, .sic, .springs, .stalls, .str, .tallies, .timeBases, .tnrs, .twoWire, .transports, .loads,
          .seams, .gens, .draws, .sent, .webPos, .gpio, .ptp, .sources, .crcs] s u) ∧
  -- SWAP_SWITCH with no commit due changes nothing (R42).
  (∀ (s : State),
   s.switchDue = false → Sys2Proof.Machine.exec .swapSwitch s = .next s) ∧
  -- SWAP_RESOURCE_FREE (R42, R44, R48): a resource that settles and that no old frame uses passes to its new use.
  (∀ (s : State) (r : Fin 28),
    let x : SwapRes := if r.val < 12 then .group r else .stream (r - 12)
    let rest := s.sic.settling.filter (· != x)
    s.on = true → s.sic.phase = .settle → x ∈ s.sic.settling → s.resFree x = true →
      ∃ u, Sys2Proof.Machine.exec (.swapResourceFree r) s = .next u ∧ u.sic.settling = rest ∧ u.str = s.str ∧
        (rest ≠ [] → u.sic = { s.sic with settling := rest } ∧ Only [.sic] [] s u) ∧
        (rest = [] → u.b A.sicEvt 1 = true ∧ u.sic.phase = (if s.sic.probation then .probation else .idle) ∧
          (s.str.bare = false → (u.slot s.sic.target).state = (if s.sic.probation then .probation else .active) ∧
            (s.sic.old.bare = false → (u.slot (!s.sic.target)).state = .valid)) ∧
          (s.sic.probation = true → u.sic.probeSince = s.now) ∧
          ((s.sic.probation = true ∨ s.sic.revert = true) → u.sic.bootB = s.sic.bootB ∧ u.keep = s.keep) ∧
          (s.sic.probation = false → s.sic.revert = false → u.sic.bootB = s.sic.target ∧ (s.keep.recs.length = 7 → systemWritten s u))) ∧
        Only [.sic, .keep, .draws, .reg A.sicEvt, .reg A.keepCntCommit] [] s u) ∧
  -- SWAP_RESOURCE_FREE of a resource that does not settle, or that old-frame lines still use, changes nothing.
  (∀ (s : State) (r : Fin 28),
    let x : SwapRes := if r.val < 12 then .group r else .stream (r - 12)
    s.on = true → s.sic.phase ≠ .switch → (s.sic.phase ≠ .settle ∨ x ∉ s.sic.settling ∨ s.resFree x = false) → Sys2Proof.Machine.exec (.swapResourceFree r) s = .next s)

/-- A commit ends by ABORT, timeout, CONFIRM or a revert from probation, and a drained window answers no more. Its clauses cite their rules. -/
def Obligations.StructureCommitEndsByAbortTimeoutOrConfirm : Prop :=
  -- ABORT before Switch (R47, R49): the commit is abandoned and the slot is VALID again; the structure in force stays, on probation again where the commit
  -- was a revert.
  (∀ (s : State),
    s.on = true → (s.sic.phase = .prepare ∨ s.sic.phase = .armed) →
      ∃ u, Sys2Proof.Machine.exec .abort s = .next u ∧ u.sic.phase = (if s.sic.revert then .probation else .idle) ∧
        (s.sic.revert = false → (u.slot s.sic.target).state = .valid) ∧ u.f A.sicErr 7 0 = 0x24 ∧ u.b A.sicEvt 2 = true ∧
        u.str = s.str ∧ Only [.sic, .reg A.sicErr, .reg A.sicEvt, .reg A.sicStatus] [] s u) ∧
  -- ABORT in Probation starts the commit back to the previous structure (R48, R49).
  (∀ (s : State),
    s.on = true → s.sic.phase = .probation →
      ∃ u, Sys2Proof.Machine.exec .abort s = .next u ∧ u.sic.phase = .prepare ∧ u.sic.revert = true ∧ u.sic.next = s.sic.old ∧ u.f A.sicErr 7 0 = 0x24 ∧
        u.b A.sicEvt 2 = true ∧ u.str = s.str ∧ Only [.sic, .reg A.sicErr, .reg A.sicEvt, .reg A.sicStatus, .reg A.sicSwapStat] [] s u) ∧
  -- ABORT with no commit before Switch and none on probation is refused: with BUSY while another command is under way and no commit is, else with
  -- BAD_STATE (R47, R52).
  (∀ (s : State),
    s.on = true → s.sic.phase ≠ .prepare → s.sic.phase ≠ .armed → s.sic.phase ≠ .probation →
      ∃ u, Sys2Proof.Machine.exec .abort s = .next u ∧ u.rd A.sicErr = (if s.sic.phase = .idle ∧ s.sic.busy ≠ .none then 0x20#32 else 0x26#32) ∧ Only [.reg A.sicErr] [] s u) ∧
  -- COMMIT_TIMEOUT (R47): no swap instant within SIC_COMMIT_TMO, clamped to 1 ms to 600 s, abandons the commit.
  (∀ (s : State),
    s.on = true → (s.sic.phase = .prepare ∨ s.sic.phase = .armed) → s.sic.instant = false → s.sic.revert = false →
    s.sic.since + 1000000 * clampN 1 600000 (s.rd A.sicCommitTmo).toNat ≤ s.now →
      ∃ u, Sys2Proof.Machine.exec .commitTimeout s = .next u ∧ u.sic.phase = .idle ∧ (u.slot s.sic.target).state = .valid ∧ u.f A.sicErr 7 0 = 0x23 ∧
        u.b A.sicEvt 2 = true ∧ u.str = s.str ∧ Only [.sic, .reg A.sicErr, .reg A.sicEvt] [] s u) ∧
  -- COMMIT_TIMEOUT before its time, after the swap instant, or of a revert, which waits for its instant, changes nothing (R47).
  (∀ (s : State),
    (s.sic.phase ≠ .prepare ∧ s.sic.phase ≠ .armed ∨ s.sic.instant = true ∨ s.sic.revert = true ∨
      s.now < s.sic.since + 1000000 * clampN 1 600000 (s.rd A.sicCommitTmo).toNat) → Sys2Proof.Machine.exec .commitTimeout s = .next s) ∧
  -- CONFIRM (R48): the structure on probation is ACTIVE, and the boot pointer names its slot, in the SYSTEM record too.
  (∀ (s : State),
    s.on = true → s.sic.busy = .none → s.sic.phase = .probation →
      ∃ u, Sys2Proof.Machine.exec .confirm s = .next u ∧ u.sic.phase = .idle ∧ (u.slot s.sic.target).state = .active ∧ u.slot (!s.sic.target) = s.slot (!s.sic.target) ∧
        u.sic.bootB = s.sic.target ∧ u.str = s.str ∧ (s.keep.recs.length = 7 → systemWritten s u) ∧
        Only [.sic, .keep, .draws, .reg A.sicStatus, .reg A.keepCntCommit] [] s u) ∧
  -- CONFIRM outside Probation is refused with BAD_STATE (R49).
  (∀ (s : State),
    sicFree s → ∃ u, Sys2Proof.Machine.exec .confirm s = .next u ∧ u.rd A.sicErr = 0x26#32 ∧ Only [.reg A.sicErr] [] s u) ∧
  -- PROBATION_REVERT (R48): when SIC_PROBE_TMO has passed, the commit back to the previous structure starts.
  (∀ (s : State),
    s.on = true → s.sic.phase = .probation → s.sic.probeSince + 1000000 * clampN 1 3600000 (s.rd A.sicProbeTmo).toNat ≤ s.now →
      ∃ u, Sys2Proof.Machine.exec .probationRevert s = .next u ∧ u.sic.phase = .prepare ∧ u.sic.revert = true ∧ u.sic.next = s.sic.old ∧ u.f A.sicErr 7 0 = 0x25 ∧
        u.b A.sicEvt 2 = true ∧ Only [.sic, .reg A.sicErr, .reg A.sicEvt, .reg A.sicSwapStat] [] s u) ∧
  -- WINDOW_DRAIN_END (R229, R53): a window that drains on an old binding and whose SIC_DRAIN_TMO has passed ends, the oldest that is due: what it still
  -- holds is in its gap record; with no gap to report it is gone.
  (∀ (s : State) (n : Fin 16) (d : Drain),
    s.on = true → s.drains.find? (fun d => d.stream == n.val && !d.ended && decide (d.from_ + s.drainTmo ≤ s.now)) = some d →
      ∃ u, Sys2Proof.Machine.exec (.windowDrainEnd n) s = .next u ∧
        (∀ e ∈ u.drains, e.key = d.key → e.ended = true ∧ e.xpt.held = [] ∧ e.xpt.gap.isSome = true ∧ e.stream = d.stream ∧ e.rec_ = d.rec_) ∧
        (d.xpt.held.any (fun h => !h.acked) = true → (u.drains.map (·.key)) = s.drains.map (·.key)) ∧
        u.drains.filter (fun e => e.key != d.key) = s.drains.filter (fun e => e.key != d.key) ∧
        Only [.drains, .reg (A.xptCntRetired n), .reg (A.xptCntGap n), .reg (A.xptEvt n)] [.bytes] s u)

/-- Public keys are installed and locked, and the serial floor is raised. Its clauses cite their rules. -/
def Obligations.KeysAndFloorOnlyAdvance : Prop :=
  -- INSTALL_KEY (R36): the key that the staging words hold starts to be written to an unlocked slot other than 0.
  (∀ (s : State) (k : Fin 4),
    sicFree s → k ≠ 0 → s.keyLocked k = false →
      ∃ u, Sys2Proof.Machine.exec (.installKey k) s = .next u ∧ u.sic.busy = .installKey k ∧ u.sic.keyNew = s.sic.keyStage ∧ Only [.sic, .reg A.sicStatus] [] s u) ∧
  -- INSTALL_KEY of key 0 or of a locked slot is refused with BAD_STATE (R36).
  (∀ (s : State) (k : Fin 4),
    sicFree s → (k = 0 ∨ s.keyLocked k = true) → ∃ u, Sys2Proof.Machine.exec (.installKey k) s = .next u ∧ u.rd A.sicErr = 0x26#32 ∧ Only [.reg A.sicErr] [] s u) ∧
  -- INSTALL_KEY_DONE (R36): the eight words of the key stand in the slot, and the key commit is asked for.
  (∀ (s : State) (k : Fin 4),
    s.on = true → s.sic.busy = .installKey k →
      ∃ u, Sys2Proof.Machine.exec .installKeyDone s = .next u ∧
        (∀ i : Fin 8, u.rd (A.sicPubkey (8 * k + i)) = s.sic.keyNew.getD i 0#32) ∧ u.sic.busy = .none ∧ u.keep.busy = true ∧
        Only ([.sic, .keep] ++ (List.range 8).map (fun i => .reg (A.sicPubkey (8 * k + i)))) [] s u) ∧
  -- LOCK_KEY (R36): the key slot is locked.
  (∀ (s : State) (k : Fin 4),
    sicFree s → ∃ u, Sys2Proof.Machine.exec (.lockKey k) s = .next u ∧ u.keyLocked k = true ∧ u.keep.busy = true ∧
      (∀ j : Fin 4, j ≠ k → u.keyLocked j = s.keyLocked j) ∧ Only [.keep, .reg A.sicKeyLock, .reg A.sicStatus] [] s u) ∧
  -- RAISE_FLOOR (R37): with an active image the floor is the larger of what it was and the image's SERIAL: it never decreases.
  (∀ (s : State),
    sicFree s → s.str.bare = false →
      ∃ u, Sys2Proof.Machine.exec .raiseFloor s = .next u ∧ u.rd A.sicSerialFloor = wd (max (s.rd A.sicSerialFloor).toNat s.str.serial) ∧ u.keep.busy = true ∧
        Only [.keep, .reg A.sicSerialFloor, .reg A.sicStatus] [] s u) ∧
  -- RAISE_FLOOR without an active image is refused with BAD_STATE (R37).
  (∀ (s : State),
    sicFree s → s.str.bare = true → ∃ u, Sys2Proof.Machine.exec .raiseFloor s = .next u ∧ u.rd A.sicErr = 0x26#32 ∧ Only [.reg A.sicErr] [] s u)

/-- A Spring is enabled, disabled and deskewed, and counts what its lanes get wrong. Its clauses cite their rules. -/
def Obligations.SpringsEnableDisableAndDeskew : Prop :=
  -- SPRING_ENABLE (R55, R58): a Spring of a group is enabled: it has its lanes and samples its PHY configuration and lane map.
  (∀ (s : State) (n : Fin 32),
    s.on = true → s.b (A.sprCtl n) 0 = false → (s.groupOf n).isSome →
      ∃ u, Sys2Proof.Machine.exec (.springEnable n) s = .next u ∧
        u.b (A.sprCtl n) 0 = true ∧ (u.spr[n]).lanes = s.f (A.sprCtl n) 2 1 + 1 ∧ (u.spr[n]).phyCfg = s.rd (A.sprPhyCfg n) ∧
        (u.spr[n]).laneMap = s.rd (A.sprLaneMap n) ∧ (u.spr[n]).pond = (s.spr[n]).pond ∧
        (¬((List.range (s.f (A.sprCtl n) 2 1 + 1)).map (laneOf (s.rd (A.sprLaneMap n)))).Nodup → (u.spr[n]).st = 1 ∧ (u.spr[n]).lock = 0) ∧
        (((List.range (s.f (A.sprCtl n) 2 1 + 1)).map (laneOf (s.rd (A.sprLaneMap n)))).Nodup → 1500 < s.f (A.sprPhyCfg n) 13 0 →
          (u.spr[n]).st = 2 ∧ (u.spr[n]).lock = 0) ∧
        (((List.range (s.f (A.sprCtl n) 2 1 + 1)).map (laneOf (s.rd (A.sprLaneMap n)))).Nodup → s.f (A.sprPhyCfg n) 13 0 ≤ 1500 →
          (u.spr[n]).st = 1 ∧ (u.spr[n]).lock = 2 ^ (s.f (A.sprCtl n) 2 1 + 1) - 1) ∧
        Only [.spring n, .keep, .reg (A.sprCtl n)] [] s u) ∧
  -- SPRING_ENABLE of an enabled Spring and SPRING_DISABLE of a disabled one change nothing (R55, R76).
  (∀ (s : State) (n : Fin 32),
    (s.b (A.sprCtl n) 0 = true → Sys2Proof.Machine.exec (.springEnable n) s = .next s) ∧ (s.b (A.sprCtl n) 0 = false → Sys2Proof.Machine.exec (.springDisable n) s = .next s)) ∧
  -- SPRING_ENABLE leaves a Spring of no group as it is (Table 3.6).
  (∀ (s : State) (n : Fin 32),
   s.on = true → s.groupOf n = none → Sys2Proof.Machine.exec (.springEnable n) s = .next s) ∧
  -- SPRING_DISABLE (R76): the Spring is off, with no line under construction and no trigger queued; every queued trigger has left.
  (∀ (s : State) (n : Fin 32),
    s.on = true → s.b (A.sprCtl n) 0 = true → (s.spr[n]).queue.length ≤ 17 →
      ∃ u, Sys2Proof.Machine.exec (.springDisable n) s = .next u ∧
        u.b (A.sprCtl n) 0 = false ∧ (u.spr[n]).st = 0 ∧ (u.spr[n]).cur = none ∧ (u.spr[n]).queue = [] ∧ (u.spr[n]).lock = 0 ∧
        Only [.spring n] [.groups, .commits, .staged, .keep, .tnrs, .regs 0x100000, .regs 0x300000, .regs 0x600000] s u) ∧
  -- DESKEW_SEQUENCE (R57, R58): a sequence that finds an eye measures its centre.
  (∀ (s : State) (n : Fin 32) (i : Fin 4) (initial : Bool) (e : Fin 256) (want : Nat),
    s.on = true → 2 ≤ (s.spr[n]).st → i.val < (s.spr[n]).lanes → (initial = true ∨ s.b (A.sprCtl n) 14 = true) →
    want = (if initial then e.val else if s.f (A.sprDskVal n i) 7 0 ≤ e.val
      then s.f (A.sprDskVal n i) 7 0 + min (e.val - s.f (A.sprDskVal n i) 7 0) (atLeast1 (s.f (A.sprDskWin n i) 19 16))
      else s.f (A.sprDskVal n i) 7 0 - min (s.f (A.sprDskVal n i) 7 0 - e.val) (atLeast1 (s.f (A.sprDskWin n i) 19 16))) →
      ∃ u, Sys2Proof.Machine.exec (.deskewSequence n i initial (some e)) s = .next u ∧
        u.f (A.sprDskVal n i) 15 8 = e.val ∧
        (s.b (A.sprDskVal n i) 16 = false →
          u.f (A.sprDskVal n i) 7 0 = (if want < s.f (A.sprDskWin n i) 7 0 then s.f (A.sprDskWin n i) 7 0
            else if s.f (A.sprDskWin n i) 15 8 < want then s.f (A.sprDskWin n i) 15 8 else want) ∧
          (u.b (A.sprDskVal n i) 23 = true ↔ (want < s.f (A.sprDskWin n i) 7 0 ∨ s.f (A.sprDskWin n i) 15 8 < want))) ∧
        (s.b (A.sprDskVal n i) 16 = true → u.f (A.sprDskVal n i) 7 0 = s.f (A.sprDskVal n i) 7 0) ∧
        (initial = true ∨ (s.spr[n]).deskewed.testBit i = true → (u.spr[n]).lock.testBit i = true) ∧
        (∀ j : Fin 4, j ≠ i → (u.spr[n]).lock.testBit j = (s.spr[n]).lock.testBit j) ∧
        Only [.spring n, .keep, .reg (A.sprDskVal n i), .reg (A.sprEvt n)] [] s u) ∧
  -- DESKEW_SEQUENCE, initial, of the last lane in use takes the Spring from DESKEW to RUN (R58).
  (∀ (s : State) (n : Fin 32) (i : Fin 4) (e : Fin 256),
    s.on = true → (s.spr[n]).st = 2 → i.val < (s.spr[n]).lanes →
    ((s.spr[n]).deskewed ||| 2 ^ i.val) % 2 ^ (s.spr[n]).lanes = 2 ^ (s.spr[n]).lanes - 1 →
      ∃ u, Sys2Proof.Machine.exec (.deskewSequence n i true (some e)) s = .next u ∧ (u.spr[n]).st = 3 ∧
        Only [.spring n, .keep, .reg (A.sprDskVal n i), .reg (A.sprEvt n)] [] s u) ∧
  -- DESKEW_SEQUENCE that finds no eye counts a PHY error and unlocks the lane (R58, R68).
  (∀ (s : State) (n : Fin 32) (i : Fin 4) (initial : Bool),
    s.on = true → 2 ≤ (s.spr[n]).st → i.val < (s.spr[n]).lanes → (initial = true ∨ s.b (A.sprCtl n) 14 = true) →
      ∃ u, Sys2Proof.Machine.exec (.deskewSequence n i initial none) s = .next u ∧
        (u.spr[n]).lock.testBit i = false ∧ u.b (A.sprEvt n) 5 = true ∧ (u.spr[n]).st = (s.spr[n]).st ∧
        (u.rd (A.sprCntPhy n)).toNat = min 0xFFFFFFFF ((s.rd (A.sprCntPhy n)).toNat + 1) ∧
        Only [.spring n, .reg (A.sprCntPhy n), .reg (A.sprEvt n), .reg (A.sprLastErr n)] [] s u) ∧
  -- DESKEW_SEQUENCE of a disabled Spring, of a lane that is not in use, or a periodic one that is not enabled changes nothing (R57, R58).
  (∀ (s : State) (n : Fin 32) (i : Fin 4) (initial : Bool) (eye : Option (Fin 256)),
    ((s.spr[n]).st = 0 ∨ (s.spr[n]).lanes ≤ i.val ∨ (initial = false ∧ s.b (A.sprCtl n) 14 = false)) →
      Sys2Proof.Machine.exec (.deskewSequence n i initial eye) s = .next s) ∧
  -- DSK_VALUE_WRITE (R57): the value and the pin stand as written; a value outside the window moves the bound and raises the event.
  (∀ (s : State) (n : Fin 32) (i : Fin 4) (v : Fin 256) (pin : Bool),
    s.on = true →
      ∃ u, Sys2Proof.Machine.exec (.dskValueWrite n i v pin) s = .next u ∧
        u.f (A.sprDskVal n i) 7 0 = v.val ∧ u.b (A.sprDskVal n i) 16 = pin ∧
        (v.val < s.f (A.sprDskWin n i) 7 0 → u.f (A.sprDskWin n i) 7 0 = v.val ∧ u.b (A.sprEvt n) 12 = true) ∧
        (s.f (A.sprDskWin n i) 7 0 ≤ v.val → s.f (A.sprDskWin n i) 15 8 < v.val → u.f (A.sprDskWin n i) 15 8 = v.val ∧ u.b (A.sprEvt n) 12 = true) ∧
        (s.f (A.sprDskWin n i) 7 0 ≤ v.val → v.val ≤ s.f (A.sprDskWin n i) 15 8 →
          Only [.keep, .reg (A.sprDskVal n i)] [] s u) ∧
        Only [.keep, .reg (A.sprDskVal n i), .reg (A.sprDskWin n i), .reg (A.sprEvt n), .reg (A.sprLastErr n)] [] s u) ∧
  -- DSK_WINDOW_WRITE (R57): a window with MIN at most MAX stands as written; otherwise one bound moves to the other, so that MIN is never above MAX.
  (∀ (s : State) (n : Fin 32) (i : Fin 4) (lo hi : Fin 256) (step : Fin 16),
    s.on = true →
      ∃ u, Sys2Proof.Machine.exec (.dskWindowWrite n i lo hi step) s = .next u ∧
        u.f (A.sprDskWin n i) 7 0 ≤ u.f (A.sprDskWin n i) 15 8 ∧ u.f (A.sprDskWin n i) 19 16 = step.val ∧
        (lo ≤ hi → u.f (A.sprDskWin n i) 7 0 = lo.val ∧ u.f (A.sprDskWin n i) 15 8 = hi.val) ∧
        Only [.keep, .reg (A.sprDskWin n i)] [] s u) ∧
  -- PHY_ERROR (R54, R68): a PHY error on an enabled Spring, in IDLE, DESKEW or RUN, is counted and raised.
  (∀ (s : State) (n : Fin 32),
    s.on = true → (s.spr[n]).listens = true →
      ∃ u, Sys2Proof.Machine.exec (.phyError n) s = .next u ∧ u.b (A.sprEvt n) 5 = true ∧
        (u.rd (A.sprCntPhy n)).toNat = min 0xFFFFFFFF ((s.rd (A.sprCntPhy n)).toNat + 1) ∧ (u.spr[n]).pond = (s.spr[n]).pond ∧
        Only [.spring n, .reg (A.sprCntPhy n), .reg (A.sprEvt n), .reg (A.sprLastErr n)] [] s u) ∧
  -- PHY_ERROR on a Spring that is disabled, or left in IDLE by two lanes on one ball pair, changes nothing (R55, R68).
  (∀ (s : State) (n : Fin 32),
   (s.spr[n]).listens = false → Sys2Proof.Machine.exec (.phyError n) s = .next s)

/-- Packets of a sensor are judged, associated with triggers and assembled, and a trigger that expires leaves a filler. Its clauses cite their rules. -/
def Obligations.SensorPacketsBecomeLines : Prop :=
  -- LONG_PACKET (R59, R61, R63, R64, R66): the only packet of a triggered line, with a sound header, inside the latency window, with no commit waiting and
  -- room in the pond: the oldest trigger leaves the queue, and one complete line item with that trigger's frame and line joins the pond, is counted, and
  -- tells of a CRC that does not match.
  (∀ (s : State) (n : Fin 32) (pairs : List Bytes) (p : Packet) (m : Nat) (g : Fin 12) (e : TrigEntry),
    s.on = true → (s.spr[n]).receives = true → s.packetOf n pairs = p → p.ecc = 0 → p.vcx = 0 → 16 ≤ p.dt → s.b (A.sprCtl n) 7 = false →
    s.f (A.sprCtl n) 13 12 ≠ 1 → (s.spr[n]).cur = none → s.groupOf n = some g.val → s.mapEntries n = [m] → s.entriesFor n p.vc p.dt = [m] →
    (s.spr[n]).queue.head? = some e → e.cycle + s.f (A.sprTrigLat n) 15 0 * 10 ≤ s.now → s.now ≤ e.cycle + s.f (A.sprTrigLat n) 31 16 * 10 →
    s.waiting (A.sprCommit n) = none → (s.grp[g]).isCut e.tag = false → (s.spr[n]).pond.all (·.done) = true →
    pondFill (s.spr[n]).pond + s.unseen n + s.itemSize n (s.group g).channels + 64 ≤ ingressSize →
      ∃ u, Sys2Proof.Machine.exec (.longPacket n pairs) s = .next u ∧
        (u.spr[n]).queue = (s.spr[n]).queue.drop 1 ∧ (u.spr[n]).cur = none ∧
        (u.spr[n]).pond.length = (s.spr[n]).pond.length + 1 ∧ (u.spr[n]).pond.take (s.spr[n]).pond.length = (s.spr[n]).pond ∧
        (∀ i ∈ (u.spr[n]).pond.getLast?, i.done = true ∧ i.trig = e.tag ∧ i.tag.frame = e.tag.frame ∧ i.tag.line = e.tag.line ∧
          i.flags.testBit 0 = (some (crc16 p.payload) != p.crc) ∧ i.size = s.itemSize n (s.group g).channels) ∧
        u.rd (A.sprLastFrame n) = wd e.tag.frame ∧ Only [.spring n, .draws] [.regs 0x100000, .regs 0x600000] s u) ∧
  -- LONG_PACKET or SHORT_PACKET with an uncorrectable header is counted and otherwise ignored (R59, R68).
  (∀ (s : State) (n : Fin 32) (pairs : List Bytes) (long : Bool),
    s.on = true → (s.spr[n]).receives = true → (s.packetOf n pairs).ecc = 2 →
      ∃ u, Sys2Proof.Machine.exec (if long then .longPacket n pairs else .shortPacket n pairs) s = .next u ∧
        u.b (A.sprEvt n) 15 = true ∧ (u.rd (A.sprCntEccUnc n)).toNat = min 0xFFFFFFFF ((s.rd (A.sprCntEccUnc n)).toNat + 1) ∧
        (u.spr[n]).pond = (s.spr[n]).pond ∧ (u.spr[n]).cur = (s.spr[n]).cur ∧ (u.spr[n]).queue = (s.spr[n]).queue ∧
        Only [.spring n, .reg (A.sprCntEccUnc n), .reg (A.sprEvt n), .reg (A.sprLastErr n)] [] s u) ∧
  -- LONG_PACKET, for every packet (R63 to R70): it touches the Springs, the group's frames and their registers, never the structure, the Lake, the
  -- sessions, the engine or the outputs.
  (∀ (s : State) (n : Fin 32) (pairs : List Bytes),
   ∃ u, Sys2Proof.Machine.exec (.longPacket n pairs) s = .next u ∧ Only [] ingressKinds s u) ∧
  -- LONG_PACKET on a virtual channel beyond the fourth, outside a sensor frame that is tracked, or that no map entry takes is unexpected: counted, and its
  -- payload is discarded (R59, R63, R64, R68).
  (∀ (s : State) (n : Fin 32) (pairs : List Bytes),
    s.on = true → (s.spr[n]).receives = true → (s.packetOf n pairs).ecc = 0 → s.waiting (A.sprCommit n) = none → 16 ≤ (s.packetOf n pairs).dt →
    ((s.packetOf n pairs).vcx ≠ 0 ∨ s.frameShut n (s.packetOf n pairs).vc = true ∨
      s.entriesFor n (s.packetOf n pairs).vc (s.packetOf n pairs).dt = []) →
      ∃ u, Sys2Proof.Machine.exec (.longPacket n pairs) s = .next u ∧
        (u.rd (A.sprCntUnexp n)).toNat = min 0xFFFFFFFF ((s.rd (A.sprCntUnexp n)).toNat + 1) ∧ (u.spr[n]).pond = (s.spr[n]).pond ∧
        (u.spr[n]).cur = (s.spr[n]).cur ∧ (u.spr[n]).queue = (s.spr[n]).queue ∧
        Only [.spring n, .reg (A.sprCntUnexp n), .reg (A.sprEvt n), .reg (A.sprLastErr n)] [] s u) ∧
  -- LONG_PACKET or SHORT_PACKET in DESKEW, or in RUN with a lane that is not locked, is a PHY error: counted, and discarded (R58, R68); a disabled Spring
  -- receives nothing (R76).
  (∀ (s : State) (n : Fin 32) (pairs : List Bytes) (long : Bool),
    s.on = true → (s.spr[n]).st ≠ 1 →
      (2 ≤ (s.spr[n]).st → (s.spr[n]).receives = false → ∃ u, Sys2Proof.Machine.exec (if long then .longPacket n pairs else .shortPacket n pairs) s = .next u ∧
        (u.rd (A.sprCntPhy n)).toNat = min 0xFFFFFFFF ((s.rd (A.sprCntPhy n)).toNat + 1) ∧ (u.spr[n]).pond = (s.spr[n]).pond ∧
        (u.spr[n]).cur = (s.spr[n]).cur ∧ (u.spr[n]).queue = (s.spr[n]).queue ∧
        Only [.spring n, .reg (A.sprCntPhy n), .reg (A.sprEvt n), .reg (A.sprLastErr n)] [] s u) ∧
      ((s.spr[n]).st = 0 → Sys2Proof.Machine.exec (if long then .longPacket n pairs else .shortPacket n pairs) s = .next s)) ∧
  -- SHORT_PACKET with a sound header (R59, R64): with frames tracked, a frame start opens its virtual channel, counted as a frame without frame end where
  -- it is open, and a frame end closes it; with frames not tracked both are ignored, as line and generic packets always are; the reserved types are
  -- unexpected.
  (∀ (s : State) (n : Fin 32) (pairs : List Bytes) (p : Packet),
    s.on = true → (s.spr[n]).receives = true → s.packetOf n pairs = p → p.ecc = 0 → p.vcx = 0 → p.dt < 16 → p.vc < 4 →
      ∃ u, Sys2Proof.Machine.exec (.shortPacket n pairs) s = .next u ∧
        (u.spr[n]).pond = (s.spr[n]).pond ∧ (u.spr[n]).cur = (s.spr[n]).cur ∧ (u.spr[n]).queue = (s.spr[n]).queue ∧
        (∀ w : Fin 4, (u.spr[n]).frameOpen.testBit w = (if s.b (A.sprCtl n) 7 = true ∧ w.val = p.vc ∧ p.dt = 0 then true
          else if s.b (A.sprCtl n) 7 = true ∧ w.val = p.vc ∧ p.dt = 1 then false else (s.spr[n]).frameOpen.testBit w)) ∧
        (p.dt = 0 → s.b (A.sprCtl n) 7 = true → (s.spr[n]).frameOpen.testBit p.vc = true →
          (u.rd (A.sprCntNoFe n)).toNat = min 0xFFFFFFFF ((s.rd (A.sprCntNoFe n)).toNat + 1)) ∧
        (4 ≤ p.dt → p.dt ≤ 7 → (u.rd (A.sprCntUnexp n)).toNat = min 0xFFFFFFFF ((s.rd (A.sprCntUnexp n)).toNat + 1)) ∧
        Only [.spring n, .reg (A.sprCntNoFe n), .reg (A.sprCntUnexp n), .reg (A.sprEvt n), .reg (A.sprLastErr n)] [] s u) ∧
  -- LINE_ASSOCIATION (R66): a line that answers no queued trigger is untriggered: it is counted, and its samples are dropped.
  (∀ (s : State) (n : Fin 32) (vc : Fin 4) (dt : Fin 64),
    s.on = true → (s.spr[n]).receives = true → (s.spr[n]).cur = none → ((s.groupOf n).bind (fin? 12)).isSome → s.f (A.sprCtl n) 13 12 ≠ 1 →
    s.frameShut n vc = false → s.entriesFor n vc dt ≠ [] → s.waiting (A.sprCommit n) = none →
    (∀ e ∈ (s.spr[n]).queue.head?, s.now < e.cycle + s.f (A.sprTrigLat n) 15 0 * 10 ∨ e.cycle + s.f (A.sprTrigLat n) 31 16 * 10 < s.now) →
      ∃ u, Sys2Proof.Machine.exec (.lineAssociation n vc dt) s = .next u ∧
        (u.rd (A.sprCntUntrig n)).toNat = min 0xFFFFFFFF ((s.rd (A.sprCntUntrig n)).toNat + 1) ∧
        (∀ o ∈ (u.spr[n]).cur, o.drop = true ∧ o.start = s.now) ∧ (u.spr[n]).cur.isSome ∧ (u.spr[n]).pond = (s.spr[n]).pond ∧
        (u.spr[n]).queue = (s.spr[n]).queue ∧
        Only [.spring n, .reg (A.sprCntUntrig n), .reg (A.sprEvt n), .reg (A.sprLastErr n)] [] s u) ∧
  -- LINE_ASSOCIATION (R66): inside the latency window the oldest trigger leaves the queue, and the line opens with its frame and line number and with
  -- space in the pond, from this cycle on.
  (∀ (s : State) (n : Fin 32) (vc : Fin 4) (dt : Fin 64) (g : Fin 12) (e : TrigEntry),
    s.on = true → (s.spr[n]).receives = true → (s.spr[n]).cur = none → s.groupOf n = some g.val → s.f (A.sprCtl n) 13 12 ≠ 1 →
    s.frameShut n vc = false → s.entriesFor n vc dt ≠ [] → s.waiting (A.sprCommit n) = none → (s.spr[n]).queue.head? = some e →
    e.cycle + s.f (A.sprTrigLat n) 15 0 * 10 ≤ s.now → s.now ≤ e.cycle + s.f (A.sprTrigLat n) 31 16 * 10 →
    (s.grp[g]).isCut e.tag = false → pondFill (s.spr[n]).pond + s.unseen n + s.itemSize n (s.group g).channels + 64 ≤ ingressSize →
      ∃ u, Sys2Proof.Machine.exec (.lineAssociation n vc dt) s = .next u ∧
        (u.spr[n]).queue = (s.spr[n]).queue.drop 1 ∧ (u.spr[n]).pond.length = (s.spr[n]).pond.length + 1 ∧
        (∃ o, (u.spr[n]).cur = some o ∧ o.drop = false ∧ o.start = s.now ∧ o.trig = e.tag ∧ o.tag.frame = e.tag.frame ∧
          o.tag.line = e.tag.line ∧ o.got = []) ∧ Only [.spring n] [.regs 0x100000, .regs 0x600000] s u) ∧
  -- LINE_ASSOCIATION of a packet that is discarded, with a lane that is not locked or outside a sensor frame that is tracked, begins no line (R58, R64).
  (∀ (s : State) (n : Fin 32) (vc : Fin 4) (dt : Fin 64),
    (s.spr[n]).st ≠ 1 → ((s.spr[n]).receives = false ∨ s.frameShut n vc = true) → Sys2Proof.Machine.exec (.lineAssociation n vc dt) s = .next s) ∧
  -- TRIGGER_EXPIRY (R66): exactly the triggers at the head of the queue that have waited longer than LAT_MAX leave it, the oldest first; the next, which
  -- has not, and all behind it stay.
  (∀ (s : State) (n : Fin 32),
    s.on = true → (s.spr[n]).queue.length ≤ 16 → s.f (A.sprCtl n) 13 12 ≠ 1 →
      ∃ u, Sys2Proof.Machine.exec (.triggerExpiry n) s = .next u ∧
        (u.spr[n]).queue = (s.spr[n]).queue.dropWhile (fun e => decide (e.cycle + s.f (A.sprTrigLat n) 31 16 * 10 < s.now)) ∧
        ((∀ e ∈ (s.spr[n]).queue.head?, s.now ≤ e.cycle + s.f (A.sprTrigLat n) 31 16 * 10) → u = s) ∧
        Only [.spring n] [.groups, .commits, .staged, .keep, .draws, .regs 0x100000, .regs 0x600000] s u) ∧
  -- TRIGGER_EXPIRY (R66, R68): for the one trigger that has expired, with no cut that covers its line, no commit waiting and room in the pond, a filler
  -- line is complete behind the pond's items: all samples 0 in every channel of the group, the trigger's frame, line, time and web position, the flag FILL
  -- alone, and the size of a line item; it is counted in SPRn_CNT_MISSING and the SPRn_LAST registers show it.
  (∀ (s : State) (n : Fin 32) (g : Fin 12) (e : TrigEntry),
    s.on = true → s.groupOf n = some g.val → s.f (A.sprCtl n) 13 12 ≠ 1 → s.waiting (A.sprCommit n) = none →
    (s.spr[n]).queue.head? = some e → e.cycle + s.f (A.sprTrigLat n) 31 16 * 10 < s.now →
    (∀ d ∈ (s.spr[n]).queue.drop 1 |>.head?, s.now ≤ d.cycle + s.f (A.sprTrigLat n) 31 16 * 10) → (s.grp[g]).isCut e.tag = false →
    pondFill (s.spr[n]).pond + s.unseen n + s.itemSize n (s.group g).channels + 64 ≤ ingressSize →
      ∃ u, Sys2Proof.Machine.exec (.triggerExpiry n) s = .next u ∧
        (u.spr[n]).queue = (s.spr[n]).queue.drop 1 ∧
        (u.spr[n]).pond.dropLast = (s.spr[n]).pond ∧ (u.spr[n]).pond.length = (s.spr[n]).pond.length + 1 ∧
        (∀ i ∈ (u.spr[n]).pond.getLast?, i.tag = e.tag ∧ i.trig = e.tag ∧ i.flags = 8 ∧ i.done = true ∧ i.marker = false ∧
          i.chans = List.replicate (s.group g).channels (List.replicate (s.sprCols n) 0) ∧ i.size = s.itemSize n (s.group g).channels) ∧
        (u.rd (A.sprCntMissing n)).toNat = min 0xFFFFFFFF ((s.rd (A.sprCntMissing n)).toNat + 1) ∧
        u.rd (A.sprLastFrame n) = wd e.tag.frame ∧ u.f (A.sprLastInfo n) 3 0 = 8 ∧ u.f (A.sprLastInfo n) 31 8 = e.tag.line % 2 ^ 24 ∧
        u.grp = s.grp ∧ Only [.spring n, .draws] [.regs 0x100000, .regs 0x600000] s u) ∧
  -- ASSEMBLY_TIMEOUT (R63): the open line closes when SPRn_ASM_TMO has passed since it began; a line that has a pond item is counted as partial, and its
  -- item is complete with the flag of a partial line.
  (∀ (s : State) (n : Fin 32) (o : OpenLine),
    s.on = true → (s.spr[n]).cur = some o → o.start + atLeast1 (s.f (A.sprAsmTmo n) 15 0) * 10 ≤ s.now →
      ∃ u, Sys2Proof.Machine.exec (.assemblyTimeout n) s = .next u ∧
        (u.spr[n]).cur = none ∧ (u.spr[n]).queue = (s.spr[n]).queue ∧
        (o.drop = false → (u.rd (A.sprCntAsm n)).toNat = min 0xFFFFFFFF ((s.rd (A.sprCntAsm n)).toNat + 1) ∧
          u.f (A.sprLastInfo n) 2 2 = 1) ∧
        (o.drop = true → (u.spr[n]).pond = (s.spr[n]).pond) ∧ Only [.spring n, .draws] [.regs 0x100000, .regs 0x600000] s u) ∧
  -- The header's ECC (R59, R68; CSI-2's code, log entry 87): a sound header reads as it is, one wrong bit of the 26 header bits or of the 6 check bits is
  -- corrected, and two wrong bits are found.
  (∀ (d : Nat) (i j : Fin 32),
    d < 2 ^ 26 → checkHeader d (headerEcc d) = (0, d) ∧
      (i.val < 26 → checkHeader (d ^^^ 2 ^ i.val) (headerEcc d) = (1, d)) ∧
      (26 ≤ i.val → checkHeader d (headerEcc d ^^^ 2 ^ (i.val - 26)) = (1, d)) ∧
      (i.val < j.val → j.val < 26 → (checkHeader (d ^^^ 2 ^ i.val ^^^ 2 ^ j.val) (headerEcc d)).1 = 2) ∧
      (i.val < 26 → 26 ≤ j.val → (checkHeader (d ^^^ 2 ^ i.val) (headerEcc d ^^^ 2 ^ (j.val - 26))).1 = 2) ∧
      (26 ≤ i.val → i.val < j.val → (checkHeader d (headerEcc d ^^^ 2 ^ (i.val - 26) ^^^ 2 ^ (j.val - 26))).1 = 2)) ∧
  -- Descrambling (R59): a lane's bytes scrambled from a seed and descrambled from the same seed are the lane's bytes.
  (∀ (q : Nat) (bs : Bytes),
   scramble q (scramble q bs) = bs)

/-- A software trigger and a sensor reset drive their pins for their widths. Its clauses cite their rules. -/
def Obligations.SpringPulsesFollowTheirWidths : Prop :=
  -- SOFT_TRIGGER (R73): with the software source selected and no pulse in the way, a pulse of WIDTH goes out after the delay with the polarity of POL,
  -- SOFT reads 1, and with no delay the pin is at its active level; otherwise nothing happens.
  (∀ (s : State) (n : Fin 32) (at_ w : Nat),
    s.on = true → at_ = s.now + s.f (A.sprTrigDly n) 15 0 → w = atLeast1 (s.f (A.sprTrigCtl n) 31 16) →
    (s.f (A.sprTrigCtl n) 3 0 = 5 → (s.groupOf n).isSome → (s.spr[n]).pulseEnd ≤ at_ →
      ∃ u, Sys2Proof.Machine.exec (.softTrigger n) s = .next u ∧
        u.sent = .trig n at_ w (!s.b (A.sprTrigCtl n) 5) :: s.sent ∧ (at_, at_ + w) ∈ (u.spr[n]).pulses ∧ (u.spr[n]).softEnd = some (at_ + w) ∧
        u.b (A.sprTrigCtl n) 6 = true ∧ (at_ = s.now → u.trigLevel n = !s.b (A.sprTrigCtl n) 5) ∧
        Only [.spring n, .sent, .reg (A.sprTrigCtl n)] [] s u) ∧
    ((s.f (A.sprTrigCtl n) 3 0 ≠ 5 ∨ s.groupOf n = none ∨ at_ < (s.spr[n]).pulseEnd) → Sys2Proof.Machine.exec (.softTrigger n) s = .next s)) ∧
  -- TRIGGER_PULSE_END (R73): the pulses that are over have left the pin, which is inactive once none is left, and SOFT reads 0 from the end of the
  -- software pulse on.
  (∀ (s : State) (n : Fin 32),
    s.on = true →
      ∃ u, Sys2Proof.Machine.exec (.triggerPulseEnd n) s = .next u ∧ (u.spr[n]).pulses = (s.spr[n]).pulses.filter (fun p => decide (s.now < p.2)) ∧
        ((∀ p ∈ (s.spr[n]).pulses, p.2 ≤ s.now) → u.trigLevel n = s.b (A.sprTrigCtl n) 5) ∧
        (∀ e ∈ (s.spr[n]).softEnd, e ≤ s.now → u.b (A.sprTrigCtl n) 6 = false ∧ (u.spr[n]).softEnd = none) ∧
        ((∀ e ∈ (s.spr[n]).softEnd, s.now < e) → Only [.spring n] [] s u) ∧ Only [.spring n, .reg (A.sprTrigCtl n)] [] s u) ∧
  -- XRST_PULSE (R74): PULSE reads 1, the pulse runs from now, and the pin is low.
  (∀ (s : State) (n : Fin 32),
    s.on = true → ∃ u, Sys2Proof.Machine.exec (.xrstPulse n) s = .next u ∧ u.b (A.sprXrst n) 1 = true ∧ (u.spr[n]).xrstPulse = some s.now ∧
      u.xrstLevel n = false ∧ Only [.spring n, .reg (A.sprXrst n)] [] s u) ∧
  -- XRST_PULSE_END (R74): WIDTH µs after the pulse began PULSE reads 0, and the pin is at the level that ASSERT gives it; before, and with no pulse,
  -- nothing changes.
  (∀ (s : State) (n : Fin 32) (t0 : Nat),
    s.on = true →
    ((s.spr[n]).xrstPulse = some t0 → t0 + 1000 * atLeast1 (s.f (A.sprXrst n) 31 16) ≤ s.now →
      ∃ u, Sys2Proof.Machine.exec (.xrstPulseEnd n) s = .next u ∧ u.b (A.sprXrst n) 1 = false ∧ (u.spr[n]).xrstPulse = none ∧
        u.xrstLevel n = !s.b (A.sprXrst n) 0 ∧ Only [.spring n, .reg (A.sprXrst n)] [] s u) ∧
    ((∀ t ∈ (s.spr[n]).xrstPulse, s.now < t + 1000 * atLeast1 (s.f (A.sprXrst n) 31 16)) → Sys2Proof.Machine.exec (.xrstPulseEnd n) s = .next s))

/-- Ponds pass packets and items first in first out, and a pointer mismatch resets the pond. Its clauses cite their rules. -/
def Obligations.PondsResetAndPass : Prop :=
  -- POND_POINTER_MISMATCH (R317): the pond is reset, counted in PND_CNT_RESETS and its own counter, named in PND_STATUS, and raised.
  (∀ (s : State) (p : Fin 86),
    s.on = true →
      ∃ u, Sys2Proof.Machine.exec (.pondPointerMismatch p) s = .next u ∧
        (u.rd A.pndCntResets).toNat = min 0xFFFFFFFF ((s.rd A.pndCntResets).toNat + 1) ∧
        (u.rd (A.pndpResets p)).toNat = min 0xFFFFFFFF ((s.rd (A.pndpResets p)).toNat + 1) ∧ u.rd A.pndStatus = wd p.val ∧
        u.b A.pndEvt 0 = true ∧ u.readPtr[p] = 0 ∧ (∀ q : Fin 86, q ≠ p → u.readPtr[q] = s.readPtr[q]) ∧ Only [] pondKinds s u) ∧
  -- POND_INJECT (R317, Table 14.6): the key with an SRAM pond's number resets that pond.
  (∀ (s : State) (v : Word),
    s.on = true → fld v 31 16 = 0xD00D → fld v 7 0 < 86 →
      ∃ u, Sys2Proof.Machine.exec (.pondInject v) s = .next u ∧
        (u.rd (A.pndpResets (fld v 7 0))).toNat = min 0xFFFFFFFF ((s.rd (A.pndpResets (fld v 7 0))).toNat + 1) ∧
        u.rd A.pndStatus = wd (fld v 7 0) ∧ u.b A.pndEvt 0 = true ∧ Only [] pondKinds s u) ∧
  -- POND_INJECT with another key, or for a pond that is no SRAM pond, changes nothing (Table 14.6).
  (∀ (s : State) (v : Word),
    s.on = true → (fld v 31 16 ≠ 0xD00D ∨ 86 ≤ fld v 7 0) → Sys2Proof.Machine.exec (.pondInject v) s = .next s) ∧
  -- POND_PACKET_NOTICE (R314, R315, R316, R317, R373): a packet that fits beside what the producer still counts as occupied joins the pond behind the
  -- others, its consumer sees it after 1 to 3 of its cycles, and the peak follows; one that does not fit, one for the transmit pond of a link that is
  -- down, and one in the cycle of a pointer mismatch change nothing.
  (∀ (s : State) (p : Fin 22) (len : Nat),
    s.on = true →
    (¬(p.val < 8 ∧ s.linkDown p = true) → s.resetNow (64 + p) = false →
      packFill (s.netPonds[p]) + (len + 63) / 64 * 64 + s.unseen (64 + p) ≤ netSize p →
      ∃ u, Sys2Proof.Machine.exec (.pondPacketNotice p len) s = .next u ∧
        u.netPonds[p].dropLast = s.netPonds[p] ∧ u.netPonds[p].length = s.netPonds[p].length + 1 ∧
        (∀ k ∈ u.netPonds[p].getLast?, k.len = len ∧ k.frame = none ∧ k.cpl = none ∧ s.now < k.seen ∧
          (s.resetUntil (64 + p) ≤ s.now → k.seen ≤ s.now + (3 * consumerPs (64 + p) + 999) / 1000)) ∧
        (u.rd (A.pndpPeak (64 + p))).toNat = max (s.rd (A.pndpPeak (64 + p))).toNat (packFill (u.netPonds[p])) % 2 ^ 32 ∧
        Only [.netPond p, .draws, .reg (A.pndpPeak (64 + p))] [] s u) ∧
    ((p.val < 8 ∧ s.linkDown p = true ∨ s.resetNow (64 + p) = true ∨
      netSize p < packFill (s.netPonds[p]) + (len + 63) / 64 * 64 + s.unseen (64 + p)) → Sys2Proof.Machine.exec (.pondPacketNotice p len) s = .next s)) ∧
  -- POND_PACKET_RELEASE (R313, R314, R315): the oldest packet leaves as a whole once its notice is seen, the others keep their order, and the read pointer
  -- passes it.
  (∀ (s : State) (p : Fin 22) (q : Fin 86) (k : Packet64) (rest : List Packet64),
    s.on = true → q.val = 64 + p.val → s.netPonds[p] = k :: rest → k.seen ≤ s.now → s.resetNow (64 + p) = false → k.frame = none → k.cpl = none →
    0 < k.len → s.ctl.waitCpl = [] →
      ∃ u, Sys2Proof.Machine.exec (.pondPacketRelease p) s = .next u ∧ u.netPonds[p] = rest ∧
        u.readPtr[q] = s.readPtr[q] + (k.len + 63) / 64 * 64 ∧ Only [.netPond p, .readPtr q, .releases, .draws] [] s u) ∧
  -- POND_PACKET_RELEASE of a segment (R217, R234, R314): its bytes go out on the link, padded to the least frame and with the FCS, and the link counts a
  -- frame sent.
  (∀ (s : State) (p : Fin 22) (l : Fin 8) (k : Packet64) (rest : List Packet64) (f : Bytes),
    s.on = true → p.val = l.val → s.netPonds[p] = k :: rest → k.seen ≤ s.now → s.resetNow (64 + p) = false → k.frame = some f → k.cpl = none →
    s.ctl.waitCpl = [] →
      ∃ u, Sys2Proof.Machine.exec (.pondPacketRelease p) s = .next u ∧ u.netPonds[p] = rest ∧
        u.sent = .frame l ((f ++ List.replicate (60 - f.length) 0#8) ++
          leBytes 4 (crc32 (f ++ List.replicate (60 - f.length) 0#8))) :: s.sent ∧
        (u.rd (A.ethlCntTx (l / 4) (l % 4))).toNat = min 0xFFFFFFFF ((s.rd (A.ethlCntTx (l / 4) (l % 4))).toNat + 1) ∧
        Only [.netPond p, .releases, .draws, .sent, .reg (A.ethlCntTx (l / 4) (l % 4))] [.readPtrs] s u) ∧
  -- POND_PACKET_RELEASE of pond 84 (R295, R304): the completion item that crossed joins its stall's completion pond behind the others, CPL is raised, and
  -- its credit is free again.
  (∀ (s : State) (t : Fin 8) (it : CplItem) (k : Packet64) (rest : List Packet64),
    s.on = true → s.netPonds[(20 : Fin 22)] = k :: rest → k.seen ≤ s.now → s.resetNow 84 = false → k.frame = none → k.len = 64 →
    k.cpl = some (t, it) → s.ctl.waitCpl = [] → packFill s.netPonds[(20 : Fin 22)] ≤ 4096 →
      ∃ u, Sys2Proof.Machine.exec (.pondPacketRelease 20) s = .next u ∧ u.netPonds[(20 : Fin 22)] = rest ∧ (u.stalls[t]).cpl = (s.stalls[t]).cpl ++ [it] ∧
        u.b (A.stlEvt t) 0 = true ∧ u.credits = s.credits + 1 ∧
        Only [.netPond 20, .releases, .draws, .stall t, .reg (A.stlEvt t), .reg (A.pndpPeak (86 + t))] [.readPtrs] s u) ∧
  -- POND_PACKET_RELEASE of an empty pond, of a packet whose notice is not seen yet, or in the cycle of a pointer mismatch changes nothing (R315, R317).
  (∀ (s : State) (p : Fin 22),
    ((s.netPonds[p]).head?.all (fun k => decide (s.now < k.seen)) = true ∨ s.resetNow (64 + p) = true) → Sys2Proof.Machine.exec (.pondPacketRelease p) s = .next s) ∧
  -- CHAIN_POND_PUSH (R311, R312, Table 14.4): below its stages, or at any depth with the consumer taking the head in the same cycle, the pond takes the
  -- item, which stands last, as wide as the pond's items; with the head taken the others move up in order; full and with nothing taken it takes none.
  (∀ (s : State) (p : Fin 126) (i : Fin 54) (v : BitVec 128) (taken : Bool),
    s.on = true → p.val = 72 + i.val →
    ((s.chains[i]).length < stages (158 + i) ∨ taken = true ∧ 1 ≤ (s.chains[i]).length →
      ∃ u, Sys2Proof.Machine.exec (.chainPondPush p v taken) s = .next u ∧
        u.chains[i] = (s.chains[i]).drop (if taken then 1 else 0) ++ [BitVec.ofNat 128 (v.toNat % 2 ^ itemBits (158 + i))] ∧
        (u.chains[i]).length ≤ (u.rd (A.pndpPeak (158 + i))).toNat ∧ Only [.chain i, .reg (A.pndpPeak (158 + i))] [] s u) ∧
    (stages (158 + i) ≤ (s.chains[i]).length → taken = false → Sys2Proof.Machine.exec (.chainPondPush p v taken) s = .next s)) ∧
  -- CHAIN_POND_PUSH into a completion pond (R295, R311, R312): as of any chain pond; an item is its four words, word 0 lowest.
  (∀ (s : State) (p : Fin 126) (t : Fin 8) (v : BitVec 128) (taken : Bool),
    s.on = true → p.val = t.val →
    ((s.stalls[t]).cpl.length < 16 ∨ taken = true →
      ∃ u, Sys2Proof.Machine.exec (.chainPondPush p v taken) s = .next u ∧
        (u.stalls[t]).cpl = (s.stalls[t]).cpl.drop (if taken then 1 else 0) ++
          [⟨wd v.toNat, wd (v.toNat / 2 ^ 32), wd (v.toNat / 2 ^ 64), wd (v.toNat / 2 ^ 96)⟩] ∧
        Only [.stall t, .reg (A.pndpPeak (86 + t))] [] s u) ∧
    (16 ≤ (s.stalls[t]).cpl.length → taken = false → Sys2Proof.Machine.exec (.chainPondPush p v taken) s = .next s)) ∧
  -- CHAIN_POND_PUSH into a controller's calendar or software queue (R82, R311, R312): as of any chain pond; the item is the start of a list.
  (∀ (s : State) (p : Fin 126) (n : Fin 32) (cal : Bool) (v : BitVec 128) (taken : Bool),
    let q := fun (x : TwoWire) => if cal then x.calQ else x.swQ
    s.on = true → p.val = (if cal then 8 else 40) + n.val →
    ((q (s.twb[n])).length < 4 ∨ taken = true →
      ∃ u, Sys2Proof.Machine.exec (.chainPondPush p v taken) s = .next u ∧
        q (u.twb[n]) = (q (s.twb[n])).drop (if taken then 1 else 0) ++ [listItem cal v] ∧
        Only [.twoWire n, .reg (A.pndpPeak (86 + p))] [] s u) ∧
    (4 ≤ (q (s.twb[n])).length → taken = false → Sys2Proof.Machine.exec (.chainPondPush p v taken) s = .next s)) ∧
  -- CHAIN_POND_POP (R311, R312): the item at the head leaves, if there is one, and the rest keep their order.
  (∀ (s : State) (p : Fin 126) (i : Fin 54),
    s.on = true → p.val = 72 + i.val →
      ∃ u, Sys2Proof.Machine.exec (.chainPondPop p) s = .next u ∧ u.chains[i] = (s.chains[i]).drop 1 ∧ Only [.chain i] [] s u) ∧
  -- CHAIN_POND_POP of a completion pond and of a controller's queue (R82, R295, R312): the head leaves, and the rest keep their order.
  (∀ (s : State) (p q : Fin 126) (t : Fin 8) (n : Fin 32) (cal : Bool),
    let f := fun (x : TwoWire) => if cal then x.calQ else x.swQ
    s.on = true → p.val = t.val → q.val = (if cal then 8 else 40) + n.val →
      (∃ u, Sys2Proof.Machine.exec (.chainPondPop p) s = .next u ∧ (u.stalls[t]).cpl = (s.stalls[t]).cpl.drop 1 ∧ Only [.stall t] [] s u) ∧
      (∃ u, Sys2Proof.Machine.exec (.chainPondPop q) s = .next u ∧ f (u.twb[n]) = (f (s.twb[n])).drop 1 ∧ Only [.twoWire n] [] s u))

/-- Transaction lists of a two-wire controller queue, begin and run on. Its clauses cite their rules. -/
def Obligations.TwoWireListsQueueAndRun : Prop :=
  -- LIST_START_CMD (R86, R295): on an enabled controller that is not stuck, with fewer than four lists queued, the list joins the software queue behind
  -- the others; NOTIFY takes a completion slot of the starting stall, or counts that it has none.
  (∀ (s : State) (n : Fin 32) (lake notify : Bool) (t : Fin 8),
    s.on = true → s.b (A.twbCtl n) 0 = true → (s.twb[n]).st ∈ [1, 2, 3] → (s.twb[n]).swQ.length < 4 →
      ∃ u, Sys2Proof.Machine.exec (.listStartCmd n lake notify t) s = .next u ∧
        (u.twb[n]).swQ.length = (s.twb[n]).swQ.length + 1 ∧ (u.twb[n]).swQ.take (s.twb[n]).swQ.length = (s.twb[n]).swQ ∧
        (∀ l ∈ (u.twb[n]).swQ.getLast?, l.lake = lake ∧ l.stall = t.val ∧ l.calendar = false ∧
          l.slot = (notify && decide ((s.stalls[t]).taken < 16))) ∧ (u.twb[n]).run = (s.twb[n]).run ∧
        (notify = true → 16 ≤ (s.stalls[t]).taken → u.b (A.stlEvt t) 4 = true) ∧
        (notify = false → Only [.twoWire n, .reg (A.pndpPeak (94 + n)), .reg (A.pndpPeak (126 + n))] [] s u) ∧
        Only [.twoWire n, .reg (A.pndpPeak (94 + n)), .reg (A.pndpPeak (126 + n)), .stall t, .reg (A.stlCntNotifyLost t), .reg (A.stlEvt t)] [] s u) ∧
  -- LIST_START_CMD with four lists queued records BUSY and starts nothing (R86).
  (∀ (s : State) (n : Fin 32) (lake notify : Bool) (t : Fin 8),
    s.on = true → 4 ≤ (s.twb[n]).swQ.length →
      ∃ u, Sys2Proof.Machine.exec (.listStartCmd n lake notify t) s = .next u ∧ u.f (A.twbResult n) 31 27 = 11 ∧ Only [.reg (A.twbResult n)] [] s u) ∧
  -- LIST_START_CMD on a disabled controller fails at once with ABORTED, and on a stuck one with STUCK (R90, Table 4.6).
  (∀ (s : State) (n : Fin 32) (lake notify : Bool) (t : Fin 8),
    s.on = true → (s.b (A.twbCtl n) 0 = false ∨ 4 ≤ (s.twb[n]).st ∧ (s.twb[n]).st ≤ 5) → (s.twb[n]).swQ = [] → (s.twb[n]).calQ = [] →
      ∃ u, Sys2Proof.Machine.exec (.listStartCmd n lake notify t) s = .next u ∧
        listEnded s u n (if s.b (A.twbCtl n) 0 = false then 8 else 6) ∧ (u.twb[n]).swQ = [] ∧ (u.twb[n]).run = (s.twb[n]).run ∧
        Only [.netPond 20, .draws] listKinds s u) ∧
  -- LIST_BEGIN (R85, R86, R248 to R250): the list at the head of an idle controller's queues is copied; if R85 admits it the controller runs it from its
  -- first step, and otherwise it ends with its code.
  (∀ (s : State) (n : Fin 32) (ecc : List (Nat × Ecc)) (l : TwList),
    s.on = true → (s.twb[n]).st = 1 → (s.twb[n]).run = none → (s.twb[n]).next = some l →
      ∃ u, Sys2Proof.Machine.exec (.listBegin n ecc) s = .next u ∧
        ((s.acceptList n l ecc).1 = none → (u.twb[n]).st = 2 ∧ (∀ r ∈ (u.twb[n]).run, r.pc = 0 ∧ r.list = l ∧ r.steps = (s.acceptList n l ecc).2.1) ∧
          (u.twb[n]).run.isSome ∧ (l.lake = false → Only [.twoWire n] [] s u)) ∧
        (∀ c ∈ (s.acceptList n l ecc).1, (u.twb[n]).run = none ∧ (u.twb[n]).st = 1 ∧ listEnded s u n c.1) ∧
        (l.lake = false → Only [.netPond 20, .draws] listKinds s u) ∧ Only [.netPond 20, .draws] (.lakeCtl :: .sent :: .regs 0x5C0000 :: listKinds) s u) ∧
  -- LIST_DELAY_END (R84): a list that, with its targets' answers, comes to a DELAY step whose microseconds have passed goes on after it, and what it did
  -- on the bus before is shown; before that time, and where it comes to its end, nothing changes.
  (∀ (s : State) (n : Fin 32) (resp : TwResp) (r : TwRun) (x : TwExec),
    s.on = true → (s.twb[n]).run = some r → s.twGo r resp none = x →
      (x.code = none → stepOp (x.run.steps.getD x.run.pc 0#32) = 5 → r.from_ + 1000 * fld (x.run.steps.getD x.run.pc 0#32) 23 0 ≤ s.now →
        ∃ u, Sys2Proof.Machine.exec (.listDelayEnd n resp) s = .next u ∧
          (u.twb[n]).run = some { x.run with pc := x.run.pc + 1, from_ := s.now } ∧ (u.twb[n]).st = (s.twb[n]).st ∧
          u.sent = (if x.acts = [] then s.sent else .bus n x.acts.reverse :: s.sent) ∧ Only [.twoWire n, .sent, .draws] [] s u) ∧
      (x.code.isSome ∨ s.now < r.from_ + 1000 * fld (x.run.steps.getD x.run.pc 0#32) 23 0 → Sys2Proof.Machine.exec (.listDelayEnd n resp) s = .next s)) ∧
  -- LIST_END (R87, R88): a list that its targets' answers take to its end records its code, shows what it did on the bus, and, started by software, the
  -- bytes it read; the controller is IDLE with the list gone.
  (∀ (s : State) (n : Fin 32) (resp : TwResp) (r : TwRun),
    s.on = true → (s.twb[n]).run = some r → (s.twGo r resp none).code.isSome →
      ∃ u, Sys2Proof.Machine.exec (.listEnd n resp none) s = .next u ∧
        (u.twb[n]).run = none ∧ (u.twb[n]).st = 1 ∧ (u.twb[n]).swQ = (s.twb[n]).swQ ∧ (u.twb[n]).calQ = (s.twb[n]).calQ ∧
        (∀ c ∈ (s.twGo r resp none).code, listEnded s u n c.1 ∧ (c.1 ≠ 0 → u.f (A.twbResult n) 25 18 = c.2 % 256)) ∧
        u.f (A.twbResult n) 17 9 = (s.twGo r resp none).run.rd.length % 512 ∧
        (r.list.calendar = false → ∀ k : Fin 64, u.rd (A.twbRdbuf n k) = bufWord (s.twGo r resp none).run.rd k) ∧
        Only [.netPond 20, .draws] (.sent :: listKinds) s u) ∧
  -- LIST_END with SDA low after the STOP of step `k` (R91): the list ends there with a failure, and the bus is checked.
  (∀ (s : State) (n : Fin 32) (resp : TwResp) (k : Fin 256) (hold : BusCheck) (r : TwRun),
    s.on = true → (s.twb[n]).run = some r → (s.twGo r resp (some k.val)).code = none → (s.twGo r resp (some k.val)).run.pc = k.val →
    (s.twGo r resp (some k.val)).run.open_ = true → stepOp (r.steps.getD k.val 0#32) = 4 → (s.twGo r resp (some k.val)).run.steps = r.steps →
    (s.twb[n]).calQ.length + (s.twb[n]).swQ.length ≤ 8 →
      ∃ u, Sys2Proof.Machine.exec (.listEnd n resp (some (k, hold))) s = .next u ∧
        (u.twb[n]).run = none ∧ u.f (A.twbResult n) 31 27 ≠ 0 ∧ u.b (A.twbEvt n) 1 = true ∧
        ((s.twb[n]).calQ = [] → (s.twb[n]).swQ = [] → u.f (A.twbResult n) 25 18 = k.val) ∧
        checked s u n 0 hold ∧ Only [.netPond 20, .draws] clearKinds s u) ∧
  -- FLUSH_CMD (R86): the queued software lists are gone; the running list and the calendar lists stay.
  (∀ (s : State) (n : Fin 32),
    s.on = true → ∃ u, Sys2Proof.Machine.exec (.flushCmd n) s = .next u ∧ (u.twb[n]).swQ = [] ∧ (u.twb[n]).calQ = (s.twb[n]).calQ ∧ (u.twb[n]).run = (s.twb[n]).run ∧
      Only [.twoWire n] [] s u)

/-- Resets, bus clears and bus faults of a two-wire controller end or restart its list. Its clauses cite their rules. -/
def Obligations.TwoWireBusFaultsEndLists : Prop :=
  -- CONTROLLER_RESET (R89): on an enabled controller a list that ran has ended ABORTED, and the bus is checked: a free bus leaves the controller IDLE,
  -- with its queued lists.
  (∀ (s : State) (n : Fin 32) (hold : BusCheck),
    s.on = true → s.b (A.twbCtl n) 0 = true → (s.twb[n]).calQ.length + (s.twb[n]).swQ.length ≤ 8 →
      ∃ u, Sys2Proof.Machine.exec (.controllerReset n hold) s = .next u ∧
        (u.twb[n]).run = none ∧ checked s u n 0 hold ∧ ((s.twb[n]).run.isSome → busFree hold → listEnded s u n 8) ∧
        Only [.netPond 20, .draws] clearKinds s u) ∧
  -- BUS_CLEAR_RETRY (R89): XRST_WAIT after the retry pulse the check runs again, with the number of tries so far.
  (∀ (s : State) (n : Fin 32) (hold : BusCheck),
    s.on = true → (s.twb[n]).st = 5 → (s.twb[n]).xrstEnd + 1000 * s.f (A.twbXrstWait n) 15 0 ≤ s.now →
    (s.twb[n]).calQ.length + (s.twb[n]).swQ.length ≤ 8 →
      ∃ u, Sys2Proof.Machine.exec (.busClearRetry n hold) s = .next u ∧ checked s u n (s.twb[n]).attempt hold ∧ Only [.netPond 20, .draws] clearKinds s u) ∧
  -- CLEAR_CMD (R90): on a STUCK controller the bus is checked anew; a bus that it frees is reported as cleared.
  (∀ (s : State) (n : Fin 32) (hold : BusCheck),
    s.on = true → (s.twb[n]).st = 4 → (s.twb[n]).calQ.length + (s.twb[n]).swQ.length ≤ 8 →
      ∃ u, Sys2Proof.Machine.exec (.clearCmd n hold) s = .next u ∧ checked s u n 0 hold ∧ (busFree hold → hold.sdaLow = true → u.b (A.twbEvt n) 5 = true) ∧
        (busFree hold → Only [.twoWire n, .sent, .reg (A.twbCntLists n 5), .reg (A.twbEvt n)] [] s u) ∧ Only [.netPond 20, .draws] clearKinds s u) ∧
  -- What a controller does not do: CONTROLLER_RESET and CONTROLLER_DISABLE of a disabled one, CLEAR_CMD out of STUCK, BUS_CLEAR_RETRY out of WAIT_XRST or
  -- before XRST_WAIT, LIST_BEGIN out of IDLE or with no list, and the commands of a running list with none running change nothing (R84 to R93).
  (∀ (s : State) (n : Fin 32) (hold : BusCheck) (resp : TwResp) (k : Fin 256) (low : Nat),
    (s.b (A.twbCtl n) 0 = false → Sys2Proof.Machine.exec (.controllerReset n hold) s = .next s ∧ Sys2Proof.Machine.exec (.controllerDisable n) s = .next s) ∧
    ((s.twb[n]).st ≠ 4 → Sys2Proof.Machine.exec (.clearCmd n hold) s = .next s) ∧
    ((s.twb[n]).st ≠ 5 ∨ s.now < (s.twb[n]).xrstEnd + 1000 * s.f (A.twbXrstWait n) 15 0 → Sys2Proof.Machine.exec (.busClearRetry n hold) s = .next s) ∧
    ((s.twb[n]).st ≠ 1 ∨ (s.twb[n]).run.isSome ∨ (s.twb[n]).next = none → Sys2Proof.Machine.exec (.listBegin n []) s = .next s) ∧
    ((s.twb[n]).run = none → Sys2Proof.Machine.exec (.listDelayEnd n resp) s = .next s ∧ Sys2Proof.Machine.exec (.listEnd n resp none) s = .next s ∧ Sys2Proof.Machine.exec (.arbitrationLost n resp k) s = .next s ∧
      Sys2Proof.Machine.exec (.foreignCondition n resp k) s = .next s ∧ Sys2Proof.Machine.exec (.stretchTimeout n resp k low hold) s = .next s)) ∧
  -- CONTROLLER_DISABLE (R86, Table 4.6): the controller is DISABLED, with nothing running and nothing queued; a list that ran, and each that waited, has
  -- failed ABORTED.
  (∀ (s : State) (n : Fin 32),
    s.on = true → s.b (A.twbCtl n) 0 = true → (s.twb[n]).calQ.length + (s.twb[n]).swQ.length ≤ 8 →
      ∃ u, Sys2Proof.Machine.exec (.controllerDisable n) s = .next u ∧
        (u.twb[n]).st = 0 ∧ (u.twb[n]).run = none ∧ (u.twb[n]).calQ = [] ∧ (u.twb[n]).swQ = [] ∧ u.b (A.twbCtl n) 0 = false ∧
        ((s.twb[n]).run.isSome ∨ (s.twb[n]).next.isSome → u.f (A.twbResult n) 31 27 = 8 ∧ u.b (A.twbEvt n) 1 = true) ∧
        Only [.netPond 20, .draws] (.sent :: .keep :: listKinds) s u) ∧
  -- ARBITRATION_LOST and FOREIGN_CONDITION at a step that the controller reaches owning the bus (R83, R93): arbitration lost is counted and raised, a
  -- condition of another controller besides, and the transaction restarts until its restarts are used up, when the list fails with ARB_LOST.
  (∀ (s : State) (n : Fin 32) (resp : TwResp) (k : Fin 256) (foreign : Bool) (r : TwRun) (x : TwExec) (tries : Nat),
    s.on = true → (s.twb[n]).run = some r → s.twGo r resp (some k.val) = x → x.code = none → x.run.pc = k.val →
    (x.run.open_ = true ∨ stepOp (x.run.steps.getD k.val 0#32) = 1) →
    tries = (if x.run.open_ = true ∨ k.val = x.run.txStart then x.run.retries else 0) →
      ∃ u, Sys2Proof.Machine.exec (if foreign then .foreignCondition n resp k else .arbitrationLost n resp k) s = .next u ∧
        (u.rd (A.twbCntLists n 3)).toNat = min 0xFFFFFFFF ((s.rd (A.twbCntLists n 3)).toNat + 1) ∧ u.b (A.twbEvt n) 2 = true ∧
        (foreign = true → (u.rd (A.twbCntLists n 4)).toNat = min 0xFFFFFFFF ((s.rd (A.twbCntLists n 4)).toNat + 1) ∧ u.b (A.twbEvt n) 3 = true) ∧
        (tries < s.f (A.twbCtl n) 7 5 → (u.twb[n]).run.isSome ∧ (∀ y ∈ (u.twb[n]).run, y.pc = (if x.run.open_ = true then x.run.txStart else k.val) ∧
          y.retries = tries + 1 ∧ y.open_ = false)) ∧
        (s.f (A.twbCtl n) 7 5 ≤ tries → (u.twb[n]).run = none ∧ listEnded s u n 3 ∧ u.f (A.twbResult n) 25 18 = k.val) ∧
        Only [.netPond 20, .draws] (.sent :: listKinds) s u) ∧
  -- STRETCH_TIMEOUT (R81, R91): at a step that the controller reaches owning the bus, SCL held low for TWBn_TMO.STRETCH fails the list with STRETCH_TMO,
  -- raises the event, and has the bus checked; held for less, it changes nothing.
  (∀ (s : State) (n : Fin 32) (resp : TwResp) (k : Fin 256) (low : Nat) (hold : BusCheck) (r : TwRun) (x : TwExec),
    s.on = true → (s.twb[n]).run = some r → s.twGo r resp (some k.val) = x → x.code = none → x.run.pc = k.val →
    (x.run.open_ = true ∨ stepOp (x.run.steps.getD k.val 0#32) = 1) → stepOp (x.run.steps.getD k.val 0#32) ≠ 5 →
    (s.twb[n]).calQ.length + (s.twb[n]).swQ.length ≤ 8 →
      (10000 * atLeast1 (s.f (A.twbTmo n) 15 0) ≤ low → ∃ u, Sys2Proof.Machine.exec (.stretchTimeout n resp k low hold) s = .next u ∧
        u.b (A.twbEvt n) 6 = true ∧ u.b (A.twbEvt n) 1 = true ∧ (u.twb[n]).run = none ∧
        ((s.twb[n]).calQ = [] → (s.twb[n]).swQ = [] → listEnded s u n 4 ∧ u.f (A.twbResult n) 25 18 = k.val) ∧ checked s u n 0 hold ∧
        Only [.netPond 20, .draws] clearKinds s u) ∧
      (low < 10000 * atLeast1 (s.f (A.twbTmo n) 15 0) → Sys2Proof.Machine.exec (.stretchTimeout n resp k low hold) s = .next s)) ∧
  -- BUS_BUSY_TIMEOUT (R82): a list whose first step that drives the bus is its first START, and that found no free bus within TWBn_TMO.BUSY, ends with
  -- BUS_BUSY, before that time nothing changes.
  (∀ (s : State) (n : Fin 32) (l : TwList),
    s.on = true → (s.twb[n]).st = 1 → (s.twb[n]).run = none → (s.twb[n]).next = some l → l.lake = false → (s.acceptList n l []).1 = none →
      (∀ i ∈ firstStart (s.acceptList n l []).2.1, ((s.acceptList n l []).2.1.take i).any (fun w => stepOp w == 5) = false →
        (s.twb[n]).waitFrom + 10000 * atLeast1 (s.f (A.twbTmo n) 31 16) ≤ s.now →
        ∃ u, Sys2Proof.Machine.exec (.busBusyTimeout n) s = .next u ∧ listEnded s u n 5 ∧ (u.twb[n]).run = none ∧ (u.twb[n]).st = 1 ∧ Only [.netPond 20, .draws] listKinds s u) ∧
      (firstStart (s.acceptList n l []).2.1 = none ∨ s.now < (s.twb[n]).waitFrom + 10000 * atLeast1 (s.f (A.twbTmo n) 31 16) →
        Sys2Proof.Machine.exec (.busBusyTimeout n) s = .next s)) ∧
  -- BUS_BUSY_TIMEOUT after the list's leading DELAY steps (R82): the time runs from the first START being reached.
  (∀ (s : State) (n : Fin 32) (r : TwRun),
    s.on = true → (s.twb[n]).run = some r → firstStart r.steps = some r.pc → r.open_ = false → r.retries = 0 →
      (r.from_ + 10000 * atLeast1 (s.f (A.twbTmo n) 31 16) ≤ s.now → ∃ u, Sys2Proof.Machine.exec (.busBusyTimeout n) s = .next u ∧ listEnded s u n 5 ∧
        (u.twb[n]).run = none ∧ (u.twb[n]).st = 1 ∧ Only [.netPond 20, .draws] listKinds s u) ∧
      (s.now < r.from_ + 10000 * atLeast1 (s.f (A.twbTmo n) 31 16) → Sys2Proof.Machine.exec (.busBusyTimeout n) s = .next s))

/-- The board target serves what its range allows and reports what it refuses. Its clauses cite their rules. -/
def Obligations.BoardTargetReadsAndWrites : Prop :=
  -- TWT_WRITE (R94, R95): a complete group to a register that TWT writes is acknowledged whole and has the effect of that register's write (here with the
  -- device on).
  (∀ (s : State) (a : BitVec 24) (b0 b1 b2 b3 : Byte),
    s.on = true → s.b A.twbtCtl 8 = true → a.toNat % 4 = 0 → twtRange a.toNat = .write →
      ∃ u, Sys2Proof.Machine.exec (.twtWrite a [b0, b1, b2, b3]) s = .next u ∧ u = (s.storeReg 0 a.toNat (wd (ofLe [b0, b1, b2, b3]))).2.emit (.twt [] 4)) ∧
  -- TWT_WRITE outside Table 4.4, or to a range that is only read, is refused on the fourth byte, and one at an address that is no multiple of four on the
  -- first; both are recorded (R95).
  (∀ (s : State) (a : BitVec 24) (b0 b1 b2 b3 : Byte),
    s.on = true → s.b A.twbtCtl 8 = true → (a.toNat % 4 ≠ 0 ∨ twtRange a.toNat ≠ .write) →
      ∃ u, Sys2Proof.Machine.exec (.twtWrite a [b0, b1, b2, b3]) s = .next u ∧
        u.sent = .twt [] (if a.toNat % 4 ≠ 0 then 0 else 3) :: s.sent ∧ u.b A.twbtAlert 3 = true ∧ u.f A.twbtErr 23 0 = a.toNat ∧
        u.f A.twbtErr 31 28 = (if a.toNat % 4 ≠ 0 then 3 else if twtRange a.toNat = .read then 2 else 1) ∧
        Only [.sent, .reg A.twbtErr, .reg A.twbtAlert] [] s u) ∧
  -- TWT_READ (R94): the four bytes of a register that TWT reads, least significant first, and no side effect.
  (∀ (s : State) (a : BitVec 24),
    s.on = true → s.b A.twbtCtl 8 = true → a.toNat % 4 = 0 → twtRange a.toNat ≠ .none →
      ∃ u, Sys2Proof.Machine.exec (.twtRead a 4) s = .next u ∧ u.sent = .twt (leBytes 4 (s.peekReg a.toNat).toNat) 0 :: s.sent ∧ Only [.sent] [] s u) ∧
  -- TWT_READ outside Table 4.4, or at an address that is no multiple of four, returns 0xFF bytes and is recorded (R95).
  (∀ (s : State) (a : BitVec 24),
    s.on = true → s.b A.twbtCtl 8 = true → (a.toNat % 4 ≠ 0 ∨ twtRange a.toNat = .none) →
      ∃ u, Sys2Proof.Machine.exec (.twtRead a 4) s = .next u ∧ u.sent = .twt [0xFF#8, 0xFF#8, 0xFF#8, 0xFF#8] 0 :: s.sent ∧ u.b A.twbtAlert 3 = true ∧
        u.rd A.twbtErr = wd ((if a.toNat % 4 ≠ 0 then 0x30000000 else 0x10000000) + a.toNat) ∧
        Only [.sent, .reg A.twbtErr, .reg A.twbtAlert] [] s u) ∧
  -- TWT in Doze (R97): an access requests a wake; only the Tarn's registers answer, and every other is refused as ASLEEP.
  (∀ (s : State) (a : BitVec 24) (b0 b1 b2 b3 : Byte),
    s.power.st = .doze → s.b A.twbtCtl 8 = true → a.toNat % 4 = 0 →
      (twtRangeAsleep a.toNat = .none → ∃ u, Sys2Proof.Machine.exec (.twtRead a 4) s = .next u ∧ u.sent = .twt [0xFF#8, 0xFF#8, 0xFF#8, 0xFF#8] 0 :: s.sent ∧
        u.f A.twbtErr 31 28 = 4 ∧ u.b A.trnReqEvt 0 = true ∧ Only [.sent, .reg A.twbtErr, .reg A.twbtAlert, .reg A.trnReqEvt] [] s u) ∧
      (twtRangeAsleep a.toNat ≠ .none → ∃ u, Sys2Proof.Machine.exec (.twtRead a 4) s = .next u ∧ u.sent.length = s.sent.length + 1 ∧
        u.b A.trnReqEvt 0 = true ∧ Only [.sent, .reg A.trnReqEvt] [] s u) ∧
      (twtRangeAsleep a.toNat ≠ .write → ∃ u, Sys2Proof.Machine.exec (.twtWrite a [b0, b1, b2, b3]) s = .next u ∧ u.sent = .twt [] 3 :: s.sent ∧
        u.f A.twbtErr 31 28 = 4 ∧ u.b A.trnReqEvt 0 = true ∧ Only [.sent, .reg A.twbtErr, .reg A.twbtAlert, .reg A.trnReqEvt] [] s u)) ∧
  -- TWT that is not enabled, and the device Off, answer nothing (R94, R97).
  (∀ (s : State) (a : BitVec 24) (data : Bytes) (n low : Nat) (w : Option (BitVec 24 × Bytes)),
    (s.b A.twbtCtl 8 = false ∨ s.power.st = .off) →
      Sys2Proof.Machine.exec (.twtWrite a data) s = .next s ∧ Sys2Proof.Machine.exec (.twtRead a n) s = .next s ∧ Sys2Proof.Machine.exec (.twtProtoViolation w) s = .next s ∧ Sys2Proof.Machine.exec (.twtSclTimeout w low) s = .next s) ∧
  -- TWT_PROTO_VIOLATION (R92): in a read the transfer ends, and the violation is counted and raised.
  (∀ (s : State),
    s.on = true → s.b A.twbtCtl 8 = true →
      ∃ u, Sys2Proof.Machine.exec (.twtProtoViolation none) s = .next u ∧
        (u.rd A.twbtCntProto).toNat = min 0xFFFFFFFF ((s.rd A.twbtCntProto).toNat + 1) ∧ u.b A.twbtAlert 2 = true ∧
        Only [.reg A.twbtCntProto, .reg A.twbtAlert] [] s u) ∧
  -- TWT_PROTO_VIOLATION in a write (R92, R94): the group that was complete has been written, an incomplete one is discarded, and the violation is counted
  -- and raised.
  (∀ (s : State) (a : BitVec 24) (b0 b1 b2 b3 b4 : Byte),
    s.on = true → s.b A.twbtCtl 8 = true → a.toNat % 4 = 0 → twtRange a.toNat = .write →
      ∃ u, Sys2Proof.Machine.exec (.twtProtoViolation (some (a, [b0, b1, b2, b3, b4]))) s = .next u ∧
        u = ((s.storeReg 0 a.toNat (wd (ofLe [b0, b1, b2, b3]))).2.inc A.twbtCntProto).raise A.twbtAlert 2) ∧
  -- TWT_SCL_TIMEOUT (R96): beyond TWBT_TMO the transfer is abandoned: the group that was complete has been written, the incomplete one is gone, and
  -- nothing is counted; up to TWBT_TMO the transfer goes on.
  (∀ (s : State) (a : BitVec 24) (b0 b1 b2 b3 b4 : Byte) (low : Nat),
    s.on = true → s.b A.twbtCtl 8 = true → a.toNat % 4 = 0 → twtRange a.toNat = .write →
      (100000 * atLeast1 (s.f A.twbtTmo 15 0) < low →
        (∃ u, Sys2Proof.Machine.exec (.twtSclTimeout (some (a, [b0, b1, b2, b3, b4])) low) s = .next u ∧ u = (s.storeReg 0 a.toNat (wd (ofLe [b0, b1, b2, b3]))).2) ∧
        Sys2Proof.Machine.exec (.twtSclTimeout none low) s = .next s) ∧
      (low ≤ 100000 * atLeast1 (s.f A.twbtTmo 15 0) → Sys2Proof.Machine.exec (.twtSclTimeout (some (a, [b0, b1, b2, b3, b4])) low) s = .next s)) ∧
  -- TWBT_SOFT_SET (R98, Table 4.10): bit 0 calls the board controller; without it nothing changes.
  (∀ (s : State) (v : Word),
    s.on = true → (bit v 0 = true → ∃ u, Sys2Proof.Machine.exec (.twbtSoftSet v) s = .next u ∧ u.b A.twbtAlert 5 = true ∧ Only [.reg A.twbtAlert] [] s u) ∧
      (bit v 0 = false → Sys2Proof.Machine.exec (.twbtSoftSet v) s = .next s)) ∧
  -- BMC_REQ (R97, R386): an address match in Doze, or in Still with VDD_IO present, raises the board controller's request to the Tarn watcher; otherwise
  -- nothing changes.
  (∀ (s : State),
    (s.b A.twbtCtl 8 = true → (s.power.st = .doze ∨ s.power.st = .still ∧ s.ioGone = false) →
      ∃ u, Sys2Proof.Machine.exec .bmcReq s = .next u ∧ u.b A.trnReqEvt 0 = true ∧ Only [.reg A.trnReqEvt] [] s u) ∧
    (s.b A.twbtCtl 8 = false ∨ s.power.st = .on ∨ s.power.st = .off ∨ s.ioGone = true → Sys2Proof.Machine.exec .bmcReq s = .next s))

/-- A trigger generator fires at its next position or period, and an exposure entry is armed and cancelled. Its clauses cite their rules. -/
def Obligations.TriggersAndExposureEntriesFire : Prop :=
  -- LINE_TRIGGER (R274): in encoder mode, once the position has reached or passed the next trigger position, a trigger is emitted and counted, and the
  -- next position is the first one of the pitch beyond the position.
  (∀ (s : State) (b : Fin 4) (p : Nat),
    s.on = true → s.b (A.ltgCtl b) 0 = true → s.b (A.ltgCtl b) 1 = false → (s.ltg[b]).next = some p →
      0 ≤ wrapDiff 64 (s.ltgPos b) p → minPassed s b →
      ∃ u, Sys2Proof.Machine.exec (.lineTrigger b) s = .next u ∧
        (u.ltg[b]).last = some s.now ∧ (u.ltg[b]).trigs = (s.ltg[b]).trigs + 1 ∧ trigCount u b = (trigCount s b + 1) % 2 ^ 64 ∧
        (u.ltg[b]).next = some (u.trigBeyond b (u.ltgPos b)) ∧
        (u.rd (A.ltgCntMissing b 1)).toNat = min 0xFFFFFFFF ((s.rd (A.ltgCntMissing b 1)).toNat +
          (wrapDiff 64 (s.ltgPos b) p / Int.ofNat (s.ltgPitch b)).toNat) ∧
        Only [.gen b] trigKinds s u) ∧
  -- LINE_TRIGGER before the next trigger position is reached (R274), and of a generator that is not in use or in time mode: no trigger.
  (∀ (s : State) (b : Fin 4) (p : Nat),
    ((s.ltg[b]).next = some p → wrapDiff 64 (s.ltgPos b) p < 0 → Sys2Proof.Machine.exec (.lineTrigger b) s = .next s) ∧
    (s.b (A.ltgCtl b) 0 = false ∨ s.b (A.ltgCtl b) 1 = true → Sys2Proof.Machine.exec (.lineTrigger b) s = .next s)) ∧
  -- LINE_TRIGGER of a generator that has just come into use (R274): its first trigger position is the first one of the pitch beyond the position.
  (∀ (s : State) (b : Fin 4),
    s.on = true → s.b (A.ltgCtl b) 0 = true → s.b (A.ltgCtl b) 1 = false → (s.ltg[b]).next = none →
      ∃ u, Sys2Proof.Machine.exec (.lineTrigger b) s = .next u ∧ (u.ltg[b]).next = some (s.trigBeyond b (s.ltgPos b)) ∧ Only [.gen b] [] s u) ∧
  -- LINE_TRIGGER_TIMED (R276): in time mode, a period after the last one, a trigger is emitted and counted.
  (∀ (s : State) (b : Fin 4),
    s.on = true → s.b (A.ltgCtl b) 0 = true → s.b (A.ltgCtl b) 1 = true →
      (s.ltg[b]).from_ + max 1000 (s.f (A.ltgPeriod b) 23 0) ≤ s.now → minPassed s b →
      ∃ u, Sys2Proof.Machine.exec (.lineTriggerTimed b) s = .next u ∧
        (u.ltg[b]).last = some s.now ∧ (u.ltg[b]).trigs = (s.ltg[b]).trigs + 1 ∧ trigCount u b = (trigCount s b + 1) % 2 ^ 64 ∧
        Only [.gen b] trigKinds s u) ∧
  -- LINE_TRIGGER_TIMED before the period has passed, or of a generator not in use or in encoder mode: no trigger (R276).
  (∀ (s : State) (b : Fin 4),
    (s.b (A.ltgCtl b) 0 = false ∨ s.b (A.ltgCtl b) 1 = false ∨ s.now < (s.ltg[b]).from_ + max 1000 (s.f (A.ltgPeriod b) 23 0)) →
      Sys2Proof.Machine.exec (.lineTriggerTimed b) s = .next s) ∧
  -- A trigger position reached sooner than MIN_PERIOD after the last trigger emits none: it is counted as missing (R275).
  (∀ (s : State) (b : Fin 4) (p : Nat),
    s.on = true → s.b (A.ltgCtl b) 0 = true → s.b (A.ltgCtl b) 1 = false → (s.ltg[b]).next = some p →
      0 ≤ wrapDiff 64 (s.ltgPos b) p → ¬ minPassed s b →
      ∃ u, Sys2Proof.Machine.exec (.lineTrigger b) s = .next u ∧
        (u.rd (A.ltgCntMissing b 0)).toNat = min 0xFFFFFFFF ((s.rd (A.ltgCntMissing b 0)).toNat + 1) ∧ u.b (A.ltgEvt b) 0 = true ∧
        (u.ltg[b]).last = (s.ltg[b]).last ∧ (u.ltg[b]).next = some (s.trigBeyond b (s.ltgPos b)) ∧
        Only [.gen b, .reg (A.ltgCntMissing b 0), .reg (A.ltgCntMissing b 1), .reg (A.ltgEvt b)] [] s u) ∧
  -- A trigger sooner than MIN_PERIOD after the last is not emitted: it is counted as missing (R275).
  (∀ (s : State) (b : Fin 4),
    s.on = true → s.b (A.ltgCtl b) 0 = true → s.b (A.ltgCtl b) 1 = true →
      (s.ltg[b]).from_ + max 1000 (s.f (A.ltgPeriod b) 23 0) ≤ s.now → ¬ minPassed s b →
      ∃ u, Sys2Proof.Machine.exec (.lineTriggerTimed b) s = .next u ∧
        (u.rd (A.ltgCntMissing b 0)).toNat = min 0xFFFFFFFF ((s.rd (A.ltgCntMissing b 0)).toNat + 1) ∧ u.b (A.ltgEvt b) 0 = true ∧
        (u.ltg[b]).last = (s.ltg[b]).last ∧ Only [.gen b, .reg (A.ltgCntMissing b 0), .reg (A.ltgEvt b)] [] s u) ∧
  -- ENTRY_ARM (R176, Table 8.1): an entry of a Spring of a group arms, unless it is ARMED, ISSUED or MADE; it has no effect frame yet. (Not in the cycle
  -- of a trigger of the group.)
  (∀ (s : State) (n : Fin 32) (e : Fin 64),
    s.on = true → (s.groupOf n).isSome = true → s.entrySt n e ∉ [1, 2, 3] →
    (∀ g ∈ (s.groupOf n).bind (fin? 12), ∀ x ∈ (s.grp[g]).trig, x.1 ≠ s.now) →
      ∃ u, Sys2Proof.Machine.exec (.entryArm n e) s = .next u ∧
        u.rd (A.expeEffect n e) = 0#32 ∧
        u.entrySt n e = 1 ∧ u.b (A.expeCtl n e) 0 = true ∧ u.b (A.expeStat n e) 27 = false ∧
        u.f (A.expeStat n e) 26 0 = s.f (A.expeStat n e) 26 0 ∧ u.f (A.expeCtl n e) 31 1 = s.f (A.expeCtl n e) 31 1 ∧
        Only [.reg (A.expeStat n e), .reg (A.expeCtl n e), .reg (A.expeEffect n e)] [] s u) ∧
  -- ENTRY_ARM in the cycle of a trigger of the group (R175 to R177, Table 8.2): an entry whose issue point that trigger is or follows is ISSUED, and its
  -- list queued behind the controller's calendar lists; one whose issue point is yet to come is ARMED, and nothing is queued.
  (∀ (s : State) (n : Fin 32) (e : Fin 64) (g : Fin 12) (pos pitch : Nat),
    s.on = true → s.groupOf n = some g.val → s.entrySt n e ∉ [1, 2, 3] → (s.grp[g]).trig = some (s.now, pos, pitch) →
    (s.twb[n]).st ∈ [1, 2, 3] → s.b (A.twbCtl n) 0 = true → (s.twb[n]).calQ.length < 4 →
      ∃ u, Sys2Proof.Machine.exec (.entryArm n e) s = .next u ∧
        (issuePoint s g n e pos pitch = false → u.entrySt n e = 1 ∧ u.b (A.expeCtl n e) 0 = true ∧ (u.twb[n]).calQ = (s.twb[n]).calQ) ∧
        (issuePoint s g n e pos pitch = true → u.entrySt n e = 2 ∧ u.b (A.expeCtl n e) 0 = false ∧
          (u.twb[n]).calQ = (s.twb[n]).calQ ++ [{
            calendar := true, entry := e, lake := s.b (A.expeList n e) 31, stall := (s.springOwner n).getD 0
            addr := if s.b (A.expeList n e) 31 then s.f (A.expeList n e) 30 0 else s.f (A.expeList n e) 7 0 }]) ∧
        (u.twb[n]).swQ = (s.twb[n]).swQ ∧
        Only [.reg (A.expeStat n e), .reg (A.expeCtl n e), .reg (A.expeEffect n e), .twoWire n, .spring n, .reg (A.pndpPeak (94 + n)),
          .reg (A.pndpPeak (126 + n)), .reg (A.expEvt n), .reg (A.expCntLate n)] [] s u) ∧
  -- ENTRY_ARM of an entry that is ARMED, ISSUED or MADE, or of a Spring of no group, changes nothing (R176, R178).
  (∀ (s : State) (n : Fin 32) (e : Fin 64),
    (s.groupOf n = none ∨ s.entrySt n e ∈ [1, 2, 3]) → Sys2Proof.Machine.exec (.entryArm n e) s = .next s) ∧
  -- ENTRY_CANCEL (R178): an ARMED entry is CANCELLED, and ARM reads 0.
  (∀ (s : State) (n : Fin 32) (e : Fin 64),
    s.on = true → s.entrySt n e = 1 →
      ∃ u, Sys2Proof.Machine.exec (.entryCancel n e) s = .next u ∧
        u.entrySt n e = 6 ∧ u.b (A.expeCtl n e) 0 = false ∧ Only [.reg (A.expeStat n e), .reg (A.expeCtl n e)] [] s u) ∧
  -- CANCEL in any other state does nothing (R178).
  (∀ (s : State) (n : Fin 32) (e : Fin 64),
   s.entrySt n e ≠ 1 → Sys2Proof.Machine.exec (.entryCancel n e) s = .next s)

/-- A bar's lines wait for the lines that stitching needs and leave in their order with their markers. Its clauses cite their rules. -/
def Obligations.StitchedLinesAssembleInOrder : Prop :=
  -- STITCHED_LINE_ASSEMBLE (R104, R105): with fewer than D_b lines behind it, a line joins the aligned lines and none is assembled.
  (∀ (s : State) (b : Fin 4) (l : SeamLine) (rest : List SeamLine),
    s.on = true → (s.seam[b]).inq = l :: rest → l.marker = false → l.seen ≤ s.now → (s.seam[b]).cut ≠ some l.tag.frame →
      (s.seam[b]).seen < (s.group b).depth →
      ∃ u, Sys2Proof.Machine.exec (.stitchedLineAssemble b) s = .next u ∧
        (u.seam[b]).inq = rest ∧ (u.seam[b]).seen = (s.seam[b]).seen + 1 ∧
        (u.seam[b]).hist = (l :: (s.seam[b]).hist).take ((s.group b).depth + 2) ∧ (u.seam[b]).lastFrame = (s.seam[b]).lastFrame ∧
        Only [.seam b] [.readPtrs, .releases, .draws] s u) ∧
  -- The line that the Seam Unit forms bears the name of the trigger that it is formed for, with that line's numbers, stamps and generation, and its
  -- samples are those that R108 to R112 give, in every channel of the bar.
  (∀ (s : State) (b : Fin 4) (ahead mch : Nat) (named : SeamLine),
    let l := (s.stitch b (s.seam[b]).hist ahead named mch).line
    l.tag = named.tag ∧ l.chans.length = (s.group b).channels ∧
      ∀ c ∈ List.range (s.group b).channels, ∀ xs ∈ l.chans[c]?, xs.length = (s.group b).width ∧
        ∀ x ∈ List.range (s.group b).width, xs[x]? = some (stitchedSample s b (s.seam[b]).hist ahead named c x)) ∧
  -- STITCHED_LINE_ASSEMBLE (R104, R105): once D_b further triggers have come, the stitched line named after the trigger D_b before is formed from the
  -- aligned lines, passes the later stages and their taps under its frame's structure, and its latency is taken (R133).
  (∀ (s : State) (b : Fin 4) (l : SeamLine) (rest : List SeamLine) (named : SeamLine),
    let d := (s.group b).depth
    let hist := (l :: (s.seam[b]).hist).take (d + 2)
    s.on = true → (s.seam[b]).inq = l :: rest → l.marker = false → l.seen ≤ s.now → (s.seam[b]).cut ≠ some l.tag.frame →
      d ≤ (s.seam[b]).seen → (l :: (s.seam[b]).hist)[d]? = some named →
      ∃ u, Sys2Proof.Machine.exec (.stitchedLineAssemble b) s = .next u ∧
        (u.seam[b]).inq = rest ∧ (u.seam[b]).seen = (s.seam[b]).seen + 1 ∧
        (u.seam[b]).hist = hist ∧ (u.seam[b]).lastFrame = some named.tag.frame ∧
        u = (((s.onSeam b (fun x => { x with inq := rest, hist := hist, seen := x.seen + 1 })).seamRelease b (s.seamFill b)).underFrame b
          named.tag.frame fun v => ((v.stitchNext b hist 0 named).1.afterStitch ⟨b.val, by omega⟩ named.post (v.stitchNext b hist 0 named).2).latency b
            l.at_) ∧
        min 0xFFFFFFFF (s.now - l.at_) ≤ (u.rd (A.legLatMax b)).toNat ∧ Only [.seam b] seamKinds s u) ∧
  -- TRUNCATION_MARKER_AT_SEAM (R106): the stitched lines of the triggers before it that are still unassembled are assembled at once, the oldest first, the
  -- aligned lines are used up, and the marker passes on behind them to the later taps, under its frame's structure.
  (∀ (s : State) (b : Fin 4) (l : SeamLine) (rest : List SeamLine),
    let x := s.seam[b]
    let d := (s.group b).depth
    let v := (List.range (min x.seen d)).reverse.foldl (fun v k => match x.hist[k]? with
      | some named => v.assemble b x.hist (d - k) named named.at_
      | none => v) (s.onSeam b (fun x => { x with inq := rest }))
    s.on = true → x.inq = l :: rest → l.marker = true → l.seen ≤ s.now → x.cut ≠ some l.tag.frame →
      ∃ u, Sys2Proof.Machine.exec (.truncationMarkerAtSeam b) s = .next u ∧
        (u.seam[b]).inq = rest ∧ (u.seam[b]).hist = [] ∧ (u.seam[b]).seen = 0 ∧
        (u = (((v.onSeam b (fun x => { x with hist := [], seen := 0 })).seamRelease b (v.seamFill b)).underFrame b l.tag.frame fun w =>
            (if (w.seam[b]).lastFrame = some l.tag.frame then w.endMeas b else w).markerAfter ⟨b.val, by omega⟩ l.tag l.cause)) ∧
        Only [.seam b] seamKinds s u) ∧
  -- A line or marker of a frame that a reset of the bar has cut is dropped at the Seam Unit (R106, R138).
  (∀ (s : State) (b : Fin 4) (l : SeamLine) (rest : List SeamLine),
    s.on = true → (s.seam[b]).inq = l :: rest → l.seen ≤ s.now → (s.seam[b]).cut = some l.tag.frame →
      (l.marker = false → ∃ u, Sys2Proof.Machine.exec (.stitchedLineAssemble b) s = .next u ∧
        u.seam[b] = { s.seam[b] with inq := rest } ∧ Only [.seam b] [.readPtrs, .releases, .draws] s u) ∧
      (l.marker = true → ∃ u, Sys2Proof.Machine.exec (.truncationMarkerAtSeam b) s = .next u ∧ u.seam[b] = { s.seam[b] with inq := rest } ∧ Only [.seam b] [] s u)) ∧
  -- What waits at the Seam Unit decides which of its commands acts: nothing, a marker or a line not yet seen for STITCHED_LINE_ASSEMBLE, and a line for
  -- TRUNCATION_MARKER_AT_SEAM, leave everything as it is; without an ended frame SEAM_MEASUREMENT_DONE does (R104, R106, R113).
  (∀ (s : State) (b : Fin 4),
    ((s.seam[b]).inq.head?.all (fun l => l.marker || decide (s.now < l.seen)) = true → Sys2Proof.Machine.exec (.stitchedLineAssemble b) s = .next s) ∧
    ((s.seam[b]).inq.head?.all (fun l => !l.marker || decide (s.now < l.seen)) = true → Sys2Proof.Machine.exec (.truncationMarkerAtSeam b) s = .next s) ∧
    ((s.seam[b]).done_ = [] → Sys2Proof.Machine.exec (.seamMeasurementDone b) s = .next s))

/-- Seam measurements update the estimate, and tracked offsets come into force at their frame's line. Its clauses cite their rules. -/
def Obligations.SeamTrackingAppliesAtItsFrame : Prop :=
  -- SEAM_MEASUREMENT_DONE (R113, R114, Table 5.7): the oldest ended frame's measurement completes: SEAM_BARb_FRAME names it, each seam reads the lines
  -- measured, its overlap and whether it is open, and MEAS_DONE is raised.
  (∀ (s : State) (b : Fin 4) (f : MeasFrame) (rest : List MeasFrame),
    s.on = true → (s.seam[b]).done_ = f :: rest →
      ∃ u, Sys2Proof.Machine.exec (.seamMeasurementDone b) s = .next u ∧
        (u.seam[b]).done_ = rest ∧ u.rd (A.seamBarFrame b) = wd f.frame ∧ u.b (A.seamBarEvt b) 0 = true ∧
        (∀ k ∈ List.range ((s.order b).length - 1),
          u.rd (A.seamBarsLines b k) = wd (f.rows.countP (fun r => r.seam == k)) ∧
          u.f (A.seamBarsQual b k) 29 20 = min 1023 (f.overlaps.getD k 0) ∧
          (u.b (A.seamBarsQual b k) 18 = decide (f.overlaps.getD k 0 < 16))) ∧
        Only [.seam b] [.regs 0x200000] s u) ∧
  -- With the tracker off the want values report the values in force, and no update waits (R115).
  (∀ (s : State) (b : Fin 4) (f : MeasFrame) (rest : List MeasFrame),
    s.on = true → (s.seam[b]).done_ = f :: rest → s.b (A.seamBarCtl b) 0 = false →
      ∃ u, Sys2Proof.Machine.exec (.seamMeasurementDone b) s = .next u ∧
        (u.seam[b]).updates = (s.seam[b]).updates ∧
        (∀ n ∈ s.order b, u.rd (A.seamOfsWant n) = seamWord 0 (seamNum 0 (s.rd (A.seamOfs n))) ∧
          u.rd (A.seamDlyWant n) = seamWord 2 (seamNum 2 (s.rd (A.seamDly n)))) ∧ Only [.seam b] [.regs 0x200000] s u) ∧
  -- SEAM_MEASUREMENT_DONE with the tracker on (R115): every sensor but the anchor whose seam's measurement is valid wants what the law gives, and an
  -- update with the windowed values waits for frame F + 2; the anchor and a sensor whose seam is not valid want the values in force, and hold.
  (∀ (s : State) (b : Fin 4) (f : MeasFrame) (rest : List MeasFrame),
    let ord := s.order b
    let seamOf := fun (k : Nat) => if s.anchor b < k then k - 1 else k
    let cur := fun (q k : Nat) => seamNum q (s.rd (seamRegs q (ord.getD k 0)).1)
    let law := fun (k : Nat) (m : SeamMeas) => (trackLaw (decide (s.anchor b < k)) (s.sprCols (ord.getD k 0))
      (s.f (A.seamBarGain b) 7 0) (s.f (A.seamBarGain b) 15 8) (s.f (A.seamBarGain b) 23 16) (s.f (A.seamBarStepXy b) 15 0)
      (s.f (A.seamBarStepM b) 15 0) (s.f (A.seamBarStepXy b) 31 16) (cur 0 k) (cur 1 k) (cur 2 k)
      (windowRule s (ord.getD k 0)) m)
    let valid := fun (k : Nat) => if k = s.anchor b then none else (seamMeasured s b f (seamOf k)).filter (fun m => m.valid)
    s.on = true → (s.seam[b]).done_ = f :: rest → s.b (A.seamBarCtl b) 0 = true → ord.Nodup → (∀ n ∈ ord, n < 32) →
      ∃ u, Sys2Proof.Machine.exec (.seamMeasurementDone b) s = .next u ∧
        (u.seam[b]).updates = (s.seam[b]).updates ++ (List.range ord.length).filterMap (fun k => (valid k).map (fun m =>
          { spring := ord.getD k 0, frame := (f.frame + 2) % 2 ^ 32, ofs := (law k m).2.1.1, mag := (law k m).2.1.2.1,
            dly := (law k m).2.1.2.2, press := (law k m).2.2 })) ∧
        (∀ k ∈ List.range ord.length, u.rd (A.seamOfsWant (ord.getD k 0)) = seamWord 0 (clampI (-(2 ^ 27)) (2 ^ 27 - 1) ((valid k).elim (cur 0 k)
            (fun m => (law k m).1.1))) ∧
          u.rd (A.seamMagWant (ord.getD k 0)) = seamWord 1 (clampI (-335544) 335544 ((valid k).elim (cur 1 k) (fun m => (law k m).1.2.1))) ∧
          u.rd (A.seamDlyWant (ord.getD k 0)) = seamWord 2 (clampI 0 (2 ^ 18 - 1) ((valid k).elim (cur 2 k) (fun m => (law k m).1.2.2)))) ∧
        (∀ k ∈ List.range (ord.length - 1), ∀ m ∈ seamMeasured s b f k,
          u.rd (A.seamBarsResXy b k) = wd (lowBits 16 m.eta * 65536 + lowBits 16 m.xi) ∧ u.rd (A.seamBarsResM b k) = wd (lowBits 25 m.mu) ∧
          u.f (A.seamBarsQual b k) 15 0 = m.q % 65536 ∧ u.b (A.seamBarsQual b k) 16 = m.valid) ∧
        Only [.seam b] [.regs 0x200000] s u) ∧
  -- SEAM_TRACKER_APPLY (R115): when the next stitched line begins a frame, every result that was for that frame or an earlier one comes into force, the
  -- last of a sensor's where it has several, with WINDOW where one presses; within a frame nothing changes.
  (∀ (s : State) (b : Fin 4) (l : SeamLine),
    let due := (s.seam[b]).updates.filter (fun x => !isLater 32 x.frame l.tag.frame)
    s.on = true → (if (s.group b).depth = 0 then (s.seam[b]).inq.head? else if (s.group b).depth ≤ (s.seam[b]).seen then
        ((s.seam[b]).hist)[(s.group b).depth - 1]? else none) = some l →
      ((s.seam[b]).lastFrame = some l.tag.frame → Sys2Proof.Machine.exec (.seamTrackerApply b) s = .next s) ∧
      ((s.seam[b]).lastFrame ≠ some l.tag.frame → (∀ x ∈ due, x.spring < 32 ∧ x.press < 8) →
      ∃ u, Sys2Proof.Machine.exec (.seamTrackerApply b) s = .next u ∧
        (u.seam[b]).updates = (s.seam[b]).updates.filter (fun x => isLater 32 x.frame l.tag.frame) ∧
        (∀ n ∈ List.range 32, ∀ x ∈ (due.filter (fun x => x.spring == n)).getLast?,
          u.rd (A.seamOfs n) = seamWord 0 x.ofs ∧ u.rd (A.seamMag n) = seamWord 1 x.mag ∧
          u.rd (A.seamDly n) = seamWord 2 x.dly ∧ u.f (A.seamTrkStat n) 2 0 = x.press) ∧
        (u.b (A.seamBarEvt b) 1 = (s.b (A.seamBarEvt b) 1 || due.any (fun x => x.press != 0))) ∧
        Only ([.seam b, .keep, .reg (A.seamBarEvt b)] ++ due.flatMap (fun x => [.reg (A.seamOfs x.spring), .reg (A.seamMag x.spring),
          .reg (A.seamDly x.spring), .reg (A.seamTrkStat x.spring)])) [] s u)) ∧
  -- SEAM_COEF_WRITE (R109): a word of a bank that no bar has in force is written.
  (∀ (s : State) (i : Fin 2048) (v : Word),
    s.on = true → s.bankUsed (i / 1024) = false →
      ∃ u, Sys2Proof.Machine.exec (.seamCoefWrite i v) s = .next u ∧ u.rd (A.seamCoef i) = v ∧ Only [.reg (A.seamCoef i), .keep] [] s u) ∧
  -- SEAM_COEF_WRITE into a bank in force is discarded and raises TABLE_BUSY (R109).
  (∀ (s : State) (i : Fin 2048) (v : Word),
    s.on = true → s.bankUsed (i / 1024) = true →
      ∃ u, Sys2Proof.Machine.exec (.seamCoefWrite i v) s = .next u ∧ u.b A.seamGlbEvt 0 = true ∧ Only [.reg A.seamGlbEvt] [] s u)

/-- A round boundary advances the round, and a slot decision serves the group that the calendar gives. Its clauses cite their rules. -/
def Obligations.RoundsAndSlotsAdvance : Prop :=
  -- ROUND_BOUNDARY (R123, R139): a round ends and the next begins at slot 0; inside the utilisation window only the counts move.
  (∀ (s : State),
    s.on = true → s.switchDue = false → s.engine.rounds + 1 < atLeast1 (s.f A.leUtilWin 15 0) →
      ∃ u, Sys2Proof.Machine.exec .roundBoundary s = .next u ∧
        rounds u = (rounds s + 1) % 2 ^ 64 ∧ u.engine = { s.engine with slot := 0, rounds := s.engine.rounds + 1 } ∧
        Only [.engine, .reg A.leRoundLo, .reg A.leRoundHi] [.regs 0x200000, .regs 0x300000, .regs 0x580000] s u) ∧
  -- ROUND_BOUNDARY at the end of the utilisation window latches it: utilisation, idle slots and each group's slots, and WINDOW is raised (R139).
  (∀ (s : State),
    s.on = true → s.switchDue = false → atLeast1 (s.f A.leUtilWin 15 0) ≤ s.engine.rounds + 1 →
      ∃ u, Sys2Proof.Machine.exec .roundBoundary s = .next u ∧
        rounds u = (rounds s + 1) % 2 ^ 64 ∧ u.engine = { slot := 0, rounds := 0, idle := 0, samples := 0 } ∧ u.b A.leEvt 0 = true ∧
        (u.rd A.leUtil).toNat = min 65535 ((s.engine.samples * 131072 + 12288 * 256 * (s.engine.rounds + 1)) / (2 * (12288 * 256 * (s.engine.rounds + 1)))) ∧
        (u.rd A.leIdleSlots).toNat = min 0xFFFFFFFF s.engine.idle ∧
        (∀ g : Fin 12, u.rd (A.legSlotsOwn g) = wd (s.engs[g]).own ∧ u.rd (A.legSlotsExtra g) = wd (s.engs[g]).extra ∧
          u.rd (A.legSlotsBlocked g) = wd (s.engs[g]).blk ∧ (u.engs[g]).own = 0) ∧
        Only [.engine] [.regs 0x200000, .regs 0x280000, .regs 0x300000, .regs 0x580000, .contexts] s u) ∧
  -- SLOT_DECISION (R123, R127, R128, R139): a slot of the round begins; it serves the group that the calendar gives it among those with ready work, with
  -- at most 12,288 samples, and counts as one of that group's own or extra slots, or it is idle; no other group's line is served.
  (∀ (s : State),
    let v := s.beginSlot s.engine.slot
    let served := slotServes v s.engine.slot
    s.on = true → s.engine.slot < 256 →
      ∃ u, Sys2Proof.Machine.exec .slotDecision s = .next u ∧
        u.engine.slot = s.engine.slot + 1 ∧ s.engine.samples ≤ u.engine.samples ∧ u.engine.samples ≤ s.engine.samples + 12288 ∧
        (served = none → u.engine.idle = s.engine.idle + 1 ∧ u.engine.samples = s.engine.samples) ∧
        (served ≠ none → u.engine.idle = s.engine.idle) ∧
        (∀ g : Fin 12, (u.engs[g]).own = (s.engs[g]).own + (if served = some (g.val, true) then 1 else 0) ∧
          (u.engs[g]).extra = (s.engs[g]).extra + (if served = some (g.val, false) then 1 else 0) ∧
          (u.engs[g]).blk = (s.engs[g]).blk + (if v.slotOwner s.engine.slot = some g.val && (v.engs[g]).blocked then 1 else 0) ∧
          (g ∈ (served.bind (fun x => fin? 12 x.1)) →
            (u.rd (A.legSamplesHi g)).toNat * 2 ^ 32 + (u.rd (A.legSamplesLo g)).toNat =
              ((s.rd (A.legSamplesHi g)).toNat * 2 ^ 32 + (s.rd (A.legSamplesLo g)).toNat + (u.engine.samples - s.engine.samples)) % 2 ^ 64) ∧
          (served.map (·.1) ≠ some g.val → u.rd (A.legSamplesLo g) = s.rd (A.legSamplesLo g) ∧ u.rd (A.legSamplesHi g) = s.rd (A.legSamplesHi g))) ∧
        u.engine.rounds = s.engine.rounds ∧
        Only [.engine] [.regs 0x10000, .regs 0x100000, .regs 0x200000, .regs 0x280000, .regs 0x300000, .regs 0x440000, .regs 0x480000,
          .regs 0x600000, .regs 0x6C0000, .commits, .contexts, .groups, .keep, .bytes, .streams, .power, .seams, .springs, .staged, .str,
          .tallies, .tnrs, .readPtrs, .releases, .draws, .sic] s u) ∧
  -- A round has 256 slots (R123): after the last, none begins before the round ends.
  (∀ (s : State),
   256 ≤ s.engine.slot → Sys2Proof.Machine.exec .slotDecision s = .next s)

/-- Lines pass through a group's Lake region, and TNR reads arrive. Its clauses cite their rules. -/
def Obligations.LakeRegionsFeedTheChain : Prop :=
  -- LAKE_LINE_COPY (R135): with room in the group's region, the group line at the head of the ponds leaves them and goes on to the region, under its
  -- frame's structure during a swap (R42); a discard of an earlier frame has ended.
  (∀ (s : State) (g : Fin 12) (l : GLine),
    s.on = true → copyReady s g l → (s.engs[g]).discards l.tag.frame = false → regionUsed s g l < (lineView s g l).regionLines g →
      ∃ u, Sys2Proof.Machine.exec (.lakeLineCopy g) s = .next u ∧
        (u.engs[g]).copying = (s.engs[g]).copying ++ [l] ∧ (u.engs[g]).full = none ∧ u.engs[g].region = s.engs[g].region ∧
        headLeaves s g l u ∧ Only [.context g, .reg (A.legLinesDrop g)] [.groups, .springs, .regs 0x100000, .readPtrs, .releases, .draws] s u) ∧
  -- LAKE_LINE_COPY into a full region (R135): the frame is truncated at this line, with a marker of cause 2 behind what the region holds; LE_TRUNC counts,
  -- and REGION_FULL is raised.
  (∀ (s : State) (g : Fin 12) (l : GLine),
    s.on = true → copyReady s g l → (s.engs[g]).discards l.tag.frame = false → (lineView s g l).regionLines g ≤ regionUsed s g l →
      ∃ u, Sys2Proof.Machine.exec (.lakeLineCopy g) s = .next u ∧
        (u.engs[g]).full = some (l.tag.frame, l.tag.line, l.tag.count) ∧
        ((u.engs[g]).region ++ (u.engs[g]).copying).Perm ((s.engs[g]).region ++ (s.engs[g]).copying ++
          [{ tag := { frame := l.tag.frame, line := l.tag.line, count := l.tag.count }, marker := true, cause := 2, at_ := s.now }]) ∧
        (∀ m ∈ ((u.engs[g]).region ++ (u.engs[g]).copying).getLast?, m.marker = true ∧ m.cause = 2) ∧
        (u.rd (A.legTrunc g)).toNat = min 0xFFFFFFFF ((s.rd (A.legTrunc g)).toNat + 1) ∧
        u.b (A.legEvt g) 0 = true ∧ headLeaves s g l u ∧
        Only [.context g, .reg (A.legTrunc g), .reg (A.legLinesDrop g), .reg (A.legEvt g)] [.groups, .springs, .regs 0x100000, .readPtrs, .releases, .draws] s u) ∧
  -- LAKE_LINE_COPY in the frame that a full region truncated (R135): the line leaves the ponds and goes nowhere.
  (∀ (s : State) (g : Fin 12) (l : GLine),
    s.on = true → copyReady s g l → (s.engs[g]).discards l.tag.frame = true →
      ∃ u, Sys2Proof.Machine.exec (.lakeLineCopy g) s = .next u ∧
        (u.engs[g]).copying = (s.engs[g]).copying ∧ (u.engs[g]).region = (s.engs[g]).region ∧ (u.engs[g]).full = (s.engs[g]).full ∧
        headLeaves s g l u ∧ Only [.context g] [.groups, .springs, .regs 0x100000, .readPtrs, .releases, .draws] s u) ∧
  -- LAKE_LINE_COPY of a truncation marker (R70, R135): it leaves the ponds and follows the lines that go to the region, behind the marker of a frame that
  -- the region's fullness truncated as well; another frame's discard has ended.
  (∀ (s : State) (g : Fin 12) (c : Cut),
    let w := pondsView s g
    s.on = true → w.defined g = true → w.isInline g = false → w.markerDue g = some c →
      ∃ u, Sys2Proof.Machine.exec (.lakeLineCopy g) s = .next u ∧
        ((u.engs[g]).region ++ (u.engs[g]).copying).Perm ((s.engs[g]).region ++ (s.engs[g]).copying ++
          [{ tag := { frame := c.frame, line := c.l, count := c.count }, marker := true, cause := 1, at_ := s.now }]) ∧
        (∀ m ∈ ((u.engs[g]).region ++ (u.engs[g]).copying).getLast?, m.marker = true ∧ m.cause = 1 ∧ m.tag.frame = c.frame ∧ m.tag.line = c.l) ∧
        (u.engs[g]).full = (s.engs[g]).full.filter (fun x => x.1 == c.frame) ∧
        (∀ n ∈ (w.group g).springs.filterMap (fin? 32), ∀ i ∈ (u.spr[n]).pond, ¬(i.marker = true ∧ i.tag.frame = c.frame)) ∧
        Only [.context g, .reg (A.legLinesDrop g)] [.groups, .springs, .regs 0x100000, .readPtrs, .releases, .draws] s u) ∧
  -- LAKE_LINE_COPY with nothing at the heads of the ponds, with a line that a swap holds, or of a group that is not Lake-fed, moves nothing to the region:
  -- what is stale in the ponds leaves, and nothing else; LAKE_COPY_DONE with no copy under way changes nothing (R44, R70, R135, R405).
  (∀ (s : State) (g : Fin 12),
    let w := pondsView s g;
    ((w.defined g = false ∨ w.isInline g = true ∨ w.markerDue g = none ∧ (w.heads g 1).all (fun l => w.swapHold g l.tag.frame) = true) → s.on = true →
      ∃ u, Sys2Proof.Machine.exec (.lakeLineCopy g) s = .next u ∧ (∀ n : Fin 32, u.spr[n] = w.spr[n]) ∧ Only [] [.springs, .regs 0x100000, .readPtrs, .releases, .draws] s u) ∧
    ((s.engs[g]).copying = [] → Sys2Proof.Machine.exec (.lakeCopyDone g) s = .next s)) ∧
  -- LAKE_COPY_DONE (R405): the Lake has accepted the oldest copy: the line stands in the region from this moment.
  (∀ (s : State) (g : Fin 12) (l : GLine) (rest : List GLine),
    s.on = true → (s.engs[g]).copying = l :: rest →
      ∃ u, Sys2Proof.Machine.exec (.lakeCopyDone g) s = .next u ∧
        (u.engs[g]).region = (s.engs[g]).region ++ { l with at_ := s.now } :: rest.takeWhile (fun x => x.marker) ∧
        (u.engs[g]).copying = rest.dropWhile (fun x => x.marker) ∧
        Only [.context g, .reg (A.legBacklogPeak g), .reg (A.legEvt g)] [] s u) ∧
  -- TNR_READ_ARRIVE (R132): so many accumulator samples of a line have arrived.
  (∀ (s : State) (b : Fin 4) (c : BitVec 48) (k : Nat),
    s.on = true → ∃ u, Sys2Proof.Machine.exec (.tnrReadArrive b c k) s = .next u ∧
      (u.engs[b.castLE (by decide : 4 ≤ 12)]).arrived.lookup c.toNat =
        some (max (((s.engs[b.castLE (by decide : 4 ≤ 12)]).arrived.lookup c.toNat).getD 0) k) ∧
      Only [.context (b.castLE (by decide))] [] s u)

/-- A group reset empties the groups it names, and a stall that does not own them gets PERM. Its clauses cite their rules. -/
def Obligations.GroupResetLosesOnlyItsOwnLines : Prop :=
  -- GROUP_RESET (R76, R138, R155, R309): of groups that are all the stall's, the named ones are reset: nothing of a defined group waits in its engine or
  -- its ponds, and the accumulator of a bar is empty.
  (∀ (s : State) (t : Fin 8) (m : BitVec 12),
    s.on = true → (bitsOf 12 m.toNat).all (fun g => s.ownsGroup t g) = true →
      ∃ u, Sys2Proof.Machine.exec (.groupReset t m) s = .next u ∧
        u.sent.head? = some (.value 0 0) ∧
        (∀ g : Fin 12, m.getLsbD g.val = true → s.defined g = true →
          (u.engs[g]).region = [] ∧ (u.engs[g]).copying = [] ∧ (u.grp[g]).openNext = true ∧ (u.grp[g]).cuts = [] ∧
          (∀ n ∈ (s.group g).springs.filterMap (fin? 32), (u.spr[n]).pond = [] ∧ (u.spr[n]).queue = []) ∧
          ∀ b ∈ fin? 4 g.val, (s.tnrRegion b = true → (u.tnr[b]).valid = [] ∧ (u.tnr[b]).fresh = true ∧ u.b (A.corEvt b) 7 = true) ∧
            (u.seam[b]).inq = [] ∧ (u.seam[b]).hist = []) ∧
        Only [] [.regs 0x10000, .regs 0x100000, .regs 0x180000, .regs 0x200000, .regs 0x280000, .regs 0x300000, .regs 0x410000,
          .regs 0x440000, .regs 0x480000, .regs 0x600000, .regs 0x640000, .contexts, .groups, .loads, .streams, .seams, .sent, .sic,
          .springs, .stalls, .tallies, .tnrs, .twoWire, .edges, .readPtrs, .releases, .draws] s u) ∧
  -- What is not of a group that GROUP_RESET names keeps its lines, its context and its settings: other groups, the Springs and controllers of other
  -- groups, the streams of other groups, and the accumulator, Seam Unit and loads of other bars (R76, R138, R155); entries that are ARMED stay armed
  -- (R178), and the deskew and other Kept fields of the Springs stay (R76).
  (∀ (s : State) (t : Fin 8) (m : BitVec 12),
    s.on = true → (bitsOf 12 m.toNat).all (fun g => s.ownsGroup t g) = true →
      ∃ u, Sys2Proof.Machine.exec (.groupReset t m) s = .next u ∧
        (∀ g : Fin 12, g.val ∉ resetGroups s m.toNat → u.engs[g] = s.engs[g] ∧ u.grp[g] = s.grp[g] ∧ u.tally[g] = s.tally[g] ∧ u.load[g] = s.load[g]) ∧
        (∀ b : Fin 4, b.val ∉ resetGroups s m.toNat → u.tnr[b] = s.tnr[b] ∧ u.seam[b] = s.seam[b]) ∧
        (∀ n : Fin 32, n.val ∉ resetSprings s m.toNat → u.spr[n] = s.spr[n] ∧ u.twb[n] = s.twb[n]) ∧
        (∀ n : Fin 16, (s.stream n).group ∉ resetGroups s m.toNat → u.out[n] = s.out[n]) ∧
        (∀ n : Fin 32, ∀ e : Fin 64, s.entrySt n e = 1 → u.entrySt n e = 1) ∧
        (∀ r ∈ allRows, regBlock r.base = 0x100000 → r.kept ≠ 0 → ∀ n : Fin 32, u.rd (r.base + 0x4000 * n) = s.rd (r.base + 0x4000 * n))) ∧
  -- The one truncation of a group reset has cause 3 in every record (R76, R138, R184, R204): at the frame's lowest line lost, in the Tally where none
  -- stood before it, and in every enabled stream of the group that had none pending, with DROPPED known.
  (∀ (s : State) (t : Fin 8) (g : Fin 12) (c : LineTag),
    s.on = true → s.ownsGroup t g = true → s.defined g = true → s.resetCut g = some c →
      ∃ u, Sys2Proof.Machine.exec (.groupReset t (BitVec.ofNat 12 (2 ^ g.val))) s = .next u ∧
        c.frame = (s.rd (A.frmFrame g)).toNat ∧ (∀ x ∈ s.lostTags g, x.frame = c.frame → isLater 48 c.count x.count = true → x.count = c.count) ∧
        (∀ a ∈ (u.tally[g]).accs, a.info.frame = c.frame → (∀ b ∈ (s.tally[g]).accs, b.info.frame = c.frame → b.trunc = none) →
          a.trunc = some (c.line, 3, c.count)) ∧
        (∀ n : Fin 16, s.outOn n = true → (s.stream n).group = g.val → ((s.stream n).tap < 6 ∨ s.isStats n = true) → (s.out[n]).pend = none →
          ∀ p, (u.out[n]).pend = some p → p.frame = c.frame ∧ p.line = c.line ∧ p.last = c.frame ∧ p.cause = 3 ∧ p.count = some c.count ∧
            p.merged = false ∧ p.dropped.isSome = true) ∧
        (∀ n : Fin 16, s.outOn n = true → (s.stream n).group = g.val → ((s.stream n).tap < 6 ∨ s.isStats n = true) → (u.out[n]).pend.isSome = true)) ∧
  -- GROUP_RESET that names a group not wholly the stall's answers PERM and resets nothing (R309).
  (∀ (s : State) (t : Fin 8) (m : BitVec 12),
    s.on = true → (bitsOf 12 m.toNat).all (fun g => s.ownsGroup t g) = false →
      ∃ u, Sys2Proof.Machine.exec (.groupReset t m) s = .next u ∧ u.sent = .value 2 0 :: s.sent ∧ Only [.sent] [] s u)

/-- TNR resets and adaptive updates take effect at their lines. Its clauses cite their rules. -/
def Obligations.TemporalNoiseStageResetsAndAdapts : Prop :=
  -- TNR_RESET_CMD (R155): a bar with an accumulator region waits for the reset; RESET reads 1 meanwhile.
  (∀ (s : State) (b : Fin 4),
    s.on = true → s.tnrRegion b = true →
      ∃ u, Sys2Proof.Machine.exec (.tnrResetCmd b) s = .next u ∧
        (u.tnr[b]).resetPend = true ∧ u.b (A.corTnrCmd b) 0 = true ∧ (u.tnr[b]).valid = (s.tnr[b]).valid ∧
        Only [.tnr b, .reg (A.corTnrCmd b)] [] s u) ∧
  -- TNR_RESET_EFFECT (R155): at the first group line of the next frame, every row's valid bit clears, the next frame's index is 0, and TNR_RESET_DONE is
  -- raised.
  (∀ (s : State) (b : Fin 4) (l : GLine),
    s.on = true → (s.engView (b.castLE (by decide))).readyLine (b.castLE (by decide)) = some l → (s.tnr[b]).frame ≠ some l.tag.frame →
      (s.tnr[b]).resetPend = true →
      ∃ u, Sys2Proof.Machine.exec (.tnrResetEffect b) s = .next u ∧
        (u.tnr[b]).valid = [] ∧ (u.tnr[b]).fresh = true ∧ (u.tnr[b]).resetPend = false ∧ u.b (A.corTnrCmd b) 0 = false ∧
        u.b (A.corEvt b) 7 = true ∧ Only [.tnr b, .reg (A.corTnrCmd b), .reg (A.corEvt b)] [] s u) ∧
  -- TNR_ADAPT_UPDATE (R152, R153, R154): the oldest ended frame is evaluated.
  (∀ (s : State) (b : Fin 4) (e : TnrEnded) (rest : List TnrEnded),
    let held := fun (x : TnrQty) (v : Int) => heldIn (tnrWindow s.rd b x).2.2.2 (tnrWindow s.rd b x).1 (tnrWindow s.rd b x).2.1 (tnrWindow s.rd b x).2.2.1 v
    let vals := (tnrQtys.filter (fun x => (x.q, x.c) ∉ e.drop)).filterMap (fun x => (tnrWant e x).map (fun v =>
      (x.q, x.c, if (tnrWindow s.rd b x).2.2.2 = true then none else some (held x v).1, (held x v).2)))
    s.on = true → (s.tnr[b]).ended = e :: rest →
      ∃ u, Sys2Proof.Machine.exec (.tnrAdaptUpdate b) s = .next u ∧
        (u.tnr[b]).ended = rest ∧ (u.tnr[b]).valid = (s.tnr[b]).valid ∧
        (u.tnr[b]).updates = (s.tnr[b]).updates ++ (if vals = [] then [] else [{ frame := (e.frame + 2) % 2 ^ 32, vals := vals }]) ∧
        (∀ v ∈ tnrWant e ⟨0, 0⟩, (u.tnr[b]).wantShift = 256 + lowBits 8 v) ∧
        (∀ c ∈ List.range (s.tnr[b]).wantN0.length, ∀ v ∈ tnrWant e ⟨1, c⟩, (u.tnr[b]).wantN0[c]? = some v.toNat) ∧
        (∀ c ∈ List.range (s.tnr[b]).wantN1.length, ∀ v ∈ tnrWant e ⟨2, c⟩, (u.tnr[b]).wantN1[c]? = some v.toNat) ∧
        Only [.tnr b] [] s u) ∧
  -- TNR_ADAPT_APPLY (R152, R153, R154): at the first group line of a frame, what was for that frame or an earlier one comes into force: each quantity
  -- takes its latest value, a pinned one none, with its PRESSING bit, and TNR_PRESS is raised where one becomes set; windows and pins stay.
  (∀ (s : State) (b : Fin 4) (l : GLine),
    let due := ((s.tnr[b]).updates.filter (fun x => !isLater 32 x.frame l.tag.frame)).flatMap (·.vals)
    let mine := fun (x : TnrQty) => due.filter (fun v => v.1 == x.q && v.2.1 == x.c)
    s.on = true → (s.engView (b.castLE (by decide))).readyLine (b.castLE (by decide)) = some l → (s.tnr[b]).frame ≠ some l.tag.frame →
      (∀ v ∈ due, (⟨v.1, v.2.1⟩ : TnrQty) ∈ tnrQtys ∧
        ∀ w ∈ v.2.2.1, if v.1 = 0 then -128 ≤ w ∧ w < 128 else 0 ≤ w ∧ w < 2 ^ 24) →
      ∃ u, Sys2Proof.Machine.exec (.tnrAdaptApply b) s = .next u ∧
        (u.tnr[b]).updates = (s.tnr[b]).updates.filter (fun x => isLater 32 x.frame l.tag.frame) ∧
        (∀ x ∈ tnrQtys, tnrWindow u.rd b x = ((((mine x).filterMap (·.2.2.1)).getLast?).getD (tnrWindow s.rd b x).1, (tnrWindow s.rd b x).2) ∧
          (u.tnr[b]).press.testBit (tnrPressBit x) = (((mine x).getLast?).map (·.2.2.2)).getD ((s.tnr[b]).press.testBit (tnrPressBit x)) ∧
          ((u.tnr[b]).press.testBit (tnrPressBit x) = true → (s.tnr[b]).press.testBit (tnrPressBit x) = false → u.b (A.corEvt b) 5 = true)) ∧
        Only ([.tnr b, .keep, .reg (A.corEvt b)] ++ tnrQtys.flatMap (fun x => if (mine x).isEmpty then [] else (tnrRegs b x).map Piece.reg)) [] s u) ∧
  -- The accumulator's commands of a bar with no accumulator region, with no line that begins a frame, with no reset pending, or with no frame to evaluate,
  -- change nothing (R152, R155).
  (∀ (s : State) (b : Fin 4),
    (s.tnrRegion b = false → Sys2Proof.Machine.exec (.tnrResetCmd b) s = .next s) ∧
    ((∀ l ∈ (s.engView (b.castLE (by decide))).readyLine (b.castLE (by decide)), (s.tnr[b]).frame = some l.tag.frame) →
      Sys2Proof.Machine.exec (.tnrResetEffect b) s = .next s ∧ Sys2Proof.Machine.exec (.tnrAdaptApply b) s = .next s) ∧
    ((s.tnr[b]).resetPend = false → Sys2Proof.Machine.exec (.tnrResetEffect b) s = .next s) ∧ ((s.tnr[b]).ended = [] → Sys2Proof.Machine.exec (.tnrAdaptUpdate b) s = .next s))

/-- A table load checks its range, moves its entries in order and reports its end. Its clauses cite their rules. -/
def Obligations.CorrectionTablesLoad : Prop :=
  -- FF_BASE_WRITE (R158): the base is written, 64-aligned, and every range is checked: a Spring of a group is in conflict exactly when its range leaves
  -- the table or meets that of a lower-numbered one.
  (∀ (s : State) (n : Fin 32) (v : Word),
    s.on = true → ∃ u, Sys2Proof.Machine.exec (.ffBaseWrite n v) s = .next u ∧
      u.rd (A.corFfBase n) = wd (fld v 19 0 / 64 * 64) ∧
      (∀ m : Fin 32, u.b A.corFfConflict m = ((s.groupOf m).isSome && u.ffBad m)) ∧
      (∀ m : Fin 32, ∀ g ∈ s.groupOf m, u.b A.corFfConflict m = true → s.b A.corFfConflict m = false → u.b (A.corEvt g) 9 = true) ∧
      Only [.reg (A.corFfBase n), .reg A.corFfConflict, .keep] [.regs 0x300000] s u) ∧
  -- TABLE_LOAD_START (R164): a load whose entries are all the group's own and whose bank is not locked starts, with what the registers name latched; the
  -- status shows BUSY and nothing moved.
  (∀ (s : State) (g : Fin 12) (t : Fin 8),
    s.on = true → s.defined g = true → (s.load[g]).active = false →
      s.loadInside g (loadNames s g).1 (loadNames s g).2.2 (s.f (A.corTldCount g) 20 0) = true →
      (loadMode (s.rd (A.corTldCtl g)) = 2 ∨ s.bankLocked g (loadNames s g).1 (loadNames s g).2.1 = false) →
      ∃ u, Sys2Proof.Machine.exec (.tableLoadStart g t) s = .next u ∧
        (u.load[g]).active = true ∧ (u.load[g]).moved = 0 ∧ (u.load[g]).count = s.f (A.corTldCount g) 20 0 ∧
        (u.load[g]).ctl = s.rd (A.corTldCtl g) ∧ (u.load[g]).dst = wd (loadNames s g).2.2 ∧ (u.load[g]).stall = t.val ∧
        (u.load[g]).slot = (s.b (A.corTldCtl g) 4 && decide ((s.stalls[t]).taken < 16)) ∧
        u.rd (A.corTldStat g) = wd (2 ^ 27) ∧ u.b (A.corTldCtl g) 0 = true ∧
        Only [.load g, .reg (A.corTldStat g), .reg (A.corTldCtl g), .stall t, .reg (A.stlCntNotifyLost t), .reg (A.stlEvt t)] [] s u) ∧
  -- A load outside the group's own entries is refused with code 1, before any entry moves (R164).
  (∀ (s : State) (g : Fin 12) (t : Fin 8) (v : Word),
    s.on = true → s.defined g = true → s.rd (A.corTldDst g) = v → (s.load[g]).active = false →
      s.loadInside g (loadNames s g).1 (loadNames s g).2.2 (s.f (A.corTldCount g) 20 0) = false →
      ∃ u, Sys2Proof.Machine.exec (.tableLoadStart g t) s = .next u ∧
        u.f (A.corTldStat g) 31 28 = 1 ∧ u.f (A.corTldStat g) 20 0 = 0 ∧ u.b (A.corTldCtl g) 0 = false ∧ u.b (A.corEvt g) 1 = true ∧
        Only [.reg (A.corTldStat g), .reg (A.corTldCtl g), .reg (A.corEvt g)] [] s u) ∧
  -- TABLE_LOAD_DATA_WRITE (R164): in MODE 0 a word goes to the next entry, as its table holds it, and the count of entries advances.
  (∀ (s : State) (g : Fin 12) (v : Word),
    s.on = true → (s.load[g]).active = true → loadMode (s.load[g]).ctl = 0 →
      ∃ u, Sys2Proof.Machine.exec (.tableLoadDataWrite g v) s = .next u ∧
        u.tbl (loadKey (fld (s.load[g]).ctl 17 16) (fld (s.load[g]).ctl 12 12) g ((s.load[g]).dst.toNat + (s.load[g]).moved)) =
          entryMask (fld (s.load[g]).ctl 17 16) v ∧
        ((s.load[g]).moved + 1 < (s.load[g]).count → u.load[g] = { s.load[g] with moved := (s.load[g]).moved + 1 } ∧
          u.f (A.corTldStat g) 20 0 = ((s.load[g]).moved + 1) % 2 ^ 21) ∧
        ((s.load[g]).count ≤ (s.load[g]).moved + 1 → (u.load[g]).active = false ∧ u.b (A.corEvt g) 0 = true ∧
          u.f (A.corTldStat g) 31 28 = 0 ∧ u.b (A.corTldStat g) 27 = false ∧ u.b (A.corTldCtl g) 0 = false) ∧
        Only [.load g, .reg (A.corTldStat g), .reg (A.corTldCtl g), .reg (A.corEvt g)]
          [.tables, .stalls, .regs 0x600000, .regs 0x640000, .netPonds, .draws] s u) ∧
  -- A load port moves only what its mode says (R164): with no load under way, or in another mode, TABLE_LOAD_DATA_WRITE and TABLE_LOAD_DONE do nothing,
  -- and TABLE_LOAD_DATA_READ returns zero; TABLE_LOAD_START of an undefined group does nothing.
  (∀ (s : State) (g : Fin 12) (t : Fin 8) (v : Word),
    ((s.load[g]).active = false ∨ loadMode (s.load[g]).ctl ≠ 0 → Sys2Proof.Machine.exec (.tableLoadDataWrite g v) s = .next s) ∧
    ((s.load[g]).active = false ∨ loadMode (s.load[g]).ctl ≠ 1 → Sys2Proof.Machine.exec (.tableLoadDone g []) s = .next s) ∧
    (s.on = true → ((s.load[g]).active = false ∨ loadMode (s.load[g]).ctl ≠ 2) →
      ∃ u, Sys2Proof.Machine.exec (.tableLoadDataRead g) s = .next u ∧ u.sent = .value 0 0 :: s.sent ∧ Only [.sent] [] s u) ∧
    (s.defined g = false → Sys2Proof.Machine.exec (.tableLoadStart g t) s = .next s)) ∧
  -- TABLE_LOAD_START during a load is an overrun and changes nothing else; into a bank that is locked it is refused with code 2, before any entry moves,
  -- and raises BANK_LOCKED (R163, R164).
  (∀ (s : State) (g : Fin 12) (t : Fin 8),
    s.on = true → s.defined g = true →
      ((s.load[g]).active = true → ∃ u, Sys2Proof.Machine.exec (.tableLoadStart g t) s = .next u ∧ u.b (A.corTldStat g) 26 = true ∧ Only [.reg (A.corTldStat g)] [] s u) ∧
      ((s.load[g]).active = false → s.loadInside g (loadNames s g).1 (loadNames s g).2.2 (s.f (A.corTldCount g) 20 0) = true →
        loadMode (s.rd (A.corTldCtl g)) ≠ 2 → s.bankLocked g (loadNames s g).1 (loadNames s g).2.1 = true →
        ∃ u, Sys2Proof.Machine.exec (.tableLoadStart g t) s = .next u ∧
          u.f (A.corTldStat g) 31 28 = 2 ∧ u.f (A.corTldStat g) 20 0 = 0 ∧ u.b (A.corTldCtl g) 0 = false ∧ u.b (A.corEvt g) 1 = true ∧
          u.b (A.corEvt g) 2 = true ∧ Only [.reg (A.corTldStat g), .reg (A.corTldCtl g), .reg (A.corEvt g)] [] s u)) ∧
  -- TABLE_LOAD_DATA_READ (R164): in MODE 2 the next entry is returned, and the count advances.
  (∀ (s : State) (g : Fin 12),
    s.on = true → (s.load[g]).active = true → loadMode (s.load[g]).ctl = 2 →
      ∃ u, Sys2Proof.Machine.exec (.tableLoadDataRead g) s = .next u ∧
        u.sent.head? = some (.value 0
          (s.tbl (loadKey (fld (s.load[g]).ctl 17 16) (fld (s.load[g]).ctl 12 12) g ((s.load[g]).dst.toNat + (s.load[g]).moved))).toNat) ∧
        ((s.load[g]).moved + 1 < (s.load[g]).count → u.load[g] = { s.load[g] with moved := (s.load[g]).moved + 1 }) ∧
        ((s.load[g]).count ≤ (s.load[g]).moved + 1 → (u.load[g]).active = false) ∧
        Only [.load g, .reg (A.corTldStat g), .reg (A.corTldCtl g), .reg (A.corEvt g), .sent]
          [.stalls, .regs 0x600000, .regs 0x640000] s u) ∧
  -- TABLE_LOAD_DONE (R164, R248 to R250): a copy from the Lake ends with OK when every word lay in a readout buffer of the group's stall and none was
  -- uncorrectable, else with code 3 where it stopped; a word outside counts as a fenced request.
  (∀ (s : State) (g : Fin 12) (ecc : List (Nat × Ecc)) (room k : Nat),
    s.on = true → (s.load[g]).active = true → loadMode (s.load[g]).ctl = 1 → (s.load[g]).moved = 0 → (s.load[g]).count < 2 ^ 21 →
    room = s.copyInside g (s.load[g]).src (s.load[g]).count → k = (s.fetchLake (s.load[g]).src (4 * min room (s.load[g]).count) ecc).1 / 4 →
      ∃ u, Sys2Proof.Machine.exec (.tableLoadDone g ecc) s = .next u ∧
        (u.load[g]).active = false ∧ u.f (A.corTldStat g) 20 0 = k ∧
        u.f (A.corTldStat g) 31 28 = (if k < (s.load[g]).count then 3 else 0) ∧
        u.b (A.corEvt g) (if k < (s.load[g]).count then 1 else 0) = true ∧
        (k = room → k < (s.load[g]).count → u.b A.lakeEvt 5 = true ∧
          (u.rd A.lakeCntFence).toNat = min 0xFFFFFFFF ((s.rd A.lakeCntFence).toNat + 1)) ∧
        (ecc = [] → k = min room (s.load[g]).count) ∧
        Only [.load g, .reg (A.corTldStat g), .reg (A.corTldCtl g), .reg (A.corEvt g)]
          [.tables, .stalls, .regs 0x600000, .regs 0x640000, .regs 0x5C0000, .lakeCtl, .sent] s u)

/-- A filtered edge is timestamped into the capture FIFO, which is read in order. Its clauses cite their rules. -/
def Obligations.GpioEdgesAreCaptured : Prop :=
  -- GPIO_EDGE (R277): a selected edge on a capture input whose level has stood for FILT joins the FIFO with its time and position; a seventeenth is
  -- counted and lost.
  (∀ (s : State) (i : Fin 16) (falling : Bool) (held : Nat),
    s.on = true → s.f (A.gpioCtl i) 23 16 ≤ held → s.f (A.gpioCtl i) 1 0 = 1 → (s.f (A.gpioCtl i) 5 4 ≥ 2 ∨ (s.f (A.gpioCtl i) 5 4 = 1) = (falling = true)) →
      ∃ u, Sys2Proof.Machine.exec (.gpioEdge i falling held) s = .next u ∧
        ((s.gpio[i]).fifo.length < 16 →
          (u.gpio[i]).fifo = (s.gpio[i]).fifo ++ [{
            time := (s.timeAt (two (s.f (A.gpioCtl i) 7 6)) s.now).1, timex := (s.timeAt (two (s.f (A.gpioCtl i) 7 6)) s.now).2.1
            epoch := (s.timeAt (two (s.f (A.gpioCtl i) 7 6)) s.now).2.2, falling := falling
            pos := s.wpAt (two (s.f (A.gpioCtl i) 9 8)) s.now }] ∧ u.b (A.gpioEvt i) 0 = true) ∧
        (16 ≤ (s.gpio[i]).fifo.length → u.gpio[i] = s.gpio[i] ∧ u.b (A.gpioEvt i) 1 = true ∧
          (u.rd (A.gpioCntOvf i)).toNat = min 0xFFFFFFFF ((s.rd (A.gpioCntOvf i)).toNat + 1)) ∧
        Only [.gpio i, .reg (A.gpioEvt i), .reg (A.gpioCntOvf i)] [.groups] s u) ∧
  -- GPIO_EDGE feeds the mark sensors (R168, R277): a group whose source is this input and edge takes the edge at this moment, whatever the input's
  -- function.
  (∀ (s : State) (i : Fin 16) (falling : Bool) (held : Nat) (g : Fin 12),
    s.on = true → s.f (A.gpioCtl i) 23 16 ≤ held → ∃ u, Sys2Proof.Machine.exec (.gpioEdge i falling held) s = .next u ∧
      (u.grp[g]).edges = (s.grp[g]).edges ++ (if (s.group g).mark = .sensor i.val falling then [s.now] else [])) ∧
  -- GPIO_EDGE that FILT removes, or that no input selects and no group takes as its mark, changes nothing (R277).
  (∀ (s : State) (i : Fin 16) (falling : Bool) (held : Nat),
    (held < s.f (A.gpioCtl i) 23 16 ∨ (s.f (A.gpioCtl i) 1 0 ≠ 1 ∨ s.f (A.gpioCtl i) 5 4 < 2 ∧ (s.f (A.gpioCtl i) 5 4 = 1) ≠ (falling = true)) ∧
      ∀ g : Fin 12, (s.group g).mark ≠ .sensor i.val falling) → Sys2Proof.Machine.exec (.gpioEdge i falling held) s = .next s) ∧
  -- CAPTURE_READ (R277, Table 12.13): the oldest capture leaves the FIFO; its low word is returned and the other words are latched.
  (∀ (s : State) (i : Fin 16) (c : Capture) (rest : List Capture),
    s.on = true → (s.gpio[i]).fifo = c :: rest →
      ∃ u, Sys2Proof.Machine.exec (.captureRead i) s = .next u ∧
        u.sent = .value 0 (wd c.time).toNat :: s.sent ∧ (u.gpio[i]).fifo = rest ∧ u.rd (A.gpioCapTimeHi i) = wd (c.time / 2 ^ 32) ∧
        u.b (A.gpioCapInfo i) 31 = true ∧ u.b (A.gpioCapInfo i) 30 = c.falling ∧ u.f (A.gpioCapInfo i) 23 16 = c.epoch % 256 ∧
        u.f (A.gpioCapInfo i) 15 0 = c.timex % 65536 ∧ u.rd (A.gpioCapWpLo i 0) = wd c.pos ∧
        Only [.gpio i, .sent, .reg (A.gpioCapTimeHi i), .reg (A.gpioCapInfo i), .reg (A.gpioCapWpLo i 0), .reg (A.gpioCapWpLo i 1)] [] s u) ∧
  -- CAPTURE_READ of an empty FIFO returns zero, and VALID reads 0 (R277).
  (∀ (s : State) (i : Fin 16),
    s.on = true → (s.gpio[i]).fifo = [] →
      ∃ u, Sys2Proof.Machine.exec (.captureRead i) s = .next u ∧
        u.sent = .value 0 0 :: s.sent ∧ u.rd (A.gpioCapInfo i) = 0#32 ∧
        Only [.sent, .reg (A.gpioCapTimeHi i), .reg (A.gpioCapInfo i), .reg (A.gpioCapWpLo i 0), .reg (A.gpioCapWpLo i 1)] [] s u)

/-- Statistics of a frame close, and enter their streams in order. Its clauses cite their rules. -/
def Obligations.StatisticsRecordsClose : Prop :=
  -- STATS_RECORD_CLOSE (R184, R185, R318): the record of a frame that has passed every point closes: it waits for every statistics stream of the group;
  -- its frame and length are shown, and it is counted.
  (∀ (s : State) (g : Fin 12) (a : TallyAcc) (rest : List TallyAcc) (d : Nat),
    s.on = true → (s.tally[g]).accs = a :: rest → a.ended = true → s.seamDone g a.info.frame = true → s.accDropped g a = some d →
      (a.payload g (s.group g).channels (s.group g).springs d (s.seamWords g a.info.frame)).length + 64 ≤ s.sramSize (52 + g) →
      statFill (s.tally[g]).closed + s.unseen (52 + g) + up64 (a.payload g (s.group g).channels (s.group g).springs d (s.seamWords g a.info.frame)).length ≤ s.sramSize (52 + g) →
      ∃ u, Sys2Proof.Machine.exec (.statsRecordClose g) s = .next u ∧
        (u.tally[g]).accs = rest ∧ (u.tally[g]).closed.length = (s.tally[g]).closed.length + 1 ∧
        ((u.tally[g]).closed.getLast?).map (fun r => (r.frame, r.bytes, r.at_, r.todo)) =
          some (a.info.frame, a.payload g (s.group g).channels (s.group g).springs d (s.seamWords g a.info.frame), s.now, s.statStreams g) ∧
        u.rd (A.talLastFrame g) = wd a.info.frame ∧
        u.rd (A.talLastLen g) = wd (a.payload g (s.group g).channels (s.group g).springs d (s.seamWords g a.info.frame)).length ∧
        (u.rd (A.talCntRec g)).toNat = min 0xFFFFFFFF ((s.rd (A.talCntRec g)).toNat + 1) ∧
        Only [.tally g, .group g, .reg (A.pndpPeak (52 + g)), .reg (A.talLastFrame g), .reg (A.talLastLen g), .reg (A.talCntRec g),
          .reg (A.talEvt g)] [.draws] s u) ∧
  -- STATS_RECORD_CLOSE of a record beyond the Tally assembly pond less 64 bytes (R206, R318): it is lost to every statistics stream of the group.
  (∀ (s : State) (g : Fin 12) (a : TallyAcc) (rest : List TallyAcc) (d : Nat),
    s.on = true → (s.tally[g]).accs = a :: rest → a.ended = true → s.seamDone g a.info.frame = true → s.accDropped g a = some d →
    s.sramSize (52 + g) < (a.payload g (s.group g).channels (s.group g).springs d (s.seamWords g a.info.frame)).length + 64 →
      ∃ u, Sys2Proof.Machine.exec (.statsRecordClose g) s = .next u ∧
        (u.tally[g]).accs = rest ∧ (u.tally[g]).closed = (s.tally[g]).closed ∧
        (∀ n : Fin 16, n.val ∈ s.statStreams g → s.outOn n = true → u.b (A.outEvt n) 2 = true ∧ (u.out[n]).pend.isSome) ∧
        (u.rd (A.talCntRec g)).toNat = min 0xFFFFFFFF ((s.rd (A.talCntRec g)).toNat + 1) ∧
        Only [.tally g, .group g, .reg (A.talLastFrame g), .reg (A.talLastLen g), .reg (A.talCntRec g), .reg (A.talEvt g)]
          [.streams, .regs 0x540000] s u) ∧
  -- STATS_RECORD_CLOSE of a record that fits its pond waits while the free space, in the Tally's view, does not hold it (R316).
  (∀ (s : State) (g : Fin 12) (a : TallyAcc) (rest : List TallyAcc) (d : Nat),
    (s.tally[g]).accs = a :: rest → s.accDropped g a = some d →
      (a.payload g (s.group g).channels (s.group g).springs d (s.seamWords g a.info.frame)).length + 64 ≤ s.sramSize (52 + g) →
      s.sramSize (52 + g) < statFill (s.tally[g]).closed + s.unseen (52 + g) + up64 (a.payload g (s.group g).channels (s.group g).springs d (s.seamWords g a.info.frame)).length →
      Sys2Proof.Machine.exec (.statsRecordClose g) s = .next s) ∧
  -- STATS_RECORD_CLOSE of a group whose oldest frame has not passed every point, STATS_RECORD_ENTER and STATS_RECORD_TIMEOUT with no closed record, or
  -- before a round has passed, change nothing (R184, R206).
  (∀ (s : State) (g : Fin 12) (n : Fin 16),
    ((∀ a ∈ (s.tally[g]).accs.head?, a.ended = false) → Sys2Proof.Machine.exec (.statsRecordClose g) s = .next s) ∧
    ((s.tally[g]).closed = [] → Sys2Proof.Machine.exec (.statsRecordEnter g) s = .next s ∧ ((s.stream n).group = g.val → Sys2Proof.Machine.exec (.statsRecordTimeout n) s = .next s)) ∧
    ((s.stream n).group = g.val → (∀ r ∈ (s.tally[g]).closed.head?, s.now < r.at_ + roundNs) → Sys2Proof.Machine.exec (.statsRecordTimeout n) s = .next s)) ∧
  -- STATS_RECORD_ENTER (R184): a record that no stream any longer waits for leaves, and REC_DONE is raised.
  (∀ (s : State) (g : Fin 12) (r : StatRec) (rest : List StatRec),
    s.on = true → (s.tally[g]).closed = r :: rest → r.todo = [] →
      ∃ u, Sys2Proof.Machine.exec (.statsRecordEnter g) s = .next u ∧
        (u.tally[g]).closed = rest ∧ u.b (A.talEvt g) 0 = true ∧
        Only [.tally g, .reg (A.talEvt g), .releases, .draws, .readPtr ⟨52 + g.val, by omega⟩] [] s u) ∧
  -- STATS_RECORD_ENTER (R184, R197, R202): with its pond clear and room in it, an enabled stream takes the record: one more in the pond and counted, ALIVE
  -- advanced, REC_MAX its length.
  (∀ (s : State) (g : Fin 12) (r : StatRec) (rest : List StatRec) (n : Fin 16),
    s.on = true → (s.tally[g]).closed = r :: rest → r.todo = [n.val] → s.outOn n = true → (s.out[n]).pend = none → (s.out[n]).tel = [] →
      s.outRoom n (headBytes (s.recFmt n) + r.bytes.length + 4) = true → ((s.out[n]).aliveRestart = false ∨ s.oldFrame (s.stream n).group r.tag.frame = true) →
      ∃ u, Sys2Proof.Machine.exec (.statsRecordEnter g) s = .next u ∧
        (u.tally[g]).closed = rest ∧ u.b (A.talEvt g) 0 = true ∧ (u.out[n]).pond.length = (s.out[n]).pond.length + 1 ∧
        ((u.out[n]).pond.getLast?).map (fun x => (x.type, x.alive, x.bytes.length)) =
          some (1, (s.out[n]).alive, headBytes (s.recFmt n) + r.bytes.length + 4) ∧
        (u.out[n]).alive = ((s.out[n]).alive + 1) % 65536 ∧
        u.rd (A.outRecMax n) = wd (headBytes (s.recFmt n) + r.bytes.length + 4) ∧
        Only [.tally g, .stream n, .reg (A.talEvt g), .reg (A.outRecMax n), .reg (A.outCntRecLo n), .reg (A.outCntRecHi n),
          .reg (A.outPeak n), .reg (A.pndpPeak (s.stream n).pond), .readPtr ⟨52 + g.val, by omega⟩] [.releases, .draws] s u) ∧
  -- STATS_RECORD_TIMEOUT (R206): a record that has not entered a stream within one round is lost to it: counted, STATS_LOST raised, and a truncation of
  -- cause 5 or a wider one is pending.
  (∀ (s : State) (n : Fin 16) (g : Fin 12) (r : StatRec) (rest : List StatRec),
    s.on = true → (s.stream n).group = g.val → s.outOn n = true → (s.tally[g]).closed = r :: rest → r.todo.contains n.val = true →
      r.at_ + roundNs ≤ s.now →
      ∃ u, Sys2Proof.Machine.exec (.statsRecordTimeout n) s = .next u ∧
        (u.rd (A.outCntDrop n)).toNat = min 0xFFFFFFFF ((s.rd (A.outCntDrop n)).toNat + 1) ∧ u.b (A.outEvt n) 2 = true ∧
        (u.out[n]).pend.isSome = true ∧ ((s.out[n]).pend = none → ((u.out[n]).pend.map (fun p => (p.frame, p.cause, p.dropped))) = some (r.frame, 5, some 0)) ∧
        (r.todo.all (· == n.val) = true → (u.tally[g]).closed = rest ∧ u.b (A.talEvt g) 0 = true) ∧
        Only [.tally g, .stream n, .reg (A.outCntDrop n), .reg (A.outEvt n), .reg (A.talEvt g), .readPtr ⟨52 + g.val, by omega⟩]
          [.releases, .draws] s u)

/-- Output lines form records, and a truncation record follows what was lost. Its clauses cite their rules. -/
def Obligations.OutputRecordsFormAndTruncate : Prop :=
  -- A line at a tap is cropped, binned and scaled (R189, R190, R191): of its columns X0 to X0 + WIDTH − 1 as far as it goes, each B are averaged, and each
  -- output column is the filter of R191 at its position; in the RAW format and at the deviation tap the crop alone applies (R194).
  (∀ (s : State) (n : Fin 16) (l : TapLine) (y : Nat),
    let o := s.outNow n
    let w := (l.chans.headD []).length
    let wb := (min (o.x0 + o.width) w - o.x0) / o.bin
    let cols := (s.hLine o y l).cols
    (∀ x ∈ l.chans, x.length = w) →
    (s.hLine o y l).tag = l.tag ∧ (s.hLine o y l).y = y ∧ (s.hLine o y l).flags = l.flags ∧ cols.length = l.chans.length ∧
    ∀ c ∈ List.range l.chans.length, ∀ x ∈ l.chans[c]?, ∀ r ∈ cols[c]?,
      let b := fun (j : Nat) => nearest (((List.range o.bin).foldl (fun (a : Nat) i => a + x.getD (o.x0 + j * o.bin + i) 0) 0 : Nat) / (o.bin : Rat))
      let raw := o.tap = 5 ∨ o.fmt = 5
      r.length = (if raw then wb else wb * 65536 / o.hraw) ∧
      ∀ k ∈ List.range r.length, r[k]? = some (if raw then b k else
        let p := phased (((k : Rat) + 1 / 2) * ((o.hstep : Rat) / 65536) - 1 / 2)
        nearest16 (((List.range 8).foldl (fun (a : Int) t =>
          a + s.hCoef o.hset p.2 t * b (clampI 0 (Int.ofNat wb - 1) (p.1 - 3 + Int.ofNat t)).toNat) 0 : Int) / (16384 : Rat)))) ∧
  -- OUTPUT_LINE_FORM (R192, R193, R194): an output line m that can be formed is, and the next one is DEC lines on.
  (∀ (s : State) (n : Fin 16) (v : State),
    let x := s.out[n]
    let o := v.outNow n
    let ylast := (x.lines.getLast?.map (·.y)).getD 0
    let q := (o.y0 : Rat) + ((x.m : Rat) + 1 / 2) * ((o.vstep : Rat) / 65536) - 1 / 2
    let anchor := x.lines.find? (fun l => l.y == max o.y0 (min ylast (nearest q)))
    let taps := (List.range 4).map (fun t => x.lines.find? (fun l => l.y == (clampI o.y0 ylast ((phased q).1 - 1 + Int.ofNat t)).toNat))
    s.on = true → v = ofFrame s n ((s.out[n]).tapFrame.getD 0) → x.formable o = true → (∀ t ∈ taps, t.isSome = true) →
      (∀ l ∈ x.lines, l.cols.length = ((x.lines.headD { tag := {}, y := 0, flags := 0, cols := [], x0 := 0, hpos0 := 0, hstep := 0, chsel := 0 }).cols).length ∧
        ∀ c ∈ l.cols, c.length = (l.cols.headD []).length) → (∀ l ∈ x.lines, ∀ k ∈ x.lines, l.cols.map List.length = k.cols.map List.length) →
      ∃ u, Sys2Proof.Machine.exec (.outputLineForm n) s = .next u ∧
        (u.out[n]).m = x.m + o.dec ∧ (u.out[n]).tapFrame = x.tapFrame ∧ (u.out[n]).formed.dropLast = x.formed ∧
        (u.out[n]).formed.length = x.formed.length + 1 ∧
        (∀ f ∈ (u.out[n]).formed.getLast?, ∀ a ∈ anchor,
          f.m = x.m ∧ f.fmt = o.fmt ∧ f.line.tag = a.tag ∧ f.line.y = a.y ∧ f.line.x0 = a.x0 ∧ f.line.chsel = a.chsel ∧
          f.flags = (taps.filterMap id).foldl (fun b l => b ||| l.flags)
            (if (taps.filterMap id).any (fun l => (taps.filterMap id).any (fun k => l.tag.gen != k.tag.gen)) then 128 else 0) ∧
          (if o.tap = 5 ∨ o.fmt = 5 then f.line.cols = a.cols
           else f.line.cols.map List.length = a.cols.map List.length ∧
            ∀ c ∈ List.range a.cols.length, ∀ i ∈ List.range (a.cols.headD []).length, (f.line.cols.getD c []).getD i 0 =
              nearest16 (((taps.filterMap id).zipIdx.foldl (fun (acc : Int) l =>
                acc + v.vCoef o.vset (phased q).2 l.2 * Int.ofNat ((l.1.cols.getD c []).getD i 0)) 0 : Int) / (16384 : Rat)))) ∧
        anchor.isSome = true ∧ Only [.stream n] [] s u) ∧
  -- The payload of a line record holds the output columns in order, each in its format's layout, two-byte values little-endian and one-byte values rounded
  -- from 16 bits, with 0 for a channel that the group lacks, padded with 0x00 to a multiple of 4 bytes (R196).
  (∀ (s : State) (n : Fin 16) (o : OLine),
    let bs := (s.lineRecord n o).2
    let lay := pixelLayout o.fmt o.line.chsel o.line.cols.length
    let w := lay.foldl (fun a x => a + x.2) 0
    let cols := (o.line.cols.headD []).length
    (s.lineRecord n o).1.cols = cols ∧ (s.lineRecord n o).1.pixfmt = o.fmt ∧ (s.lineRecord n o).1.oline = o.m ∧
    (s.lineRecord n o).1.line = o.line.tag.line ∧ bs.length = (cols * w + 3) / 4 * 4 ∧ (∀ x ∈ bs.drop (cols * w), x = 0#8) ∧
    ∀ i ∈ List.range cols, (bs.drop (i * w)).take w = lay.flatMap (fun q =>
      let x := (o.line.cols.getD q.1 []).getD i 0
      if q.2 = 1 then [BitVec.ofNat 8 (min 255 (nearest ((x : Rat) / 256)))] else [BitVec.ofNat 8 x, BitVec.ofNat 8 (x / 256)])) ∧
  -- RECORD_COMPLETE (R197, R202): with no truncation pending and room in the pond, the record of the oldest output line enters it as a TYPE 0 record, in
  -- its frame the first with SOF, with the stream's ALIVE, which advances.
  (∀ (s : State) (n : Fin 16) (o : OLine) (rest : List OLine) (v : State),
    s.on = true → (s.out[n]).formed = o :: rest → v = ofFrame s n o.line.tag.frame → (s.out[n]).discard ≠ some o.line.tag.frame →
      (s.out[n]).pend = none → v.outHeld n = false → (s.out[n]).aliveRestart = false →
      v.outRoom n (headBytes o.recfmt + (v.lineRecord n o).2.length + 4) = true →
      ∃ u, Sys2Proof.Machine.exec (.recordComplete n) s = .next u ∧
        (u.out[n]).formed = rest ∧ (u.out[n]).pond.length = (s.out[n]).pond.length + 1 ∧
        ((u.out[n]).pond.getLast?).map (fun x => (x.type, x.alive, x.tag.frame, x.tag.line)) =
          some (0, (s.out[n]).alive, o.line.tag.frame, o.line.tag.line) ∧
        (u.out[n]).alive = ((s.out[n]).alive + 1) % 65536 ∧ (u.out[n]).sofFrame = some o.line.tag.frame ∧ (u.out[n]).discard = none ∧
        (((v.lineRecord n o).1.flags / 2048) % 2 = 1 ↔ (s.out[n]).sofFrame ≠ some o.line.tag.frame) ∧
        Only [.stream n, .reg (A.outCntRecLo n), .reg (A.outCntRecHi n), .reg (A.outPeak n), .reg (A.pndpPeak (v.stream n).pond)] [.draws] s u) ∧
  -- RECORD_COMPLETE in a frame whose records are being discarded drops the record and counts it (R205).
  (∀ (s : State) (n : Fin 16) (o : OLine) (rest : List OLine),
    s.on = true → (s.out[n]).formed = o :: rest → (s.out[n]).discard = some o.line.tag.frame →
      ∃ u, Sys2Proof.Machine.exec (.recordComplete n) s = .next u ∧
        (u.out[n]).formed = rest ∧ (u.out[n]).pond = (s.out[n]).pond ∧
        (u.rd (A.outCntDrop n)).toNat = min 0xFFFFFFFF ((s.rd (A.outCntDrop n)).toNat + 1) ∧ u.b (A.outEvt n) 1 = true ∧
        Only [.stream n, .reg (A.outCntDrop n), .reg (A.outEvt n)] [] s u) ∧
  -- TRUNCATION_RECORD_ENTER (R204): once no record of its frame is still to come, a complete pending truncation record enters a pond with room as a TYPE 3
  -- record, and TRUNC is raised and counted.
  (∀ (s : State) (n : Fin 16) (p : PendTrunc) (d : Nat),
    s.on = true → (s.out[n]).pend = some p → p.dropped = some d → (s.out[n]).formed.all (fun o => isLater 32 o.line.tag.frame p.frame) = true →
      s.isStats n = false → s.outRoom n (truncLen p.fmt) = true → (s.out[n]).aliveRestart = false →
      ∃ u, Sys2Proof.Machine.exec (.truncationRecordEnter n) s = .next u ∧
        (u.out[n]).pend = none ∧ (u.out[n]).pond.length = (s.out[n]).pond.length + 1 ∧
        ((u.out[n]).pond.getLast?).map (fun x => (x.type, x.alive, x.tag.frame, x.tag.line, x.bytes.length)) =
          some (3, (s.out[n]).alive, (p.tag.getD { frame := p.frame }).frame, p.line, truncLen p.fmt) ∧
        (u.rd (A.outCntTrunc n)).toNat = min 0xFFFFFFFF ((s.rd (A.outCntTrunc n)).toNat + 1) ∧ u.b (A.outEvt n) 0 = true ∧
        Only [.stream n, .reg (A.outCntRecLo n), .reg (A.outCntRecHi n), .reg (A.outPeak n), .reg (A.pndpPeak (s.stream n).pond),
          .reg (A.outCntTrunc n), .reg (A.outEvt n)] [.draws] s u) ∧
  -- What a stream leaves as it is: OUTPUT_LINE_FORM while no line can be formed, RECORD_COMPLETE with no formed line, and TRUNCATION_RECORD_ENTER with no
  -- pending truncation (R192, R197, R204).
  (∀ (s : State) (n : Fin 16),
    ((s.out[n]).lines = [] → Sys2Proof.Machine.exec (.outputLineForm n) s = .next s) ∧ ((s.out[n]).formed = [] → Sys2Proof.Machine.exec (.recordComplete n) s = .next s) ∧
    ((s.out[n]).pend = none → Sys2Proof.Machine.exec (.truncationRecordEnter n) s = .next s)) ∧
  -- RECORD_COMPLETE without room in the pond (R130, R205): in the in-line bar the record is discarded and counted, its frame's others with it, and a
  -- truncation of cause 4 at its line is pending; in a Lake-fed group it waits.
  (∀ (s : State) (n : Fin 16) (o : OLine) (rest : List OLine),
    s.on = true → s.passing = false → (s.out[n]).formed = o :: rest → (s.out[n]).discard = none → (s.out[n]).pend = none → s.outHeld n = false →
      s.outRoom n (headBytes o.recfmt + (s.lineRecord n o).2.length + 4) = false →
      (s.isInline (s.stream n).group = true → ∃ u, Sys2Proof.Machine.exec (.recordComplete n) s = .next u ∧
        (u.out[n]).formed = rest ∧ (u.out[n]).discard = some o.line.tag.frame ∧ (u.out[n]).pond = (s.out[n]).pond ∧ u.b (A.outEvt n) 1 = true ∧
        ((u.out[n]).pend.map (fun p => (p.frame, p.line, p.cause))) = some (o.line.tag.frame, o.line.tag.line, 4) ∧
        (u.rd (A.outCntDrop n)).toNat = min 0xFFFFFFFF ((s.rd (A.outCntDrop n)).toNat + 1) ∧
        Only [.stream n, .reg (A.outCntDrop n), .reg (A.outEvt n)] [] s u) ∧
      (s.isInline (s.stream n).group = false → Sys2Proof.Machine.exec (.recordComplete n) s = .next s)) ∧
  -- TRUNCATION_RECORD_ENTER while DROPPED is not known does nothing (R204).
  (∀ (s : State) (n : Fin 16) (p : PendTrunc),
    (s.out[n]).pend = some p → p.dropped = none → Sys2Proof.Machine.exec (.truncationRecordEnter n) s = .next s) ∧
  -- OUT_COEF_WRITE (R195): a word of a set that no stream has in force is written.
  (∀ (s : State) (k : Fin 768) (v : Word),
    s.on = true → (if k.val < 512 then s.hSetUsed (k / 64) else s.vSetUsed ((k - 512 : Nat) / 32)) = false →
      ∃ u, Sys2Proof.Machine.exec (.outCoefWrite k v) s = .next u ∧
        u.rd (if k.val < 512 then A.outHCoef k else A.outVCoef (k.val - 512)) = v ∧
        Only [.reg (if k.val < 512 then A.outHCoef k else A.outVCoef (k.val - 512)), .keep] [] s u) ∧
  -- OUT_COEF_WRITE into a set in force is discarded and raises TABLE_BUSY (R195).
  (∀ (s : State) (k : Fin 768) (v : Word),
    s.on = true → (if k.val < 512 then s.hSetUsed (k / 64) else s.vSetUsed ((k - 512 : Nat) / 32)) = true →
      ∃ u, Sys2Proof.Machine.exec (.outCoefWrite k v) s = .next u ∧ u.b A.outGlbEvt 0 = true ∧ Only [.reg A.outGlbEvt] [] s u)

/-- A port takes its mode, and its links go down and come up after their holds. Its clauses cite their rules. -/
def Obligations.EthernetPortsAndLinksComeAndGo : Prop :=
  -- ETH_PORT_ENABLE (R212, R213): EN going to 1 on a stream port puts the mode written into force; each link that the mode has is up at once where its PCS
  -- is aligned and it signals no fault, and a link that the mode does not have is down.
  (∀ (s : State) (p : Fin 4) (v : Word),
    let mode := if fld v 2 1 = 3 then 0 else fld v 2 1
    let has := fun (l : Fin 8) => l.val % 4 < (if mode = 0 then 1 else if mode = 1 then 2 else 4)
    s.on = true → s.b (A.ethCtl p) 0 = false → p.val < 2 →
      ∃ u, Sys2Proof.Machine.exec (.ethPortEnable p v) s = .next u ∧
        u.rd (A.ethCtl p) = wd ((setBit v 0 true).toNat &&& 7) ∧ u.portMode[p] = mode ∧
        (∀ l : Fin 8, l.val / 4 = p.val →
          (has l ∧ (s.links[l]).aligned = true ∧ (s.links[l]).lfault = false ∧ (s.links[l]).rfault = false →
            (u.links[l]).up = true ∧ (u.links[l]).badFrom = none ∧ (u.links[l]).upFrom = s.now ∧ u.linkOk l = true) ∧
          (¬ has l → (u.links[l]).up = false ∧ u.linkOk l = false) ∧
          (has l ∧ ¬ ((s.links[l]).aligned = true ∧ (s.links[l]).lfault = false ∧ (s.links[l]).rfault = false) →
            (u.links[l]).up = (s.links[l]).up ∧ u.linkOk l = false)) ∧
        (∀ l : Fin 8, l.val / 4 ≠ p.val → u.links[l] = s.links[l]) ∧
        Only [.reg (A.ethCtl p), .portMode p] [.ptp, .timeBases, .regs 0x580000, .keep, .links, .power, .drains, .transports, .netPonds, .releases, .draws,
          .readPtrs, .regs 0x500000, .regs 0x540000] s u) ∧
  -- ETH_PORT_ENABLE of MA or MB (R212, R265).
  (∀ (s : State) (p : Fin 4) (v : Word),
    s.on = true → s.b (A.ethCtl p) 0 = false → 2 ≤ p.val →
      ∃ u, Sys2Proof.Machine.exec (.ethPortEnable p v) s = .next u ∧
        u.rd (A.ethCtl p) = wd ((setBit v 0 true).toNat &&& 0x37) ∧ u.portMode[p] = (if fld v 2 1 = 1 then 1 else 0) ∧
        Only [.reg (A.ethCtl p), .portMode p, .keep] [] s u) ∧
  -- ETH_PORT_ENABLE of an enabled port leaves the mode in force (R212); ETH_PORT_DISABLE of MA or MB takes its link down, which its PTP port follows
  -- (R212, R265).
  (∀ (s : State) (p : Fin 4) (v : Word),
    s.on = true → s.b (A.ethCtl p) 0 = true →
      (∃ u, Sys2Proof.Machine.exec (.ethPortEnable p v) s = .next u ∧ u.portMode[p] = s.portMode[p] ∧ u.b (A.ethCtl p) 0 = true ∧
        Only [.reg (A.ethCtl p)] [.netPonds, .releases, .draws, .readPtrs, .keep, .links, .power, .drains, .transports, .ptp, .timeBases, .regs 0x580000, .regs 0x500000, .regs 0x540000] s u) ∧
      (2 ≤ p.val → ∃ u, Sys2Proof.Machine.exec (.ethPortDisable p v) s = .next u ∧ u.b (A.ethCtl p) 0 = false ∧ u.rd (A.ethStatus p) = 0#32 ∧ u.portMode[p] = s.portMode[p] ∧
        Only [.reg (A.ethCtl p), .reg (A.ethStatus p), .keep] [.ptp, .timeBases, .regs 0x580000] s u)) ∧
  -- ETH_PORT_DISABLE (R212): EN going to 0 takes every link of the port down.
  (∀ (s : State) (p : Fin 4) (v : Word),
    s.on = true → p.val < 2 → (∀ l : Fin 8, l.val / 4 = p.val → (s.links[l]).up = true ∨ s.linkOk l = false) →
      ∃ u, Sys2Proof.Machine.exec (.ethPortDisable p v) s = .next u ∧
        u.b (A.ethCtl p) 0 = false ∧ u.portMode[p] = s.portMode[p] ∧
        (∀ l : Fin 8, l.val / 4 = p.val → (u.links[l]).up = false ∧ u.linkOk l = false) ∧
        Only [.reg (A.ethCtl p)] [.netPonds, .releases, .draws, .readPtrs, .ptp, .timeBases, .regs 0x580000, .keep, .links, .power, .drains, .transports, .regs 0x500000, .regs 0x540000] s u) ∧
  -- LINK_FAULT (R213): the link's signals are taken; one that was up and no longer meets the conditions has this moment as the start of its outage, and is
  -- not yet declared down.
  (∀ (s : State) (l : Fin 8) (a f r : Bool),
    s.on = true → s.linkExists l = true →
      ∃ u, Sys2Proof.Machine.exec (.linkFault l a f r) s = .next u ∧
        (u.links[l]).aligned = a ∧ (u.links[l]).lfault = f ∧ (u.links[l]).rfault = r ∧ u.linkOk l = (a && !f && !r) ∧
        (s.linkOk l = true → u.linkOk l = false → (u.links[l]).badFrom = some s.now ∧ (u.links[l]).up = (s.links[l]).up) ∧
        (s.linkOk l = false → u.linkOk l = true → (u.links[l]).up = true ∧ (u.links[l]).badFrom = none ∧ (u.links[l]).upFrom = s.now) ∧
        Only [.link l] [.ptp, .timeBases, .regs 0x580000, .drains, .transports, .regs 0x500000] s u) ∧
  -- LINK_DOWN (R213): a link not up for MKT_LINK_HOLD is declared down: counted, its pauses ended.
  (∀ (s : State) (l : Fin 8) (t : Nat),
    s.on = true → (s.links[l]).badFrom = some t → t + us (atLeast1 (s.f A.mktLinkHold 7 0)) ≤ s.now →
      ∃ u, Sys2Proof.Machine.exec (.linkDown l) s = .next u ∧
        (u.links[l]).up = false ∧ (u.links[l]).badFrom = none ∧ (u.links[l]).pauses = [] ∧
        (u.rd (A.ethlCntDown (l.val / 4) (l.val % 4))).toNat =
          min 0xFFFFFFFF ((s.rd (A.ethlCntDown (l.val / 4) (l.val % 4))).toNat + 1) ∧
        u.power = { s.power with telDown := s.power.telDown ||| 2 ^ l.val } ∧
        Only [.link l, .netPond (l.castLE (by decide)), .reg (A.ethlCntDown (l.val / 4) (l.val % 4)), .power] [.releases, .draws, .readPtrs, .ptp, .timeBases, .regs 0x580000, .drains, .transports, .regs 0x500000] s u) ∧
  -- LINK_FAULT and LINK_UP of a link that the port's mode in force does not have only set its signals; LINK_UP of a link that meets the conditions changes
  -- nothing (R212, R213).
  (∀ (s : State) (l : Fin 8) (a f r : Bool),
    s.on = true → (s.linkExists l = false → (s.links[l]).up = false →
      (∃ u, Sys2Proof.Machine.exec (.linkFault l a f r) s = .next u ∧ u.links[l] = { s.links[l] with aligned := a, lfault := f, rfault := r } ∧ Only [.link l] [] s u) ∧
      ∃ u, Sys2Proof.Machine.exec (.linkUp l) s = .next u ∧ u.links[l] = { s.links[l] with aligned := true, lfault := false, rfault := false } ∧ Only [.link l] [] s u) ∧
    (s.linkOk l = true → Sys2Proof.Machine.exec (.linkUp l) s = .next s)) ∧
  -- A link that is up again before MKT_LINK_HOLD has passed is not declared down (R213).
  (∀ (s : State) (l : Fin 8),
    (s.links[l]).badFrom.all (fun t => decide (s.now < t + us (atLeast1 (s.f A.mktLinkHold 7 0)))) = true → Sys2Proof.Machine.exec (.linkDown l) s = .next s) ∧
  -- LINK_UP (R213): a link of the mode in force that meets the conditions again is up at once.
  (∀ (s : State) (l : Fin 8),
    s.on = true → s.linkExists l = true → s.linkOk l = false →
      ∃ u, Sys2Proof.Machine.exec (.linkUp l) s = .next u ∧
        (u.links[l]).up = true ∧ (u.links[l]).badFrom = none ∧ (u.links[l]).upFrom = s.now ∧ u.linkOk l = true ∧
        Only [.link l] [.ptp, .timeBases, .regs 0x580000, .drains, .transports, .regs 0x500000] s u)

/-- The market takes records into resend windows and sends their segments in its order. Its clauses cite their rules. -/
def Obligations.WindowsTakeRecordsAndSegmentsLeave : Prop :=
  -- MARKET_TAKE_RECORD (R221, R222, R230, R233, R234, R372): the record at the head of the pond, when the stream may take it and the order gives the
  -- stream the next segment of its link, takes the next SEQ, is counted in SENT, is held in the window of a stream that is not lossy, and its first
  -- segment goes to the link's transmit pond.
  (∀ (s : State) (n : Fin 16) (h : Rec) (rest : List Rec) (l : Fin 8),
    s.on = true → (s.out[n]).pond = h :: rest → s.canTake n = true → (s.stream n).mode ≠ .lossy → usedLink (s.stream n) (s.xpt[n]) = l.val →
      (s.xpt[n]).gap = none → (s.xpt[n]).failbackDue = false → sendsNext s n (s.stream n) (s.xpt[n]) = none → (marketLaw s l).map (·.2) = some n.val →
      s.packRoom (l.castLE (by decide)) (segFrame s l n (s.stream n) (s.xpt[n]) (newTx s n h)).length = true →
      ∃ u, Sys2Proof.Machine.exec (.marketTakeRecord n) s = .next u ∧
        (u.out[n]).pond = rest ∧ (u.xpt[n]).seq = ((s.xpt[n]).seq + 1) % 2 ^ 32 ∧
        (u.xpt[n]).sent = ((s.xpt[n]).sent + h.bytes.length) % 2 ^ 64 ∧
        (u.xpt[n]).held.map (fun x => (x.seq, x.record, x.acked)) = (s.xpt[n]).held.map (fun x => (x.seq, x.record, x.acked)) ++ [((s.xpt[n]).seq, h, false)] ∧
        (u.xpt[n]).newQ = (s.xpt[n]).newQ ∧ segmentGone s l n (s.stream n) (s.xpt[n]) (newTx s n h) u ∧
        Only [.stream n, .link l, .netPond (l.castLE (by decide)), .reg (A.pndpPeak (64 + l.val)), .reg (A.xptEvt n)] [.transports, .drains, .bytes, .readPtrs, .releases,
          .draws] s u) ∧
  -- The record stays in the pond while the order gives the link's next segment to another stream, or while the stream has other segments to send first
  -- (R233, R234, R372).
  (∀ (s : State) (n : Fin 16) (l : Fin 8),
    s.on = true → s.canTake n = true → (s.stream n).mode = .reliable → (s.xpt[n]).winFull = false → usedLink (s.stream n) (s.xpt[n]) = l.val →
      (sendsNext s n (s.stream n) (s.xpt[n]) ≠ none ∨ (marketLaw s l).map (·.2) ≠ some n.val) → Sys2Proof.Machine.exec (.marketTakeRecord n) s = .next s) ∧
  -- A reliable stream whose window is full keeps its record in the pond and raises WIN_FULL once (R225).
  (∀ (s : State) (n : Fin 16) (h : Rec) (rest : List Rec),
    s.on = true → (s.out[n]).pond = h :: rest → (s.stream n).exists_ = true → (s.stream n).mode = .reliable →
      (s.xpt[n]).fits (s.stream n).window (s.windowBytes n) (winBytes h) = false →
      ∃ u, Sys2Proof.Machine.exec (.marketTakeRecord n) s = .next u ∧
        u.out[n] = s.out[n] ∧ u.xpt[n] = { s.xpt[n] with winFull := true } ∧
        u.b (A.xptEvt n) 2 = (s.b (A.xptEvt n) 2 || !(s.xpt[n]).winFull) ∧ Only [.transport n, .reg (A.xptEvt n)] [] s u) ∧
  -- MARKET_TAKE_RECORD of a stream with an empty pond, or that is not defined, changes nothing; a lossy stream that may not take its record, and has a
  -- session and a link, keeps it (R220, R221, R230).
  (∀ (s : State) (n : Fin 16),
    ((s.out[n]).pond = [] → Sys2Proof.Machine.exec (.marketTakeRecord n) s = .next s) ∧ ((s.stream n).exists_ = false → Sys2Proof.Machine.exec (.marketTakeRecord n) s = .next s) ∧
    ((s.stream n).mode = .lossy → (s.sessionOf n (s.xpt[n])).isSome = true → s.noLink (s.stream n) = false → s.canTake n = false →
      Sys2Proof.Machine.exec (.marketTakeRecord n) s = .next s)) ∧
  -- A lossy stream with no session, or with neither link up, discards the record and counts it (R220, R238).
  (∀ (s : State) (n : Fin 16) (h : Rec),
    s.on = true → (s.out[n]).pond = [h] → (s.stream n).exists_ = true → (s.stream n).mode = .lossy →
      ((s.sessionOf n (s.xpt[n])).isNone = true ∨ s.noLink (s.stream n) = true) →
      ∃ u, Sys2Proof.Machine.exec (.marketTakeRecord n) s = .next u ∧
        (u.out[n]).pond = [] ∧ (u.rd (A.xptCntUnsent n)).toNat = min 0xFFFFFFFF ((s.rd (A.xptCntUnsent n)).toNat + 1) ∧
        Only [.stream n, .reg (A.xptCntUnsent n)] [.readPtrs, .releases, .draws] s u) ∧
  -- The order of SEGMENT_SEND (R234): no stream but the one that the law names is served; what each stall and stream has in deficit afterwards is what it
  -- had and its quanta, less the segment for the one served; a stall or stream with no segment waiting loses its deficit.
  (∀ (s : State) (l : Fin 8),
    let lost := fun (k : Nat) => !waitsOn s l k
    let stallWaits := fun (t : Nat) => s.carriers.any (fun k => waitsOn s l k && s.stallOf k == t)
    let had := fun (t : Nat) => ((s.links[l]).deficits.lookup t).getD 0
    s.on = true → (s.drains.map (·.key)).Nodup →
      (marketLaw s l).map (·.2) = (s.pick l).1 ∧
      (marketLaw s l = none → (∀ k ∈ s.carriers, streamDeficit (s.pick l).2 l k = if lost k then 0 else streamDeficit s l k)) ∧
      (∀ m ∈ marketLaw s l, ∀ r ∈ stallLaw s l, ∀ q ∈ streamLaw s l m.1,
        let c := ((eligibleOn s l).lookup m.2).getD 0
        (((s.pick l).2).links[l]).lastStall = m.1 ∧
        (∀ k ∈ s.carriers, streamDeficit (s.pick l).2 l k = if lost k then 0 else
          streamDeficit s l k + (if s.stallOf k == m.1 && (eligibleOn s l).any (fun e => e.1 == k) then q.2 * (max 1 (s.f (A.xptCtl (k % 16)) 31 24) * 1024) else 0) -
            (if k = m.2 then c else 0)) ∧
        (∀ t ∈ List.range 8, ((((s.pick l).2).links[l]).deficits.lookup t).getD 0 = if stallWaits t then
          had t + (if 0 < s.share m.1 ∧ 0 < s.share t ∧ t ∈ stallsFrom s l 0 then r.2 * (s.share t * 9216) else 0) - (if 0 < s.share m.1 ∧ t = m.1 then 10 * c else 0) else 0))) ∧
  -- SEGMENT_SEND with no eligible stream sends nothing (R234).
  (∀ (s : State) (l : Fin 8),
    s.on = true → (s.drains.map (·.key)).Nodup → s.linkOk l = true → headsSettled s → marketLaw s l = none →
      ∃ u, Sys2Proof.Machine.exec (.segmentSend l) s = .next u ∧ u.netPonds = s.netPonds ∧ u.sent = s.sent ∧ Only [.link l] [.transports, .drains] s u) ∧
  -- SEGMENT_SEND (R218, R222, R233, R234, R372): where the order gives the link to a stream with nothing to send before a new record that it may take, the
  -- record is taken, and its first segment goes to the link's transmit pond.
  (∀ (s : State) (l : Fin 8) (n : Fin 16) (h : Rec) (rest : List Rec),
    s.on = true → s.linkOk l = true → headsSettled s → (marketLaw s l).map (·.2) = some n.val → (s.stream n).mode ≠ .lossy →
      usedLink (s.stream n) (s.xpt[n]) = l.val → (s.xpt[n]).gap = none → (s.xpt[n]).failbackDue = false → (s.out[n]).pond = h :: rest →
      sendsNext s n (s.stream n) (s.xpt[n]) = none →
      s.packRoom (l.castLE (by decide)) (segFrame s l n (s.stream n) (s.xpt[n]) (newTx s n h)).length = true →
      ∃ u, Sys2Proof.Machine.exec (.segmentSend l) s = .next u ∧
        (u.out[n]).pond = rest ∧ (u.xpt[n]).seq = ((s.xpt[n]).seq + 1) % 2 ^ 32 ∧ segmentGone s l n (s.stream n) (s.xpt[n]) (newTx s n h) u ∧
        Only [.stream n, .link l, .netPond (l.castLE (by decide)), .reg (A.pndpPeak (64 + l.val)), .reg (A.xptEvt n)] [.transports, .drains, .bytes, .readPtrs, .releases,
          .draws] s u) ∧
  -- SEGMENT_SEND where the order gives the link to a stream with a record under way, a gap record due, a resend or a record already taken: its next
  -- segment goes to the link's transmit pond, and a resend that begins is counted (R224, R233, R234).
  (∀ (s : State) (l : Fin 8) (k : Nat) (r : StreamRec) (x : Xpt) (t : Tx),
    s.on = true → s.linkOk l = true → headsSettled s → (marketLaw s l).map (·.2) = some k → s.carrier k = some (r, x) →
      sendsNext s k r x = some t → (s.drains.map (·.key)).Nodup → s.packRoom (l.castLE (by decide)) (segFrame s l k r x t).length = true →
      ∃ u, Sys2Proof.Machine.exec (.segmentSend l) s = .next u ∧
        segmentGone s l k r x t u ∧
        (u.rd (A.xptCntResend (k % 16))).toNat = min 0xFFFFFFFF ((s.rd (A.xptCntResend (k % 16))).toNat + (if t.offset = 0 ∧ t.resend = true ∧ t.gap = false then 1 else 0)) ∧
        Only [.link l, .netPond (l.castLE (by decide)), .reg (A.pndpPeak (64 + l.val)), .reg (A.xptCntResend (k % 16))] [.transports, .drains, .draws] s u) ∧
  -- A link that is not up sends nothing (R213).
  (∀ (s : State) (l : Fin 8),
   s.linkOk l = false → Sys2Proof.Machine.exec (.segmentSend l) s = .next s) ∧
  -- DRAIN_GAP_TIMEOUT (R229): SIC_DRAIN_TMO after the first transmission of its gap record an old window is gone, the oldest that is due, and no other.
  (∀ (s : State) (n : Fin 16) (d : Drain),
    s.on = true → s.drains.find? (fun d => d.stream == n.val && d.ended && d.gapSent.any (fun t => decide (t + s.drainTmo ≤ s.now))) = some d →
      ∃ u, Sys2Proof.Machine.exec (.drainGapTimeout n) s = .next u ∧ u.drains = s.drains.filter (fun e => e.key != d.key) ∧ Only [.drains] [] s u)

/-- OPEN, CLOSE and ACK of the stream's own receiver move its window, and a message of another source does not. Its clauses cite their rules. -/
def Obligations.TransportMessagesMoveTheWindow : Prop :=
  -- OPEN_MESSAGE (R219): an OPEN that names a stream and versions the device has opens a session one after the stream's last, skipping 0; records not
  -- acknowledged will be resent; with CREDIT_EN the limit is SENT + CREDIT; the reply goes out and OPENED is raised.
  (∀ (s : State) (l : Fin 8) (src : NetSrc) (h : MsgHead) (xmin xmax rmin rmax : BitVec 8) (credit : BitVec 64),
    s.on = true → s.linkOk l = true → s.takesMsg l src = true → s.headOk src h true = true → (s.stream h.stream).exists_ = true → xmin.toNat ≤ 1 →
      rmin.toNat ≤ min rmax.toNat (s.stream h.stream).format →
      ∃ u, Sys2Proof.Machine.exec (.openMessage l src h xmin xmax rmin rmax credit) s = .next u ∧
        (u.xpt[h.stream]).session = some (if ((s.xpt[h.stream]).lastSession + 1) % 2 ^ 32 = 0 then 1
          else ((s.xpt[h.stream]).lastSession + 1) % 2 ^ 32) ∧
        (u.xpt[h.stream]).session = some (u.xpt[h.stream]).lastSession ∧ u.b (A.xptEvt h.stream) 0 = true ∧
        (u.xpt[h.stream]).recfmt = min rmax.toNat (s.stream h.stream).format ∧
        (u.out[h.stream]).recfmtNext = some (min rmax.toNat (s.stream h.stream).format) ∧
        (s.b (A.xptCtl h.stream) 4 = true → (u.xpt[h.stream]).limit = ((s.xpt[h.stream]).sent + credit.toNat) % 2 ^ 64) ∧
        (u.xpt[h.stream]).held = (s.xpt[h.stream]).held ∧ (u.xpt[h.stream]).seq = (s.xpt[h.stream]).seq ∧
        u.sent.length = s.sent.length + 1 ∧
        Only [.stream h.stream, .transport h.stream, .reg (A.xptEvt h.stream), .sent] [.regs 0x540000] s u) ∧
  -- A refused OPEN is answered and leaves the stream as it was (R219).
  (∀ (s : State) (l : Fin 8) (src : NetSrc) (h : MsgHead) (xmin xmax rmin rmax : BitVec 8) (credit : BitVec 64),
    s.on = true → s.linkOk l = true → s.takesMsg l src = true → s.headOk src h true = true →
      ((s.stream h.stream).exists_ = false ∨ 1 < xmin.toNat ∨ min rmax.toNat (s.stream h.stream).format < rmin.toNat) →
      ∃ u, Sys2Proof.Machine.exec (.openMessage l src h xmin xmax rmin rmax credit) s = .next u ∧
        u.sent.length = s.sent.length + 1 ∧ Only [.sent, .draws] [.regs 0x540000] s u) ∧
  -- A message (ACK, OPEN or CLOSE) whose header or source R217 does not accept is discarded and counted in MKT_CNT_BADMSG.
  (∀ (s : State) (l : Fin 8) (src : NetSrc) (h : MsgHead) (cum : BitVec 32) (bitmap limit : BitVec 64) (flags : BitVec 32),
    s.on = true → s.linkOk l = true → s.takesMsg l src = true → s.headOk src h false = false →
      ∃ u, Sys2Proof.Machine.exec (.ackMessage l src h cum bitmap limit flags) s = .next u ∧
        (u.rd A.mktCntBadmsg).toNat = min 0xFFFFFFFF ((s.rd A.mktCntBadmsg).toNat + 1) ∧ u.b A.mktEvt 1 = true ∧
        Only [.reg A.mktCntBadmsg, .reg A.mktEvt, .reg (A.ethlCntRx (linkPort l).1 (linkPort l).2)] [] s u) ∧
  -- An OPEN or a CLOSE that R217 does not accept is discarded and counted in MKT_CNT_BADMSG.
  (∀ (s : State) (l : Fin 8) (src : NetSrc) (h : MsgHead) (xmin xmax rmin rmax : BitVec 8) (credit : BitVec 64),
    s.on = true → s.linkOk l = true → s.takesMsg l src = true →
      (s.headOk src h true = false → ∃ u, Sys2Proof.Machine.exec (.openMessage l src h xmin xmax rmin rmax credit) s = .next u ∧
          (u.rd A.mktCntBadmsg).toNat = min 0xFFFFFFFF ((s.rd A.mktCntBadmsg).toNat + 1) ∧ u.b A.mktEvt 1 = true ∧
          Only [.reg A.mktCntBadmsg, .reg A.mktEvt, .reg (A.ethlCntRx (linkPort l).1 (linkPort l).2)] [] s u) ∧
      (s.headOk src h false = false → ∃ u, Sys2Proof.Machine.exec (.closeMessage l src h) s = .next u ∧
          (u.rd A.mktCntBadmsg).toNat = min 0xFFFFFFFF ((s.rd A.mktCntBadmsg).toNat + 1) ∧ u.b A.mktEvt 1 = true ∧
          Only [.reg A.mktCntBadmsg, .reg A.mktEvt, .reg (A.ethlCntRx (linkPort l).1 (linkPort l).2)] [] s u)) ∧
  -- A message to a link that is not up is not received; one that is not addressed to the link with MKT_ETYPE or MKT_UDP_BASE is discarded and counted
  -- (R213, R216).
  (∀ (s : State) (l : Fin 8) (src : NetSrc) (h : MsgHead) (xmin xmax rmin rmax : BitVec 8) (credit : BitVec 64) (cum : BitVec 32) (bitmap limit : BitVec 64) (flags : BitVec 32) (c : Instr),
    c ∈ [.openMessage l src h xmin xmax rmin rmax credit, .closeMessage l src h, .ackMessage l src h cum bitmap limit flags] →
      (s.linkOk l = false → Sys2Proof.Machine.exec c s = .next s) ∧
      (s.on = true → s.linkOk l = true → s.takesMsg l src = false → ∃ u, Sys2Proof.Machine.exec c s = .next u ∧
        (u.rd (A.ethlCntRxDrop (linkPort l).1 (linkPort l).2)).toNat =
          min 0xFFFFFFFF ((s.rd (A.ethlCntRxDrop (linkPort l).1 (linkPort l).2)).toNat + 1) ∧
        Only [.reg (A.ethlCntRxDrop (linkPort l).1 (linkPort l).2)] [] s u)) ∧
  -- CLOSE_MESSAGE (R219): a CLOSE with the session in force sets the session to none; what the window holds stays held.
  (∀ (s : State) (l : Fin 8) (src : NetSrc) (h : MsgHead),
    s.on = true → s.linkOk l = true → s.takesMsg l src = true → s.headOk src h false = true → (s.xpt[h.stream]).session = some h.session.toNat →
      ∃ u, Sys2Proof.Machine.exec (.closeMessage l src h) s = .next u ∧
        (u.xpt[h.stream]).session = none ∧ (u.xpt[h.stream]).held = (s.xpt[h.stream]).held ∧ (u.xpt[h.stream]).tx = none ∧
        (u.xpt[h.stream]).lastSession = (s.xpt[h.stream]).lastSession ∧ (u.xpt[h.stream]).seq = (s.xpt[h.stream]).seq ∧
        (u.out[h.stream]).recfmtNext = some (s.stream h.stream).format ∧
        Only [.transport h.stream, .stream h.stream, .reg (A.ethlCntRx (linkPort l).1 (linkPort l).2)] [] s u) ∧
  -- A CLOSE with another session is received and ignored (R219).
  (∀ (s : State) (l : Fin 8) (src : NetSrc) (h : MsgHead),
    s.on = true → s.linkOk l = true → s.takesMsg l src = true → s.headOk src h false = true →
    (s.xpt[h.stream]).session ≠ some h.session.toNat →
      ∃ u, Sys2Proof.Machine.exec (.closeMessage l src h) s = .next u ∧ Only [.reg (A.ethlCntRx (linkPort l).1 (linkPort l).2)] [] s u) ∧
  -- ACK_MESSAGE (R223): records earlier than CUM are free at once; the mark is then the oldest record not acknowledged; a later valid LIMIT replaces the
  -- one in force; silence ends.
  (∀ (s : State) (l : Fin 8) (src : NetSrc) (h : MsgHead) (cum : BitVec 32) (bitmap limit : BitVec 64) (flags : BitVec 32),
    s.on = true → s.linkOk l = true → s.takesMsg l src = true → s.headOk src h false = true → (s.stream h.stream).exists_ = true → (s.stream h.stream).mode ≠ .lossy →
      (s.drains.any (fun d => d.stream == h.stream.val)) = false → s.sessionOf h.stream (s.xpt[h.stream]) = some h.session.toNat →
      isLater 32 cum.toNat (s.xpt[h.stream]).seq = false →
      ∃ u, Sys2Proof.Machine.exec (.ackMessage l src h cum bitmap limit flags) s = .next u ∧
        (∀ e ∈ (u.xpt[h.stream]).held, isLater 32 cum.toNat e.seq = false ∧ e.seq ∈ (s.xpt[h.stream]).held.map (·.seq)) ∧
        (∀ e ∈ (u.xpt[h.stream]).held.head?, e.acked = false) ∧
        (∀ e ∈ (s.xpt[h.stream]).held, e.acked = false → isLater 32 cum.toNat e.seq = false →
          (∀ i ∈ List.range 64, bitmap.getLsbD i = true → (cum.toNat + 1 + i) % 2 ^ 32 ≠ e.seq) → e.seq ∈ (u.xpt[h.stream]).held.map (·.seq)) ∧
        (u.xpt[h.stream]).limit = (if bit flags 1 && isLater 64 limit.toNat (s.xpt[h.stream]).limit then limit.toNat else (s.xpt[h.stream]).limit) ∧
        (u.xpt[h.stream]).lastAck = s.now ∧ (u.xpt[h.stream]).silent = false ∧ (u.xpt[h.stream]).seq = (s.xpt[h.stream]).seq ∧
        Only [.transport h.stream, .reg (A.ethlCntRx (linkPort l).1 (linkPort l).2)] [] s u) ∧
  -- An ACK of another session, or with CUM beyond the next SEQ, is discarded and counted in CNT_BADACK (R220, R223).
  (∀ (s : State) (l : Fin 8) (src : NetSrc) (h : MsgHead) (cum : BitVec 32) (bitmap limit : BitVec 64) (flags : BitVec 32),
    s.on = true → s.linkOk l = true → s.takesMsg l src = true → s.headOk src h false = true → (s.stream h.stream).exists_ = true → (s.stream h.stream).mode ≠ .lossy →
      (s.drains.any (fun d => d.stream == h.stream.val)) = false →
      (s.sessionOf h.stream (s.xpt[h.stream]) ≠ some h.session.toNat ∨ isLater 32 cum.toNat (s.xpt[h.stream]).seq = true) →
      ∃ u, Sys2Proof.Machine.exec (.ackMessage l src h cum bitmap limit flags) s = .next u ∧
        (u.rd (A.xptCntBadack h.stream)).toNat = min 0xFFFFFFFF ((s.rd (A.xptCntBadack h.stream)).toNat + 1) ∧
        Only [.reg (A.xptCntBadack h.stream), .reg (A.ethlCntRx (linkPort l).1 (linkPort l).2)] [] s u)

/-- A stream sends again what is not acknowledged, and moves between its links. Its clauses cite their rules. -/
def Obligations.StreamsResendAndFailOver : Prop :=
  -- RESEND_TIMEOUT (R224): once the record at the mark has gone an RTO, every record sent and not acknowledged waits to be resent.
  (∀ (s : State) (n : Fin 16),
    s.on = true → (s.stream n).exists_ = true → s.rtoDue n (s.xpt[n]) = true → (s.xpt[n]).tx = none →
      ∃ u, Sys2Proof.Machine.exec (.resendTimeout n false) s = .next u ∧
        (∀ q ∈ (s.xpt[n]).unackedSent, q ∈ (u.xpt[n]).resendQ) ∧ (u.xpt[n]).held = (s.xpt[n]).held ∧
        (u.xpt[n]).gapDue = ((s.xpt[n]).gapDue || (s.xpt[n]).gap.isSome) ∧ Only [.transport n] [] s u) ∧
  -- What a stream leaves as it is: the commands of a stream that is not defined, RESEND_TIMEOUT before the RTO, FAILBACK of a stream on its primary link
  -- or without FAILBACK, RECEIVER_SILENCE of a stream that holds nothing or is silent already, and a switch to the link it uses (R219, R224, R235 to
  -- R237).
  (∀ (s : State) (n : Fin 16),
    ((s.stream n).exists_ = false → Sys2Proof.Machine.exec (.xptClose n) s = .next s ∧ Sys2Proof.Machine.exec (.xptResend n) s = .next s ∧ Sys2Proof.Machine.exec (.resendTimeout n false) s = .next s ∧ Sys2Proof.Machine.exec (.failback n) s = .next s ∧
      Sys2Proof.Machine.exec (.receiverSilence n) s = .next s ∧ Sys2Proof.Machine.exec (.switchPrimary n) s = .next s ∧ Sys2Proof.Machine.exec (.switchStandby n) s = .next s) ∧
    (s.rtoDue n (s.xpt[n]) = false → Sys2Proof.Machine.exec (.resendTimeout n false) s = .next s) ∧
    ((s.xpt[n]).standby = false ∨ s.b (A.xptCtl n) 6 = false → Sys2Proof.Machine.exec (.failback n) s = .next s) ∧
    ((s.xpt[n]).silent = true ∨ (s.xpt[n]).held = [] ∧ (s.xpt[n]).gap = none ∨ s.now < (s.xpt[n]).lastAck + ms (s.f (A.xptSilent n) 15 0) →
      Sys2Proof.Machine.exec (.receiverSilence n) s = .next s) ∧
    ((s.xpt[n]).standby = false ∨ s.linkOk (s.stream n).primary = false → Sys2Proof.Machine.exec (.switchPrimary n) s = .next s) ∧
    ((s.xpt[n]).standby = true ∨ (s.stream n).standby.all (fun l => !s.linkOk l) = true → Sys2Proof.Machine.exec (.switchStandby n) s = .next s)) ∧
  -- RESEND_TIMEOUT of a window that drains (R224, R229): its records sent and not acknowledged wait to be resent.
  (∀ (s : State) (n : Fin 16) (d : Drain),
    s.on = true → s.drains = [d] → d.stream = n.val → s.rtoDue n d.xpt = true →
      ∃ u, Sys2Proof.Machine.exec (.resendTimeout n true) s = .next u ∧ u.drains = [{ d with xpt := d.xpt.rtoResend }] ∧ Only [.drains] [] s u) ∧
  -- XPT_RESEND acts as an RTO expiry, whatever the time (R224).
  (∀ (s : State) (n : Fin 16),
    s.on = true → (s.stream n).exists_ = true →
      ∃ u, Sys2Proof.Machine.exec (.xptResend n) s = .next u ∧ u.xpt[n] = (s.xpt[n]).rtoResend ∧ (u.xpt[n]).held = (s.xpt[n]).held ∧ Only [.transport n] [] s u) ∧
  -- XPT_CLOSE sets the stream's session to none; held records stay held (R219).
  (∀ (s : State) (n : Fin 16),
    s.on = true → (s.stream n).exists_ = true →
      ∃ u, Sys2Proof.Machine.exec (.xptClose n) s = .next u ∧
        (u.xpt[n]).session = none ∧ (u.xpt[n]).held = (s.xpt[n]).held ∧ (u.xpt[n]).tx = none ∧
        (u.out[n]).recfmtNext = some (s.stream n).format ∧ Only [.transport n, .stream n] [] s u) ∧
  -- SWITCH_PRIMARY (R235): a stream on its standby link moves to its primary link when that is up: the move is counted, FAILOVER is raised, and what a
  -- stream that is not lossy has sent unacknowledged will be resent.
  (∀ (s : State) (n : Fin 16),
    s.on = true → (s.stream n).exists_ = true → (s.xpt[n]).standby = true → s.linkOk (s.stream n).primary = true →
      (s.stream n).standby ≠ some (s.stream n).primary → (s.stream n).standby ≠ none →
      ∃ u, Sys2Proof.Machine.exec (.switchPrimary n) s = .next u ∧
        (u.xpt[n]).standby = false ∧ (u.xpt[n]).tx = none ∧ (u.xpt[n]).held = (s.xpt[n]).held ∧ u.b (A.xptEvt n) 1 = true ∧
        (u.rd (A.xptCntFailover n)).toNat = min 0xFFFFFFFF ((s.rd (A.xptCntFailover n)).toNat + 1) ∧
        ((s.stream n).mode ≠ .lossy → ∀ q ∈ (s.xpt[n]).unackedSent, q ∈ (u.xpt[n]).resendQ) ∧
        Only [.transport n, .reg (A.xptEvt n), .reg (A.xptCntFailover n)] [] s u) ∧
  -- SWITCH_STANDBY (R235): a stream on its primary link moves to its standby link when that is up.
  (∀ (s : State) (n : Fin 16) (l : Nat),
    s.on = true → (s.stream n).exists_ = true → (s.xpt[n]).standby = false → (s.stream n).standby = some l → s.linkOk l = true →
      l ≠ (s.stream n).primary →
      ∃ u, Sys2Proof.Machine.exec (.switchStandby n) s = .next u ∧
        (u.xpt[n]).standby = true ∧ (u.xpt[n]).tx = none ∧ (u.xpt[n]).held = (s.xpt[n]).held ∧ u.b (A.xptEvt n) 1 = true ∧
        (u.rd (A.xptCntFailover n)).toNat = min 0xFFFFFFFF ((s.rd (A.xptCntFailover n)).toNat + 1) ∧
        Only [.transport n, .reg (A.xptEvt n), .reg (A.xptCntFailover n)] [] s u) ∧
  -- FAILBACK (R236): a stream on its standby link, its primary up for MKT_FAILBACK, returns to it at the boundary between two records.
  (∀ (s : State) (n : Fin 16) (l : Fin 8),
    s.on = true → (s.stream n).exists_ = true → (s.stream n).primary = l.val → (s.xpt[n]).standby = true → s.b (A.xptCtl n) 6 = true →
      s.linkOk l = true → (s.links[l]).upFrom + ms (s.f A.mktFailback 15 0) ≤ s.now →
      ∃ u, Sys2Proof.Machine.exec (.failback n) s = .next u ∧
        u.xpt[n] = (if (s.xpt[n]).tx.isNone then { s.xpt[n] with standby := false, failbackDue := false }
          else { s.xpt[n] with failbackDue := true }) ∧ Only [.transport n] [] s u) ∧
  -- RECEIVER_SILENCE (R237): a stream that holds records and has had no valid ACK for XPT_STn_SILENT is silent, raises RX_SILENT, and, on its primary
  -- link, moves if the other is up; on its standby link it stays.
  (∀ (s : State) (n : Fin 16),
    s.on = true → (s.stream n).exists_ = true → (s.xpt[n]).silent = false → ((s.xpt[n]).held ≠ [] ∨ (s.xpt[n]).gap.isSome = true) →
      (s.xpt[n]).lastAck + ms (s.f (A.xptSilent n) 15 0) ≤ s.now →
      ∃ u, Sys2Proof.Machine.exec (.receiverSilence n) s = .next u ∧
        (u.xpt[n]).silent = true ∧ u.b (A.xptEvt n) 4 = true ∧ (u.xpt[n]).held = (s.xpt[n]).held ∧
        (u.xpt[n]).standby = ((s.xpt[n]).standby || (match (s.stream n).standby with
          | some l => s.linkOk l && l != (s.stream n).primary
          | none => false)) ∧
        Only [.transport n, .reg (A.xptEvt n), .reg (A.xptCntFailover n)] [] s u)

/-- A PFC frame pauses its priorities until its quanta end or the watchdog trips. Its clauses cite their rules. -/
def Obligations.PausedPrioritiesAreWatched : Prop :=
  -- PFC_FRAME (R231): quanta for an enabled priority pause it for 512 bit times each at the link's rate.
  (∀ (s : State) (l : Fin 8) (q : Fin 8) (k : BitVec 16),
    s.on = true → s.linkOk l = true → s.b (A.ethPfc (l.val / 4)) q = true → (s.links[l]).ignore.lookup q.val = none → k ≠ 0 →
      ∃ u, Sys2Proof.Machine.exec (.pfcFrame l [(q, k)]) s = .next u ∧
        ((u.links[l]).pauses.lookup q.val).map (·.until_) = some (s.now + (k.toNat * 512 + s.linkRate l - 1) / s.linkRate l) ∧
        (∀ z : Fin 8, z ≠ q → (u.links[l]).pauses.lookup z.val = (s.links[l]).pauses.lookup z.val) ∧
        u.f (A.ethlCntPause (l.val / 4) (l.val % 4)) 15 0 = min 65535 (s.f (A.ethlCntPause (l.val / 4) (l.val % 4)) 15 0 + 1) ∧
        Only [.link l, .reg (A.ethlCntPause (l.val / 4) (l.val % 4)), .reg (A.ethlCntRx (linkPort l).1 (linkPort l).2)] [] s u) ∧
  -- A PFC frame with zero quanta ends the priority's pause; one for a priority that is not enabled pauses nothing; none of them is received on a link that
  -- is not up (R231).
  (∀ (s : State) (l q : Fin 8) (k : BitVec 16),
    (s.on = true → s.linkOk l = true → s.b (A.ethPfc (l.val / 4)) q = true → (s.links[l]).ignore.lookup q.val = none →
      ∃ u, Sys2Proof.Machine.exec (.pfcFrame l [(q, 0)]) s = .next u ∧ (u.links[l]).pauses.lookup q.val = none ∧
        (∀ z : Fin 8, z ≠ q → (u.links[l]).pauses.lookup z.val = (s.links[l]).pauses.lookup z.val) ∧
        Only [.link l, .reg (A.ethlCntPause (l.val / 4) (l.val % 4)), .reg (A.ethlCntRx (linkPort l).1 (linkPort l).2)] [] s u) ∧
    (s.on = true → s.linkOk l = true → s.b (A.ethPfc (l.val / 4)) q = false →
      ∃ u, Sys2Proof.Machine.exec (.pfcFrame l [(q, k)]) s = .next u ∧ Only [.reg (A.ethlCntRx (linkPort l).1 (linkPort l).2)] [] s u) ∧
    (s.linkOk l = false → Sys2Proof.Machine.exec (.pfcFrame l [(q, k)]) s = .next s ∧ Sys2Proof.Machine.exec (.pauseFrame l) s = .next s)) ∧
  -- Pauses and their watch before their time, or with no pause or none ignored, change nothing (R231, R232).
  (∀ (s : State) (l q : Fin 8),
    ((s.links[l]).pauses.lookup q.val = none → Sys2Proof.Machine.exec (.pauseQuantaExpire l q) s = .next s ∧ Sys2Proof.Machine.exec (.pfcWatchdog l q) s = .next s) ∧
    (∀ p ∈ (s.links[l]).pauses.lookup q.val, (s.now < p.until_ → Sys2Proof.Machine.exec (.pauseQuantaExpire l q) s = .next s) ∧
      (s.now < p.from_ + us (atLeast1 (s.f A.mktPfcWd 15 0)) ∨ p.until_ ≤ s.now → Sys2Proof.Machine.exec (.pfcWatchdog l q) s = .next s)) ∧
    ((s.links[l]).ignore.lookup q.val = none → Sys2Proof.Machine.exec (.pfcIgnoreEnd l q) s = .next s) ∧
    (∀ t ∈ (s.links[l]).ignore.lookup q.val, s.now < t → Sys2Proof.Machine.exec (.pfcIgnoreEnd l q) s = .next s)) ∧
  -- A pause for a priority that the watchdog has freed is ignored and counted (R232).
  (∀ (s : State) (l : Fin 8) (q : Fin 8) (k : BitVec 16) (t : Nat),
    s.on = true → s.linkOk l = true → s.b (A.ethPfc (l.val / 4)) q = true → (s.links[l]).ignore.lookup q.val = some t → s.now < t →
      ∃ u, Sys2Proof.Machine.exec (.pfcFrame l [(q, k)]) s = .next u ∧
        u.links[l] = s.links[l] ∧
        (u.rd (A.ethlCntPfcIgn (l.val / 4) (l.val % 4))).toNat = min 0xFFFFFFFF ((s.rd (A.ethlCntPfcIgn (l.val / 4) (l.val % 4))).toNat + 1) ∧
        Only [.reg (A.ethlCntPfcIgn (l.val / 4) (l.val % 4)), .reg (A.ethlCntRx (linkPort l).1 (linkPort l).2)] [] s u) ∧
  -- PAUSE_QUANTA_EXPIRE (R231): the priority's streams are no longer paused.
  (∀ (s : State) (l q : Fin 8) (p : Pause),
    s.on = true → (s.links[l]).pauses.lookup q.val = some p → p.until_ ≤ s.now →
      ∃ u, Sys2Proof.Machine.exec (.pauseQuantaExpire l q) s = .next u ∧
        (u.links[l]).pauses.lookup q.val = none ∧ (u.links[l]).ignore = (s.links[l]).ignore ∧ Only [.link l] [] s u) ∧
  -- PAUSE_FRAME (R216, R231): a PAUSE frame is ignored and counted, and is discarded as a frame that the link does not accept.
  (∀ (s : State) (l : Fin 8),
    s.on = true → s.linkOk l = true →
      ∃ u, Sys2Proof.Machine.exec (.pauseFrame l) s = .next u ∧
        u.f (A.ethlCntPause (l.val / 4) (l.val % 4)) 31 16 = min 65535 (s.f (A.ethlCntPause (l.val / 4) (l.val % 4)) 31 16 + 1) ∧
        u.f (A.ethlCntPause (l.val / 4) (l.val % 4)) 15 0 = s.f (A.ethlCntPause (l.val / 4) (l.val % 4)) 15 0 ∧
        (u.rd (A.ethlCntRxDrop (linkPort l).1 (linkPort l).2)).toNat =
          min 0xFFFFFFFF ((s.rd (A.ethlCntRxDrop (linkPort l).1 (linkPort l).2)).toNat + 1) ∧
        Only [.reg (A.ethlCntPause (l.val / 4) (l.val % 4)), .reg (A.ethlCntRxDrop (linkPort l).1 (linkPort l).2)] [] s u) ∧
  -- PFC_WATCHDOG (R232): a priority paused for MKT_PFC_WD without a break resumes, and ignores pauses for MKT_PFC_IGN; the trip is counted and raised.
  (∀ (s : State) (l q : Fin 8) (p : Pause),
    s.on = true → (s.links[l]).pauses.lookup q.val = some p → p.from_ + us (atLeast1 (s.f A.mktPfcWd 15 0)) ≤ s.now → s.now < p.until_ →
      ∃ u, Sys2Proof.Machine.exec (.pfcWatchdog l q) s = .next u ∧
        (u.links[l]).pauses.lookup q.val = none ∧
        (u.links[l]).ignore.lookup q.val = some (s.now + us (100 * atLeast1 (s.f A.mktPfcIgn 15 0))) ∧
        (u.rd (A.ethlCntPfcWd (l.val / 4) (l.val % 4))).toNat = min 0xFFFFFFFF ((s.rd (A.ethlCntPfcWd (l.val / 4) (l.val % 4))).toNat + 1) ∧
        u.b A.mktEvt 0 = true ∧ Only [.link l, .reg (A.ethlCntPfcWd (l.val / 4) (l.val % 4)), .reg A.mktEvt] [] s u) ∧
  -- PFC_IGNORE_END (R232): pauses of the priority are honoured again.
  (∀ (s : State) (l q : Fin 8) (t : Nat),
    s.on = true → (s.links[l]).ignore.lookup q.val = some t → t ≤ s.now →
      ∃ u, Sys2Proof.Machine.exec (.pfcIgnoreEnd l q) s = .next u ∧
        (u.links[l]).ignore.lookup q.val = none ∧ (u.links[l]).pauses = (s.links[l]).pauses ∧ Only [.link l] [] s u)

/-- ARP and echo requests to the link's own address are answered, and other frames are dropped and counted. Its clauses cite their rules. -/
def Obligations.NetworkRequestsAreAnswered : Prop :=
  -- ARP_REQUEST (R215): a request for the link's own address is received and answered.
  (∀ (s : State) (l : Fin 10) (src : NetSrc) (t : BitVec 128),
    s.on = true → s.canRx l = true → (if src.enc = 2 then t.toNat = s.linkIp6 l else t.toNat = s.linkIp4 l) →
      ∃ u, Sys2Proof.Machine.exec (.arpRequest l src t) s = .next u ∧
        u.sent.length = s.sent.length + 1 ∧ (u.rd (rxCounts l).1).toNat = min 0xFFFFFFFF ((s.rd (rxCounts l).1).toNat + 1) ∧
        Only [.sent, .reg (rxCounts l).1, .reg (A.ethlCntTx (linkPort l).1 (linkPort l).2)] [] s u) ∧
  -- A request for another address is discarded and counted (R215, R216).
  (∀ (s : State) (l : Fin 10) (src : NetSrc) (t : BitVec 128),
    s.on = true → s.canRx l = true → (if src.enc = 2 then t.toNat ≠ s.linkIp6 l else t.toNat ≠ s.linkIp4 l) →
      ∃ u, Sys2Proof.Machine.exec (.arpRequest l src t) s = .next u ∧
        (u.rd (rxCounts l).2).toNat = min 0xFFFFFFFF ((s.rd (rxCounts l).2).toNat + 1) ∧ Only [.reg (rxCounts l).2] [] s u) ∧
  -- ECHO_REQUEST (R215, R216): an echo request to the link of at most 1,472 payload bytes is answered, and a longer one, or one to another address, is
  -- discarded and counted; a link that cannot receive takes no frame.
  (∀ (s : State) (l : Fin 10) (src : NetSrc) (i q : BitVec 16) (p : Bytes),
    s.on = true → s.canRx l = true →
      ∃ u, Sys2Proof.Machine.exec (.echoRequest l src i q p) s = .next u ∧
        (p.length ≤ 1472 → s.toLink l src = true → u.sent.length = s.sent.length + 1 ∧ (u.rd (rxCounts l).1).toNat = min 0xFFFFFFFF ((s.rd (rxCounts l).1).toNat + 1)) ∧
        (1472 < p.length ∨ s.toLink l src = false → u.sent = s.sent ∧ (u.rd (rxCounts l).2).toNat = min 0xFFFFFFFF ((s.rd (rxCounts l).2).toNat + 1)) ∧
        Only [.sent, .reg (rxCounts l).1, .reg (rxCounts l).2, .reg (A.ethlCntTx (linkPort l).1 (linkPort l).2)] [] s u) ∧
  -- ETH_FRAME_REJECT (R216, R217): a frame with a bad FCS is discarded and counted as such, one that the link does not accept is discarded and counted,
  -- and a transport message without valid MAGIC, XVER or KIND is received and counted as bad; every other is left to its own command, and a link that
  -- cannot receive takes no frame.
  (∀ (s : State) (l : Fin 10) (f : Bytes),
    (s.on = true → s.canRx l = true →
      (s.fate l f = .badFcs ∨ s.fate l f = .dropped → ∃ u, Sys2Proof.Machine.exec (.ethFrameReject l f) s = .next u ∧
        (u.rd (rxCounts l).2).toNat = min 0xFFFFFFFF ((s.rd (rxCounts l).2).toNat + 1) ∧
        (u.rd (A.ethlCntFcs (linkPort l).1 (linkPort l).2)).toNat = (if s.fate l f = .badFcs then
          min 0xFFFFFFFF ((s.rd (A.ethlCntFcs (linkPort l).1 (linkPort l).2)).toNat + 1)
          else (s.rd (A.ethlCntFcs (linkPort l).1 (linkPort l).2)).toNat) ∧
        Only [.reg (rxCounts l).2, .reg (A.ethlCntFcs (linkPort l).1 (linkPort l).2)] [] s u) ∧
      (s.fate l f = .badMsg → ∃ u, Sys2Proof.Machine.exec (.ethFrameReject l f) s = .next u ∧
        (u.rd (rxCounts l).1).toNat = min 0xFFFFFFFF ((s.rd (rxCounts l).1).toNat + 1) ∧ u.b A.mktEvt 1 = true ∧
        (u.rd A.mktCntBadmsg).toNat = min 0xFFFFFFFF ((s.rd A.mktCntBadmsg).toNat + 1) ∧
        Only [.reg (rxCounts l).1, .reg A.mktCntBadmsg, .reg A.mktEvt] [] s u) ∧
      (s.fate l f = .taken → Sys2Proof.Machine.exec (.ethFrameReject l f) s = .next s)) ∧
    (s.canRx l = false → Sys2Proof.Machine.exec (.ethFrameReject l f) s = .next s)) ∧
  -- A link that cannot receive answers no request (R213, R215).
  (∀ (s : State) (l : Fin 10) (src : NetSrc) (t : BitVec 128) (i q : BitVec 16) (p : Bytes),
    s.canRx l = false → Sys2Proof.Machine.exec (.arpRequest l src t) s = .next s ∧ Sys2Proof.Machine.exec (.echoRequest l src i q p) s = .next s) ∧
  -- A frame is good when its last four bytes are the IEEE 802.3 check sequence of the rest, least significant byte first (R216).
  (∀ (d : Bytes) (e : Nat),
   14 ≤ d.length → e < 2 ^ 32 → (fcsGood (d ++ leBytes 4 e) = true ↔ e = crc32 d))

/-- The Lake's channels train, retrain within their window, are scrubbed and refreshed. Its clauses cite their rules. -/
def Obligations.LakeTrainsTrimsAndScrubs : Prop :=
  -- LAKE_TRAINING_DONE after FULL_TRAIN (R242, R243, R244): the training is over, and the set in use is the largest whose channels are all good; when it
  -- is another one, the Lake's contents are lost, else they are preserved.
  (∀ (s : State) (res : Vector TrainResult 12),
    s.on = true → s.lakeCtl.training ≠ 0 →
      ∃ u, Sys2Proof.Machine.exec (.lakeTrainingDone res) s = .next u ∧
        u.lakeCtl.training = 0 ∧
        u.lakeCtl.set_ = chooseSet (fun c => match fin? 12 c with
          | some i => if s.lakeCtl.training.testBit c then (res[i]).good && (res[i]).fits
            else (s.lakeCtl.chans[i]).st == 2 || (s.lakeCtl.chans[i]).st == 5
          | none => false) ∧
        (u.lakeCtl.set_ = s.lakeCtl.set_ → u.lake = s.lake ∧ u.tnr = s.tnr ∧ u.xpt = s.xpt) ∧
        (u.lakeCtl.set_ ≠ s.lakeCtl.set_ → u.lake = [] ∧ ∀ b : Fin 4, (u.tnr[b]).valid = []) ∧
        (∀ c : Fin 12, s.lakeCtl.training.testBit c = true → (res[c]).gib ≠ 0 → ((res[c]).good && (res[c]).fits) = false →
          (u.lakeCtl.chans[c]).st = 4 ∧ u.b A.lakeEvt 2 = true) ∧
        Only [.lakeCtl, .keep, .draws] [.bytes, .tnrs, .contexts, .transports, .regs 0x5C0000] s u) ∧
  -- LAKE_TRAINING_DONE with no training under way changes nothing, and so do LAKE_REFRESH of a channel that is not ready or not due, and SCRUB_READ with
  -- the scrubber off, during training, or before its share of the pass time (R243, R251, R252).
  (∀ (s : State) (res : Vector TrainResult 12) (c : Fin 12) (m : Fin 16) (hot : Bool) (e : Ecc),
    (s.lakeCtl.training = 0 → Sys2Proof.Machine.exec (.lakeTrainingDone res) s = .next s) ∧
    ((s.lakeCtl.chans[c]).st ≠ 2 ∨ s.now < (s.lakeCtl.chans[c]).refAt + (if (s.lakeCtl.chans[c]).hot then 1950 else 3900) →
      Sys2Proof.Machine.exec (.lakeRefresh c m hot) s = .next s) ∧
    (s.b A.lakeCtl 0 = false ∨ s.lakeCtl.training ≠ 0 ∨
      (s.now - s.lakeCtl.scrubAt) * (s.lakeCap / 64) < atLeast1 (s.f A.lakeScrubPeriod 7 0) * 3600 * 10 ^ 9 → Sys2Proof.Machine.exec (.scrubRead e) s = .next s)) ∧
  -- FULL_TRAIN (R244): with no group active and no table load, image copy or aperture access under way the named channels train; the Lake keeps its
  -- contents.
  (∀ (s : State) (m : Fin 4096),
    s.on = true → s.running = false → s.sic.busy ≠ .copy false → s.sic.busy ≠ .copy true → s.load.toList.any (·.active) = false →
      s.ctl.split = [] → s.lakeCtl.training = 0 →
      ∃ u, Sys2Proof.Machine.exec (.fullTrain m) s = .next u ∧
        u.lakeCtl.training = m.val ∧ u.lakeCtl.cmdErr = 0 ∧ u.lakeCtl.set_ = s.lakeCtl.set_ ∧
        (∀ c : Fin 12, (u.lakeCtl.chans[c]).st = if m.val.testBit c then 1 else (s.lakeCtl.chans[c]).st) ∧ Only [.lakeCtl] [] s u) ∧
  -- FULL_TRAIN is refused otherwise: CMD_ERR reads BUSY, and nothing else changes (R244).
  (∀ (s : State) (m : Fin 4096),
    s.on = true → (s.running = true ∨ s.load.toList.any (·.active) = true ∨ s.sic.busy = .copy false ∨ s.sic.busy = .copy true ∨
        s.ctl.split ≠ [] ∨ s.lakeCtl.training ≠ 0) →
      ∃ u, Sys2Proof.Machine.exec (.fullTrain m) s = .next u ∧ u.lakeCtl = { s.lakeCtl with cmdErr := 1 } ∧ Only [.lakeCtl] [] s u) ∧
  -- LAKE_RETRAIN_STEP (R245, R246, R252): a due step of a ready channel (its interval has passed, its PHY's temperature has moved by DT, or it is the
  -- first after a wake from Doze), 100 µs after the last one or later, sets each trim to what the drift asks for, held at the bound it passes, or leaves
  -- it where it is pinned; the want values are reported, and the step is counted.
  (∀ (s : State) (c : Fin 12) (rd wr : Int),
    s.on = true → s.b A.lakeCtl 1 = true → (s.lakeCtl.chans[c]).st = 2 →
      ((s.lakeCtl.chans[c]).stepAt + atLeast1 (s.f A.lakeRetrain 31 16) * 60 * 10 ^ 9 ≤ s.now ∨ (s.lakeCtl.chans[c]).wakeStep = true ∨
        16 * atLeast1 (s.f A.lakeRetrain 7 0) ≤ (sx 16 (s.f (A.telT (phySensor c)) 15 0) - (s.lakeCtl.chans[c]).stepTemp).natAbs) →
      (s.lakeCtl.chans[c]).stepAt + 100000 ≤ s.now →
      ∃ u, Sys2Proof.Machine.exec (.lakeRetrainStep c rd wr) s = .next u ∧
        (∀ k ∈ [0, 1], ∀ w ∈ [clampI (-128) 127 (if k = 0 then rd else wr)], trimFld (u.rd (A.lakeChTrimWant c)) k = w ∧
          trim u c k = (if s.b (A.lakeChTrimWin c) (28 + k) then trim s c k else if w < (s.trimWin c).1 then (s.trimWin c).1
            else if (s.trimWin c).2 < w then (s.trimWin c).2 else w)) ∧
        (u.lakeCtl.chans[c]).stepAt = s.now ∧ (u.lakeCtl.chans[c]).wakeStep = false ∧ (u.rd (A.lakeChSteps c)).toNat = min 0xFFFFFFFF ((s.rd (A.lakeChSteps c)).toNat + 1) ∧
        ((u.lakeCtl.chans[c]).press ≠ 0 → u.b A.lakeEvt 3 = true) ∧
        Only [.lakeCtl, .keep, .reg (A.lakeChTrim c), .reg (A.lakeChTrimWant c), .reg (A.lakeChSteps c), .reg A.lakeEvt] [] s u) ∧
  -- With RETRAIN_EN at 0, on a channel that is not ready, and less than 100 µs after the last one, no step is taken (R245).
  (∀ (s : State) (c : Fin 12) (rd wr : Int),
    (s.b A.lakeCtl 1 = false ∨ (s.lakeCtl.chans[c]).st ≠ 2 ∨ s.now < (s.lakeCtl.chans[c]).stepAt + 100000) → Sys2Proof.Machine.exec (.lakeRetrainStep c rd wr) s = .next s) ∧
  -- LAKE_TRIM_WRITE (R246): both trims take the written values; a value outside the window moves the bound it crosses to it, and raises TRIM_FORCED.
  (∀ (s : State) (c : Fin 12) (rd wr : Fin 256),
    s.on = true → (s.trimWin c).1 ≤ (s.trimWin c).2 →
      ∃ u, Sys2Proof.Machine.exec (.lakeTrimWrite c rd wr) s = .next u ∧
        trim u c 0 = sx 8 rd.val ∧ trim u c 1 = sx 8 wr.val ∧
        (u.trimWin c).1 ≤ min (trim u c 0) (trim u c 1) ∧ max (trim u c 0) (trim u c 1) ≤ (u.trimWin c).2 ∧
        (u.trimWin c = s.trimWin c ∨ u.b A.lakeEvt 4 = true) ∧ (u.lakeCtl.chans[c]).press = 0 ∧
        Only [.lakeCtl, .keep, .reg (A.lakeChTrim c), .reg (A.lakeChTrimWin c), .reg A.lakeEvt, .reg A.lakeLog] [] s u) ∧
  -- SCRUB_READ (R251): once its share of the pass time has passed, the next codeword in address order is read; at the last one the pass ends and
  -- SCRUB_PASS is raised; the Lake's bytes stand.
  (∀ (s : State) (e : Ecc),
    s.on = true → s.b A.lakeCtl 0 = true → s.lakeCtl.training = 0 → s.lakeCap / 64 ≠ 0 →
      atLeast1 (s.f A.lakeScrubPeriod 7 0) * 3600 * 10 ^ 9 ≤ (s.now - s.lakeCtl.scrubAt) * (s.lakeCap / 64) →
      ∃ u, Sys2Proof.Machine.exec (.scrubRead e) s = .next u ∧
        u.lakeCtl.scrubPos = (s.lakeCtl.scrubPos % (s.lakeCap / 64) + 1) % (s.lakeCap / 64) ∧
        (u.lakeCtl.scrubPos = 0 → u.b A.lakeEvt 6 = true ∧ u.lakeCtl.passes = s.lakeCtl.passes + 1) ∧
        (u.lakeCtl.scrubPos ≠ 0 → u.lakeCtl.passes = s.lakeCtl.passes) ∧ u.lakeCtl.chans = s.lakeCtl.chans ∧ u.lakeCtl.scrubAt = s.now ∧
        Only [.lakeCtl, .sent] [.regs 0x5C0000] s u) ∧
  -- LAKE_REFRESH (R252): tREFI after the last, or half of it while the class is above nominal, a ready channel refreshes and reads its class.
  (∀ (s : State) (c : Fin 12) (m : Fin 16) (hot : Bool),
    s.on = true → (s.lakeCtl.chans[c]).st = 2 → (s.lakeCtl.chans[c]).refAt + (if (s.lakeCtl.chans[c]).hot then 1950 else 3900) ≤ s.now →
      ∃ u, Sys2Proof.Machine.exec (.lakeRefresh c m hot) s = .next u ∧
        u.lakeCtl = { s.lakeCtl with chans := vupd s.lakeCtl.chans c (fun x => { x with refAt := s.now, mr4 := m, hot := hot }) } ∧
        Only [.lakeCtl] [] s u)

/-- A Lake request reaches exactly the range that its agent may reach. Its clauses cite their rules. -/
def Obligations.LakeRequestsStayInside : Prop :=
  -- LAKE_REQUEST (R248, R249): a write inside a region that the requester may write stores its bytes and nothing else, where no codeword has an error; a
  -- codeword that the write covers whole is written whatever it held.
  (∀ (s : State) (q : LakeReq) (a len : Nat) (bs : Bytes) (i : Issuer) (ecc : List (Nat × Ecc)),
    s.on = true → s.lakeAllowed q true a bs.length = true →
      ecc.all (fun e => decide (a ≤ 64 * (a / 64 + e.1)) && decide (64 * (a / 64 + e.1) + 64 ≤ a + bs.length)) = true →
      ∃ u, Sys2Proof.Machine.exec (.lakeRequest q a len (some (bs, i)) ecc) s = .next u ∧
        u.lakeRead a bs.length = bs ∧ Only ((List.range bs.length).map (fun i => .byte (a + i))) [] s u) ∧
  -- LAKE_REQUEST outside the regions of its requester is refused: CNT_FENCE counts it, and FENCE is raised (R248).
  (∀ (s : State) (q : LakeReq) (a len : Nat) (w : Option (Bytes × Issuer)) (e : List (Nat × Ecc)),
    s.on = true → s.lakeAllowed q w.isSome a ((w.map (·.1.length)).getD len) = false →
      ∃ u, Sys2Proof.Machine.exec (.lakeRequest q a len w e) s = .next u ∧
        (u.rd A.lakeCntFence).toNat = min 0xFFFFFFFF ((s.rd A.lakeCntFence).toNat + 1) ∧ u.b A.lakeEvt 5 = true ∧
        Only [.reg A.lakeCntFence, .reg A.lakeEvt] [] s u) ∧
  -- LAKE_REQUEST to read: the bytes stand, and an error of codeword `j` of the read is counted for that codeword's channel (R249, R250): a corrected one
  -- as such, an uncorrectable one with UE raised; of a long read each bad codeword of an accumulator is poisoned, in its own place (Table 11.3).
  (∀ (s : State) (q : LakeReq) (a len j : Nat) (k : Fin 10),
    s.on = true → s.lakeAllowed q false a len = true → 64 * (a / 64 + j) < a + len →
      (∃ u, Sys2Proof.Machine.exec (.lakeRequest q a len none []) s = .next u ∧ u = s) ∧
      (∃ u, Sys2Proof.Machine.exec (.lakeRequest q a len none [(j, .corrected k)]) s = .next u ∧
        (u.rd (A.lakeChCntCe (s.lakeChannel (64 * (a / 64 + j))).1)).toNat =
          min 0xFFFFFFFF ((s.rd (A.lakeChCntCe (s.lakeChannel (64 * (a / 64 + j))).1)).toNat + 1) ∧
        Only [.lakeCtl, .sent] [.regs 0x5C0000] s u) ∧
      (∃ u, Sys2Proof.Machine.exec (.lakeRequest q a len none [(j, .bad)]) s = .next u ∧
        u.b A.lakeEvt 1 = true ∧
        (u.rd (A.lakeChCntUe (s.lakeChannel (64 * (a / 64 + j))).1)).toNat =
          min 0xFFFFFFFF ((s.rd (A.lakeChCntUe (s.lakeChannel (64 * (a / 64 + j))).1)).toNat + 1) ∧
        Only [.lakeCtl, .sent] [.regs 0x5C0000, .regs 0x500000, .regs 0x540000, .contexts, .seams, .draws, .transports] s u) ∧
      ((match q with | .tnr _ => true | _ => false) = true → 64 * (a / 64) + 64 < a + len →
        ∃ u, Sys2Proof.Machine.exec (.lakeRequest q a len none [(0, .bad), (1, .bad)]) s = .next u ∧
          (∀ b : Fin 4, q = .tnr b →
            ((u.engs[b.val]).accBad).map (fun x => (x.2.1, x.2.2)) = [1, 0].map (fun i =>
              let o := 64 * (a / 64 + i) - (((s.str.lake.find? (fun r => r.kind == 1 && r.owner == b.val && r.holds a len)).map (·.base)).getD 0)
              (o / atLeast1 (s.rowBytes b), o % atLeast1 (s.rowBytes b) / 64 * 32, o % atLeast1 (s.rowBytes b) / 64 * 32 + 32)) ++
              ((s.engs[b.val]).accBad).map (fun x => (x.2.1, x.2.2))))) ∧
  -- LAKE_REQUEST that writes a whole codeword and a part of the next (R249, R306): with a corrected error in the latter the bytes are stored and the error
  -- is counted for its channel; with an uncorrectable one the whole codeword is written, the other is left as it is, UE is raised, and a posted write is
  -- logged with its SEQ and session.
  (∀ (s : State) (t : Fin 8) (a len : Nat) (bs : Bytes) (k : Fin 10) (i : Issuer),
    s.on = true → s.lakeAllowed (.aperture t) true a bs.length = true → a % 64 = 0 → 64 < bs.length → bs.length < 128 →
      (∃ u, Sys2Proof.Machine.exec (.lakeRequest (.aperture t) a len (some (bs, i)) [(1, .corrected k)]) s = .next u ∧
        u.lakeRead a bs.length = bs ∧
        (u.rd (A.lakeChCntCe (s.lakeChannel (a + 64)).1)).toNat = min 0xFFFFFFFF ((s.rd (A.lakeChCntCe (s.lakeChannel (a + 64)).1)).toNat + 1) ∧
        Only (.lakeCtl :: .sent :: (List.range bs.length).map (fun i => .byte (a + i))) [.regs 0x5C0000] s u) ∧
      ∃ u, Sys2Proof.Machine.exec (.lakeRequest (.aperture t) a len (some (bs, i)) [(1, .bad)]) s = .next u ∧
        u.lakeRead a 64 = bs.take 64 ∧ u.b A.lakeEvt 1 = true ∧ u.b (A.stlEvt t) 1 = true ∧
        (u.rd (A.lakeChCntUe (s.lakeChannel (a + 64)).1)).toNat = min 0xFFFFFFFF ((s.rd (A.lakeChCntUe (s.lakeChannel (a + 64)).1)).toNat + 1) ∧
        (u.rd (A.stlPwlogCnt t)).toNat = min 0xFFFFFFFF ((s.rd (A.stlPwlogCnt t)).toNat + 1) ∧
        u.rd (A.stlPwlog t (s.f (A.stlPwlogPtr t) 3 0) 1) = i.seq ∧ u.rd (A.stlPwlog t (s.f (A.stlPwlogPtr t) 3 0) 2) = i.session ∧
        Only (.lakeCtl :: (List.range 64).map (fun i => .byte (a + i))) [.regs 0x5C0000, .regs 0x640000] s u)

/-- A stall's aperture reads and writes the Lake within the stall's ranges. Its clauses cite their rules. -/
def Obligations.AperturesReadAndWriteTheLake : Prop :=
  -- APERTURE_READ (R253): an aligned read in an aperture whose whole range the stall may read answers the Lake's bytes, least significant first; the Lake
  -- stands.
  (∀ (s : State) (t : Fin 8) (o : Fin 0x4000) (wide : Bool),
    s.on = true → o.val % (if wide then 8 else 4) = 0 → s.apValid t false = true → apFree s t o wide = true →
      ∃ u, Sys2Proof.Machine.exec (.apertureRead t o wide (some .clean)) s = .next u ∧
        u.sent = .value 0 (ofLe (s.lakeRead (s.apBase t + o) (if wide then 8 else 4))) :: s.sent ∧ Only [.sent] [] s u) ∧
  -- An answer to a split access that the bridge holds is its response: the access returns the Lake's bytes and leaves, and when one waits outside behind
  -- the 32, it is issued now (R305).
  (∀ (s : State) (t : Fin 8) (o : Fin 0x4000) (wide : Bool) (held rest : List Split) (at_ : Nat),
    s.on = true → o.val % (if wide then 8 else 4) = 0 → s.apValid t false = true →
      s.ctl.split = held ++ [{ stall := t, ofs := o, wide := wide, at_ := at_ }] ++ rest → held.length < 32 →
      held.all (fun e => e.stall != t || e.ofs != o.val || e.wide != wide) = true →
      ∃ u, Sys2Proof.Machine.exec (.apertureRead t o wide (some .clean)) s = .next u ∧
        u.sent = .value 0 (ofLe (s.lakeRead (s.apBase t + o) (if wide then 8 else 4))) :: s.sent ∧
        u.ctl = { s.ctl with
          split := (held ++ rest).take 31 ++ (((held ++ rest).drop 31).take 1).map (fun e => { e with at_ := s.now }) ++ (held ++ rest).drop 32 } ∧
        Only [.sent, .ctl] [] s u) ∧
  -- An aperture read that is misaligned answers ALIGN; one that the stall may not make answers an access error, counts in ERRS, and reaches no memory
  -- (R253); the fabric is not asked.
  (∀ (s : State) (t : Fin 8) (o : Fin 0x4000) (wide : Bool) (e : Option Ecc),
    s.on = true → (o.val % (if wide then 8 else 4) ≠ 0 ∨ s.apValid t false = false) →
      ∃ u, Sys2Proof.Machine.exec (.apertureRead t o wide e) s = .next u ∧
        u.sent = .value (if o.val % (if wide then 8 else 4) ≠ 0 then 4 else 2) 0 :: s.sent ∧
        (o.val % (if wide then 8 else 4) = 0 → u.f (A.lakeApStat t) 31 16 = min 65535 (s.f (A.lakeApStat t) 31 16 + 1) ∧
          (u.rd A.brgCntPerm).toNat = min 0xFFFFFFFF ((s.rd A.brgCntPerm).toNat + 1) ∧ u.rd A.brgCntAlign = s.rd A.brgCntAlign) ∧
        (o.val % (if wide then 8 else 4) ≠ 0 → (u.rd A.brgCntAlign).toNat = min 0xFFFFFFFF ((s.rd A.brgCntAlign).toNat + 1) ∧
          u.rd (A.lakeApStat t) = s.rd (A.lakeApStat t) ∧ u.rd A.brgCntPerm = s.rd A.brgCntPerm) ∧
        Only [.sent, .reg (A.lakeApStat t), .reg A.brgCntAlign, .reg A.brgCntPerm] [] s u) ∧
  -- APERTURE_READ with a bad codeword answers DATA, and the error is counted (R249, R253).
  (∀ (s : State) (t : Fin 8) (o : Fin 0x4000) (wide : Bool),
    s.on = true → o.val % (if wide then 8 else 4) = 0 → s.apValid t false = true → apFree s t o wide = true →
      ∃ u, Sys2Proof.Machine.exec (.apertureRead t o wide (some .bad)) s = .next u ∧
        u.sent = .value 5 0 :: s.sent ∧ u.b A.lakeEvt 1 = true ∧ Only [.sent, .lakeCtl] [.regs 0x5C0000] s u) ∧
  -- APERTURE_READ inside the stall's limits that the fabric has not answered yet waits as a split access, and so does one that comes while the bridge
  -- holds 32 (R305).
  (∀ (s : State) (t : Fin 8) (o : Fin 0x4000) (wide : Bool) (e : Ecc),
    s.on = true → o.val % (if wide then 8 else 4) = 0 → s.apValid t false = true →
      (∃ u, Sys2Proof.Machine.exec (.apertureRead t o wide none) s = .next u ∧
        u.ctl = { s.ctl with split := s.ctl.split ++ [{ stall := t, ofs := o, wide := wide, at_ := s.now }] } ∧ Only [.ctl] [] s u) ∧
      (32 ≤ s.ctl.split.length → s.ctl.split.all (fun e => e.stall != t || e.ofs != o.val || e.wide != wide) = true →
        ∃ u, Sys2Proof.Machine.exec (.apertureRead t o wide (some e)) s = .next u ∧
          u.ctl = { s.ctl with split := s.ctl.split ++ [{ stall := t, ofs := o, wide := wide, at_ := s.now }] } ∧ Only [.ctl] [] s u)) ∧
  -- APERTURE_WRITE (R253, R254): an aligned write in an aperture whose whole range the stall may write, to a good codeword, stores its bytes, least
  -- significant first, and nothing else.
  (∀ (s : State) (t : Fin 8) (o : Fin 0x4000) (wide : Bool) (v : BitVec 64) (by_ : Issuer),
    s.on = true → o.val % (if wide then 8 else 4) = 0 → s.apValid t true = true →
      ∃ u, Sys2Proof.Machine.exec (.apertureWrite t o wide v .clean by_) s = .next u ∧
        u.lakeRead (s.apBase t + o) (if wide then 8 else 4) = leBytes (if wide then 8 else 4) v.toNat ∧
        Only ((List.range (if wide then 8 else 4)).map (fun i => .byte (s.apBase t + o + i))) [] s u) ∧
  -- An aperture write that is misaligned, or that the stall may not make, stores nothing: it is entered in the stall's log, counted, and POST_ERR is
  -- raised (R253, R254, R306).
  (∀ (s : State) (t : Fin 8) (o : Fin 0x4000) (wide : Bool) (v : BitVec 64) (e : Ecc) (by_ : Issuer),
    s.on = true → (o.val % (if wide then 8 else 4) ≠ 0 ∨ s.apValid t true = false) →
      ∃ u, Sys2Proof.Machine.exec (.apertureWrite t o wide v e by_) s = .next u ∧
        u.f (A.stlPwlog t (s.f (A.stlPwlogPtr t) 3 0) 0) 31 28 = (if o.val % (if wide then 8 else 4) ≠ 0 then 4 else 2) ∧
        u.rd (A.stlPwlog t (s.f (A.stlPwlogPtr t) 3 0) 1) = by_.seq ∧ u.rd (A.stlPwlog t (s.f (A.stlPwlogPtr t) 3 0) 2) = by_.session ∧
        (u.rd (A.stlPwlogCnt t)).toNat = min 0xFFFFFFFF ((s.rd (A.stlPwlogCnt t)).toNat + 1) ∧ u.b (A.stlEvt t) 1 = true ∧
        (u.rd A.brgCntAlign).toNat = min 0xFFFFFFFF ((s.rd A.brgCntAlign).toNat + (if o.val % (if wide then 8 else 4) ≠ 0 then 1 else 0)) ∧
        (u.rd A.brgCntPerm).toNat = min 0xFFFFFFFF ((s.rd A.brgCntPerm).toNat + (if o.val % (if wide then 8 else 4) ≠ 0 then 0 else 1)) ∧
        (o.val % (if wide then 8 else 4) = 0 → u.f (A.lakeApStat t) 31 16 = min 65535 (s.f (A.lakeApStat t) 31 16 + 1)) ∧
        Only [.reg (A.lakeApStat t), .reg A.brgCntAlign, .reg A.brgCntPerm] [.regs 0x640000] s u) ∧
  -- A posted write to a bad codeword is not performed: it is entered in the stall's log with ECC, counted, and POST_ERR is raised (R249, R254, R306).
  (∀ (s : State) (t : Fin 8) (o : Fin 0x4000) (wide : Bool) (v : BitVec 64) (by_ : Issuer),
    s.on = true → o.val % (if wide then 8 else 4) = 0 → s.apValid t true = true →
      ∃ u, Sys2Proof.Machine.exec (.apertureWrite t o wide v .bad by_) s = .next u ∧
        u.f (A.stlPwlog t (s.f (A.stlPwlogPtr t) 3 0) 0) 31 28 = 5 ∧ u.rd (A.stlPwlog t (s.f (A.stlPwlogPtr t) 3 0) 1) = by_.seq ∧ u.rd (A.stlPwlog t (s.f (A.stlPwlogPtr t) 3 0) 2) = by_.session ∧
        (u.rd (A.stlPwlogCnt t)).toNat = min 0xFFFFFFFF ((s.rd (A.stlPwlogCnt t)).toNat + 1) ∧ u.b (A.stlEvt t) 1 = true ∧
        Only [.lakeCtl] [.regs 0x5C0000, .regs 0x640000] s u)

/-- A time base is set, stepped, slewed and snapshotted as its rules say. Its clauses cite their rules. -/
def Obligations.TimeBasesAreSetSteppedAndSlewed : Prop :=
  -- TB_SET (R258): a base that no servo disciplines steps to the value in TBn_SET: EPOCH goes up by one, STEP is raised, and a pending step is cancelled.
  (∀ (s : State) (n : Fin 4),
    s.on = true → s.tbSrc n ≠ 1 →
      ∃ u, Sys2Proof.Machine.exec (.tbSet n) s = .next u ∧
        (u.tb[n]).val = ofTimeForm (s.tbBinary n) (s.rd (A.tbSetLo n 0)).toNat (s.rd (A.tbSetLo n 1)).toNat (s.rd (A.tbSetLo n 2)).toNat %
          tbModulus (s.tbBinary n) ∧
        (u.tb[n]).epoch = ((s.tb[n]).epoch + 1) % 256 ∧ (u.tb[n]).pend = none ∧ (u.tb[n]).rate = (s.tb[n]).rate ∧
        u.b (A.tbEvt n) 1 = true ∧ Only [.timeBase n, .reg (A.tbEvt n), .keep] [.gpio] s u) ∧
  -- TB_SET on a base with SRC 1 fails with its cause, and the base stands (R271).
  (∀ (s : State) (n : Fin 4),
    s.on = true → s.tbSrc n = 1 →
      ∃ u, Sys2Proof.Machine.exec (.tbSet n) s = .next u ∧
        u.tb[n] = { s.tb[n] with fail := 5 } ∧ u.b (A.tbEvt n) 7 = true ∧ Only [.timeBase n, .reg (A.tbEvt n)] [] s u) ∧
  -- TB_STEP by the amount in TBn_STEP at once (R271): the base steps by it; EPOCH goes up by one and STEP is raised; a step that waited is given up.
  (∀ (s : State) (n bar : Fin 4),
    s.on = true → s.tbSrc n ≠ 1 →
      ∃ u, Sys2Proof.Machine.exec (.tbStep n true false bar) s = .next u ∧
        (u.tb[n]).val = (((s.tb[n]).valueAt s.now + s.stepAmount n) % (tbModulus (s.tbBinary n) : Int)).toNat ∧
        (u.tb[n]).epoch = ((s.tb[n]).epoch + 1) % 256 ∧ (u.tb[n]).pend = none ∧ u.b (A.tbEvt n) 1 = true ∧
        Only [.timeBase n, .reg (A.tbEvt n), .keep] [.gpio] s u) ∧
  -- TB_STEP at a bar's next frame start waits for it (R271).
  (∀ (s : State) (n bar : Fin 4),
    s.on = true → s.tbSrc n ≠ 1 → s.defined bar = true →
      ∃ u, Sys2Proof.Machine.exec (.tbStep n true true bar) s = .next u ∧
        (u.tb[n]).pend = some { amount := some (s.stepAmount n), bar := bar } ∧ (u.tb[n]).val = (s.tb[n]).val ∧
        (u.tb[n]).epoch = (s.tb[n]).epoch ∧ Only [.timeBase n, .reg (A.tbEvt n)] [] s u) ∧
  -- TB_STEP on a base with SRC 1 (R271): by TBn_STEP it fails with cause 5; by the servo's offset it steps a locked base that has heard its grandmaster
  -- within four intervals, and otherwise fails; at the frame start of a bar that is not defined it fails with cause 4.
  (∀ (s : State) (n bar : Fin 4) (atFrame : Bool),
    s.on = true → s.tbSrc n = 1 → (s.tb[n]).pend = none →
      (∃ u, Sys2Proof.Machine.exec (.tbStep n true atFrame bar) s = .next u ∧ u.tb[n] = { s.tb[n] with fail := 5 } ∧ u.b (A.tbEvt n) 7 = true ∧
        Only [.timeBase n, .reg (A.tbEvt n)] [] s u) ∧
      ((s.tb[n]).st = .locked → (s.tb[n]).lastAt.any (fun a => decide (s.now - a ≤ 4 * pow2s (sx 8 (s.f (A.piIntv n) 7 0)))) = true →
        ∃ u, Sys2Proof.Machine.exec (.tbStep n false false bar) s = .next u ∧
          (u.tb[n]).val = (((s.tb[n]).valueAt s.now + s.servoOffset n) % (tbModulus (s.tbBinary n) : Int)).toNat ∧
          (u.tb[n]).epoch = ((s.tb[n]).epoch + 1) % 256 ∧ u.b (A.tbEvt n) 1 = true ∧ Only [.timeBase n, .reg (A.tbEvt n), .keep] [.gpio] s u) ∧
      ((s.tb[n]).st ≠ .locked → ∃ u, Sys2Proof.Machine.exec (.tbStep n false false bar) s = .next u ∧
        (u.tb[n]).fail = 5 ∧ (u.tb[n]).epoch = (s.tb[n]).epoch ∧ u.b (A.tbEvt n) 7 = true ∧ Only [.timeBase n, .reg (A.tbEvt n)] [] s u) ∧
      ((s.tb[n]).st = .locked → (s.tb[n]).lastAt.any (fun a => decide (s.now - a ≤ 4 * pow2s (sx 8 (s.f (A.piIntv n) 7 0)))) = false →
        ∃ u, Sys2Proof.Machine.exec (.tbStep n false false bar) s = .next u ∧
          (u.tb[n]).fail = 3 ∧ (u.tb[n]).epoch = (s.tb[n]).epoch ∧ u.b (A.tbEvt n) 7 = true ∧ Only [.timeBase n, .reg (A.tbEvt n)] [] s u) ∧
      (s.defined bar = false → ∃ u, Sys2Proof.Machine.exec (.tbStep n false true bar) s = .next u ∧
        (u.tb[n]).fail = 4 ∧ (u.tb[n]).pend = none ∧ u.b (A.tbEvt n) 7 = true ∧ Only [.timeBase n, .reg (A.tbEvt n)] [] s u)) ∧
  -- TB_SLEW of a base with another source than 2, SLEW_DONE while the slew is under way, TB_RELOCK of a base with another source than 1, ENCODER_STALL of
  -- a base that is stopped or has had an edge within WPn_STALL, PPS_PULSE between whole seconds and PPS_PULSE_END with no pulse change nothing (R260,
  -- R262, R269, R278).
  (∀ (s : State) (n : Fin 4) (i : Fin 16),
    (s.tbSrc n ≠ 2 → Sys2Proof.Machine.exec (.tbSlew n) s = .next s) ∧ (s.slewing n = true → Sys2Proof.Machine.exec (.slewDone n) s = .next s) ∧ (s.tbSrc n ≠ 1 → Sys2Proof.Machine.exec (.tbRelock n) s = .next s) ∧
    ((s.wp[n]).stopped = true ∨ s.now - (s.wp[n]).te < us (atLeast1 (s.f (A.wpStall n) 15 0)) → Sys2Proof.Machine.exec (.encoderStall n) s = .next s) ∧
    (s.f (A.gpioCtl i) 1 0 ≠ 2 ∨ s.wholeSec (two (s.f (A.gpioCtl i) 7 6)) = (s.gpio[i]).lastSec → Sys2Proof.Machine.exec (.ppsPulse i) s = .next s) ∧
    ((s.gpio[i]).pulse.all (fun t => decide (s.now - t < us (atLeast1 (s.f (A.gpioCtl i) 31 24)))) = true → Sys2Proof.Machine.exec (.ppsPulseEnd i) s = .next s)) ∧
  -- TB_SLEW (R260): a base with SRC 2 will apply the amount in TBn_STEP without a step.
  (∀ (s : State) (n : Fin 4),
    s.on = true → s.tbSrc n = 2 →
      ∃ u, Sys2Proof.Machine.exec (.tbSlew n) s = .next u ∧
        (u.tb[n]).slew = s.stepAmount n ∧ (u.tb[n]).epoch = (s.tb[n]).epoch ∧ (u.tb[n]).rate = (s.tb[n]).rate ∧
        ((s.tb[n]).at_ ≤ s.now → (u.tb[n]).valueAt s.now = (s.tb[n]).valueAt s.now % (tbModulus (s.tbBinary n) : Int)) ∧
        Only [.timeBase n] [] s u) ∧
  -- SLEW_DONE (R260): once the amount has been applied in full, nothing of the slew is left, and the base reads as before.
  (∀ (s : State) (n : Fin 4),
    s.on = true → s.slewing n = false → (s.tb[n]).at_ ≤ s.now →
      ∃ u, Sys2Proof.Machine.exec (.slewDone n) s = .next u ∧
        (u.tb[n]).slew = 0 ∧ (u.tb[n]).at_ = s.now ∧ (u.tb[n]).epoch = (s.tb[n]).epoch ∧
        (u.tb[n]).valueAt s.now = (s.tb[n]).valueAt s.now % (tbModulus (s.tbBinary n) : Int) ∧ Only [.timeBase n] [] s u) ∧
  -- TB_CANCEL (R271): a pending step is cancelled without STEP_FAIL.
  (∀ (s : State) (n : Fin 4),
    s.on = true → ∃ u, Sys2Proof.Machine.exec (.tbCancel n) s = .next u ∧ u.tb[n] = { s.tb[n] with pend := none } ∧ Only [.timeBase n] [] s u) ∧
  -- TB_RELOCK (R269): a base with SRC 1 is UNLOCKED, and its servo starts afresh.
  (∀ (s : State) (n : Fin 4),
    s.on = true → s.tbSrc n = 1 →
      ∃ u, Sys2Proof.Machine.exec (.tbRelock n) s = .next u ∧ u.tb[n] = { s.tb[n] with st := .unlocked, first := none } ∧ Only [.timeBase n] [] s u) ∧
  -- TB_FORMAT_CHANGE (R258): another FMT steps the base to 0 in the new format; EPOCH goes up by one, and STEP is raised.
  (∀ (s : State) (n : Fin 4) (bin : Bool),
    s.on = true → s.tbBinary n ≠ bin →
      ∃ u, Sys2Proof.Machine.exec (.tbFormatChange n bin) s = .next u ∧
        u.tbBinary n = bin ∧ (u.tb[n]).val = 0 ∧ (u.tb[n]).at_ = max s.now (s.tb[n]).at_ ∧ (u.tb[n]).epoch = ((s.tb[n]).epoch + 1) % 256 ∧
        u.b (A.tbEvt n) 1 = true ∧ u.tbSrc n = s.tbSrc n ∧ Only [.timeBase n, .reg (A.tbCtl n), .reg (A.tbEvt n), .keep] [.gpio] s u) ∧
  -- TIM_SNAP (R260): every base and every web position is latched on one cycle.
  (∀ (s : State),
    s.on = true → ∃ u, Sys2Proof.Machine.exec .timSnap s = .next u ∧
      (∀ n : Fin 4, u.rd (A.timSnapTb n 0) = wd (s.timeAt n s.now).1 ∧ u.rd (A.timSnapTb n 1) = wd ((s.timeAt n s.now).1 / 2 ^ 32) ∧
        u.rd (A.timSnapTb n 2) = wd (s.timeAt n s.now).2.1 ∧ u.rd (A.timSnapWp n 0) = wd (s.wpAt n s.now) ∧
        u.rd (A.timSnapWp n 1) = wd (s.wpAt n s.now / 2 ^ 32)) ∧
      Only ((List.range 4).flatMap (fun n => [.reg (A.timSnapTb n 0), .reg (A.timSnapTb n 1), .reg (A.timSnapTb n 2),
        .reg (A.timSnapWp n 0), .reg (A.timSnapWp n 1)])) [] s u)

/-- Quadrature edges count the web position, illegal ones are counted, and pulses mark whole seconds. Its clauses cite their rules. -/
def Obligations.EncodersCountQuadrature : Prop :=
  -- ENCODER_EDGE (R261, R262): an edge of a counting base whose level has stood for FILT moves its count by one in its direction, and the base runs; its
  -- time is that of the balls; a change of direction raises REVERSE.
  (∀ (s : State) (n : Fin 4) (a b : Bool) (delay held : Nat),
    s.on = true → s.wpFilt n ≤ held → s.wpSimulated n = false → s.b (A.wpCtl n) 0 = true → encCounts s n a b = true →
      ∃ u, Sys2Proof.Machine.exec (.encoderEdge n a b delay held) s = .next u ∧
        (u.wp[n]).a = a ∧ (u.wp[n]).b = b ∧
        (u.wp[n]).count = lowBits 48 (((s.wp[n]).count : Int) + (if encForward s n a b then 1 else -1)) ∧
        (u.wp[n]).te = s.now - (min delay 5 + s.f (A.wpCtl n) 11 8) ∧ (u.wp[n]).back = !encForward s n a b ∧ (u.wp[n]).stopped = false ∧
        ((s.wp[n]).moved = true → (s.wp[n]).back ≠ (u.wp[n]).back → u.b (A.wpEvt n) 3 = true ∧ (u.wp[n]).delta = none) ∧
        ((s.wp[n]).moved = true → (s.wp[n]).back = (u.wp[n]).back → (u.wp[n]).delta = some ((u.wp[n]).te - (s.wp[n]).te)) ∧
        Only [.webPos n, .reg (A.wpEvt n)] [] s u) ∧
  -- Levels that have not stood for FILT are not seen, but that an edge which would count is at the balls; with the simulator on, with the base not
  -- counting, or at an edge that its mode does not count, the levels are followed and the count stands (R261 to R263).
  (∀ (s : State) (n : Fin 4) (a b : Bool) (delay held : Nat),
    s.on = true →
    (held < s.wpFilt n → ∃ u, Sys2Proof.Machine.exec (.encoderEdge n a b delay held) s = .next u ∧
      u.wp[n] = { s.wp[n] with atBalls := if s.wpSimulated n then (s.wp[n]).atBalls else encCounts s n a b } ∧ Only [.webPos n] [] s u) ∧
    (s.wpFilt n ≤ held → (s.wpSimulated n = true ∨ ((s.wp[n]).a = a ∨ (s.wp[n]).b = b) ∧ (s.b (A.wpCtl n) 0 = false ∨ encCounts s n a b = false)) →
      ∃ u, Sys2Proof.Machine.exec (.encoderEdge n a b delay held) s = .next u ∧ u.wp[n] = { s.wp[n] with a := a, b := b, atBalls := false } ∧ Only [.webPos n] [] s u)) ∧
  -- ENCODER_EDGE in Doze follows the levels and counts nothing (R352).
  (∀ (s : State) (n : Fin 4) (a b : Bool) (delay held : Nat),
    s.power.st = .doze →
      ∃ u, Sys2Proof.Machine.exec (.encoderEdge n a b delay held) s = .next u ∧ u.wp[n] = { s.wp[n] with a := a, b := b } ∧ Only [.webPos n] [] s u) ∧
  -- Both levels at once are an illegal transition: it is counted and raised, and the count stands (R261).
  (∀ (s : State) (n : Fin 4) (a b : Bool) (delay held : Nat),
    s.on = true → s.wpFilt n ≤ held → s.wpSimulated n = false → (s.wp[n]).a ≠ a → (s.wp[n]).b ≠ b →
      ∃ u, Sys2Proof.Machine.exec (.encoderEdge n a b delay held) s = .next u ∧
        u.wp[n] = { s.wp[n] with a := a, b := b } ∧ (u.rd (A.wpCntErr n)).toNat = min 0xFFFFFFFF ((s.rd (A.wpCntErr n)).toNat + 1) ∧
        u.b (A.wpEvt n) 0 = true ∧ Only [.webPos n, .reg (A.wpCntErr n), .reg (A.wpEvt n)] [] s u) ∧
  -- ENCODER_INDEX (R262, R263): the index edge selected, once its level has stood for FILT, latches the position at its time at the balls, counts, and
  -- raises INDEX.
  (∀ (s : State) (n : Fin 4) (r : Bool) (delay held p : Nat),
    s.on = true → s.wpSimulated n = false → s.wpFilt n ≤ held → p = s.wpAt n (s.now - (min delay 5 + s.f (A.wpCtl n) 11 8)) → s.f (A.wpCtl n) 13 12 = (if r then 1 else 2) →
      ∃ u, Sys2Proof.Machine.exec (.encoderIndex n r delay held) s = .next u ∧
        u.rd (A.wpIdxLo n 0) = wd p ∧ u.rd (A.wpIdxLo n 1) = wd (p / 2 ^ 32) ∧
        u.rd (A.wpIdxCnt n) = s.rd (A.wpIdxCnt n) + 1 ∧ u.b (A.wpEvt n) 4 = true ∧
        Only [.reg (A.wpIdxLo n 0), .reg (A.wpIdxLo n 1), .reg (A.wpIdxCnt n), .reg (A.wpEvt n)] [] s u) ∧
  -- An index edge that is not selected, that the filter removes, or with the simulator on changes nothing (R262, R263).
  (∀ (s : State) (n : Fin 4) (r : Bool) (delay held : Nat),
    (s.wpSimulated n = true ∨ held < s.wpFilt n ∨ s.f (A.wpCtl n) 13 12 ≠ (if r then 1 else 2)) → Sys2Proof.Machine.exec (.encoderIndex n r delay held) s = .next s) ∧
  -- ENCODER_STALL (R262): with no edge for WPn_STALL the base is stopped, and its interpolation holds.
  (∀ (s : State) (n : Fin 4),
    s.on = true → s.wpSimulated n = false → (s.wp[n]).stopped = false → us (atLeast1 (s.f (A.wpStall n) 15 0)) ≤ s.now - (s.wp[n]).te →
      ∃ u, Sys2Proof.Machine.exec (.encoderStall n) s = .next u ∧
        u.wp[n] = { s.wp[n] with stopped := true, held := (s.wp[n]).frac s.now } ∧ u.wpAt n s.now = s.wpAt n s.now ∧ u.wpVel n = 0 ∧
        u.b (A.wpEvt n) 1 = true ∧ Only [.webPos n, .reg (A.wpEvt n)] [] s u) ∧
  -- PPS_PULSE (R278): a GPIO with FUNC 2 pulses when its base has crossed a whole second that no step took it over.
  (∀ (s : State) (i : Fin 16),
    s.on = true → s.f (A.gpioCtl i) 1 0 = 2 → s.wholeSec (two (s.f (A.gpioCtl i) 7 6)) ≠ (s.gpio[i]).lastSec →
      ∃ u, Sys2Proof.Machine.exec (.ppsPulse i) s = .next u ∧
        u.sent = .pps i s.now (us (atLeast1 (s.f (A.gpioCtl i) 31 24))) :: s.sent ∧ (u.gpio[i]).pulse = some s.now ∧
        (u.gpio[i]).lastSec = s.wholeSec (two (s.f (A.gpioCtl i) 7 6)) ∧ Only [.gpio i, .sent] [] s u) ∧
  -- A step over the boundary gives no pulse (R278): right after TB_SET of its base, a GPIO has no second left to show.
  (∀ (s : State) (n : Fin 4) (i : Fin 16),
    s.on = true → s.tbSrc n ≠ 1 → s.f (A.gpioCtl i) 1 0 = 2 → two (s.f (A.gpioCtl i) 7 6) = n →
    s.wholeSec n = (s.gpio[i]).lastSec →
      ∃ u, Sys2Proof.Machine.exec (.tbSet n) s = .next u ∧ (u.gpio[i]).pulse = (s.gpio[i]).pulse ∧ u.wholeSec n = (u.gpio[i]).lastSec) ∧
  -- PPS_PULSE_END (R278): the pulse ends WIDTH µs after its start.
  (∀ (s : State) (i : Fin 16) (t : Nat),
    s.on = true → (s.gpio[i]).pulse = some t → us (atLeast1 (s.f (A.gpioCtl i) 31 24)) ≤ s.now - t →
      ∃ u, Sys2Proof.Machine.exec (.ppsPulseEnd i) s = .next u ∧ u.gpio[i] = { s.gpio[i] with pulse := none } ∧ Only [.gpio i] [] s u)

/-- A PTP port measures offset and path delay and discards what its profile does not take. Its clauses cite their rules. -/
def Obligations.PtpPortsExchangeMessages : Prop :=
  -- PTP_SYNC (R267, R268): a one-step Sync on a slave port gives t1, its origin time and correction, and t2, its arrival by the port's base; the offset t1
  -- + dm + ASYM − t2 is reported, in ns, and, outside delay-suspect, is what the servo works on.
  (∀ (s : State) (p : Fin 4) (m : PtpMsg),
    s.on = true → s.ptpAccepts p m = true → (s.ptp[p]).state = psSlave → m.twoStep = false →
      ∃ u, Sys2Proof.Machine.exec (.ptpSync p m) s = .next u ∧
        (u.ptp[p]).t1 = up32 (m.time + m.corr) ∧ (u.ptp[p]).t2 = s.ptpLocal p 0 ∧ (u.ptp[p]).syncAt = s.now ∧
        (u.ptp[p]).asym = (if (s.ptp[p]).suspect then (s.ptp[p]).asym else sx 32 (s.rd (A.ptpAsym p)).toNat) ∧
        u.rd (A.tbOffset (s.ptpInst p)) = wd (lowBits 32 (clampI (-2147483647) 2147483647 (rdiv (ptpOffset s p (u.ptp[p]).asym (up32 (m.time + m.corr))
          (s.ptpLocal p 0)) oneNs))) ∧
        (u.tb[s.ptpInst p]).lastAt = some s.now ∧
        (u.tb[s.ptpInst p]).lastD = ptpOffset s p (u.ptp[p]).asym (up32 (m.time + m.corr)) (s.ptpLocal p 0) ∧
        ((s.ptp[p]).suspect = true → (u.tb[s.ptpInst p]).rate = (s.tb[s.ptpInst p]).rate ∧ (u.tb[s.ptpInst p]).freq = (s.tb[s.ptpInst p]).freq ∧
          (u.tb[s.ptpInst p]).st = (s.tb[s.ptpInst p]).st) ∧
        ((u.tb[s.ptpInst p]).epoch = (s.tb[s.ptpInst p]).epoch → u.gpio = s.gpio) ∧
        Only [.ptp p, .timeBase (s.ptpInst p), .reg (A.ptpCntTx p 1), .reg (A.tbOffset (s.ptpInst p)), .reg (A.tbEvt (s.ptpInst p)), .keep] [.gpio] s u) ∧
  -- A two-step Sync waits for its Follow_Up with its arrival time (R267).
  (∀ (s : State) (p : Fin 4) (m : PtpMsg),
    s.on = true → s.ptpAccepts p m = true → (s.ptp[p]).state = psSlave → m.twoStep = true →
      ∃ u, Sys2Proof.Machine.exec (.ptpSync p m) s = .next u ∧
        u.ptp[p] = { s.ptp[p] with sync := some (m.seq, s.ptpLocal p 0, m.corr), syncAt := s.now } ∧
        Only [.ptp p, .reg (A.ptpCntTx p 1)] [] s u) ∧
  -- A message of any kind that the port does not accept is counted as discarded and acted on in no way (R216, R265).
  (∀ (s : State) (p : Fin 4) (m : PtpMsg) (d : AnnounceDs) (t3 : Int) (k : Fin 7) (c : Instr),
    s.on = true → s.ptpAccepts p m = false → ptpKinds p m d t3 k = c →
      ∃ u, Sys2Proof.Machine.exec c s = .next u ∧
        (u.rd (A.ptpCntTx p 2)).toNat = min 0xFFFFFFFF ((s.rd (A.ptpCntTx p 2)).toNat + 1) ∧ Only [.reg (A.ptpCntTx p 2)] [] s u) ∧
  -- A message that the port accepts and has no use for is counted as received, and does nothing more (R264, R267).
  (∀ (s : State) (p : Fin 4) (m : PtpMsg) (t3 : Int) (k : Fin 6) (c : Instr),
    s.on = true → s.ptpAccepts p m = true → ptpUnheeds s p m k = true → ptpKinds p m {} t3 ⟨k.val, by omega⟩ = c →
      ∃ u, Sys2Proof.Machine.exec c s = .next u ∧
        (u.rd (A.ptpCntTx p 1)).toNat = min 0xFFFFFFFF ((s.rd (A.ptpCntTx p 1)).toNat + 1) ∧ Only [.reg (A.ptpCntTx p 1)] [] s u) ∧
  -- PTP_FOLLOW_UP (R267): the Follow_Up of the waiting Sync supplies t1: its time and both corrections.
  (∀ (s : State) (p : Fin 4) (m : PtpMsg) (t2 c : Int),
    s.on = true → s.ptpAccepts p m = true → (s.ptp[p]).sync = some (m.seq, t2, c) →
      ∃ u, Sys2Proof.Machine.exec (.ptpFollowUp p m) s = .next u ∧
        (u.tb[s.ptpInst p]).lastAt = some (s.ptp[p]).syncAt ∧ (u.ptp[p]).syncAt = (s.ptp[p]).syncAt ∧
        (u.ptp[p]).t1 = up32 (m.time + m.corr + c) ∧ (u.ptp[p]).t2 = t2 ∧ (u.ptp[p]).sync = none ∧
        (u.ptp[p]).asym = (if (s.ptp[p]).suspect then (s.ptp[p]).asym else sx 32 (s.rd (A.ptpAsym p)).toNat) ∧
        u.rd (A.tbOffset (s.ptpInst p)) = wd (lowBits 32 (clampI (-2147483647) 2147483647 (rdiv (ptpOffset s p (u.ptp[p]).asym
          (up32 (m.time + m.corr + c)) t2) oneNs))) ∧
        (u.tb[s.ptpInst p]).lastD = ptpOffset s p (u.ptp[p]).asym (up32 (m.time + m.corr + c)) t2 ∧
        ((u.tb[s.ptpInst p]).epoch = (s.tb[s.ptpInst p]).epoch → u.gpio = s.gpio) ∧
        Only [.ptp p, .timeBase (s.ptpInst p), .reg (A.ptpCntTx p 1), .reg (A.tbOffset (s.ptpInst p)), .reg (A.tbEvt (s.ptpInst p)), .keep] [.gpio] s u) ∧
  -- PTP_DELAY_REQ (R264, R265, R266): a master port that measures end to end answers with a Delay_Resp of its arrival time, of a binary base its count of
  -- 2⁻³² s, and its correction.
  (∀ (s : State) (p : Fin 4) (m : PtpMsg),
    s.on = true → s.ptpAccepts p m = true → (s.ptp[p]).state = psMaster → s.ptpP2p p = false →
      ∃ u, Sys2Proof.Machine.exec (.ptpDelayReq p m) s = .next u ∧
        u.sent = ptpOut s p 9 m.seq (s.ptpStamp p 0) (up32 m.corr) none :: s.sent ∧
        Only [.sent, .reg (A.ptpCntTx p 0), .reg (A.ptpCntTx p 1)] [] s u) ∧
  -- PTP_DELAY_RESP (R267): with a Sync since the port became a slave, the raw delay ((t2 − t1) + (t4 − t3)) / 2 is reported; the first one after the port
  -- became a slave is the delay.
  (∀ (s : State) (p : Fin 4) (m : PtpMsg) (t3 : Int),
    s.on = true → s.ptpAccepts p m = true → (s.ptp[p]).state = psSlave → s.ptpP2p p = false → (s.ptp[p]).synced = true → (s.ptp[p]).req = some (m.seq, t3) →
      ∃ u, Sys2Proof.Machine.exec (.ptpDelayResp p m) s = .next u ∧
        (u.ptp[p]).req = none ∧
        u.rd (A.ptpDelayRaw p) = wd (satU 32 (rdiv (rdiv (((s.ptp[p]).t2 - (s.ptp[p]).t1) + (up32 (m.time - m.corr) - t3)) 2) (2 ^ 40))) ∧
        ((s.ptp[p]).dmValid = false → (u.ptp[p]).dmValid = true ∧
          (u.ptp[p]).dm = rdiv (((s.ptp[p]).t2 - (s.ptp[p]).t1) + (up32 (m.time - m.corr) - t3)) 2) ∧
        Only [.ptp p, .timeBase (s.ptpInst p), .reg (A.ptpCntTx p 1), .reg (A.ptpCntTx p 3), .reg (A.ptpDelayRaw p), .reg (A.ptpDelay p),
          .reg (A.tbEvt (s.ptpInst p))] [] s u) ∧
  -- A raw delay within DS_THR of the delay moves it by its difference over 2^DW, and the port stays as it is (R267, R272).
  (∀ (s : State) (p : Fin 4) (m : PtpMsg) (t3 r : Int),
    s.on = true → s.ptpAccepts p m = true → (s.ptp[p]).state = psSlave → s.ptpP2p p = false → (s.ptp[p]).synced = true → (s.ptp[p]).req = some (m.seq, t3) →
      (s.ptp[p]).dmValid = true → (s.ptp[p]).suspect = false → rdiv (((s.ptp[p]).t2 - (s.ptp[p]).t1) + (up32 (m.time - m.corr) - t3)) 2 = r →
      r - (s.ptp[p]).dm ≤ (atLeast1 (s.f (A.ptpDs p) 15 0) : Int) * oneNs → (s.ptp[p]).dm - r ≤ (atLeast1 (s.f (A.ptpDs p) 15 0) : Int) * oneNs →
      ∃ u, Sys2Proof.Machine.exec (.ptpDelayResp p m) s = .next u ∧
        u.ptp[p] = { s.ptp[p] with req := none, dm := (s.ptp[p]).dm + rshr (r - (s.ptp[p]).dm) (s.f (A.ptpDw p) 3 0) } ∧
        Only [.ptp p, .reg (A.ptpCntTx p 1), .reg (A.ptpDelayRaw p), .reg (A.ptpDelay p)] [] s u) ∧
  -- A raw delay that differs from the delay by more than DS_THR, above or below it, makes the port delay-suspect: the delay stands, a run begins with the
  -- raw delay, the ASYM written last is the one held, DELAY_SUSPECT is raised, and a base the port disciplines runs at its frequency term alone (R272,
  -- R273).
  (∀ (s : State) (p : Fin 4) (m : PtpMsg) (t3 r : Int),
    s.on = true → s.ptpAccepts p m = true → (s.ptp[p]).state = psSlave → s.ptpP2p p = false → (s.ptp[p]).synced = true → (s.ptp[p]).req = some (m.seq, t3) →
      (s.ptp[p]).dmValid = true → (s.ptp[p]).suspect = false → rdiv (((s.ptp[p]).t2 - (s.ptp[p]).t1) + (up32 (m.time - m.corr) - t3)) 2 = r →
      ((atLeast1 (s.f (A.ptpDs p) 15 0) : Int) * oneNs < r - (s.ptp[p]).dm ∨ (atLeast1 (s.f (A.ptpDs p) 15 0) : Int) * oneNs < (s.ptp[p]).dm - r) →
      ∃ u, Sys2Proof.Machine.exec (.ptpDelayResp p m) s = .next u ∧
        u.ptp[p] = { s.ptp[p] with
          req := none, suspect := true, asym := sx 32 (s.rd (A.ptpAsym p)).toNat, runRef := r, runStart := s.now, runSum := r, runN := 1, dsLong := false } ∧
        u.rd (A.ptpDelayRaw p) = wd (satU 32 (rdiv r (2 ^ 40))) ∧ u.b (A.tbEvt (s.ptpInst p)) 5 = true ∧
        (s.tbSrc (s.ptpInst p) = 1 →
          (u.tb[s.ptpInst p]).st = (if (s.tb[s.ptpInst p]).st = .locked then .delaySuspect else (s.tb[s.ptpInst p]).st) ∧
          (u.tb[s.ptpInst p]).rate = clampI (-ppm500) ppm500 (s.tb[s.ptpInst p]).freq ∧ (u.tb[s.ptpInst p]).freq = (s.tb[s.ptpInst p]).freq ∧
          (u.tb[s.ptpInst p]).epoch = (s.tb[s.ptpInst p]).epoch) ∧
        (s.tbSrc (s.ptpInst p) ≠ 1 → u.tb = s.tb) ∧
        Only [.ptp p, .timeBase (s.ptpInst p), .reg (A.ptpCntTx p 1), .reg (A.ptpDelayRaw p), .reg (A.tbEvt (s.ptpInst p))] [] s u) ∧
  -- So does a raw peer delay of a slave port of profile 1 (R272).
  (∀ (s : State) (p : Fin 4) (m : PtpMsg) (t3 t1 r : Int),
    s.on = true → s.ptpAccepts p m = true → s.ptpProfile (s.ptpInst p) = 1 → (s.ptp[p]).state = psSlave → (s.ptp[p]).req = some (m.seq, t1) →
      (s.ptp[p]).dmValid = true → (s.ptp[p]).suspect = false → rdiv ((s.ptpLocal p 0 - t1) - (up32 (t3 + m.corr) - up32 m.time)) 2 = r →
      ((atLeast1 (s.f (A.ptpDs p) 15 0) : Int) * oneNs < r - (s.ptp[p]).dm ∨ (atLeast1 (s.f (A.ptpDs p) 15 0) : Int) * oneNs < (s.ptp[p]).dm - r) →
      ∃ u, Sys2Proof.Machine.exec (.ptpPdelayResp p m t3) s = .next u ∧
        (u.ptp[p]).suspect = true ∧ (u.ptp[p]).dm = (s.ptp[p]).dm ∧ (u.ptp[p]).runRef = r ∧ (u.ptp[p]).runStart = s.now ∧ (u.ptp[p]).runSum = r ∧
        (u.ptp[p]).runN = 1 ∧ u.rd (A.ptpDelayRaw p) = wd (satU 32 (rdiv r (2 ^ 40))) ∧ u.b (A.tbEvt (s.ptpInst p)) 5 = true ∧
        (s.tbSrc (s.ptpInst p) = 1 → (u.tb[s.ptpInst p]).rate = clampI (-ppm500) ppm500 (s.tb[s.ptpInst p]).freq) ∧
        Only [.ptp p, .timeBase (s.ptpInst p), .reg (A.ptpCntTx p 1), .reg (A.ptpDelayRaw p), .reg (A.tbEvt (s.ptpInst p))] [] s u) ∧
  -- PTP_PDELAY_REQ (R264): a port that measures peer to peer answers with a Pdelay_Resp and its Follow_Up, or, with ONESTEP, with one message whose
  -- correction holds the time spent.
  (∀ (s : State) (p : Fin 4) (m : PtpMsg),
    s.on = true → s.ptpAccepts p m = true → s.ptpP2p p = true →
      ∃ u, Sys2Proof.Machine.exec (.ptpPdelayReq p m) s = .next u ∧
        u.sent = (if s.b (A.piCtl (s.ptpInst p)) 6 then [ptpOut s p 3 m.seq 0 (up32 m.corr + (s.ptpLocal p 1 - s.ptpLocal p 0)) none]
          else [ptpOut s p 10 m.seq (s.ptpStamp p 1) (up32 m.corr) none, ptpOut s p 3 m.seq (s.ptpStamp p 0) 0 none]) ++ s.sent ∧
        Only [.sent, .reg (A.ptpCntTx p 0), .reg (A.ptpCntTx p 1)] [] s u) ∧
  -- PTP_PDELAY_RESP (R267): the peer delay ((t4 − t1) − (t3 − t2)) / 2 completes the port's request; on a slave port of profile 1 it is reported raw, and
  -- the first is the delay; a port that is no slave keeps its delay.
  (∀ (s : State) (p : Fin 4) (m : PtpMsg) (t3 t1 : Int),
    s.on = true → s.ptpAccepts p m = true → s.ptpProfile (s.ptpInst p) = 1 → (s.ptp[p]).req = some (m.seq, t1) →
      ∃ u, Sys2Proof.Machine.exec (.ptpPdelayResp p m t3) s = .next u ∧
        (u.ptp[p]).req = none ∧
        ((s.ptp[p]).state = psSlave →
          u.rd (A.ptpDelayRaw p) = wd (satU 32 (rdiv (rdiv ((s.ptpLocal p 0 - t1) - (up32 (t3 + m.corr) - up32 m.time)) 2) (2 ^ 40))) ∧
          ((s.ptp[p]).dmValid = false → (u.ptp[p]).dm = rdiv ((s.ptpLocal p 0 - t1) - (up32 (t3 + m.corr) - up32 m.time)) 2)) ∧
        ((s.ptp[p]).state ≠ psSlave → (u.ptp[p]).dm = (s.ptp[p]).dm ∧ Only [.ptp p, .reg (A.ptpCntTx p 1)] [] s u) ∧
        Only [.ptp p, .timeBase (s.ptpInst p), .reg (A.ptpCntTx p 1), .reg (A.ptpCntTx p 3), .reg (A.ptpDelayRaw p), .reg (A.ptpDelay p),
          .reg (A.tbEvt (s.ptpInst p))] [] s u)

/-- PTP ports select their master, send at their intervals and follow their links. Its clauses cite their rules. -/
def Obligations.PtpPortsSelectTheirMaster : Prop :=
  -- DS_LONG (R272): a delay-suspect run of 60 s raises DS_LONG, once.
  (∀ (s : State) (p : Fin 4),
    s.on = true → (s.ptp[p]).suspect = true → (s.ptp[p]).dsLong = false → ms 60000 ≤ s.now - (s.ptp[p]).runStart →
      ∃ u, Sys2Proof.Machine.exec (.dsLong p) s = .next u ∧
        u.ptp[p] = { s.ptp[p] with dsLong := true } ∧ u.b (A.tbEvt (s.ptpInst p)) 8 = true ∧
        Only [.ptp p, .reg (A.tbEvt (s.ptpInst p))] [] s u) ∧
  -- DS_LONG outside a delay-suspect run, before its 60 s, or again, does nothing (R272).
  (∀ (s : State) (p : Fin 4),
    (s.ptp[p]).suspect = false ∨ (s.ptp[p]).dsLong = true ∨ s.now - (s.ptp[p]).runStart < ms 60000 → Sys2Proof.Machine.exec (.dsLong p) s = .next s) ∧
  -- PTP_ANNOUNCE at a slave-only instance (R264, R269): the first master heard is remembered with its time; a slave-only instance follows it: the port
  -- that heard it is a slave, and the registers name the grandmaster.
  (∀ (s : State) (p : Fin 4) (m : PtpMsg) (d : AnnounceDs),
    s.on = true → s.ptpAccepts p m = true → (∀ q : Fin 4, (s.ptp[q]).best = none) → s.f (A.piCtl (s.ptpInst p)) 5 4 = 0 →
      ∃ u, Sys2Proof.Machine.exec (.ptpAnnounce p m d) s = .next u ∧
        (u.ptp[p]).best = some d ∧ (u.ptp[p]).annAt = s.now ∧ (u.ptp[p]).state = psSlave ∧
        u.rd (A.piGmLo (s.ptpInst p) 0) = wd d.gm ∧ u.rd (A.piGmLo (s.ptpInst p) 1) = wd (d.gm / 2 ^ 32) ∧ u.tb = s.tb ∧
        Only [.reg (A.ptpCntTx p 1), .reg (A.piGmLo (s.ptpInst p) 0), .reg (A.piGmLo (s.ptpInst p) 1), .reg (A.piGmInfo (s.ptpInst p)),
          .reg (A.tbEvt (s.ptpInst p))] [.ptp] s u) ∧
  -- PTP_MANAGEMENT (R264): a management message is ignored and counted by its instance, or, at a port that is not on, as discarded.
  (∀ (s : State) (p : Fin 4) (a : Nat),
    s.on = true → (if s.ptpOn p then A.piCntMgmt (s.ptpInst p) else A.ptpCntTx p 2) = a →
      ∃ u, Sys2Proof.Machine.exec (.ptpManagement p) s = .next u ∧
        (u.rd a).toNat = min 0xFFFFFFFF ((s.rd a).toNat + 1) ∧ Only [.reg a] [] s u) ∧
  -- PTP_SYNC_TIMEOUT (R269): with no Sync for announceReceiptTimeout Sync intervals a disciplined base is in HOLDOVER: RATE is its frequency term, and
  -- HOLDOVER is raised.
  (∀ (s : State) (k : Fin 4),
    s.on = true → s.tbSrc k = 1 → ((s.tb[k]).st = .locked ∨ (s.tb[k]).st = .delaySuspect) →
      (∀ p : Fin 4, s.ptpInst p = k → (s.ptp[p]).state = psSlave → s.annTimeout k * s.ptpInterval k 0 ≤ s.now - (s.ptp[p]).syncAt) →
      ∃ u, Sys2Proof.Machine.exec (.ptpSyncTimeout k) s = .next u ∧
        (u.tb[k]).st = .holdover ∧ (u.tb[k]).rate = clampI (-ppm500) ppm500 (s.tb[k]).freq ∧ (u.tb[k]).epoch = (s.tb[k]).epoch ∧
        u.b (A.tbEvt k) 4 = true ∧ Only [.timeBase k, .reg (A.tbEvt k)] [] s u) ∧
  -- PTP_SYNC_TIMEOUT of a base with another source, or whose servo is not locked, or with a Sync inside the time, does nothing (R269).
  (∀ (s : State) (k p : Fin 4),
    (s.tbSrc k ≠ 1 ∨ (s.tb[k]).st = .unlocked ∨ (s.tb[k]).st = .holdover ∨
      s.ptpInst p = k ∧ (s.ptp[p]).state = psSlave ∧ s.now - (s.ptp[p]).syncAt < s.annTimeout k * s.ptpInterval k 0) →
      Sys2Proof.Machine.exec (.ptpSyncTimeout k) s = .next s) ∧
  -- PTP_MESSAGE_SEND of a Sync (R264, R265): once the interval of its kind has passed, a master port sends it with its time, and its Follow_Up unless the
  -- instance is one-step.
  (∀ (s : State) (p : Fin 4),
    s.on = true → s.ptpOn p = true → (s.ptp[p]).linkUp = true → (s.ptp[p]).state = psMaster → s.ptpDue p 0 = true →
      ∃ u, Sys2Proof.Machine.exec (.ptpMessageSend p 0) s = .next u ∧
        (u.ptp[p]).syncSent = some s.now ∧
        u.sent = (if s.b (A.piCtl (s.ptpInst p)) 6 then [] else [ptpOut s p 8 (s.ptp[p]).seq (s.ptpStamp p 1) 0 none]) ++
          ptpOut s p 0 (s.ptp[p]).seq (s.ptpStamp p 1) 0 none :: s.sent ∧
        (u.ptp[p]).seq = ((s.ptp[p]).seq + 1) % 65536 ∧ Only [.ptp p, .sent, .reg (A.ptpCntTx p 0)] [] s u) ∧
  -- PTP_MESSAGE_SEND of a delay request: it is remembered with its number and time (R264, R267).
  (∀ (s : State) (p : Fin 4),
    s.on = true → s.ptpOn p = true → (s.ptp[p]).linkUp = true → (s.ptpP2p p = true ∨ (s.ptp[p]).state = psSlave) → s.ptpDue p 2 = true →
      ∃ u, Sys2Proof.Machine.exec (.ptpMessageSend p 2) s = .next u ∧
        (u.ptp[p]).reqSent = some s.now ∧
        (u.ptp[p]).req = some ((s.ptp[p]).seq, s.ptpLocal p 1) ∧ (u.ptp[p]).seq = ((s.ptp[p]).seq + 1) % 65536 ∧
        u.sent = ptpOut s p (if s.ptpP2p p then 2 else 1) (s.ptp[p]).seq (s.ptpLocal p 1) 0 none :: s.sent ∧
        Only [.ptp p, .sent, .reg (A.ptpCntTx p 0)] [] s u) ∧
  -- PTP_MESSAGE_SEND of an Announce (R264): a master port announces what its instance holds: its grandmaster, or its own clock.
  (∀ (s : State) (p : Fin 4),
    s.on = true → s.ptpOn p = true → (s.ptp[p]).linkUp = true → (s.ptp[p]).state = psMaster → s.ptpDue p 1 = true →
      ∃ u, Sys2Proof.Machine.exec (.ptpMessageSend p 1) s = .next u ∧
        (u.ptp[p]).annSent = some s.now ∧
        u.sent = ptpOut s p 11 (s.ptp[p]).seq (s.ptpStamp p 1) 0 (some (s.announced (s.ptpInst p))) :: s.sent ∧
        (u.ptp[p]).seq = ((s.ptp[p]).seq + 1) % 65536 ∧ Only [.ptp p, .sent, .reg (A.ptpCntTx p 0)] [] s u) ∧
  -- PTP_MESSAGE_SEND of a port that is off or down, or before the interval of its kind has passed, sends nothing, nor does a port that is no master send a
  -- Sync or an Announce, or one that is no slave and measures end to end a delay request (R264).
  (∀ (s : State) (p : Fin 4) (k : Fin 3),
    (s.ptpOn p = false ∨ (s.ptp[p]).linkUp = false ∨ s.ptpDue p k.val = false ∨ k ≠ 2 ∧ (s.ptp[p]).state ≠ psMaster ∨
      k = 2 ∧ (s.ptp[p]).state ≠ psSlave ∧ s.ptpP2p p = false) → Sys2Proof.Machine.exec (.ptpMessageSend p k.val) s = .next s) ∧
  -- ANNOUNCE_RECEIPT_TIMEOUT (R264, R269): with no Announce for announceReceiptTimeout intervals the master is forgotten, and the port is no slave of its;
  -- of an instance that is not slave-only and hears no other master, it becomes MASTER.
  (∀ (s : State) (p : Fin 4),
    s.on = true → ((s.ptp[p]).best.isSome = true ∨ (s.ptp[p]).state = psListening) →
      s.annTimeout (s.ptpInst p) * s.ptpInterval (s.ptpInst p) 1 ≤ s.now - (s.ptp[p]).annAt →
      ∃ u, Sys2Proof.Machine.exec (.announceReceiptTimeout p) s = .next u ∧
        (u.ptp[p]).best = none ∧ (s.ptpOn p = true → (s.ptp[p]).linkUp = true → (u.ptp[p]).state ≠ psSlave ∧
          (s.f (A.piCtl (s.ptpInst p)) 5 4 ≠ 0 → (∀ q : Fin 4, q = p ∨ (s.ptp[q]).best = none) → (u.ptp[p]).state = psMaster)) ∧
        Only [.timeBase (s.ptpInst p)] [.ptp, .regs 0x580000] s u) ∧
  -- ANNOUNCE_RECEIPT_TIMEOUT of a port that hears no master and does not listen for one, or before the time, does nothing (R269).
  (∀ (s : State) (p : Fin 4),
    (s.ptp[p]).best = none ∧ (s.ptp[p]).state ≠ psListening ∨ s.now - (s.ptp[p]).annAt < s.annTimeout (s.ptpInst p) * s.ptpInterval (s.ptpInst p) 1 →
      Sys2Proof.Machine.exec (.announceReceiptTimeout p) s = .next s) ∧
  -- MANAGEMENT_LINK_DOWN (R265, Table 10.13): the PTP port of MA or MB takes FAULTY; an enabled port's link shows down, with the faults signalled.
  (∀ (s : State) (m : Fin 2) (aligned lfault rfault : Bool) (p : Fin 4),
    s.on = true → p.val = 2 + m.val →
      ∃ u, Sys2Proof.Machine.exec (.managementLinkDown m aligned lfault rfault) s = .next u ∧
        (u.ptp[p]).linkUp = false ∧ (u.ptp[p]).state = psFaulty ∧ (u.ptp[p]).best = none ∧
        (s.b (A.ethCtl (2 + m)) 0 = true → u.b (A.ethStatus (2 + m)) 0 = false ∧ u.b (A.ethStatus (2 + m)) 4 = lfault ∧
          u.b (A.ethStatus (2 + m)) 8 = rfault ∧ u.b (A.ethStatus (2 + m)) 12 = (aligned && s.mgmtFec m)) ∧
        Only [.reg (A.ethStatus (2 + m))] [.ptp, .power, .timeBases, .regs 0x580000] s u) ∧
  -- MANAGEMENT_LINK_UP (R265): the PTP port of an enabled MA or MB leaves FAULTY.
  (∀ (s : State) (m : Fin 2) (p : Fin 4),
    s.on = true → p.val = 2 + m.val → s.b (A.ethCtl (2 + m)) 0 = true →
      ∃ u, Sys2Proof.Machine.exec (.managementLinkUp m) s = .next u ∧
        (u.ptp[p]).linkUp = true ∧ (u.ptp[p]).state ≠ psFaulty ∧ u.b (A.ethStatus (2 + m)) 0 = true ∧
        Only [.reg (A.ethStatus (2 + m))] [.ptp, .timeBases, .regs 0x580000] s u) ∧
  -- MANAGEMENT_LINK_UP of a port that is not enabled does nothing (R213).
  (∀ (s : State) (m : Fin 2),
   s.b (A.ethCtl (2 + m)) 0 = false → Sys2Proof.Machine.exec (.managementLinkUp m) s = .next s)

/-- A session opens with an authenticated HELLO, stays with its messages and closes. Its clauses cite their rules. -/
def Obligations.SessionsOpenOnlyAuthenticated : Prop :=
  -- HELLO (R281, R282): one authenticated with the stall's key, within the device's versions, and with fewer than four sessions of the stall open, opens a
  -- session with the next number and the highest common version; it has those of the channels it asked for that are the stall's and that no session holds;
  -- the reply goes out, and the number moves on, skipping 0.
  (∀ (s : State) (h : IcpHead) (vmin vmax chans : BitVec 8) (hnonce : BitVec 128) (k : Bytes) (v : Nat),
    s.on = true → icpComes s h 64 = true → (s.stalls[h.stall]).key = some k →
      beBytes 16 h.mac.toNat = icpMac k h.ver.toNat 1 h.stall h.flags.toNat h.session.toNat h.seq.toNat (helloBody vmin vmax chans hnonce) →
      chooseVersion vmin.toNat vmax.toNat (h.peer.addr.length == 16) = some v → s.ctl.sessions.countP (fun x => x.stall == h.stall.val) < 4 →
      ∃ u, Sys2Proof.Machine.exec (.hello h vmin vmax chans hnonce) s = .next u ∧
        u.ctl.sessions.dropLast = s.ctl.sessions ∧ u.ctl.sessions.length = s.ctl.sessions.length + 1 ∧
        (∀ x ∈ u.ctl.sessions.getLast?, x.number = s.ctl.nextSession ∧ x.stall = h.stall.val ∧ x.version = v ∧ x.peer = h.peer ∧
          x.mgmtPort = h.port.val ∧ x.provisioning = false ∧ x.lastSeq = none ∧ x.lastMsg = s.now ∧
          (∀ i ∈ [0, 1], x.chans.testBit i = (decide (0x12 ≤ v) && chans.toNat.testBit i && (s.stallRec h.stall).chans.testBit i &&
            (s.chanHolder (2 * h.stall + i)).isNone))) ∧
        u.ctl.nextSession = (if (s.ctl.nextSession + 1) % 2 ^ 32 = 0 then 1 else (s.ctl.nextSession + 1) % 2 ^ 32) ∧
        u.sent.length = s.sent.length + 1 ∧ u.b (A.stlEvt h.stall) 2 = true ∧
        Only [.ctl, .sent, .draws, .reg (A.stlEvt h.stall), rxOf h, txOf h.port] [.targets] s u) ∧
  -- HELLO of stall 0 without a key, with PROVISION and a zero MAC, opens a provisioning session, which has no key (R285).
  (∀ (s : State) (h : IcpHead) (vmin vmax chans : BitVec 8) (hnonce : BitVec 128) (v : Nat),
    s.on = true → icpComes s h 64 = true → h.stall = 0 → (s.stalls[h.stall]).key = none → bit (wd h.flags.toNat) 7 = true → h.mac = 0 →
      chooseVersion vmin.toNat vmax.toNat (h.peer.addr.length == 16) = some v → s.ctl.sessions.countP (fun x => x.stall == 0) < 4 →
      ∃ u, Sys2Proof.Machine.exec (.hello h vmin vmax chans hnonce) s = .next u ∧
        u.ctl.sessions.dropLast = s.ctl.sessions ∧ u.ctl.sessions.length = s.ctl.sessions.length + 1 ∧
        (∀ x ∈ u.ctl.sessions.getLast?, x.number = s.ctl.nextSession ∧ x.stall = 0 ∧ x.version = v ∧ x.provisioning = true ∧ x.key = [] ∧
          x.peer = h.peer ∧ x.mgmtPort = h.port.val) ∧
        u.sent.length = s.sent.length + 1 ∧ u.b (A.stlEvt 0) 2 = true ∧
        Only [.ctl, .sent, .draws, .reg (A.stlEvt h.stall), rxOf h, txOf h.port] [.targets] s u) ∧
  -- An authenticated HELLO within no version of the device, or of a stall with four sessions open, is answered with one refusal and opens nothing (R282).
  (∀ (s : State) (h : IcpHead) (vmin vmax chans : BitVec 8) (hnonce : BitVec 128) (k : Bytes),
    s.on = true → icpComes s h 64 = true → (s.stalls[h.stall]).key = some k →
      beBytes 16 h.mac.toNat = icpMac k h.ver.toNat 1 h.stall h.flags.toNat h.session.toNat h.seq.toNat (helloBody vmin vmax chans hnonce) →
      (chooseVersion vmin.toNat vmax.toNat (h.peer.addr.length == 16) = none ∨ 4 ≤ s.ctl.sessions.countP (fun x => x.stall == h.stall.val)) →
      ∃ u, Sys2Proof.Machine.exec (.hello h vmin vmax chans hnonce) s = .next u ∧
        u.ctl = s.ctl ∧ u.sent.length = s.sent.length + 1 ∧ u.sent.drop 1 = s.sent ∧
        Only [.sent, .draws, rxOf h, txOf h.port] [] s u) ∧
  -- HELLO whose MAC is not right, or of a stall other than 0 without a key, is discarded: CNT_AUTH counts it and AUTH_FAIL is raised (R281).
  (∀ (s : State) (h : IcpHead) (vmin vmax chans : BitVec 8) (hnonce : BitVec 128) (k : Bytes),
    s.on = true → icpComes s h 64 = true → ((s.stalls[h.stall]).key = some k ∧ beBytes 16 h.mac.toNat ≠
        icpMac k h.ver.toNat 1 h.stall h.flags.toNat h.session.toNat h.seq.toNat (helloBody vmin vmax chans hnonce) ∨
        (s.stalls[h.stall]).key = none ∧ h.stall ≠ 0) →
      ∃ u, Sys2Proof.Machine.exec (.hello h vmin vmax chans hnonce) s = .next u ∧
        (u.rd A.ctlCntAuth).toNat = min 0xFFFFFFFF ((s.rd A.ctlCntAuth).toNat + 1) ∧ u.b A.ctlEvt 0 = true ∧
        Only [.reg A.ctlCntAuth, .reg A.ctlEvt, rxOf h] [] s u) ∧
  -- ICP_MESSAGE_REJECT (R280, R281): a message with another MAGIC, or whose BLEN is not its body's length, is malformed and counted in CNT_BADMSG; one of
  -- a session's types that fails authentication is counted in CNT_AUTH, with AUTH_FAIL raised; one that the device takes is for the command of its type,
  -- and only its frame is counted.
  (∀ (s : State) (h : IcpHead) (magic : BitVec 16) (type : BitVec 8) (blen : BitVec 16) (body : Bytes),
    s.on = true → icpComes s h (32 + body.length) = true → ∃ u, Sys2Proof.Machine.exec (.icpMessageReject h magic type blen body) s = .next u ∧
      ((magic ≠ 0x4943 ∨ blen.toNat ≠ body.length) → (u.rd A.ctlCntBadmsg).toNat = min 0xFFFFFFFF ((s.rd A.ctlCntBadmsg).toNat + 1) ∧
        Only [.reg A.ctlCntBadmsg, rxOf h] [] s u) ∧
      (magic = 0x4943 → blen.toNat = body.length → type ≠ 1 → s.authed h type.toNat body = none →
        (u.rd A.ctlCntAuth).toNat = min 0xFFFFFFFF ((s.rd A.ctlCntAuth).toNat + 1) ∧ u.b A.ctlEvt 0 = true ∧
        Only [.reg A.ctlCntAuth, .reg A.ctlEvt, rxOf h] [] s u) ∧
      (magic = 0x4943 → blen.toNat = body.length → (type = 1 ∨ (s.authed h type.toNat body).isSome = true) → Only [rxOf h] [] s u)) ∧
  -- A BYE, KEEPALIVE, REQ or BULK that fails authentication is discarded and counted in CNT_AUTH, and raises AUTH_FAIL (R281).
  (∀ (s : State) (h : IcpHead) (ops : List IcpOp) (data : Bytes) (k : Fin 6) (c : Instr) (n : Nat),
    s.on = true → icpKinds h ops data k = (c, n) → icpComes s h n = true →
      (k = 2 ∧ s.authed h 9 [] = none ∨ k = 3 ∧ s.authed h 10 [] = none ∨ k = 4 ∧ s.authed h 3 (ops.flatMap opBytes) = none ∨
        k = 5 ∧ s.authed h 8 (beBytes 4 1 ++ beBytes 4 0 ++ data) = none) →
      ∃ u, Sys2Proof.Machine.exec c s = .next u ∧
        (u.rd A.ctlCntAuth).toNat = min 0xFFFFFFFF ((s.rd A.ctlCntAuth).toNat + 1) ∧ u.b A.ctlEvt 0 = true ∧
        Only [.reg A.ctlCntAuth, .reg A.ctlEvt, rxOf h] [] s u) ∧
  -- BYE (R284): the session closes: it holds no channel any more, and SESS_CLOSED is raised; long operations go on.
  (∀ (s : State) (h : IcpHead) (x : Session),
    s.on = true → icpComes s h 32 = true → s.authed h 9 [] = some x →
      ∃ u, Sys2Proof.Machine.exec (.bye h) s = .next u ∧
        u.session? x.number = none ∧ u.ctl.sessions = s.ctl.sessions.filter (fun y => y.number != x.number) ∧ u.ctl.longOps = s.ctl.longOps ∧
        u.b (A.stlEvt x.stall) 3 = true ∧ Only [.ctl, .reg (A.stlEvt x.stall), rxOf h] [.targets] s u) ∧
  -- KEEPALIVE (R284, R345): the session stays open from this moment, for the sender's address, and its sleeping channels wake.
  (∀ (s : State) (h : IcpHead) (x : Session),
    s.on = true → icpComes s h 32 = true → s.authed h 10 [] = some x →
      ∃ u, Sys2Proof.Machine.exec (.keepalive h) s = .next u ∧
        ((u.session? x.number).map (fun y => (y.lastMsg, y.peer, y.mgmtPort))) = some (s.now, h.peer, h.port.val) ∧
        (∀ i ∈ bitsOf 2 x.chans, ∀ t ∈ fin? 20 (2 * x.stall + i), (u.targets[t]).asleep = false) ∧ u.sent = s.sent ∧
        Only [.ctl, rxOf h] [.targets, .regs 0x680000] s u) ∧
  -- SESSION_TIMEOUT (R284): a session with no authenticated message for CTL_SESS_TMO closes.
  (∀ (s : State) (n : BitVec 32) (x : Session),
    s.on = true → s.session? n.toNat = some x → x.lastMsg + ms (atLeast1 (s.f A.ctlSessTmo 15 0)) ≤ s.now →
      ∃ u, Sys2Proof.Machine.exec (.sessionTimeout n) s = .next u ∧
        u.session? x.number = none ∧ u.b (A.stlEvt x.stall) 3 = true ∧ Only [.ctl, .reg (A.stlEvt x.stall)] [.targets] s u) ∧
  -- SESSION_TIMEOUT of a session that is not open or has been heard within CTL_SESS_TMO, ACCESS_TIMEOUT with no access under way or none that old, and
  -- LATE_RESPONSE with none to come do nothing (R284, R305).
  (∀ (s : State) (n : BitVec 32),
    ((s.session? n.toNat).all (fun x => decide (s.now < x.lastMsg + ms (atLeast1 (s.f A.ctlSessTmo 15 0)))) = true → Sys2Proof.Machine.exec (.sessionTimeout n) s = .next s) ∧
    ((s.ctl.split.head?).all (fun e => decide (s.now < e.at_ + us (atLeast1 (s.f A.ctlAccTmo 15 0)))) = true → Sys2Proof.Machine.exec .accessTimeout s = .next s) ∧
    (s.ctl.late = [] → Sys2Proof.Machine.exec .lateResponse s = .next s)) ∧
  -- A message on a disabled management port is not heard; one not addressed to ICP goes with its frame and is counted as dropped; one longer than the
  -- port's limit, or not a multiple of four bytes, is counted in CTL_CNT_BADMSG (R216, R280, R281).
  (∀ (s : State) (h : IcpHead) (ops : List IcpOp) (data : Bytes) (k : Fin 6) (c : Instr) (n : Nat),
    icpKinds h ops data k = (c, n) →
      (s.b (A.ethCtl (2 + h.port)) 0 = false → Sys2Proof.Machine.exec c s = .next s) ∧
      (s.on = true → s.b (A.ethCtl (2 + h.port)) 0 = true → s.icpTakes h = false → ∃ u, Sys2Proof.Machine.exec c s = .next u ∧
        (u.rd (A.ethlCntRxDrop (2 + h.port) 0)).toNat = min 0xFFFFFFFF ((s.rd (A.ethlCntRxDrop (2 + h.port) 0)).toNat + 1) ∧
        Only [.reg (A.ethlCntRxDrop (2 + h.port) 0)] [] s u) ∧
      (s.on = true → s.b (A.ethCtl (2 + h.port)) 0 = true → s.icpTakes h = true → (s.icpLimit h.port h.peer < n ∨ n % 4 ≠ 0) → ∃ u, Sys2Proof.Machine.exec c s = .next u ∧
        (u.rd A.ctlCntBadmsg).toNat = min 0xFFFFFFFF ((s.rd A.ctlCntBadmsg).toNat + 1) ∧ Only [.reg A.ctlCntBadmsg, rxOf h] [] s u))

/-- Operations of a session act on registers and answer, a retransmission is answered again, and a lost access times out. Its clauses cite their rules. -/
def Obligations.SessionOperationsAnswerInOrder : Prop :=
  -- ICP_READ of one item (R287, R292): one that the session's stall may read answers OK, one item done, and the register's value: of a word, of a pair
  -- both words of one moment, of a smaller item its bytes of the word; the companions of what it reads latch, and nothing else changes.
  (∀ (s : State) (n : BitVec 32) (size : Fin 4) (t : Fin 8) (a : BitVec 32) (x : Session) (g : Nat) (r : RegRow),
    s.on = true → s.session? n.toNat = some x → 0x20 ≤ x.version → x.stall = t.val → s.globalAddr t a.toNat = some g →
      s.check x.provisioning t g (sizeBytes size) true false = 0 → rowOf (g / 4 * 4) = some r → plainReg (g / 4 * 4) r = true →
      s.instDefined (g / 4 * 4) = true →
      ∃ u, Sys2Proof.Machine.exec (.icpRead n size 0 a none) s = .next u ∧
        u.sent = .result 0 1 (beBytes (sizeBytes size) (if size = 3 then (s.readReg g).toNat + (s.peekReg (g + 4)).toNat * 2 ^ 32
          else (s.readReg (g / 4 * 4)).toNat / 2 ^ (8 * (g % 4)) % 2 ^ (8 * sizeBytes size))) :: s.sent ∧
        (2 ≤ size.val → ∀ c ∈ companions g, u.latch.lookup c = some (s.peekReg c)) ∧ Only [.sent, .latch] [] s u) ∧
  -- ICP_READ of several words answers their values in ascending order, and changes nothing (R287).
  (∀ (s : State) (n : BitVec 32) (count : Fin 256) (t : Fin 8) (a : BitVec 32) (x : Session) (g : Nat),
    s.on = true → s.session? n.toNat = some x → 0x20 ≤ x.version → x.stall = t.val → g % 4 = 0 →
      plainWords s x.provisioning t a.toNat g count = true →
      ∃ u, Sys2Proof.Machine.exec (.icpRead n 2 count a none) s = .next u ∧
        u.sent = .result 0 (count.val + 1) ((List.range (count.val + 1)).flatMap (fun j => beBytes 4 (s.readReg (g + 4 * j)).toNat)) :: s.sent ∧
        Only [.sent] [] s u) ∧
  -- An item that a check of R297 turns away answers the check's status with no item done, is counted by the Bridge, and changes nothing else, whether a
  -- READ, a WRITE or an RMW (R287, R297).
  (∀ (s : State) (n : BitVec 32) (size : Fin 4) (t : Fin 8) (a : BitVec 32) (v w : BitVec 64) (x : Session) (st : Nat),
    s.on = true → s.session? n.toNat = some x → 0x20 ≤ x.version → x.stall = t.val → st ≠ 0 →
      (accessStatus s x.provisioning t a.toNat (sizeBytes size) true false = st → ∃ u, Sys2Proof.Machine.exec (.icpRead n size 0 a none) s = .next u ∧
        u.sent = .result st 0 [] :: s.sent ∧ Only [.sent, .reg A.brgCntSize, .reg A.brgCntAlign, .reg A.brgCntPerm] [] s u) ∧
      (accessStatus s x.provisioning t a.toNat (sizeBytes size) false true = st → ∃ u, Sys2Proof.Machine.exec (.icpWrite n size [v] a none) s = .next u ∧
        u.sent = .result st 0 [] :: s.sent ∧ Only [.sent, .reg A.brgCntSize, .reg A.brgCntAlign, .reg A.brgCntPerm] [] s u) ∧
      (accessStatus s x.provisioning t a.toNat (sizeBytes size) true true = st → ∃ u, Sys2Proof.Machine.exec (.icpRmw n size a v w none) s = .next u ∧
        u.sent = .result st 0 [] :: s.sent ∧ Only [.sent, .reg A.brgCntSize, .reg A.brgCntAlign, .reg A.brgCntPerm] [] s u)) ∧
  -- Operations of a session that is not open do nothing; one that the session's version lacks, a 64-bit item below 2.0 or a LONG operation below 2.1,
  -- answers UNSUP and does nothing else (R287, Table 13.4).
  (∀ (s : State) (n q : BitVec 32) (size : Fin 4) (a : BitVec 32) (v w : BitVec 64) (x : Session),
    (s.session? n.toNat = none → Sys2Proof.Machine.exec (.icpRead n size 0 a none) s = .next s ∧ Sys2Proof.Machine.exec (.icpWrite n size [v] a none) s = .next s ∧
      Sys2Proof.Machine.exec (.icpRmw n size a v w none) s = .next s ∧ Sys2Proof.Machine.exec (.icpPwrite n q size [v] a .clean) s = .next s ∧ Sys2Proof.Machine.exec (.lakeReadOp n v a a) s = .next s ∧
      Sys2Proof.Machine.exec (.lakeWriteOp n v a a) s = .next s) ∧
    (s.on = true → s.session? n.toNat = some x → x.version < 0x20 → size = 3 →
      (∃ u, Sys2Proof.Machine.exec (.icpRead n size 0 a none) s = .next u ∧ u.sent = .result 7 0 [] :: s.sent ∧ Only [.sent] [] s u) ∧
      (∃ u, Sys2Proof.Machine.exec (.icpWrite n size [v] a none) s = .next u ∧ u.sent = .result 7 0 [] :: s.sent ∧ Only [.sent] [] s u) ∧
      (∃ u, Sys2Proof.Machine.exec (.icpRmw n size a v w none) s = .next u ∧ u.sent = .result 7 0 [] :: s.sent ∧ Only [.sent] [] s u) ∧
      (∃ u, Sys2Proof.Machine.exec (.lakeReadOp n v a a) s = .next u ∧ u.sent = .result 7 0 [] :: s.sent ∧ Only [.sent] [] s u) ∧
      (∃ u, Sys2Proof.Machine.exec (.lakeWriteOp n v a a) s = .next u ∧ u.sent = .result 7 0 [] :: s.sent ∧ Only [.sent] [] s u))) ∧
  -- ICP_WRITE (R287): a 32-bit item that the session's stall may write, to a register without an effect of its own, is written by its fields' codes, and
  -- answers OK, one item done.
  (∀ (s : State) (n : BitVec 32) (t : Fin 8) (a : BitVec 32) (v : BitVec 64) (x : Session) (g : Nat) (r : RegRow),
    s.on = true → s.session? n.toNat = some x → 0x10 ≤ x.version → x.stall = t.val → s.globalAddr t a.toNat = some g →
      s.check x.provisioning t g 4 false true = 0 → rowOf g = some r → r.rws = 0 → isCommit g = false → ownEffect g = false → isAperture g = false →
      s.instDefined g = true → s.seamBeyond g = false →
      ∃ u, Sys2Proof.Machine.exec (.icpWrite n 2 [v] a none) s = .next u ∧
        u.rd g = saturate g (writeByCodes r (s.rd g) (wd v.toNat)) ∧ u.sent = .result 0 1 [] :: s.sent ∧ Only [.reg g, .sent, .keep] [] s u) ∧
  -- ICP_WRITE to a staged register stages the value, and answers OK, one item done (R5, R287).
  (∀ (s : State) (n : BitVec 32) (t : Fin 8) (a : BitVec 32) (v : BitVec 64) (x : Session) (g : Nat) (r : RegRow),
    s.on = true → s.session? n.toNat = some x → 0x10 ≤ x.version → x.stall = t.val → s.globalAddr t a.toNat = some g →
      s.check x.provisioning t g 4 false true = 0 → rowOf g = some r → r.rws ≠ 0 → isCommit g = false → isAperture g = false →
      s.instDefined g = true → s.seamBeyond g = false →
      ∃ u, Sys2Proof.Machine.exec (.icpWrite n 2 [v] a none) s = .next u ∧
        u.shadow g = saturate g (wd ((wd v.toNat).toNat &&& r.rws)) ∧ u.sent = .result 0 1 [] :: s.sent ∧ Only [.staged, .sent] [] s u) ∧
  -- ICP_RMW (R287): the item takes (old AND NOT MASK) OR (VALUE AND MASK) by its fields' codes in one operation, and the old value is returned.
  (∀ (s : State) (n : BitVec 32) (t : Fin 8) (a : BitVec 32) (mask value : BitVec 64) (x : Session) (g : Nat) (r : RegRow),
    s.on = true → s.session? n.toNat = some x → 0x10 ≤ x.version → x.stall = t.val → s.globalAddr t a.toNat = some g →
      s.check x.provisioning t g 4 true true = 0 → s.check x.provisioning t g 4 false true = 0 → rowOf g = some r → plainReg g r = true → r.rws = 0 →
      isCommit g = false → ownEffect g = false → s.instDefined g = true → s.seamBeyond g = false →
      ∃ u, Sys2Proof.Machine.exec (.icpRmw n 2 a mask value none) s = .next u ∧
        u.rd g = saturate g (writeByCodes r (s.rd g) (wd (((s.readReg g).toNat &&& (0xFFFFFFFF ^^^ (mask.toNat % 2 ^ 32))) |||
          ((value.toNat % 2 ^ 32) &&& (mask.toNat % 2 ^ 32))))) ∧
        u.sent = .result 0 1 (beBytes 4 (s.readReg g).toNat) :: s.sent ∧ Only [.reg g, .sent, .keep, .latch] [] s u) ∧
  -- ICP_PWRITE (R288): a posted item that the stall may write is written, and nothing is answered.
  (∀ (s : State) (n q : BitVec 32) (t : Fin 8) (a : BitVec 32) (v : BitVec 64) (x : Session) (g : Nat) (r : RegRow),
    s.on = true → s.session? n.toNat = some x → 0x10 ≤ x.version → x.stall = t.val → s.globalAddr t a.toNat = some g →
      s.check x.provisioning t g 4 false true = 0 → rowOf g = some r → r.rws = 0 → isCommit g = false → ownEffect g = false → isAperture g = false →
      s.instDefined g = true → s.seamBeyond g = false →
      ∃ u, Sys2Proof.Machine.exec (.icpPwrite n q 2 [v] a .clean) s = .next u ∧
        u.rd g = saturate g (writeByCodes r (s.rd g) (wd v.toNat)) ∧ u.sent = s.sent ∧ Only [.reg g, .keep] [] s u) ∧
  -- A posted write that fails changes nothing but the Bridge's counts and the stall's log, which names code, address, SEQ and session, counts, and raises
  -- POST_ERR (R288, R306).
  (∀ (s : State) (n q : BitVec 32) (t : Fin 8) (a : BitVec 32) (v : BitVec 64) (x : Session) (g : Nat),
    s.on = true → s.session? n.toNat = some x → 0x10 ≤ x.version → x.stall = t.val → s.globalAddr t a.toNat = some g →
      s.check x.provisioning t g 4 false true ≠ 0 →
      ∃ u, Sys2Proof.Machine.exec (.icpPwrite n q 2 [v] a .clean) s = .next u ∧
        u.rd (A.stlPwlog t (s.f (A.stlPwlogPtr t) 3 0) 0) =
          wd (s.check x.provisioning t g 4 false true % 16 * 2 ^ 28 + t.val * 2 ^ 24 + a.toNat % 2 ^ 24) ∧
        u.rd (A.stlPwlog t (s.f (A.stlPwlogPtr t) 3 0) 1) = wd q.toNat ∧ u.rd (A.stlPwlog t (s.f (A.stlPwlogPtr t) 3 0) 2) = wd x.number ∧
        u.f (A.stlPwlogPtr t) 3 0 = (s.f (A.stlPwlogPtr t) 3 0 + 1) % 16 ∧
        (u.rd (A.stlPwlogCnt t)).toNat = min 0xFFFFFFFF ((s.rd (A.stlPwlogCnt t)).toNat + 1) ∧ u.b (A.stlEvt t) 1 = true ∧
        Only ([.reg A.brgCntSize, .reg A.brgCntAlign, .reg A.brgCntPerm, .reg (A.stlPwlogPtr t), .reg (A.stlPwlogCnt t), .reg (A.stlEvt t)] ++
          [0, 1, 2, 3].map (fun k => .reg (A.stlPwlog t (s.f (A.stlPwlogPtr t) 3 0) k))) [] s u) ∧
  -- REQ with no operations and a new SEQ (R283, R289): the session stays open and its channels wake; the RSP says OK with no results, and is kept for a
  -- retransmission.
  (∀ (s : State) (h : IcpHead) (x : Session),
    s.on = true → icpComes s h 32 = true → 36 ≤ s.icpLimit h.port h.peer → s.authed h 3 [] = some x → x.isFresh h.seq.toNat = true → bit (wd h.flags.toNat) 0 = false →
      s.session? x.number = some x →
      ∃ u, Sys2Proof.Machine.exec (.req h [] none) s = .next u ∧
        u.sent = rspOut x h (rspBody 0 0 []) :: s.sent ∧
        ((u.session? x.number).map (fun y => (y.lastSeq, y.lastMsg, (y.cache.head?).map (·.1)))) = some (some h.seq.toNat, s.now, some h.seq.toNat) ∧
        Only [.ctl, .sent, rxOf h, txOf h.port] [.targets, .regs 0x680000] s u) ∧
  -- A REQ whose SEQ is not new is answered from the cache, or else with STALE and counted (R283).
  (∀ (s : State) (h : IcpHead) (x : Session),
    s.on = true → icpComes s h 32 = true → 36 ≤ s.icpLimit h.port h.peer → s.authed h 3 [] = some x → x.isFresh h.seq.toNat = false → bit (wd h.flags.toNat) 0 = false →
      s.session? x.number = some x →
      ∃ u, Sys2Proof.Machine.exec (.req h [] none) s = .next u ∧
        (∀ m ∈ x.cache.lookup h.seq.toNat, u.sent = .icp h.port h.peer m :: s.sent) ∧
        (x.cache.lookup h.seq.toNat = none → u.sent = rspOut { x with peer := h.peer } h (rspBody 1 0 []) :: s.sent ∧
          (u.rd A.ctlCntReplay).toNat = min 0xFFFFFFFF ((s.rd A.ctlCntReplay).toNat + 1)) ∧
        ((u.session? x.number).map (·.lastSeq)) = some x.lastSeq ∧ Only [.ctl, .sent, .reg A.ctlCntReplay, rxOf h, txOf h.port] [.targets, .regs 0x680000] s u) ∧
  -- A REQ of one READ answers with its result in the RSP (R287, R289): the item's status, one item done, and the value.
  (∀ (s : State) (h : IcpHead) (a : BitVec 32) (ops : List IcpOp) (x : Session) (g : Nat) (r : RegRow),
    s.on = true → ops = [{ op := 1, size := 2, count := 1, addr := a }] → icpComes s h (32 + (ops.flatMap opBytes).length) = true → s.authed h 3 (ops.flatMap opBytes) = some x → s.session? x.number = some x →
      44 ≤ s.icpLimit h.port h.peer → x.isFresh h.seq.toNat = true → bit (wd h.flags.toNat) 0 = false → x.stall = h.stall.val → 0x10 ≤ x.version →
      (∀ i ∈ bitsOf 2 x.chans, ∀ t ∈ fin? 20 (2 * x.stall + i), (s.targets[t]).asleep = false) →
      s.globalAddr h.stall a.toNat = some g → s.check x.provisioning h.stall g 4 true false = 0 → rowOf g = some r → plainReg g r = true →
      companions g = [] → s.instDefined g = true → g ≠ A.ethlCntRx (2 + h.port) 0 →
      ∃ u, Sys2Proof.Machine.exec (.req h ops none) s = .next u ∧
        u.sent = rspOut x h (rspBody 0 1 (resultBytes 0 1 (beBytes 4 (s.readReg g).toNat))) :: s.sent ∧
        ((u.session? x.number).map (·.lastSeq)) = some (some h.seq.toNat) ∧ Only [.ctl, .sent, rxOf h, txOf h.port] [] s u) ∧
  -- An operation that fails answers its status; under STOP_ON_ERR, of a session of at least 1.3, every later one answers SKIPPED, and without it each runs
  -- (R287, R289).
  (∀ (s : State) (h : IcpHead) (a : BitVec 32) (ops : List IcpOp) (x : Session),
    s.on = true → ops = [{ op := 1, size := 2, count := 1, addr := a }, { op := 1, size := 2, count := 1, addr := a }] → icpComes s h (32 + (ops.flatMap opBytes).length) = true → s.authed h 3 (ops.flatMap opBytes) = some x → s.session? x.number = some x →
      52 ≤ s.icpLimit h.port h.peer → x.isFresh h.seq.toNat = true → bit (wd h.flags.toNat) 0 = false → x.stall = h.stall.val → 0x20 ≤ x.version →
      s.globalAddr h.stall a.toNat = none →
      ∃ u, Sys2Proof.Machine.exec (.req h ops none) s = .next u ∧
        u.sent = rspOut x h (rspBody 0 2 (resultBytes 2 0 [] ++ resultBytes (if bit (wd h.flags.toNat) 1 then 10 else 2) 0 [])) :: s.sent ∧
        Only [.ctl, .sent, rxOf h, txOf h.port, .reg A.brgCntPerm] [.targets, .regs 0x680000] s u) ∧
  -- A REQ whose results might not fit the port's limit is answered TOO_LARGE, and none of its operations runs (R290).
  (∀ (s : State) (h : IcpHead) (ops : List IcpOp) (x : Session),
    s.on = true → ops.all opGood = true → icpComes s h (32 + (ops.flatMap opBytes).length) = true → s.authed h 3 (ops.flatMap opBytes) = some x → s.session? x.number = some x →
      s.icpLimit h.port h.peer < 36 + (ops.map resultMax).foldl (· + ·) 0 → x.isFresh h.seq.toNat = true → bit (wd h.flags.toNat) 0 = false →
      ∃ u, Sys2Proof.Machine.exec (.req h ops none) s = .next u ∧
        u.sent = rspOut x h (rspBody 2 0 []) :: s.sent ∧ Only [.ctl, .sent, rxOf h, txOf h.port] [.targets, .regs 0x680000] s u) ∧
  -- A posted REQ writes its items and is not answered (R288).
  (∀ (s : State) (h : IcpHead) (a v : BitVec 32) (ops : List IcpOp) (x : Session) (g : Nat) (r : RegRow),
    s.on = true → ops = [{ op := 4, size := 2, count := 1, addr := a, payload := beBytes 4 v.toNat }] → icpComes s h (32 + (ops.flatMap opBytes).length) = true → s.authed h 3 (ops.flatMap opBytes) = some x → s.session? x.number = some x →
      x.isFresh h.seq.toNat = true → bit (wd h.flags.toNat) 0 = true → x.stall = h.stall.val → 0x10 ≤ x.version →
      (∀ i ∈ bitsOf 2 x.chans, ∀ t ∈ fin? 20 (2 * x.stall + i), (s.targets[t]).asleep = false) →
      s.globalAddr h.stall a.toNat = some g → s.check x.provisioning h.stall g 4 false true = 0 → rowOf g = some r → r.rws = 0 → isCommit g = false →
      ownEffect g = false → isAperture g = false → s.instDefined g = true → s.seamBeyond g = false → g ≠ A.ethlCntRx (2 + h.port) 0 →
      ∃ u, Sys2Proof.Machine.exec (.req h ops none) s = .next u ∧
        u.rd g = saturate g (writeByCodes r (s.rd g) v) ∧ u.sent = s.sent ∧ Only [.ctl, .reg g, .keep, rxOf h] [] s u) ∧
  -- An authenticated REQ with an operation outside Table 13.5, or a posted one with another operation than PWRITE, is malformed: it is counted and none of
  -- its operations runs (R281, R287, R288).
  (∀ (s : State) (h : IcpHead) (ops : List IcpOp) (x : Session),
    s.on = true → icpComes s h (32 + (ops.flatMap opBytes).length) = true → s.authed h 3 (ops.flatMap opBytes) = some x → s.session? x.number = some x →
      (ops.all opGood = false ∨ bit (wd h.flags.toNat) 0 = true ∧ ops.all (fun o => o.op == 4) = false) →
      ∃ u, Sys2Proof.Machine.exec (.req h ops none) s = .next u ∧
        (u.rd A.ctlCntBadmsg).toNat = min 0xFFFFFFFF ((s.rd A.ctlCntBadmsg).toNat + 1) ∧ u.sent = s.sent ∧
        Only [.ctl, rxOf h, .reg A.ctlCntBadmsg] [.targets, .regs 0x680000] s u) ∧
  -- ACCESS_TIMEOUT (R305): the oldest access to the data fabric with no response for CTL_ACC_TMO answers TIMEOUT; it is counted and raised, its response
  -- is still to come, and the oldest of those that wait outside the 32 is issued.
  (∀ (s : State) (e : Split) (rest : List Split),
    s.on = true → s.ctl.split = e :: rest → e.waits = .read → e.at_ + us (atLeast1 (s.f A.ctlAccTmo 15 0)) ≤ s.now →
      ∃ u, Sys2Proof.Machine.exec .accessTimeout s = .next u ∧
        u.sent = .value 6 0 :: s.sent ∧ u.ctl.late = s.ctl.late ++ [e.stall.val] ∧
        u.ctl.split = rest.take 31 ++ ((rest.drop 31).take 1).map (fun x => { x with at_ := s.now }) ++ rest.drop 32 ∧
        (u.rd A.brgCntTmo).toNat = min 0xFFFFFFFF ((s.rd A.brgCntTmo).toNat + 1) ∧ u.b A.brgEvt 0 = true ∧
        Only [.ctl, .sent, .reg A.brgCntTmo, .reg A.brgEvt] [] s u) ∧
  -- ICP_READ of an item in the aperture that the fabric has not answered is held, and answers nothing yet (R305).
  (∀ (s : State) (n : BitVec 32) (size : Fin 4) (a : BitVec 32) (o : IcpOp) (x : Session),
    s.on = true → 2 ≤ size.val → s.session? n.toNat = some x → x.stall = 0 → 0x20 ≤ x.version → x.provisioning = false →
      0x5D0000 ≤ a.toNat → a.toNat < 0x5D4000 → a.toNat % 8 = 0 → s.apValid 0 false = true → s.check false 0 a.toNat (2 ^ size.val) true false = 0 →
      o = { op := 1, size := BitVec.ofNat 8 size.val, count := 1, addr := a } →
      ∃ u, Sys2Proof.Machine.exec (.icpRead n size 0 a none) s = .next u ∧
        u.ctl = { s.ctl with
          split := s.ctl.split ++ [{ stall := 0, ofs := a.toNat % 0x4000, wide := size == 3, at_ := s.now, waits := .op n.toNat o }] } ∧ Only [.ctl] [] s u) ∧
  -- An operation of a session that waits for a held access answers TIMEOUT, with no item done, when the access does (R305).
  (∀ (s : State) (n : BitVec 32) (o : IcpOp) (x : Session) (e : Split),
    s.on = true → o.op = 1 → o.count = 1 → (o.size = 2 ∨ o.size = 3) → s.session? n.toNat = some x → x.stall = 0 → 0x20 ≤ x.version → x.provisioning = false →
      0x5D0000 ≤ o.addr.toNat → o.addr.toNat < 0x5D4000 → o.addr.toNat % 8 = 0 → s.apValid 0 false = true → s.check false 0 o.addr.toNat (2 ^ o.size.toNat) true false = 0 →
      s.ctl.split.head? = some e → e.waits = .op n.toNat o → e.at_ + us (atLeast1 (s.f A.ctlAccTmo 15 0)) ≤ s.now →
      ∃ u, Sys2Proof.Machine.exec .accessTimeout s = .next u ∧
        u.sent = .result 6 0 [] :: s.sent ∧ u.ctl.split.length = s.ctl.split.length - 1 ∧ u.ctl.late = s.ctl.late ++ [0] ∧
        (u.rd A.brgCntTmo).toNat = min 0xFFFFFFFF ((s.rd A.brgCntTmo).toNat + 1) ∧ u.b A.brgEvt 0 = true ∧
        Only [.ctl, .sent, .reg A.brgCntTmo, .reg A.brgEvt] [] s u) ∧
  -- LATE_RESPONSE (R305): a response after its timeout is discarded and counted.
  (∀ (s : State),
    s.on = true → s.ctl.late ≠ [] →
      ∃ u, Sys2Proof.Machine.exec .lateResponse s = .next u ∧
        u.ctl = { s.ctl with late := s.ctl.late.drop 1 } ∧ (u.rd A.brgCntLate).toNat = min 0xFFFFFFFF ((s.rd A.brgCntLate).toNat + 1) ∧
        Only [.ctl, .reg A.brgCntLate] [] s u)

/-- Long operations move ranges of the Lake within the stall's aperture and end with a completion item. Its clauses cite their rules. -/
def Obligations.LongOperationsMoveTheLake : Prop :=
  -- LAKE_READ_OP (R294, R295): a 64-aligned range that the stall's aperture may read starts an operation with the next OPID, which is returned; it takes a
  -- completion slot.
  (∀ (s : State) (n : BitVec 32) (lake : BitVec 64) (len tag : BitVec 32) (t : Fin 8) (x : Session),
    s.on = true → s.session? n.toNat = some x → 0x21 ≤ x.version → x.stall = t.val → x.provisioning = false → lake.toNat % 64 = 0 → len.toNat % 64 = 0 →
      64 ≤ len.toNat → len.toNat ≤ 16777216 → s.lakeAllowed (.aperture t) false lake.toNat len.toNat = true → (s.stalls[t]).taken < 16 →
      let op : LongOp := {
        opid := s.ctl.nextOpid, stall := t.val, session := x.number, write := false, lake := lake.toNat, len := len.toNat,
        tag := tag.toNat, sent := 0, missing := [], lastBulk := s.now, via := x }
      ∃ u, Sys2Proof.Machine.exec (.lakeReadOp n lake len tag) s = .next u ∧
        u.sent = .result 0 1 (beBytes 4 s.ctl.nextOpid) :: s.sent ∧ u.ctl.nextOpid = (s.ctl.nextOpid + 1) % 2 ^ 32 ∧
        u.ctl.longOps = s.ctl.longOps ++ [op] ∧
        (u.stalls[t]).taken = (s.stalls[t]).taken + 1 ∧ Only [.ctl, .stall t, .sent] [] s u) ∧
  -- LAKE_WRITE_OP (R294, R295): a 64-aligned range that the stall's aperture may write starts an operation whose bytes are all still to come.
  (∀ (s : State) (n : BitVec 32) (lake : BitVec 64) (len tag : BitVec 32) (t : Fin 8) (x : Session),
    s.on = true → s.session? n.toNat = some x → 0x21 ≤ x.version → x.stall = t.val → x.provisioning = false → lake.toNat % 64 = 0 → len.toNat % 64 = 0 →
      64 ≤ len.toNat → len.toNat ≤ 16777216 → s.lakeAllowed (.aperture t) true lake.toNat len.toNat = true → (s.stalls[t]).taken < 16 →
      let op : LongOp := {
        opid := s.ctl.nextOpid, stall := t.val, session := x.number, write := true, lake := lake.toNat, len := len.toNat,
        tag := tag.toNat, sent := 0, missing := [(0, len.toNat)], lastBulk := s.now, via := x }
      ∃ u, Sys2Proof.Machine.exec (.lakeWriteOp n lake len tag) s = .next u ∧
        u.sent = .result 0 1 (beBytes 4 s.ctl.nextOpid) :: s.sent ∧ u.ctl.nextOpid = (s.ctl.nextOpid + 1) % 2 ^ 32 ∧
        u.ctl.longOps = s.ctl.longOps ++ [op] ∧
        (u.stalls[t]).taken = (s.stalls[t]).taken + 1 ∧ Only [.ctl, .stall t, .sent] [] s u) ∧
  -- A range outside what the stall may reach, or any range of a provisioning session, answers PERM, and with no completion slot free BUSY; nothing starts
  -- (R285, R294, R295).
  (∀ (s : State) (n : BitVec 32) (lake : BitVec 64) (len tag : BitVec 32) (w : Bool) (t : Fin 8) (x : Session),
    s.on = true → s.session? n.toNat = some x → 0x21 ≤ x.version → x.stall = t.val → lake.toNat % 64 = 0 → len.toNat % 64 = 0 →
      64 ≤ len.toNat → len.toNat ≤ 16777216 →
      (x.provisioning = true ∨ s.lakeAllowed (.aperture t) w lake.toNat len.toNat = false ∨ 16 ≤ (s.stalls[t]).taken) →
      ∃ u, Sys2Proof.Machine.exec (if w then .lakeWriteOp n lake len tag else .lakeReadOp n lake len tag) s = .next u ∧
        u.sent = .result (if x.provisioning || !s.lakeAllowed (.aperture t) w lake.toNat len.toNat then 2 else 8) 0 [] :: s.sent ∧
        Only [.sent] [] s u) ∧
  -- A range that is no whole number of codewords, or longer than 16 MiB or empty, starts nothing: the operation fails with one status of Table 13.6, which
  -- the specification does not name (R294).
  (∀ (s : State) (n : BitVec 32) (lake : BitVec 64) (len tag : BitVec 32) (w : Bool) (t : Fin 8) (x : Session),
    s.on = true → s.session? n.toNat = some x → 0x21 ≤ x.version → x.stall = t.val →
      (lake.toNat % 64 ≠ 0 ∨ len.toNat < 64 ∨ 16777216 < len.toNat ∨ len.toNat % 64 ≠ 0) →
      ∃ u, Sys2Proof.Machine.exec (if w then .lakeWriteOp n lake len tag else .lakeReadOp n lake len tag) s = .next u ∧
        (∃ k : Fin 10, u.sent = .result (k.val + 1) 0 [] :: s.sent) ∧ Only [.sent, .draws] [] s u) ∧
  -- BULK_SEND (R280, R294): the next bytes of a LAKE_READ, at most 8,192 and within the port's limit, go out in one message of its session, with the
  -- operation's number and their offset; the Lake's bytes stand, and codewords corrected on the way are counted.
  (∀ (s : State) (opid : BitVec 32) (ecc : List (Nat × Ecc)) (x : LongOp) (y : Session) (n : Nat) (body : Bytes),
    s.on = true → s.longOp? opid.toNat = some x → x.write = false → x.sent < x.len → s.session? x.session = some y →
      bulkLen s x y = n → badWithin (x.lake + x.sent) n ecc = false →
      beBytes 4 x.opid ++ beBytes 4 x.sent ++ s.lakeRead (x.lake + x.sent) n = body →
      ∃ u, Sys2Proof.Machine.exec (.bulkSend opid ecc) s = .next u ∧
        u.sent.head? = some (.icp y.mgmtPort y.peer (icpBytes y.version 8 y.stall 0 y.number y.devSeq (if y.provisioning then zero16
          else icpMac y.key y.version 8 y.stall 0 y.number y.devSeq body) body)) ∧
        ((u.longOp? opid.toNat).map (·.sent)) = some (x.sent + n) ∧
        ((u.session? x.session).map (·.devSeq)) = some ((y.devSeq + 1) % 2 ^ 32) ∧
        (ecc = [] → u.sent.drop 1 = s.sent ∧ Only [.ctl, .sent, txOf y.mgmtPort] [] s u) ∧
        Only [.ctl, .sent, .lakeCtl, txOf y.mgmtPort] [.regs 0x5C0000] s u) ∧
  -- An uncorrectable error among those bytes ends the operation with code DATA and posts its item, and nothing is sent (R294, Table 13.9).
  (∀ (s : State) (opid : BitVec 32) (ecc : List (Nat × Ecc)) (x : LongOp) (y : Session) (t : Fin 8),
    s.on = true → s.longOp? opid.toNat = some x → x.write = false → x.sent < x.len → x.stall = t.val → s.session? x.session = some y →
      badWithin (x.lake + x.sent) (bulkLen s x y) ecc = true →
      ∃ u, Sys2Proof.Machine.exec (.bulkSend opid ecc) s = .next u ∧
        u.longOp? opid.toNat = none ∧ u.sent.all (fun o => match o with | .icp _ _ _ => s.sent.contains o | _ => true) = true ∧
        cplSetsOut s u t { w0 := wd (2 ^ 28 + 2 * 2 ^ 24 + x.opid % 65536), w1 := wd x.tag, w2 := wd x.sent, w3 := s.rd A.leRoundLo } ∧
        u.b A.lakeEvt 1 = true ∧ Only [.ctl, .lakeCtl, .netPond 20, .draws, .sent, .reg (A.pndpPeak 84)] [.regs 0x5C0000] s u) ∧
  -- BULK_SEND of an operation that does not exist, writes, or has sent all does nothing, nor does LONG_OP_DONE before every byte has moved, or
  -- LONG_OP_TIMEOUT of an operation that reads, lacks nothing or has had a BULK within CTL_LONG_TMO (R294).
  (∀ (s : State) (opid : BitVec 32) (ecc : List (Nat × Ecc)),
    (s.longOp? opid.toNat = none → Sys2Proof.Machine.exec (.bulkSend opid ecc) s = .next s ∧ Sys2Proof.Machine.exec (.longOpDone opid) s = .next s ∧ Sys2Proof.Machine.exec (.longOpTimeout opid) s = .next s) ∧
    (∀ x ∈ s.longOp? opid.toNat, (x.write = true ∨ x.len ≤ x.sent → Sys2Proof.Machine.exec (.bulkSend opid ecc) s = .next s) ∧
      ((if x.write then x.missing ≠ [] else x.sent < x.len) → Sys2Proof.Machine.exec (.longOpDone opid) s = .next s) ∧
      (x.write = false ∨ x.missing = [] ∨ s.now < x.lastBulk + ms (atLeast1 (s.f A.ctlLongTmo 15 0)) → Sys2Proof.Machine.exec (.longOpTimeout opid) s = .next s))) ∧
  -- BULK_RECEIVE (R294): an authenticated BULK of a LAKE_WRITE of its stall, inside its range, is written as it arrives, and no longer missing; codewords
  -- that it covers in part are corrected first.
  (∀ (s : State) (h : IcpHead) (opid offset : BitVec 32) (data : Bytes) (ecc : List (Nat × Ecc)) (x : Session) (op : LongOp),
    s.on = true → icpComes s h (40 + data.length) = true → s.authed h 8 (beBytes 4 opid.toNat ++ beBytes 4 offset.toNat ++ data) = some x →
      x.provisioning = false → s.longOp? opid.toNat = some op →
      op.write = true → op.stall = x.stall → offset.toNat + data.length ≤ op.len → ecc.all (fun e => e.2 != .bad) = true →
      ∃ u, Sys2Proof.Machine.exec (.bulkReceive h opid offset data ecc) s = .next u ∧
        u.lakeRead (op.lake + offset.toNat) data.length = data ∧
        ((u.longOp? opid.toNat).map (fun y => (y.missing, y.lastBulk))) = some (coverRange offset.toNat data.length op.missing, s.now) ∧
        ((u.session? x.number).map (·.lastMsg)) = (s.session? x.number).map (fun _ => s.now) ∧
        (ecc = [] → Only (.ctl :: rxOf h :: (List.range data.length).map (fun i => .byte (op.lake + offset.toNat + i))) [] s u) ∧
        Only (.ctl :: rxOf h :: .lakeCtl :: .sent :: (List.range data.length).map (fun i => .byte (op.lake + offset.toNat + i))) [.regs 0x5C0000] s u) ∧
  -- A BULK that begins inside a codeword that cannot be corrected leaves that codeword as it is and writes the others; the failure is in the stall's
  -- posted-error log, with the codeword's address, and raises POST_ERR and the Lake's UE (R249, R294, R306).
  (∀ (s : State) (h : IcpHead) (opid offset : BitVec 32) (data : Bytes) (x : Session) (op : LongOp) (a : Nat) (t : Fin 8),
    s.on = true → icpComes s h (40 + data.length) = true → s.authed h 8 (beBytes 4 opid.toNat ++ beBytes 4 offset.toNat ++ data) = some x →
      x.provisioning = false → s.longOp? opid.toNat = some op →
      op.write = true → op.stall = x.stall → op.stall = t.val → offset.toNat + data.length ≤ op.len → op.lake + offset.toNat = a → a % 64 ≠ 0 →
      data.length ≠ 0 →
      ∃ u, Sys2Proof.Machine.exec (.bulkReceive h opid offset data [(0, .bad)]) s = .next u ∧
        u.lakeRead (a / 64 * 64) 64 = s.lakeRead (a / 64 * 64) 64 ∧
        u.lakeRead (a / 64 * 64 + 64) (data.length - (64 - a % 64)) = data.drop (64 - a % 64) ∧
        u.rd (A.stlPwlog t (s.f (A.stlPwlogPtr t) 3 0) 0) = wd (5 * 2 ^ 28 + t.val * 2 ^ 24 + a / 64 * 64 % 2 ^ 24) ∧
        u.rd (A.stlPwlog t (s.f (A.stlPwlogPtr t) 3 0) 1) = wd h.seq.toNat ∧
        (u.rd (A.stlPwlogCnt t)).toNat = min 0xFFFFFFFF ((s.rd (A.stlPwlogCnt t)).toNat + 1) ∧ u.b (A.stlEvt t) 1 = true ∧
        u.b A.lakeEvt 1 = true ∧
        ((u.longOp? opid.toNat).map (·.missing)) = some (coverRange offset.toNat data.length op.missing) ∧
        Only (.ctl :: rxOf h :: .lakeCtl :: .sent :: (List.range data.length).map (fun i => .byte (a + i))) [.regs 0x5C0000, .regs 0x640000] s u) ∧
  -- An authenticated BULK that names no LAKE_WRITE of its stall, or bytes beyond it, is malformed: it is counted and writes nothing; the session stays
  -- open (R281, R284, R294).
  (∀ (s : State) (h : IcpHead) (opid offset : BitVec 32) (data : Bytes) (x : Session),
    s.on = true → icpComes s h (40 + data.length) = true → s.authed h 8 (beBytes 4 opid.toNat ++ beBytes 4 offset.toNat ++ data) = some x →
      (s.longOp? opid.toNat).all (fun op => !op.write || op.stall != x.stall || decide (op.len < offset.toNat + data.length)) = true →
      ∃ u, Sys2Proof.Machine.exec (.bulkReceive h opid offset data []) s = .next u ∧
        (u.rd A.ctlCntBadmsg).toNat = min 0xFFFFFFFF ((s.rd A.ctlCntBadmsg).toNat + 1) ∧ u.ctl.longOps = s.ctl.longOps ∧
        ((u.session? x.number).map (·.lastMsg)) = (s.session? x.number).map (fun _ => s.now) ∧ Only [.ctl, .reg A.ctlCntBadmsg, rxOf h] [] s u) ∧
  -- LONG_OP_DONE (R294, R295): an operation whose every byte has moved ends, and a completion item that says OK and how many bytes moved sets out for its
  -- stall.
  (∀ (s : State) (opid : BitVec 32) (x : LongOp) (t : Fin 8),
    s.on = true → s.longOp? opid.toNat = some x → x.stall = t.val → (if x.write then x.missing = [] else x.len ≤ x.sent) →
      ∃ u, Sys2Proof.Machine.exec (.longOpDone opid) s = .next u ∧
        u.longOp? opid.toNat = none ∧
        cplSetsOut s u t { w0 := wd (2 ^ 28 + x.opid % 65536), w1 := wd x.tag, w2 := wd (if x.write then x.len else x.sent), w3 := s.rd A.leRoundLo } ∧
        Only [.ctl, .netPond 20, .draws, .reg (A.pndpPeak 84)] [] s u) ∧
  -- LONG_OP_TIMEOUT (R294): a LAKE_WRITE that lacks bytes and has had no BULK for CTL_LONG_TMO ends with TIMEOUT.
  (∀ (s : State) (opid : BitVec 32) (x : LongOp) (t : Fin 8),
    s.on = true → s.longOp? opid.toNat = some x → x.stall = t.val → x.write = true → x.missing ≠ [] →
      x.lastBulk + ms (atLeast1 (s.f A.ctlLongTmo 15 0)) ≤ s.now →
      ∃ u, Sys2Proof.Machine.exec (.longOpTimeout opid) s = .next u ∧
        u.longOp? opid.toNat = none ∧
        cplSetsOut s u t { w0 := wd (2 ^ 28 + 3 * 2 ^ 24 + x.opid % 65536), w1 := wd x.tag, w2 := wd (x.len - missingBytes x.missing), w3 := s.rd A.leRoundLo } ∧
        Only [.ctl, .netPond 20, .draws, .reg (A.pndpPeak 84)] [] s u)

/-- A stall's key is installed and erased, its reset empties what is the stall's, and its completion queue is read in order. Its clauses cite their rules. -/
def Obligations.StallKeysAndResets : Prop :=
  -- STALL_KEY_INSTALL (R286): the staged key, words that nothing has staged being 0, is on its way to the retained store, INSTALL stands, and the key in
  -- force stays.
  (∀ (s : State) (t : Fin 8),
    s.on = true →
      ∃ u, Sys2Proof.Machine.exec (.stallKeyInstall t) s = .next u ∧
        (u.stalls[t]).installing = some ((List.range 8).flatMap (fun i => beBytes 4 ((s.stalls[t]).keyStage.getD i 0#32).toNat)) ∧
        (u.stalls[t]).key = (s.stalls[t]).key ∧ u.b (A.stlKeyCmd t) 0 = true ∧
        Only [.stall t, .reg (A.stlKeyCmd t)] [] s u) ∧
  -- STALL_KEY_STORED (R286): the key governs later HELLOs, INSTALL clears and KEY_INSTALLED is raised; for a stall other than 0 every session stays open.
  (∀ (s : State) (t : Fin 8) (k : Bytes),
    s.on = true → (s.stalls[t]).installing = some k →
      ∃ u, Sys2Proof.Machine.exec (.stallKeyStored t) s = .next u ∧
        u.stalls[t] = { s.stalls[t] with key := some k, installing := none } ∧ u.b (A.stlKeyCmd t) 0 = false ∧
        u.b A.ctlEvt 1 = true ∧ u.keep.recs ≠ s.keep.recs ∧ (t ≠ 0 → u.ctl = s.ctl) ∧
        (t = 0 → ∀ x ∈ u.ctl.sessions, x.provisioning = false) ∧
        Only [.stall t, .reg (A.stlKeyCmd t), .reg A.ctlEvt, .keep, .draws, .reg A.keepCntCommit, .ctl] [.targets] s u) ∧
  -- STALL_KEY_STORED with no key on its way, and STALL_RESET_DONE with no reset under way, do nothing (R286, R308).
  (∀ (s : State) (t : Fin 8),
    ((s.stalls[t]).installing = none → Sys2Proof.Machine.exec (.stallKeyStored t) s = .next s) ∧ ((s.stalls[t]).resetSince = none → Sys2Proof.Machine.exec (.stallResetDone t) s = .next s)) ∧
  -- STALL_KEY_ERASE (R286): the stall's key is gone, and the retained store is committed.
  (∀ (s : State) (t : Fin 8),
    s.on = true →
      ∃ u, Sys2Proof.Machine.exec (.stallKeyErase t) s = .next u ∧
        u.stalls[t] = { s.stalls[t] with key := none, installing := none } ∧ u.b (A.stlKeyCmd t) 0 = false ∧ u.keep.busy = true ∧
        Only [.stall t, .reg (A.stlKeyCmd t), .keep] [] s u) ∧
  -- STALL_RESET (R308): the stall's sessions are closed and its long operations dropped, its completion queue and its posted-error log are empty, its
  -- channels are awake, and STALL stands until the reset is complete; other stalls, the groups and the engine stay.
  (∀ (s : State) (t : Fin 8),
    s.on = true →
      ∃ u, Sys2Proof.Machine.exec (.stallReset t) s = .next u ∧
        u.ctl.sessions = s.ctl.sessions.filter (fun x => x.stall != t.val) ∧ u.ctl.longOps = s.ctl.longOps.filter (fun x => x.stall != t.val) ∧
        (u.stalls[t]).cpl = [] ∧ (u.stalls[t]).key = (s.stalls[t]).key ∧ (u.stalls[t]).resetSince = some s.now ∧
        (u.rd (A.stlPwlogPtr t)).toNat = 0 ∧ (∀ e : Fin 16, ∀ k : Fin 4, (u.rd (A.stlPwlog t e k)).toNat = 0) ∧
        (∀ c : Fin 20, c.val / 2 = t.val → (u.targets[c]).asleep = false ∧ u.rd (A.evctCtl c) = 0#32) ∧ u.b (A.stlReset t) 0 = true ∧
        Only [.stall t, .commits, .ctl, .draws, .staged, .releases]
          [.regs 0x480000, .regs 0x500000, .regs 0x620000, .regs 0x640000, .regs 0x680000, .crcs, .streams, .sources, .targets, .transports, .readPtrs] s u) ∧
  -- STALL_RESET_DONE (R308): STALL clears.
  (∀ (s : State) (t : Fin 8),
    s.on = true → (s.stalls[t]).resetSince ≠ none →
      ∃ u, Sys2Proof.Machine.exec (.stallResetDone t) s = .next u ∧
        u.b (A.stlReset t) 0 = false ∧ u.stalls[t] = { s.stalls[t] with resetSince := none } ∧
        Only [.stall t, .reg (A.stlReset t)] [] s u) ∧
  -- COMPLETION_READ (R296): the oldest item leaves; its first word is answered and the other three are latched.
  (∀ (s : State) (t : Fin 8) (i : CplItem) (rest : List CplItem),
    s.on = true → (s.stalls[t]).cpl = i :: rest →
      ∃ u, Sys2Proof.Machine.exec (.completionRead t) s = .next u ∧
        u.sent = .value 0 i.w0.toNat :: s.sent ∧ (u.stalls[t]).cpl = rest ∧ (u.stalls[t]).taken = (s.stalls[t]).taken - 1 ∧
        u.rd (A.stlCpl1 t 0) = i.w1 ∧ u.rd (A.stlCpl1 t 1) = i.w2 ∧ u.rd (A.stlCpl1 t 2) = i.w3 ∧
        Only [.stall t, .sent, .reg (A.stlCpl1 t 0), .reg (A.stlCpl1 t 1), .reg (A.stlCpl1 t 2)] [] s u) ∧
  -- A read of an empty completion queue answers 0 and removes nothing (R296).
  (∀ (s : State) (t : Fin 8),
    s.on = true → (s.stalls[t]).cpl = [] → ∃ u, Sys2Proof.Machine.exec (.completionRead t) s = .next u ∧ u.sent = .value 0 0 :: s.sent ∧ Only [.sent] [] s u)

/-- A check-value unit feeds bytes through its polynomial, from writes and from the Lake. Its clauses cite their rules. -/
def Obligations.CheckUnitsFollowTheirPolynomial : Prop :=
  -- CRC_INIT without ALIVE_EN (R320): c is loaded from INIT, BYTES clears, and the unit's configuration is in use from then on.
  (∀ (s : State) (k : Fin 16),
    s.on = true → (s.crc[k]).feed = none → s.b (A.crcCtl k) 12 = false →
      let w := crcWidth (s.rd (A.crcCtl k))
      ∃ u, Sys2Proof.Machine.exec (.crcInit k) s = .next u ∧
        u.crcC k = s.pair (A.crcInitLo k) (A.crcInitHi k) % 2 ^ w ∧ (u.rd (A.crcBytes k)).toNat = 0 ∧ (u.crc[k]).ctl = s.rd (A.crcCtl k) ∧
        (u.crc[k]).poly = s.pair (A.crcPolyLo k) (A.crcPolyHi k) % 2 ^ w ∧
        (u.crc[k]).xorout = s.pair (A.crcXoroutLo k) (A.crcXoroutHi k) % 2 ^ w ∧ (u.crc[k]).feed = none ∧
        Only [.crc k, .reg (A.crcValLo k), .reg (A.crcValHi k), .reg (A.crcBytes k)] [] s u) ∧
  -- CRC_INIT with ALIVE_EN (R323): the 16-bit alive counter is fed after the initial value, low byte first, without being counted in BYTES, and advances.
  (∀ (s : State) (k : Fin 16),
    s.on = true → (s.crc[k]).feed = none → s.b (A.crcCtl k) 12 = true →
      let w := crcWidth (s.rd (A.crcCtl k))
      let a := s.f (A.crcAlive k) 15 0
      ∃ u, Sys2Proof.Machine.exec (.crcInit k) s = .next u ∧
        u.crcC k = crcFeedBytes w (s.pair (A.crcPolyLo k) (A.crcPolyHi k) % 2 ^ w) (s.b (A.crcCtl k) 8)
          (s.pair (A.crcInitLo k) (A.crcInitHi k) % 2 ^ w) (leBytes 2 a) ∧
        (u.rd (A.crcBytes k)).toNat = 0 ∧ u.f (A.crcAlive k) 15 0 = (a + 1) % 65536 ∧
        Only [.crc k, .reg (A.crcValLo k), .reg (A.crcValHi k), .reg (A.crcBytes k), .reg (A.crcAlive k)] [] s u) ∧
  -- CRC_DATA_WRITE (R321): an aligned write feeds its bytes in ascending address order, and BYTES counts them.
  (∀ (s : State) (k : Fin 16) (o : Fin 4) (size : Fin 3) (v : Word),
    s.on = true → (s.crc[k]).feed = none → o.val % 2 ^ size.val = 0 →
      let x := s.crc[k]
      ∃ u, Sys2Proof.Machine.exec (.crcDataWrite k o size v) s = .next u ∧
        u.crcC k = crcFeedBytes (crcWidth x.ctl) x.poly (bit x.ctl 8) (s.crcC k) (leBytes (2 ^ size.val) v.toNat) ∧
        (u.rd (A.crcBytes k)).toNat = ((s.rd (A.crcBytes k)).toNat + 2 ^ size.val) % 2 ^ 32 ∧
        Only [.reg (A.crcValLo k), .reg (A.crcValHi k), .reg (A.crcBytes k)] [] s u) ∧
  -- A data write that is not aligned to its size feeds nothing, and CRC_ABORT and CRC_LAKE_FEED_DONE with no feed under way do nothing (R321, R324).
  (∀ (s : State) (k : Fin 16) (o : Fin 4) (size : Fin 3) (v : Word) (ecc : List (Nat × Ecc)),
    (s.crc[k]).feed = none → (o.val % 2 ^ size.val ≠ 0 → Sys2Proof.Machine.exec (.crcDataWrite k o size v) s = .next s) ∧ Sys2Proof.Machine.exec (.crcAbort k) s = .next s ∧
      Sys2Proof.Machine.exec (.crcLakeFeedDone k ecc) s = .next s) ∧
  -- CRC_VAL_WRITE (R322): c takes the value, cut to the unit's width.
  (∀ (s : State) (k : Fin 16) (v : BitVec 64),
    s.on = true → (s.crc[k]).feed = none →
      ∃ u, Sys2Proof.Machine.exec (.crcValWrite k v) s = .next u ∧
        u.crcC k = v.toNat % 2 ^ crcWidth (s.rd (A.crcCtl k)) ∧ (u.crc[k]).feed = none ∧ u.rd (A.crcBytes k) = s.rd (A.crcBytes k) ∧
        Only [.crc k, .reg (A.crcValLo k), .reg (A.crcValHi k)] [] s u) ∧
  -- CRC_LAKE_FEED (R324): a range that the unit's stall may read starts feeding and shows BUSY; one outside its aperture ends at once with result 1 and
  -- LAKE_ERR; an empty one is done at once.
  (∀ (s : State) (k : Fin 16) (t : Fin 8),
    s.on = true → (s.crc[k]).feed = none → (s.crcOwner k).getD 0 = t.val →
      let a := s.pair (A.crcLakeLo k) (A.crcLakeHi k)
      let n := (s.rd (A.crcLakeLen k)).toNat
      ∃ u, Sys2Proof.Machine.exec (.crcLakeFeed k) s = .next u ∧
        (n = 0 → u.b (A.crcEvt k) 0 = true ∧ (u.crc[k]).feed = none ∧ u.f (A.crcStatus k) 31 28 = 0) ∧
        (n ≠ 0 → s.lakeAllowed (.aperture t) false a n = false →
          (u.crc[k]).feed = none ∧ u.f (A.crcStatus k) 31 28 = 1 ∧ u.b (A.crcEvt k) 1 = true) ∧
        (n ≠ 0 → s.lakeAllowed (.aperture t) false a n = true →
          (u.crc[k]).feed = some { stall := t.val, addr := a, len := n } ∧ u.b (A.crcStatus k) 1 = true) ∧
        Only [.crc k, .reg (A.crcStatus k), .reg (A.crcEvt k)] [] s u) ∧
  -- CRC_LAKE_FEED_DONE of a range without an uncorrectable codeword (R324): c has absorbed the range's bytes, and DONE is raised; codewords corrected on
  -- the way are counted.
  (∀ (s : State) (k : Fin 16) (ecc : List (Nat × Ecc)) (x : CrcFeed),
    s.on = true → (s.crc[k]).feed = some x → badWithin x.addr x.len ecc = false →
      let y := s.crc[k]
      ∃ u, Sys2Proof.Machine.exec (.crcLakeFeedDone k ecc) s = .next u ∧
        u.crcC k = crcFeedBytes (crcWidth y.ctl) y.poly (bit y.ctl 8) (s.crcC k) (s.lakeRead x.addr x.len) ∧
        (u.rd (A.crcBytes k)).toNat = ((s.rd (A.crcBytes k)).toNat + (s.lakeRead x.addr x.len).length) % 2 ^ 32 ∧
        u.crc[k] = { y with feed := none } ∧ (u.rd (A.crcStatus k)).toNat = 0 ∧ u.b (A.crcEvt k) 0 = true ∧
        (ecc = [] → Only [.crc k, .reg (A.crcStatus k), .reg (A.crcEvt k), .reg (A.crcValLo k), .reg (A.crcValHi k), .reg (A.crcBytes k)] [] s u) ∧
        Only [.crc k, .lakeCtl, .sent, .reg (A.crcStatus k), .reg (A.crcEvt k), .reg (A.crcValLo k), .reg (A.crcValHi k), .reg (A.crcBytes k)]
          [.regs 0x5C0000] s u) ∧
  -- CRC_LAKE_FEED_DONE at an uncorrectable codeword of the range (R324): c holds the value over the bytes before that codeword, result 2, LAKE_ERR.
  (∀ (s : State) (k : Fin 16) (x : CrcFeed) (i : Nat),
    s.on = true → (s.crc[k]).feed = some x → 64 * (x.addr / 64 + i) < x.addr + x.len →
      let y := s.crc[k]
      ∃ u, Sys2Proof.Machine.exec (.crcLakeFeedDone k [(i, .bad)]) s = .next u ∧
        u.crcC k = crcFeedBytes (crcWidth y.ctl) y.poly (bit y.ctl 8) (s.crcC k) (s.lakeRead x.addr (64 * (x.addr / 64 + i) - x.addr)) ∧
        u.crc[k] = { y with feed := none } ∧ u.f (A.crcStatus k) 31 28 = 2 ∧ u.b (A.crcEvt k) 1 = true ∧
        Only [.crc k, .lakeCtl, .reg (A.crcStatus k), .reg (A.crcEvt k), .reg (A.crcValLo k), .reg (A.crcValHi k), .reg (A.crcBytes k)]
          [.regs 0x5C0000] s u) ∧
  -- CRC_ABORT (R324): the feed ends with result 3; c holds the value over some number of bytes of the range, which the spec leaves open.
  (∀ (s : State) (k : Fin 16) (x : CrcFeed),
    s.on = true → (s.crc[k]).feed = some x →
      let y := s.crc[k]
      ∃ u, Sys2Proof.Machine.exec (.crcAbort k) s = .next u ∧
        (∃ n ∈ List.range (x.len + 1), u.crcC k =
          crcFeedBytes (crcWidth y.ctl) y.poly (bit y.ctl 8) (s.crcC k) (s.lakeRead x.addr n)) ∧
        u.crc[k] = { y with feed := none } ∧ u.f (A.crcStatus k) 31 28 = 3 ∧
        Only [.crc k, .draws, .reg (A.crcStatus k), .reg (A.crcValLo k), .reg (A.crcValHi k), .reg (A.crcBytes k)] [] s u) ∧
  -- While a Lake feed is under way, INIT, LAKE_FEED, data and VAL writes do nothing but raise FEED_BUSY (R324).
  (∀ (s : State) (k : Fin 16) (o : Fin 4) (z : Fin 3) (v : Word) (w : BitVec 64) (c : Instr),
    s.on = true → (s.crc[k]).feed ≠ none →
      (c = .crcDataWrite k o z v ∨ c = .crcInit k ∨ c = .crcLakeFeed k ∨ c = .crcValWrite k w) →
      ∃ u, Sys2Proof.Machine.exec c s = .next u ∧ u.b (A.crcEvt k) 2 = true ∧ Only [.reg (A.crcEvt k)] [] s u)

/-- Event sources are raised, delivered to an awake target with room, and held by HOLD. Its clauses cite their rules. -/
def Obligations.EventSourcesAreRaisedAndDelivered : Prop :=
  -- EVENT_SOURCE_RAISE of a block source whose enabled event bits are not all 0 (R328, R330): the idle source is PENDING; BMC_REQ and a source of the Tarn
  -- watcher's set also cancel an entry to a lower state (R351).
  (∀ (s : State) (n : Fin 768) (level : Bool) (held : Nat),
    s.on = true → isPin n = false → s.blockAsserted n = true → (s.sources[n]).phase = .idle →
      ∃ u, Sys2Proof.Machine.exec (.eventSourceRaise n level held) s = .next u ∧
        u.sources[n] = { s.sources[n] with phase := .pending } ∧
        (s.watched n = false → Only [.source n] [] s u) ∧ Only [.source n, .power] [.regs 0x6C0000] s u) ∧
  -- EVENT_SOURCE_RAISE of an edge-sensed pin source whose filter has passed the level (R329, R330): an active edge makes an idle source PENDING, and one
  -- that is PENDING or ASSIGNED stays so; an inactive edge only moves the level.
  (∀ (s : State) (n : Fin 768) (level : Bool) (held : Nat),
    s.on = true → isPin n = true → atLeast1 (s.f (A.evcsStat n) 7 0) ≤ held → s.levelSensed n = false → (s.sources[n]).phase ≠ .active →
      (∀ e ∈ (s.sources[n]).goneAt, e.1 ≠ s.now) →
      let active := (s.sources[n]).level != level && (s.b (A.evcsCfg n) 26 || s.pinActive n level)
      ∃ u, Sys2Proof.Machine.exec (.eventSourceRaise n level held) s = .next u ∧
        u.sources[n] = { s.sources[n] with
          level := level
          edgeAt := if active && (s.sources[n]).phase == .assigned then some s.now else (s.sources[n]).edgeAt
          refire := if active && (s.sources[n]).phase == .idle then false else (s.sources[n]).refire
          phase := if active && (s.sources[n]).phase == .idle then .pending else (s.sources[n]).phase } ∧
        Only [.source n, .power] [.regs 0x6C0000] s u) ∧
  -- Table 15.4, with a software source: an active edge in the very cycle in which its bit was dismissed, or its service completed, finds it ASSIGNED to
  -- the same target again with its bit set; after a completion it counts as re-fired.
  (∀ (s : State) (n : Fin 768) (t : Fin 20) (completed : Bool),
    s.on = true → isSoft n = true → (s.sources[n]).phase = .idle → (s.sources[n]).goneAt = some (s.now, completed) → (s.sources[n]).target = t.val →
      ∃ u, Sys2Proof.Machine.exec (.evcSwSet 0 (Fin.ofNat 1024 n.val)) s = .next u ∧
        (u.sources[n]).phase = .assigned ∧ (u.sources[n]).target = t.val ∧ (u.sources[n]).setIn t = true ∧ n.val ∈ (u.targets[t]).unseen ∧
        n.val ∉ (u.targets[t]).told ∧ (u.targets[t]).refired = (completed || (s.targets[t]).refired) ∧ Only [.source n, .target t] [] s u) ∧
  -- The other order (Table 15.4): a dismissal in the cycle of an active edge leaves the source ASSIGNED and its bit set; a TAKE in that cycle takes it
  -- into service, and the edge counts as arriving there.
  (∀ (s : State) (t : Fin 20) (n : Fin 768) (i : Fin 1024),
    s.on = true → n.val = i.val → s.levelSensed n = false → (s.sources[n]).phase = .assigned → (s.sources[n]).target = t.val → (s.sources[n]).edgeAt = some s.now →
      Sys2Proof.Machine.exec (.eventDismiss t n) s = .next s ∧
      (above (s.prio n) (s.targets[t]).stack = true → (s.targets[t]).stack.length < 16 → ∃ u, Sys2Proof.Machine.exec (.eventTake t i) s = .next u ∧
        (u.targets[t]).stack = (n.val, s.prio n) :: (s.targets[t]).stack ∧ (u.sources[n]).phase = .active ∧ (u.sources[n]).refire = true ∧
        (u.sources[n]).setIn t = true ∧ Only [.target t, .source n] [] s u)) ∧
  -- A level-sensed pin whose filter has passed the level (R329, R330): at its active level an idle source is PENDING; at its inactive level a PENDING one
  -- is IDLE again; a source that has been delivered stays.
  (∀ (s : State) (n : Fin 768) (level : Bool) (held : Nat),
    s.on = true → isPin n = true → atLeast1 (s.f (A.evcsStat n) 7 0) ≤ held → s.levelSensed n = true →
      ∃ u, Sys2Proof.Machine.exec (.eventSourceRaise n level held) s = .next u ∧
        (u.sources[n]).level = level ∧
        (u.sources[n]).phase = (if s.pinActive n level then (if (s.sources[n]).phase = .idle then .pending else (s.sources[n]).phase)
          else if (s.sources[n]).phase = .pending then .idle else (s.sources[n]).phase) ∧
        Only [.source n, .power] [.regs 0x6C0000] s u) ∧
  -- EVENT_SOURCE_RAISE of a pin that its filter has not passed, of a block source that is not asserted or is already PENDING or delivered, or of any other
  -- source does nothing (R328 to R330).
  (∀ (s : State) (n : Fin 768) (level : Bool) (held : Nat),
    (isPin n = true → held < atLeast1 (s.f (A.evcsStat n) 7 0) → Sys2Proof.Machine.exec (.eventSourceRaise n level held) s = .next s) ∧
    (isPin n = false → (s.blockAsserted n = false ∨ n.val < 249 ∧ (s.sources[n]).phase ≠ .idle) → Sys2Proof.Machine.exec (.eventSourceRaise n level held) s = .next s)) ∧
  -- A further edge of an edge source that is in service sets REFIRE, and its bit counts as new (R330, R335).
  (∀ (s : State) (n : Fin 768) (t : Fin 20) (c : Instr),
    s.on = true → s.levelSensed n = false → (s.sources[n]).phase = .active → (s.sources[n]).refire = false → (s.sources[n]).target = t.val →
      ((c = .eventSourceRaise n true 300 ∧ isPin n = true ∧ (s.sources[n]).level = false ∧ (s.b (A.evcsCfg n) 26 || s.pinActive n true) = true) ∨
        (c = .evcSwSet 0 (Fin.ofNat 1024 n.val) ∧ isSoft n = true)) →
      ∃ u, Sys2Proof.Machine.exec c s = .next u ∧
        (u.sources[n]).refire = true ∧ (u.sources[n]).phase = .active ∧ n.val ∈ (u.targets[t]).unseen ∧
        Only [.source n, .target t] [] s u) ∧
  -- EVENT_SOURCE_DEASSERT (R330, R344): a block source that is no longer asserted returns from PENDING to IDLE, and any other stands; a wake action whose
  -- condition ends with it is over.
  (∀ (s : State) (n : Fin 768) (held : Nat),
    s.on = true → isPin n = false →
      ∃ u, Sys2Proof.Machine.exec (.eventSourceDeassert n held) s = .next u ∧
        u.sources[n] = (if s.levelSensed n && !s.asserted n && (s.sources[n]).phase == .pending then { s.sources[n] with phase := .idle } else s.sources[n]) ∧
        (∀ t : Fin 20, u.targets[t] = s.targets[t] ∨ u.targets[t] = { s.targets[t] with waking := false, wolSent := 0 }) ∧
        Only [.source n] [.targets] s u) ∧
  -- EVENT_SOURCE_DEASSERT of a pin (R329, R330): once its filter has passed it, the pin is at its inactive level, and a level-sensed source returns from
  -- PENDING to IDLE; before that nothing of it moves.
  (∀ (s : State) (n : Fin 768) (held : Nat),
    s.on = true → isPin n = true → (s.levelSensed n = true ∨ s.b (A.evcsCfg n) 26 = false) →
      ∃ u, Sys2Proof.Machine.exec (.eventSourceDeassert n held) s = .next u ∧
        (held < atLeast1 (s.f (A.evcsStat n) 7 0) → u.sources[n] = s.sources[n]) ∧
        (atLeast1 (s.f (A.evcsStat n) 7 0) ≤ held → u.sources[n] = { s.sources[n] with
          level := s.b (A.evcsCfg n) 25
          phase := if s.levelSensed n && (s.sources[n]).phase == .pending then .idle else (s.sources[n]).phase }) ∧
        Only [.source n] [.targets] s u) ∧
  -- EVENT_DELIVERY with one source PENDING (R312, R332): it goes to the first awake target of its set, after its last one, whose delivery pond has room,
  -- and its number is the last item there; each pond whose consumer is ready gives up its head.
  (∀ (s : State) (ready : BitVec 20) (n : Fin 768) (t : Fin 20),
    s.on = true → s.held = false → s.pendingOrder = [n.val] → (s.levelSensed n = false ∨ s.asserted n = true) →
      (searchOrder (s.sources[n]).target (s.enabledSet n)).find? (fun t => s.awake t && s.deliveryRoom ready t) = some t.val →
      ∃ u, Sys2Proof.Machine.exec (.eventDelivery ready) s = .next u ∧
        u.sources[n] = { s.sources[n] with phase := .assigned, target := t.val, edgeAt := none } ∧
        (u.targets[t]).unseen = n.val :: (s.targets[t]).unseen.filter (· != n.val) ∧ (u.targets[t]).told = (s.targets[t]).told.filter (· != n.val) ∧
        (∀ c : Fin 20, c ≠ t → u.targets[c] = s.targets[c] ∨ u.targets[c] = { s.targets[c] with waking := false, wolSent := 0 }) ∧
        (∀ i : Fin 54, u.chains[i] = (if i.val < 20 && ready.getLsbD i.val then (s.chains[i]).drop 1 else s.chains[i]) ++
          (if i.val = t.val then [BitVec.ofNat 128 n.val] else [])) ∧
        Only [.source n, .reg (A.pndpPeak (158 + t))] [.targets, .chains] s u) ∧
  -- Of two PENDING sources for the same target the one of the higher priority, or at the same the lower number, is delivered in a cycle; the other waits
  -- (R332).
  (∀ (s : State) (ready : BitVec 20) (n m : Fin 768),
    s.on = true → s.held = false → s.awake 16 = true → s.deliveryRoom ready 16 = true → s.levelSensed n = false → s.levelSensed m = false →
      s.enabledSet n = [16] → s.enabledSet m = [16] → n ≠ m → (s.sources[n]).phase = .pending → (s.sources[m]).phase = .pending →
      (∀ x : Fin 768, (s.sources[x]).phase = .pending → x = n ∨ x = m) →
      s.prio n < 16 → s.prio m < 16 → (s.prio m < s.prio n ∨ s.prio m = s.prio n ∧ n.val < m.val) →
      ∃ u, Sys2Proof.Machine.exec (.eventDelivery ready) s = .next u ∧
        u.sources[n] = { s.sources[n] with phase := .assigned, target := 16, edgeAt := none } ∧ u.sources[m] = s.sources[m] ∧
        ((u.chains[(16 : Fin 54)]).getLast?) = some (BitVec.ofNat 128 n.val) ∧ Only [.source n, .reg (A.pndpPeak 174)] [.targets, .chains] s u) ∧
  -- With HOLD, or with no room in any delivery pond, nothing is delivered: the ponds whose consumers are ready give up their heads, and of the sources
  -- only a PENDING level source that has fallen moves, to IDLE (R312, R330, R332, R333).
  (∀ (s : State) (ready : BitVec 20),
    s.on = true → (s.held = true ∨ (List.range 20).all (fun t => !s.deliveryRoom ready t) = true) →
      ∃ u, Sys2Proof.Machine.exec (.eventDelivery ready) s = .next u ∧
        (∀ n : Fin 768, u.sources[n] = (if s.levelSensed n && !s.asserted n && (s.sources[n]).phase == .pending then { s.sources[n] with phase := .idle }
          else s.sources[n])) ∧
        (∀ t : Fin 20, u.targets[t] = s.targets[t] ∨ u.targets[t] = { s.targets[t] with waking := false, wolSent := 0 }) ∧
        (∀ i : Fin 54, u.chains[i] = if i.val < 20 && ready.getLsbD i.val then (s.chains[i]).drop 1 else s.chains[i]) ∧
        Only [] [.sources, .targets, .chains] s u) ∧
  -- EVC_HOLD_WRITE (R333): deliveries and notifications stop, or go on.
  (∀ (s : State) (hold : Bool),
    s.on = true → ∃ u, Sys2Proof.Machine.exec (.evcHoldWrite hold) s = .next u ∧ u.held = hold ∧ Only [.reg A.evcHold] [] s u) ∧
  -- EDGE_LATCH in Doze, or in Still with VDD_IO present (R347, R354): an edge that POL and BOTH make active is caught by the Tarn's latch when the latch
  -- is enabled; the source itself does not move.
  (∀ (s : State) (i : Fin 20) (falling : Bool) (n : Fin 768),
    n.val = 256 + i.val → (s.power.st = .doze ∨ s.power.st = .still ∧ s.ioGone = false) →
      ∃ u, Sys2Proof.Machine.exec (.edgeLatch i falling) s = .next u ∧
        (u.sources[n]).latched = ((s.sources[n]).latched || (s.b (A.evcsCfg n) 28 && (s.b (A.evcsCfg n) 26 || s.b (A.evcsCfg n) 25 == falling))) ∧
        (u.sources[n]).level = (!falling) ∧ (u.sources[n]).phase = (s.sources[n]).phase ∧ Only [.source n] [] s u) ∧
  -- EDGE_LATCH in any other state does nothing: with the clock running the filter sees the pin, and without VDD_IO nothing does (R347, R354).
  (∀ (s : State) (i : Fin 20) (falling : Bool),
    (s.power.st = .on ∨ s.power.st = .off ∨ s.power.st = .still ∧ s.ioGone = true) → Sys2Proof.Machine.exec (.edgeLatch i falling) s = .next s)

/-- A target is notified, takes a source above its running priority, and dismisses bits. Its clauses cite their rules. -/
def Obligations.EventTargetsTakeInService : Prop :=
  -- EVENT_NOTIFY (R336, R337): an awake target with a condition met is notified: NOTE and CNT_NOTIFY advance, NEW becomes 0 and IDLE clears; an EC
  -- target's session is sent an EVENT.
  (∀ (s : State) (t : Fin 20),
    s.on = true → s.held = false → s.awake t = true → s.notifyDue t = true →
      ∃ u, Sys2Proof.Machine.exec (.eventNotify t) s = .next u ∧
        (u.rd (A.evctNote t)).toNat = ((s.rd (A.evctNote t)).toNat + 1) % 2 ^ 32 ∧
        (u.rd (A.evctCntNotify t)).toNat = min 0xFFFFFFFF ((s.rd (A.evctCntNotify t)).toNat + 1) ∧
        u.newCount t = 0 ∧ (u.targets[t]).lastNotify = s.now ∧ (u.targets[t]).notified = true ∧ (u.targets[t]).stack = (s.targets[t]).stack ∧
        u.b (A.evctCtl t) 1 = false ∧ (t.val < 16 → u.sent.length = s.sent.length + 1) ∧ (16 ≤ t.val → u.sent = s.sent) ∧
        Only [.target t, .ctl, .sent, .reg (A.evctNote t), .reg (A.evctCntNotify t), .reg (A.evctCtl t),
          txOf (((s.chanHolder t).map (·.mgmtPort)).getD 0)] [] s u) ∧
  -- EVENT_RENOTIFY (R338): an awake EC target with a notifiable bit and no notification for RENOTIFY ms is notified again.
  (∀ (s : State) (t : Fin 20),
    s.on = true → s.held = false → t.val < 16 → s.awake t = true → s.f (A.evctRenotify t) 15 0 ≠ 0 → s.notifiable t ≠ [] →
      (s.targets[t]).lastNotify + ms (s.f (A.evctRenotify t) 15 0) ≤ s.now →
      ∃ u, Sys2Proof.Machine.exec (.eventRenotify t) s = .next u ∧
        (u.rd (A.evctNote t)).toNat = ((s.rd (A.evctNote t)).toNat + 1) % 2 ^ 32 ∧ (u.targets[t]).lastNotify = s.now ∧
        (u.targets[t]).unseen = (s.targets[t]).unseen ∧ u.sent.length = s.sent.length + 1 ∧ u.b (A.evctCtl t) 1 = false ∧
        Only [.target t, .ctl, .sent, .reg (A.evctCtl t), .reg (A.evctNote t), .reg (A.evctCntNotify t), txOf (((s.chanHolder t).map (·.mgmtPort)).getD 0)] [] s u) ∧
  -- EVENT_TAKE (R340): a set bit whose source has a priority above the running one is taken into service: the bit clears and the source and its priority
  -- are pushed.
  (∀ (s : State) (t : Fin 20) (n : Fin 1024) (i : Fin 768),
    s.on = true → n.val = i.val → (s.sources[i]).phase = .assigned → (s.sources[i]).target = t.val → s.edgeNow i = false →
      above (s.prio i) (s.targets[t]).stack = true → (s.targets[t]).stack.length < 16 →
      ∃ u, Sys2Proof.Machine.exec (.eventTake t n) s = .next u ∧
        (u.targets[t]).stack = (i.val, s.prio i) :: (s.targets[t]).stack ∧ u.sources[i] = { s.sources[i] with phase := .active, refire := false } ∧
        (u.sources[i]).setIn t = false ∧ Only [.target t, .source i] [] s u) ∧
  -- A refused TAKE (R340) does nothing but name its cause, be counted and raise TAKE_REFUSED: 2 in service, 1 no set bit, 3 not above the running
  -- priority, 4 stack full.
  (∀ (s : State) (t : Fin 20) (n : Fin 1024) (i : Fin 768) (cause : Nat),
    s.on = true →
      ((cause = 1 ∧ (768 ≤ n.val ∨ (n.val = i.val ∧ (s.sources[i]).phase ≠ .active ∧ (s.sources[i]).setIn t = false))) ∨
       (cause = 2 ∧ n.val = i.val ∧ (s.sources[i]).phase = .active) ∨
       (cause = 3 ∧ n.val = i.val ∧ (s.sources[i]).phase ≠ .active ∧ (s.sources[i]).setIn t = true ∧ above (s.prio i) (s.targets[t]).stack = false) ∨
       (cause = 4 ∧ n.val = i.val ∧ (s.sources[i]).phase ≠ .active ∧ (s.sources[i]).setIn t = true ∧
         above (s.prio i) (s.targets[t]).stack = true ∧ 16 ≤ (s.targets[t]).stack.length)) →
      ∃ u, Sys2Proof.Machine.exec (.eventTake t n) s = .next u ∧
        u.targets[t] = { s.targets[t] with takeCause := cause } ∧
        (u.rd (A.evctCntRefused t)).toNat = min 0xFFFFFFFF ((s.rd (A.evctCntRefused t)).toNat + 1) ∧ u.b A.evcEvt 1 = true ∧
        Only [.target t, .reg (A.evctCntRefused t), .reg A.evcEvt] [] s u) ∧
  -- EVENT_DISMISS of a set bit (R334): an assigned source is PENDING if it is a level source still asserted and IDLE if not; of a source in service only
  -- REFIRE clears.
  (∀ (s : State) (t : Fin 20) (n : Fin 768),
    s.on = true → (s.sources[n]).setIn t = true → (s.edgeNow n = false ∨ (s.sources[n]).phase = .active) →
      ∃ u, Sys2Proof.Machine.exec (.eventDismiss t n) s = .next u ∧
        u.sources[n] = { s.sources[n] with
          goneAt := if (s.sources[n]).phase = .active then (s.sources[n]).goneAt else if s.levelSensed n then none else some (s.now, false)
          refire := false
          phase := if (s.sources[n]).phase = .active then .active else if s.levelSensed n && s.asserted n then .pending else .idle } ∧
        (u.targets[t]).unseen = (s.targets[t]).unseen.filter (· != n.val) ∧ (u.sources[n]).setIn t = false ∧
        Only [.target t, .source n] [] s u) ∧
  -- EVENT_IDLE_SET (R336): IDLE is set, and with at least one new notifiable bit the target is due a notification at once.
  (∀ (s : State) (t : Fin 20),
    s.on = true → bit (s.rd (A.evctCtl t)) 0 = (s.targets[t]).asleep →
      ∃ u, Sys2Proof.Machine.exec (.eventIdleSet t) s = .next u ∧
        u.b (A.evctCtl t) 1 = true ∧ (1 ≤ s.newCount t → u.notifyDue t = true) ∧ Only [.reg (A.evctCtl t)] [] s u) ∧
  -- EVENT_NOTIFY of a target with no condition met, asleep, or under HOLD, and EVENT_RENOTIFY of an IRQ target, one with RENOTIFY 0, nothing to notify, or
  -- a notification within the time, do nothing (R333, R336, R338); nor does EVENT_DISMISS of a bit that is not set (R334).
  (∀ (s : State) (t : Fin 20) (n : Fin 768),
    (s.held = true ∨ s.awake t = false → Sys2Proof.Machine.exec (.eventNotify t) s = .next s ∧ Sys2Proof.Machine.exec (.eventRenotify t) s = .next s) ∧
    (s.notifyDue t = false → Sys2Proof.Machine.exec (.eventNotify t) s = .next s) ∧
    ((16 ≤ t.val ∨ s.f (A.evctRenotify t) 15 0 = 0 ∨ s.notifiable t = [] ∨
      s.now < (s.targets[t]).lastNotify + ms (s.f (A.evctRenotify t) 15 0)) → Sys2Proof.Machine.exec (.eventRenotify t) s = .next s) ∧
    ((s.sources[n]).setIn t = false → Sys2Proof.Machine.exec (.eventDismiss t n) s = .next s))

/-- Targets sleep and wake, and wake actions act for sleeping ones. Its clauses cite their rules. -/
def Obligations.TargetsSleepAndAreWoken : Prop :=
  -- TARGET_SLEEP_WRITE of 1 (R343): every target whose moderation timer runs is notified, an EC target by an EVENT message with FLUSH to the session that
  -- holds it; then the target sleeps.
  (∀ (s : State) (t : Fin 20),
    s.on = true →
      ∃ u, Sys2Proof.Machine.exec (.targetSleepWrite t true) s = .next u ∧
        u.sent = flushEvents s ++ s.sent ∧ (∀ c : Fin 20, afterSleep s u [t.val] c) ∧ u.awake t = false ∧
        Only [.ctl, .sent] [.targets, .regs 0x680000, .regs 0x540000] s u) ∧
  -- TARGET_SLEEP_WRITE of 0 (R343, R345): the sleeping target wakes, its wake action stops, and every set bit counts as new.
  (∀ (s : State) (t : Fin 20),
    s.on = true → (s.targets[t]).asleep = true →
      ∃ u, Sys2Proof.Machine.exec (.targetSleepWrite t false) s = .next u ∧
        u.targets[t] = { s.targets[t] with asleep := false, waking := false, wolSent := 0, unseen := s.setBits t } ∧
        u.b (A.evctCtl t) 0 = false ∧ Only [.target t, .reg (A.evctCtl t)] [] s u) ∧
  -- TARGET_SLEEP_WRITE of 0 to a target that is awake changes nothing of it (R343).
  (∀ (s : State) (t : Fin 20),
    s.on = true → (s.targets[t]).asleep = false → ∃ u, Sys2Proof.Machine.exec (.targetSleepWrite t false) s = .next u ∧ Only [] [] s u) ∧
  -- SLEEP with a new SEQ (R343): when it names a channel that the session holds, every target whose moderation timer runs is notified, with FLUSH; then
  -- the channels named that the session holds sleep; and last, the SLEEP_ACK is sent, which names the session's channels that are asleep and the NOTE of
  -- both of the stall, and is kept for a retransmission.
  (∀ (s : State) (h : IcpHead) (chans : BitVec 8) (x : Session) (named : List Nat),
    s.on = true → icpComes s h 36 = true → s.authed h 6 (chans :: List.replicate 3 0#8) = some x → s.session? x.number = some x → x.isFresh h.seq.toNat = true →
      (bitsOf 2 (chans.toNat &&& x.chans)).map (fun i => 2 * x.stall + i) = named → x.stall < 8 →
      ∃ u, Sys2Proof.Machine.exec (.sleep h chans) s = .next u ∧
        (let asleep := (bitsOf 2 x.chans).foldl (fun a i => if (fin? 20 (2 * x.stall + i)).any (fun t => (u.targets[t]).asleep) then a + 2 ^ i else a) 0
         let body := beBytes 1 asleep ++ beBytes 3 0 ++ beBytes 4 (u.rd (A.evctNote (2 * x.stall))).toNat ++
          beBytes 4 (u.rd (A.evctNote (2 * x.stall + 1))).toNat ++ beBytes 20 0
         let ack := icpBytes x.version 7 x.stall 0 x.number h.seq.toNat
          (if x.provisioning then zero16 else icpMac x.key x.version 7 x.stall 0 x.number h.seq.toNat body) body
         u.sent = .icp h.port h.peer ack :: (if named = [] then [] else flushEvents (s.heard x h)) ++ s.sent ∧
         ((u.session? x.number).map (fun y => (y.lastSeq, y.lastMsg, y.cache.head?))) = some (some h.seq.toNat, s.now, some (h.seq.toNat, ack))) ∧
        (∀ c : Fin 20, afterSleep s u named c) ∧
        Only [.ctl, .sent, rxOf h, txOf h.port] [.targets, .regs 0x680000, .regs 0x540000] s u) ∧
  -- A SLEEP whose SEQ is not new is answered from the cache, or else counted; no channel sleeps by it (R283, R343).
  (∀ (s : State) (h : IcpHead) (chans : BitVec 8) (x : Session),
    s.on = true → icpComes s h 36 = true → s.authed h 6 (chans :: List.replicate 3 0#8) = some x → s.session? x.number = some x →
      x.isFresh h.seq.toNat = false →
      ∃ u, Sys2Proof.Machine.exec (.sleep h chans) s = .next u ∧
        (∀ m ∈ x.cache.lookup h.seq.toNat, u.sent = .icp h.port h.peer m :: s.sent) ∧
        (x.cache.lookup h.seq.toNat = none → u.sent = s.sent ∧
          (u.rd A.ctlCntReplay).toNat = min 0xFFFFFFFF ((s.rd A.ctlCntReplay).toNat + 1)) ∧
        ((u.session? x.number).map (·.lastSeq)) = some x.lastSeq ∧ Only [.ctl, .sent, .reg A.ctlCntReplay, rxOf h, txOf h.port] [] s u) ∧
  -- A SLEEP that fails authentication is discarded and counted (R281); on a disabled port it is not heard, one not addressed to ICP goes with its frame,
  -- and one beyond the port's limit is malformed (R216, R280).
  (∀ (s : State) (h : IcpHead) (chans : BitVec 8),
    (s.on = true → icpComes s h 36 = true → s.authed h 6 (chans :: List.replicate 3 0#8) = none →
      ∃ u, Sys2Proof.Machine.exec (.sleep h chans) s = .next u ∧
        (u.rd A.ctlCntAuth).toNat = min 0xFFFFFFFF ((s.rd A.ctlCntAuth).toNat + 1) ∧ u.b A.ctlEvt 0 = true ∧
        Only [.reg A.ctlCntAuth, .reg A.ctlEvt, rxOf h] [] s u) ∧
    (s.b (A.ethCtl (2 + h.port)) 0 = false → Sys2Proof.Machine.exec (.sleep h chans) s = .next s) ∧
    (s.on = true → s.b (A.ethCtl (2 + h.port)) 0 = true → s.icpTakes h = false → ∃ u, Sys2Proof.Machine.exec (.sleep h chans) s = .next u ∧
      (u.rd (A.ethlCntRxDrop (2 + h.port) 0)).toNat = min 0xFFFFFFFF ((s.rd (A.ethlCntRxDrop (2 + h.port) 0)).toNat + 1) ∧
      Only [.reg (A.ethlCntRxDrop (2 + h.port) 0)] [] s u)) ∧
  -- WAKE_ACTION (R344): with a source of the wake set that no awake target can take, action 1 sends the magic frame and raises WOL_SENT, and action 2
  -- drives its pin low until the target wakes.
  (∀ (s : State) (t : Fin 20),
    s.on = true → s.held = false → s.wakeWanted t = true → (s.targets[t]).waking = false →
      ∃ u, Sys2Proof.Machine.exec (.wakeAction t) s = .next u ∧
        (s.wakeActionOf t = 1 → u.targets[t] = { s.targets[t] with waking := true, wolSent := (s.targets[t]).wolSent + 1, wolLast := s.now } ∧
          u.b A.evcEvt 2 = true ∧ u.sent.length = s.sent.length + 1) ∧
        (s.wakeActionOf t = 2 → u.targets[t] = { s.targets[t] with waking := true } ∧ u.sent = s.sent ∧
          u.irqLow (Fin.ofNat 4 (s.f (A.evctWake t) 13 12)) = true) ∧
        (s.wakeActionOf t = 0 → u = s) ∧ Only [.target t, .sent, .reg A.evcEvt] [.regs 0x540000] s u) ∧
  -- WAKE_ACTION under HOLD, with no such source, or with the action under way, and WOL_RETRY under HOLD, with the condition over, with no frame sent yet,
  -- after the third, or before its time do nothing (R333, R344).
  (∀ (s : State) (t : Fin 20),
    (s.held = true ∨ s.wakeWanted t = false ∨ (s.targets[t]).waking = true → Sys2Proof.Machine.exec (.wakeAction t) s = .next s) ∧
    (s.held = true ∨ s.wakeWanted t = false ∨ (s.targets[t]).waking = false ∨ (s.targets[t]).wolSent = 0 ∨ 3 ≤ (s.targets[t]).wolSent ∨
      s.now < (s.targets[t]).wolLast + ms (atLeast1 (s.f (A.evctWake t) 31 16)) → Sys2Proof.Machine.exec (.wolRetry t) s = .next s)) ∧
  -- WOL_RETRY (R344): the frame is sent again after WOL_RETRY while the condition lasts, three times in all.
  (∀ (s : State) (t : Fin 20),
    s.on = true → s.held = false → s.wakeWanted t = true → (s.targets[t]).waking = true → 1 ≤ (s.targets[t]).wolSent →
      (s.targets[t]).wolLast + ms (atLeast1 (s.f (A.evctWake t) 31 16)) ≤ s.now →
      ∃ u, Sys2Proof.Machine.exec (.wolRetry t) s = .next u ∧
        ((s.targets[t]).wolSent < 3 → u.targets[t] = { s.targets[t] with wolSent := (s.targets[t]).wolSent + 1, wolLast := s.now } ∧
          u.sent.length = s.sent.length + 1) ∧
        (3 ≤ (s.targets[t]).wolSent → u = s) ∧ Only [.target t, .sent, .reg A.evcEvt] [.regs 0x540000] s u)

/-- Doze and Still are entered with nothing running and left by a standing wake source. Its clauses cite their rules. -/
def Obligations.LowerStatesAreEnteredAndLeft : Prop :=
  -- ENTER_DOZE (`k` 0) and ENTER_STILL (1) (R350, R351): while something of R350 holds, the request is refused with BUSY and nothing else happens; else
  -- the entry begins, and the retained store is committed; what a commit under way has captured is committed again after it.
  (∀ (s : State) (k : Fin 2),
    s.on = true →
      ∃ u, Sys2Proof.Machine.exec (if k = 0 then .enterDoze else .enterStill) s = .next u ∧
        u.f A.trnCmdStat 3 0 = k.val + 1 ∧
        (s.lowerBusy = true → u.f A.trnCmdStat 31 28 = 1 ∧ u.b A.trnEvt 2 = true ∧ Only [.reg A.trnCmdStat, .reg A.trnEvt] [] s u) ∧
        (s.lowerBusy = false → u.f A.trnCmdStat 31 28 = 0 ∧ u.power = { s.power with entering := if k = 0 then .doze else .still } ∧
          u.keep.busy = true ∧ (∀ j ∈ allKinds, j ∈ u.keep.again ∨ j ∈ u.keep.captured) ∧
          (s.keep.busy = true → (∀ j ∈ s.keep.captured, j ∈ allKinds → j ∈ u.keep.again)) ∧ Only [.reg A.trnCmdStat, .power, .keep] [] s u)) ∧
  -- ENTRY_COMPLETE with no entry under way, or before the commit is done, does nothing (R351).
  (∀ (s : State),
    (s.power.entering = .none → Sys2Proof.Machine.exec .entryComplete s = .next s) ∧
    (s.running = false → s.anyWake = false → s.keep.busy = true → Sys2Proof.Machine.exec .entryComplete s = .next s)) ∧
  -- ENTRY_COMPLETE with no wake source standing, no group active and the commit done (R351): the Lake's ready channels are in self-refresh, the edge
  -- latches are clear, no list of a two-wire controller runs, XA and XB have lost their alignment, and the device rests in the state asked for.
  (∀ (s : State),
    s.on = true → s.power.entering ≠ .none → s.running = false → s.anyWake = false → s.keep.busy = false →
      ∃ u, Sys2Proof.Machine.exec .entryComplete s = .next u ∧
        u.power.st = (if s.power.entering = .doze then .doze else .still) ∧ u.power.entering = .none ∧ u.power.pointTarn = s.tarn ∧
        (∀ c : Fin 12, (u.lakeCtl.chans[c]).st = if (s.lakeCtl.chans[c]).st = 2 then 3 else (s.lakeCtl.chans[c]).st) ∧
        u.rd A.evcLatched = 0#32 ∧ (∀ n : Fin 32, (u.twb[n]).run = none) ∧ (∀ l : Fin 8, (u.links[l]).aligned = false) ∧
        Only [.power, .lakeCtl, .reg A.evcLatched, .draws, .edges]
          [.regs 0x180000, .regs 0x410000, .regs 0x500000, .regs 0x540000, .regs 0x600000, .regs 0x640000, .regs 0x680000, .stalls, .twoWire, .links,
            .transports] s u) ∧
  -- ENTRY_COMPLETE while a wake source stands or a group is active (R351): the entry is cancelled, and the device stays on.
  (∀ (s : State),
    s.on = true → s.power.entering ≠ .none → (s.running = true ∨ s.anyWake = true) →
      ∃ u, Sys2Proof.Machine.exec .entryComplete s = .next u ∧ u.power.entering = .none ∧ u.on = true ∧ Only [.power] [.regs 0x6C0000] s u) ∧
  -- WAKE_DOZE by a source that stands (R347, R353): the device is on in Ready, with the cause and the source recorded, and the wake is counted and
  -- reported; the Lake leaves self-refresh; every time base is stepped, so that its EPOCH goes up by one and STEP is raised, and a PTP base is unlocked;
  -- each latched pin that was idle is PENDING as one edge, with its bit in EVC_LATCHED, and its latch is clear; a level pin that is asserted is PENDING;
  -- groups, Springs, streams and the structure stay as they were.
  (∀ (s : State) (src : Fin 768),
    s.power.st = .doze → s.wakeStands src = true →
      ∃ u, Sys2Proof.Machine.exec (.wakeDoze src) s = .next u ∧
        u.power.st = .on ∧ u.power.wakeFrom = 2 ∧ u.power.wakeSrc = src.val ∧ u.power.resumed = s.power.resumed ∧ u.power.slotAtEntry = none ∧
        u.b A.trnEvt 1 = true ∧ u.b A.trnEvt 0 = true ∧ (u.rd A.trnCntWake).toNat = min 0xFFFFFFFF ((s.rd A.trnCntWake).toNat + 1) ∧
        (∀ c : Fin 12, (u.lakeCtl.chans[c]).st = if (s.lakeCtl.chans[c]).st = 3 then 2 else (s.lakeCtl.chans[c]).st) ∧
        (∀ n : Fin 4, (u.tb[n]).epoch = ((s.tb[n]).epoch + 1) % 256 ∧ u.b (A.tbEvt n) 1 = true ∧ (u.tb[n]).pend = none ∧
          (s.tbSrc n = 1 → (u.tb[n]).st = .unlocked ∧ (u.tb[n]).first = none)) ∧
        (∀ i : Fin 20, let n : Fin 768 := ⟨256 + i.val, by omega⟩
          (u.sources[n]).latched = false ∧ u.b A.evcLatched i.val = ((s.sources[n]).latched || s.b A.evcLatched i.val) ∧
          ((s.sources[n]).phase = .idle → (∀ e ∈ (s.sources[n]).goneAt, e.1 ≠ s.now) →
            (u.sources[n]).phase = (if (s.sources[n]).latched || (s.levelSensed n && s.asserted n) then .pending else .idle))) ∧
        (∀ n : Fin 768, isPin n = false → u.sources[n] = s.sources[n]) ∧
        Only [.draws, .keep, .lakeCtl, .power, .reg A.trnEvt, .reg A.trnCntWake, .reg A.trnCmdStat, .reg A.evcLatched]
          [.regs 0x580000, .sources, .targets, .timeBases, .gpio] s u) ∧
  -- With the crystal running since before the point of no return, WAKE_DOZE steps every time base forward by the whole ticks of 1/32,768 s in Doze (R258,
  -- R353).
  (∀ (s : State) (src : Fin 768),
    s.power.st = .doze → s.wakeStands src = true → s.power.crystalAt.any (fun c => decide (c ≤ s.power.pointTarn)) = true →
      ∃ u, Sys2Proof.Machine.exec (.wakeDoze src) s = .next u ∧ ∀ n : Fin 4,
        ((u.tb[n]).val : Int) = ((s.tb[n]).valueAt s.now + Int.ofNat ((s.tarn - s.power.pointTarn) * 32768 / 10 ^ 9) * (10 ^ 9 * 2 ^ 33)) %
          (tbModulus (s.tbBinary n) : Int) ∧
        (u.tb[n]).at_ = max s.now (s.tb[n]).at_) ∧
  -- WAKE_DOZE outside Doze, or by a source that does not stand, does nothing; nor does WAKE_STILL outside Still, in reset, or by a source that does not
  -- stand or that the watcher does not accept there (R353 to R355, R360).
  (∀ (s : State) (src : Fin 768) (devid : BitVec 14) (factoryL : Bool) (mv : Vector (BitVec 16) 24),
    (s.power.st ≠ .doze ∨ s.wakeStands src = false → Sys2Proof.Machine.exec (.wakeDoze src) s = .next s) ∧
    (s.power.st ≠ .still ∨ s.power.held = true ∨ s.power.resetLow = true ∨
      s.power.supplyWait = none ∧ (s.wakeStands src = false ∨ s.stillSource src = false ∨ s.tripAllows src = false) →
      Sys2Proof.Machine.exec (.wakeStill src devid factoryL mv) s = .next s)) ∧
  -- WAKE_STILL by a source that stands, with a supply not yet within range (R354, R355, R356): the readings stand in TEL_Vj, the enables are released and
  -- the Tarn waits, or goes on waiting.
  (∀ (s : State) (src : Fin 768) (devid : BitVec 14) (factoryL : Bool) (mv : Vector (BitVec 16) 24),
    s.power.st = .still → s.power.held = false → s.power.resetLow = false →
      (s.power.supplyWait.isSome = true ∨ s.wakeStands src = true ∧ s.stillSource src = true ∧ s.tripAllows src = true) → suppliesHold s mv = false →
      ∃ u, Sys2Proof.Machine.exec (.wakeStill src devid factoryL mv) s = .next u ∧
        (∀ j : Fin 24, u.rd (A.telV j) = wd (mv[j]).toNat ∧ u.power.low.contains j.val = decide ((mv[j]).toNat < supplyFailMv j)) ∧
        u.power = { s.power with
          low := u.power.low, jtag := u.power.jtag
          supplyWait := if s.power.supplyWait.isSome then s.power.supplyWait else some s.tarn
          wakeSrc := if s.power.supplyWait.isSome then s.power.wakeSrc else src.val } ∧
        u.coreOff = false ∧ u.ioOff = false ∧ Only (.power :: (List.range 24).map (fun j => .reg (A.telV j))) [] s u) ∧
  -- WAKE_STILL with every supply within range (R355, Table 16.2): the device starts, with the cause recorded: of a wake that has waited for the supplies
  -- the source that began it.
  (∀ (s : State) (src : Fin 768) (devid : BitVec 14) (factoryL : Bool) (mv : Vector (BitVec 16) 24),
    s.power.st = .still → s.power.held = false → s.power.resetLow = false →
      (s.power.supplyWait.isSome = true ∨ s.wakeStands src = true ∧ s.stillSource src = true ∧ s.tripAllows src = true) → suppliesHold s mv = true →
      ∃ u, Sys2Proof.Machine.exec (.wakeStill src devid factoryL mv) s = .next u ∧
        u.power.boot = some { still := true, src := if s.power.supplyWait.isSome then s.power.wakeSrc else src.val, at_ := s.now } ∧ u.power.wakeFrom = 1 ∧
        u.power.wakeSrc = (if s.power.supplyWait.isSome then s.power.wakeSrc else src.val) ∧ u.power.devid = devid.toNat ∧
        u.power.factoryL = factoryL ∧ u.power.tmr0 = s.power.tmr0 ∧ u.power.tmr1 = s.power.tmr1 ∧ u.power.supplyWait = none ∧ u.power.low = [] ∧
        u.keep.recs = s.keep.recs ∧ u.lakeCtl.training = 0xFFF ∧ u.now = s.now ∧ u.tarn = s.tarn ∧ u.pending = s.pending ∧ u.sent = s.sent ∧
        u.regs.filter (fun x => tarnReg x.1 && x.1 != A.keepEvt && x.1 != A.keepCntBad && !(List.range 24).any (fun j => x.1 == A.telV j)) =
          s.regs.filter (fun x => tarnReg x.1 && x.1 != A.keepEvt && x.1 != A.keepCntBad && !(List.range 24).any (fun j => x.1 == A.telV j)) ∧
        (∀ j : Fin 24, u.rd (A.telV j) = wd (mv[j]).toNat) ∧ (∀ t : Fin 20, u.rd (A.evctNote t) = s.rd (A.evctNote t)) ∧
        (∀ n : Fin 768, u.sources[n] = s.withdrawn n (s.sources[n])) ∧ startRestores u ∧
        Only (startPieces ++ (List.range 20).map (fun t => .reg (A.evctNote t)))
          [.sources, .timeBases, .webPos, .gens, .stalls, .tables, .regs 0x6C0000, .regs 0x6E0000, .regs 0x700000] State.reset u) ∧
  -- SUPPLY_WAIT_TIMEOUT (R355): the device stays in Still, and the command status shows it.
  (∀ (s : State) (t : Nat),
    s.power.supplyWait = some t → s.power.st = .still → t + ms (atLeast1 (s.f A.trnPupTmo 7 0)) ≤ s.tarn →
      ∃ u, Sys2Proof.Machine.exec .supplyWaitTimeout s = .next u ∧
        u.power = { s.power with supplyWait := none, pupFail := true } ∧ u.f A.trnCmdStat 31 28 = 3 ∧ Only [.power, .reg A.trnCmdStat] [] s u) ∧
  -- SUPPLY_WAIT_TIMEOUT with no wait under way, outside Still, or before its time does nothing (R355).
  (∀ (s : State),
    (s.power.st ≠ .still ∨ s.power.supplyWait.all (fun t => decide (s.tarn < t + ms (atLeast1 (s.f A.trnPupTmo 7 0)))) = true) →
      Sys2Proof.Machine.exec .supplyWaitTimeout s = .next s) ∧
  -- WAKE_TIMER_EXPIRE timed by the crystal since it was started (R359, R395): TMRk is raised; a periodic timer counts again from the instant of its
  -- expiry, and a single one clears EN.
  (∀ (s : State) (k : Fin 2),
    s.power.st ≠ .off → s.power.held = false → s.b (A.trnTmr0Ctl k) 0 = true → s.power.crystalAt.any (fun c => decide (c ≤ (s.timer k).start)) = true →
      s.tmrNs k ≤ s.tarn - (s.timer k).start →
      ∃ u, Sys2Proof.Machine.exec (.wakeTimerExpire k) s = .next u ∧
        u.b A.trnTmrEvt k.val = true ∧
        (s.b (A.trnTmr0Ctl k) 1 = true → (u.timer k).start = (s.timer k).start + s.tmrNs k ∧ u.b (A.trnTmr0Ctl k) 0 = true ∧ u.timer (1 - k) = s.timer (1 - k)) ∧
        (s.b (A.trnTmr0Ctl k) 1 = false → u.b (A.trnTmr0Ctl k) 0 = false ∧ u.power = s.power) ∧
        Only [.reg A.trnTmrEvt, .reg (A.trnTmr0Ctl k), .power] [] s u) ∧
  -- WAKE_TIMER_EXPIRE timed by the RC oscillator (R359, R395): the interval is met to within 2 %: once 98 % of the time is enough, TMRk is raised, and
  -- while 102 % of it is not, nothing happens.
  (∀ (s : State) (k : Fin 2),
    s.power.st ≠ .off → s.power.held = false → s.b (A.trnTmr0Ctl k) 0 = true → s.power.crystalAt = none → (s.timer k).start ≤ s.tarn →
      ∃ u, Sys2Proof.Machine.exec (.wakeTimerExpire k) s = .next u ∧
        (s.tmrNs k ≤ (s.tarn - (s.timer k).start) * 98 / 100 → u.b A.trnTmrEvt k.val = true ∧
          (s.b (A.trnTmr0Ctl k) 1 = true → (u.timer k).start = s.tarn) ∧ (s.b (A.trnTmr0Ctl k) 1 = false → u.b (A.trnTmr0Ctl k) 0 = false)) ∧
        ((s.tarn - (s.timer k).start) * 102 / 100 + 1 < s.tmrNs k → Only [.draws] [] s u) ∧
        Only [.reg A.trnTmrEvt, .reg (A.trnTmr0Ctl k), .power, .draws] [] s u) ∧
  -- WAKE_TIMER_EXPIRE in Off, in reset, of a timer that does not run, or before its load by the crystal does nothing (R359).
  (∀ (s : State) (k : Fin 2),
    (s.power.st = .off ∨ s.power.held = true ∨ s.b (A.trnTmr0Ctl k) 0 = false ∨
      s.power.crystalAt.any (fun c => decide (c ≤ (s.timer k).start)) = true ∧ s.tarn - (s.timer k).start < s.tmrNs k) → Sys2Proof.Machine.exec (.wakeTimerExpire k) s = .next s) ∧
  -- WAKE_FRAME (R358): in Doze, on an enabled management port, a frame of a watched kind raises the port's request and does nothing else; any other frame,
  -- and any frame in another state, does nothing.
  (∀ (s : State) (port : Fin 2) (f : Bytes),
    (s.power.st = .doze → s.b (A.ethCtl (2 + port.val)) 0 = true → watchedFrame s port f →
      ∃ u, Sys2Proof.Machine.exec (.wakeFrame port f) s = .next u ∧ u.b A.trnReqEvt (1 + port.val) = true ∧ Only [.reg A.trnReqEvt] [] s u) ∧
    (s.power.st ≠ .doze ∨ s.b (A.ethCtl (2 + port.val)) 0 = false ∨ ¬ watchedFrame s port f → Sys2Proof.Machine.exec (.wakeFrame port f) s = .next s)) ∧
  -- A frame that carries the port's own magic pattern wakes, wherever the pattern stands (R358).
  (∀ (s : State) (port : Fin 2) (n : Nat),
    s.power.st = .doze → s.b (A.ethCtl (2 + port.val)) 0 = true → s.b A.trnWakeCfg 0 = true →
      ∃ u, Sys2Proof.Machine.exec (.wakeFrame port (magicFrame (s.linkMac (8 + port)) n)) s = .next u ∧
        u.b A.trnReqEvt (1 + port.val) = true ∧ Only [.reg A.trnReqEvt] [] s u) ∧
  -- TARN_CRYSTAL_STARTED (R395): what begins from here on is measured by the crystal, exactly; of what began before, the time up to now counts as the RC
  -- oscillator measured it, to within 2 %.
  (∀ (s : State) (t0 : Nat),
    s.power.st ≠ .off → s.power.crystalAt = none →
      ∃ u, Sys2Proof.Machine.exec .tarnCrystalStarted s = .next u ∧ u.power = { s.power with crystalAt := some s.tarn } ∧
        (∀ dt ∈ List.range 4, (({ u with tarn := s.tarn + dt } : State).measured s.tarn).1 = dt) ∧
        (t0 ≤ s.tarn → ∀ dt ∈ List.range 4, (s.tarn - t0) * 98 / 100 + dt ≤ (({ u with tarn := s.tarn + dt } : State).measured t0).1 ∧
          (({ u with tarn := s.tarn + dt } : State).measured t0).1 ≤ (s.tarn - t0) * 102 / 100 + 1 + dt) ∧ Only [.power] [] s u)

/-- The retained store writes changed records into the other bank and repairs bad copies. Its clauses cite their rules. -/
def Obligations.RetainedStoreCommitsAndVerifies : Prop :=
  -- KEEP_COMMIT (R362): a commit begins, of the records that differ from their newest valid copies; while one is under way a further one follows it, or,
  -- if that one has captured no record yet, joins it.
  (∀ (s : State),
    s.on = true →
      ∃ u, Sys2Proof.Machine.exec .keepCommit s = .next u ∧
        u.keep.busy = true ∧ u.keep.recs = s.keep.recs ∧
        (s.keep.busy = false → u.keep.again = [] ∧ (∀ k ∈ allKinds,
          (u.keep.writing.lookup k = if ((s.validOf k).map (·.content)) = some (s.content k) then none else some (s.content k)))) ∧
        (s.keep.busy = true → allKinds.any s.keep.captured.contains = true →
          u.keep.writing = s.keep.writing ∧ (∀ k ∈ allKinds, k ∈ u.keep.again)) ∧
        (s.keep.busy = true → allKinds.any s.keep.captured.contains = false → u.keep.again = s.keep.again ∧ ∀ k ∈ allKinds,
          (u.keep.writing.drop s.keep.writing.length).lookup k = if ((s.validOf k).map (·.content)) = some (s.content k) then none else some (s.content k)) ∧
        Only [.keep] [] s u) ∧
  -- KEEP_AUTO_COMMIT with nothing changed, DELAY 0, or before its time does nothing (R362); nor does KEEP_VERIFY_PERIOD before its interval (R366),
  -- COMMIT_DONE with no commit, or VERIFY_DONE with no verification under way.
  (∀ (s : State) (lost : List (Fin 7 × Bool × Nat × Byte)),
    ((s.keep.firstChange = none ∨ s.f A.keepAuto 15 0 = 0 ∨ s.keep.firstChange.all (fun t => decide (s.tarn < t + 10 * ms (s.f A.keepAuto 15 0))) = true ∧
      s.tarn < s.keep.lastChange + ms (s.f A.keepAuto 15 0)) → Sys2Proof.Machine.exec .keepAutoCommit s = .next s) ∧
    (s.tarn < s.keep.lastVerify + clampN 1 168 (s.f A.keepVerify 7 0) * 3600 * 10 ^ 9 → Sys2Proof.Machine.exec .keepVerifyPeriod s = .next s) ∧
    (s.keep.busy = false → Sys2Proof.Machine.exec .commitDone s = .next s) ∧ (s.keep.verifying = false → Sys2Proof.Machine.exec (.verifyDone lost) s = .next s)) ∧
  -- KEEP_AUTO_COMMIT (R362): a commit begins, or is to follow the one under way, once DELAY has passed since the last Kept change, or ten times DELAY
  -- since the first.
  (∀ (s : State) (t : Nat),
    s.on = true → s.keep.firstChange = some t → s.f A.keepAuto 15 0 ≠ 0 →
      (s.keep.lastChange + ms (s.f A.keepAuto 15 0) ≤ s.tarn ∨ t + 10 * ms (s.f A.keepAuto 15 0) ≤ s.tarn) →
      ∃ u, Sys2Proof.Machine.exec .keepAutoCommit s = .next u ∧ u.keep.busy = true ∧ (s.keep.busy = false → u.keep.firstChange = none) ∧
        (∀ j ∈ allKinds, j ∈ u.keep.again ∨ j ∈ u.keep.captured) ∧ Only [.keep] [] s u) ∧
  -- COMMIT_DONE (R361, R362, R363): the new copy of each captured record, a valid one, goes into the bank without the newest valid one with a generation
  -- one more, the other copy stays, the commit is over and COMMIT_DONE is raised.
  (∀ (s : State) (k : Nat) (c : RecContent),
    s.on = true → s.keep.busy = true → (k, c) ∈ s.keep.writing → (s.keep.writing.map (·.1)).Nodup → s.keep.again = [] →
      (∀ j ∈ s.keep.writing.map (·.1), 1 ≤ j ∧ j ≤ 7) → s.keep.recs.length = 7 →
      ∃ u, Sys2Proof.Machine.exec .commitDone s = .next u ∧
        u.keep.busy = false ∧ u.keep.writing = [] ∧ u.b A.keepEvt 0 = true ∧
        (s.newestOf k = some true → (u.recPair k).b0.head.gen = ((s.recPair k).b1.head.gen + 1) % 2 ^ 32 ∧ (u.recPair k).b0.content = c ∧
          (u.recPair k).b0.state k = 1 ∧ (u.recPair k).b1 = (s.recPair k).b1) ∧
        (s.newestOf k = some false → (u.recPair k).b1.head.gen = ((s.recPair k).b0.head.gen + 1) % 2 ^ 32 ∧ (u.recPair k).b1.content = c ∧
          (u.recPair k).b1.state k = 1 ∧ (u.recPair k).b0 = (s.recPair k).b0) ∧
        (s.newestOf k = none → (u.recPair k).b0.head.gen = 1 ∧ (u.recPair k).b0.content = c ∧ (u.recPair k).b0.state k = 1 ∧
          (u.recPair k).b1 = (s.recPair k).b1) ∧
        (∀ j ∈ allKinds, j ∉ s.keep.writing.map (·.1) → u.recPair j = s.recPair j) ∧ Only [.keep, .draws, .reg A.keepEvt, .reg A.keepCntCommit] [] s u) ∧
  -- COMMIT_DONE with a further commit asked for (R362): that one begins at once, of the records of its kinds that differ from their newest copies.
  (∀ (s : State),
    s.on = true → s.keep.busy = true → s.keep.again ≠ [] →
      ∃ u, Sys2Proof.Machine.exec .commitDone s = .next u ∧
        u.keep.busy = true ∧ u.keep.again = [] ∧ u.b A.keepEvt 0 = true ∧
        (∀ j ∈ s.keep.again, u.keep.writing.lookup j = if ((u.validOf j).map (·.content)) = some (u.content j) then none else some (u.content j)) ∧
        (∀ j ∈ u.keep.writing.map (·.1), j ∈ s.keep.again) ∧ Only [.keep, .draws, .reg A.keepEvt, .reg A.keepCntCommit] [] s u) ∧
  -- KEEP_VERIFY, and KEEP_VERIFY_PERIOD once its interval has passed, start a verification (R366).
  (∀ (s : State) (c : Instr),
    s.on = true → (c = .keepVerify ∨ (c = .keepVerifyPeriod ∧
        s.keep.lastVerify + clampN 1 168 (s.f A.keepVerify 7 0) * 3600 * 10 ^ 9 ≤ s.tarn)) →
      ∃ u, Sys2Proof.Machine.exec c s = .next u ∧ u.keep = { s.keep with verifying := true, lastVerify := s.tarn } ∧ Only [.keep] [] s u) ∧
  -- VERIFY_DONE with every copy as it was written ends the verification, and changes no record (R366).
  (∀ (s : State),
    s.on = true → s.keep.verifying = true → s.keep.recs.length = 7 → copiesHold s = true →
      ∃ u, Sys2Proof.Machine.exec (.verifyDone []) s = .next u ∧ u.keep = { s.keep with verifying := false } ∧ Only [.keep] [] s u) ∧
  -- VERIFY_DONE that finds one copy bad (R361, R366): it is counted, COPY_BAD is raised, and it is written again from its valid partner with a generation
  -- one more; the partner stays.
  (∀ (s : State) (k : Fin 7) (b : Bool) (o : Nat) (m : Byte),
    s.on = true → s.keep.verifying = true → s.keep.recs.length = 7 → copiesHold s = true →
      (s.recPair (k.val + 1)).b0.state (k.val + 1) = 1 → (s.recPair (k.val + 1)).b1.state (k.val + 1) = 1 →
      (((s.recPair (k.val + 1)).bank b).flip o m).state (k.val + 1) = 2 →
      ∃ u, Sys2Proof.Machine.exec (.verifyDone [(k, b, o, m)]) s = .next u ∧
        (u.rd A.keepCntBad).toNat = min 0xFFFFFFFF ((s.rd A.keepCntBad).toNat + 1) ∧ u.b A.keepEvt 1 = true ∧ u.b A.keepEvt 3 = true ∧
        u.keep.verifying = false ∧
        (u.recPair (k.val + 1)).bank (!b) = (s.recPair (k.val + 1)).bank (!b) ∧ ((u.recPair (k.val + 1)).bank b).state (k.val + 1) = 1 ∧
        ((u.recPair (k.val + 1)).bank b).head.gen = (((s.recPair (k.val + 1)).bank (!b)).head.gen + 1) % 2 ^ 32 ∧
        ((u.recPair (k.val + 1)).bank b).content = ((s.recPair (k.val + 1)).bank (!b)).content ∧
        ((u.recPair (k.val + 1)).bank b).payload = ((s.recPair (k.val + 1)).bank (!b)).payload.take ((s.recPair (k.val + 1)).bank (!b)).head.len ∧
        (∀ j ∈ allKinds, j ≠ k.val + 1 → u.recPair j = s.recPair j) ∧
        Only [.keep, .draws, .reg A.keepEvt, .reg A.keepCntBad, .reg A.keepCntCommit] [] s u) ∧
  -- VERIFY_DONE that finds both copies of a record bad (R366): both are counted, COPY_BAD is raised, and nothing can be repaired.
  (∀ (s : State) (k : Fin 7) (o : Nat) (m : Byte),
    s.on = true → s.keep.verifying = true → s.keep.recs.length = 7 → copiesHold s = true →
      (s.recPair (k.val + 1)).b0.state (k.val + 1) = 1 → (s.recPair (k.val + 1)).b1.state (k.val + 1) = 1 →
      ((s.recPair (k.val + 1)).b0.flip o m).state (k.val + 1) = 2 → ((s.recPair (k.val + 1)).b1.flip o m).state (k.val + 1) = 2 →
      ∃ u, Sys2Proof.Machine.exec (.verifyDone [(k, false, o, m), (k, true, o, m)]) s = .next u ∧
        (u.rd A.keepCntBad).toNat = min 0xFFFFFFFF ((s.rd A.keepCntBad).toNat + 2) ∧ u.b A.keepEvt 1 = true ∧ u.b A.keepEvt 3 = s.b A.keepEvt 3 ∧
        u.keep.verifying = false ∧ (u.recPair (k.val + 1)).b0.state (k.val + 1) = 2 ∧ (u.recPair (k.val + 1)).b1.state (k.val + 1) = 2 ∧
        u.newestOf (k.val + 1) = none ∧
        (∀ j ∈ allKinds, j ≠ k.val + 1 → u.recPair j = s.recPair j) ∧ Only [.keep, .reg A.keepEvt, .reg A.keepCntBad] [] s u)

/-- Sensors and supplies are sampled with their alarms, payloads are formed, and the TAP selects its registers. Its clauses cite their rules. -/
def Obligations.TelemetrySamplesAndTap : Prop :=
  -- TEL_SAMPLE (R357, R368): the sensors, the monitors and the power estimate read what was sampled; a sensor above its limit raises its alarm while it is
  -- armed and disarms it; one 5 °C below its limit arms it again; a required supply out of its limits raises its alarm while it is armed; the power alarm
  -- is raised with the fabric's clock running, and in Doze and Still it and its arming stand.
  (∀ (s : State) (temps : Vector (BitVec 16) 16) (volts : Vector (BitVec 16) 24) (power : BitVec 20),
    s.power.st ≠ .off → s.power.held = false →
      ∃ u, Sys2Proof.Machine.exec (.telSample temps volts power) s = .next u ∧
        (∀ i : Fin 16, u.f (A.telT i) 15 0 = (temps[i]).toNat) ∧ (∀ j : Fin 24, u.f (A.telV j) 15 0 = (volts[j]).toNat) ∧
        (u.rd A.telPower).toNat = power.toNat ∧
        (∀ i : Fin 16,
          let lim := sx 16 (s.f (A.telTAlarm i) 15 0)
          (lim < (temps[i]).toInt → s.power.armedT.testBit i = true → u.b A.telThermEvt i = true ∧ u.b A.twbtAlert 0 = true) ∧
          (u.power.armedT.testBit i = if lim < (temps[i]).toInt then false
            else if (temps[i]).toInt ≤ lim - 80 then true else s.power.armedT.testBit i)) ∧
        (∀ j : Fin 24, ((volts[j]).toNat < fld (s.rd (A.telVLim j)) 15 0 ∨ fld (s.rd (A.telVLim j)) 31 16 < (volts[j]).toNat) →
          s.power.armedV.testBit j = true → s.needs j = true →
          u.b A.telSupEvt j = true ∧ u.b A.twbtAlert 1 = true ∧ u.power.armedV.testBit j = false) ∧
        (s.power.st = .on → (s.f A.telPowerLim 19 0 < power.toNat → s.power.armedP = true → u.b A.telEvt 1 = true) ∧
          u.power.armedP = decide (power.toNat ≤ s.f A.telPowerLim 19 0)) ∧
        (s.power.st ≠ .on → u.rd A.telEvt = s.rd A.telEvt ∧ u.power.armedP = s.power.armedP) ∧
        Only [.power, .reg A.twbtAlert] [.regs 0x700000] s u) ∧
  -- TEL_RECORD (R207, R369): once TEL_PERIOD has passed, the payload of Table 16.9 is formed, its totals are taken and RECORD is raised; every enabled
  -- statistics stream with TEL is given the payload, behind those that wait there, and carries the oldest one as a TYPE 4 record, or, while it cannot,
  -- keeps them.
  (∀ (s : State) (p : Bytes),
    s.on = true → s.f A.telPeriod 15 0 ≠ 0 → s.power.lastTelRec + ms (s.f A.telPeriod 15 0) ≤ s.now → telLayout s p →
      ∃ u, Sys2Proof.Machine.exec .telRecord s = .next u ∧
        u.power = { s.power with lastTelRec := s.now, telPrev := telClasses.map s.telTotal, telDown := 0 } ∧ u.b A.telEvt 0 = true ∧
        (∀ n : Fin 16, s.isStats n = true → s.outOn n = true → s.b (A.outCtl n) 24 = true →
          let q := ((s.out[n]).tel ++ [p]).headD []
          (telGoes s n q.length = true → (u.out[n]).tel = ((s.out[n]).tel ++ [p]).drop 1 ∧ ((u.out[n]).pond).dropLast = (s.out[n]).pond ∧
            ((u.out[n]).pond.getLast?).map (fun r => (r.type, (r.bytes.drop (headBytes (s.recFmt n))).take q.length,
                r.tag.time, r.bytes.length)) =
              some (4, q, (s.stamp ((s.group (s.stream n).group).refSpring) s.now {}).time, headBytes (s.recFmt n) + (padTo 4 q).length + 4)) ∧
          (telGoes s n q.length = false → (u.out[n]).tel = (s.out[n]).tel ++ [p] ∧ (u.out[n]).pond = (s.out[n]).pond)) ∧
        (∀ n : Fin 16, (s.isStats n && s.outOn n && s.b (A.outCtl n) 24) = false → u.out[n] = s.out[n]) ∧
        Only [.power, .draws, .reg A.telEvt] [.regs 0x480000, .regs 0x600000, .streams] s u) ∧
  -- JTAG EXTEST, HIGHZ and CLAMP (`k` 0, 1, 2) take the balls while RESET_L is low, and act as BYPASS while it is high (R398, R399): under HIGHZ every
  -- ball that the device can drive is high-impedance; under EXTEST and CLAMP it carries its data cell's value while its enable cell is 1; under BYPASS
  -- what the device drives.
  (∀ (s : State) (k : Fin 3),
    s.tapRuns = true →
      ∃ u, Sys2Proof.Machine.exec (if k = 0 then .jtagExtest else if k = 1 then .jtagHighz else .jtagClamp) s = .next u ∧
        u.power.jtag = { s.power.jtag with
          ir := if s.power.resetLow then (if k = 0 then 0 else if k = 1 then 3 else 4) else 31
          bypass := if s.power.resetLow then s.power.jtag.bypass else false } ∧
        u.tapHolds = s.power.resetLow ∧
        (∀ b ∈ scanBalls, u.ball b = (if s.power.resetLow = false then s.driven b else if k = 1 then .highZ
          else if s.power.jtag.cells.getD (Config.scanCells b.index).2 false then .level (s.power.jtag.cells.getD (Config.scanCells b.index).1 false)
          else .highZ)) ∧ Only [.power] [] s u) ∧
  -- JTAG SAMPLE/PRELOAD selects the boundary cells, which shift out the levels of the driven balls while the new values shift in; BYPASS selects the
  -- bypass register, which captures 0; and Test-Logic-Reset selects IDCODE (R398).
  (∀ (s : State) (cells : List Bool) (opcode : Fin 32),
    s.tapRuns = true →
      (∃ u, Sys2Proof.Machine.exec (.jtagSamplePreload cells) s = .next u ∧
        u.power.jtag = { s.power.jtag with ir := 1, cells := cells } ∧ u.sent.drop 1 = s.sent ∧
        (match u.sent.head? with
          | some (.jtag bits) => bits.length == cells.length && (List.range cells.length).all (fun k =>
            (scanBalls.find? (fun b => (Config.scanCells b.index).1 == k)).all (fun b =>
              (s.ball b != .low || bits.getD k true == false) && (s.ball b != .high || bits.getD k false == true)))
          | _ => false) = true ∧ Only [.power, .sent, .draws] [] s u) ∧
      (4 < opcode.val → ∃ u, Sys2Proof.Machine.exec (.jtagBypass opcode) s = .next u ∧ u.power.jtag = { s.power.jtag with ir := 31, bypass := false } ∧ Only [.power] [] s u) ∧
      ∃ u, Sys2Proof.Machine.exec .jtagTestLogicReset s = .next u ∧ u.power.jtag = { s.power.jtag with ir := 2 } ∧ Only [.power] [] s u) ∧
  -- JTAG IDCODE shifts out 32 bits, the one first: manufacturer 0x2B9, part 0x0632 and the stepping (R398).
  (∀ (s : State),
    s.tapRuns = true →
      ∃ u, Sys2Proof.Machine.exec .jtagIdcode s = .next u ∧
        u.power.jtag = { s.power.jtag with ir := 2 } ∧
        u.sent = .jtag ((List.range 32).map (s.power.stepping % 16 * 0x10000000 + 0x00632573).testBit) :: s.sent ∧
        Only [.power, .sent] [] s u) ∧
  -- TEL_SAMPLE in Off or in reset, TEL_RECORD with TEL_PERIOD 0 or before it has passed, and an instruction of a TAP without VDD_CORE or VDD_IO, or in
  -- Still, do nothing (R368, R369, R398); nor does the crystal in Off or once it runs, or the selection of BYPASS by an opcode that names an instruction.
  (∀ (s : State) (temps : Vector (BitVec 16) 16) (volts : Vector (BitVec 16) 24) (power : BitVec 20) (cells : List Bool) (op : Fin 32),
    (s.power.st = .off ∨ s.power.held = true → Sys2Proof.Machine.exec (.telSample temps volts power) s = .next s) ∧
    (s.f A.telPeriod 15 0 = 0 ∨ s.now < s.power.lastTelRec + ms (s.f A.telPeriod 15 0) → Sys2Proof.Machine.exec .telRecord s = .next s) ∧
    (s.power.low.any (fun j => decide (j < 8) || decide (22 ≤ j)) = true ∨ s.power.st = .still → Sys2Proof.Machine.exec .jtagExtest s = .next s ∧ Sys2Proof.Machine.exec .jtagHighz s = .next s ∧
      Sys2Proof.Machine.exec .jtagClamp s = .next s ∧ Sys2Proof.Machine.exec .jtagIdcode s = .next s ∧ Sys2Proof.Machine.exec (.jtagSamplePreload cells) s = .next s ∧ Sys2Proof.Machine.exec (.jtagBypass op) s = .next s ∧ Sys2Proof.Machine.exec .jtagTestLogicReset s = .next s) ∧
    (op.val ≤ 4 → Sys2Proof.Machine.exec (.jtagBypass op) s = .next s) ∧ (s.power.st = .off ∨ s.power.crystalAt ≠ none → Sys2Proof.Machine.exec .tarnCrystalStarted s = .next s))
end

