-- ==== Sys2Proof/Laws/Cells.lean ====
section
/-! SUPPORT. Laws of the sparse stores: reading after writing, and the canonical form, which every operation keeps. -/

namespace Sys2Proof.Machine
open Sys2Proof

variable {α : Type} {d : Nat → α}

theorem cellGet_cellInsert (m : List (Nat × α)) (a b : Nat) (v : α) (h : ∀ x ∈ m, x.1 ≠ a) :
    cellGet d (cellInsert m a v) b = if b = a then v else cellGet d m b := by
  induction m with
  | nil => simp [cellInsert, cellGet]
  | cons x m ih =>
    obtain ⟨c, w⟩ := x
    have hc : c ≠ a := h (c, w) (by simp)
    have hm := ih (fun y hy => h y (by simp [hy]))
    simp only [cellInsert]
    split
    · simp [cellGet]
    · simp only [cellGet, hm]
      split_ifs <;> simp_all

theorem cellGet_filter_ne (m : List (Nat × α)) (a b : Nat) :
    cellGet d (m.filter (fun x => x.1 != a)) b = if b = a then d b else cellGet d m b := by
  induction m with
  | nil => simp [cellGet]
  | cons x m ih =>
    obtain ⟨c, w⟩ := x
    by_cases hc : c = a
    · subst hc
      simp only [List.filter_cons, bne_self_eq_false, Bool.false_eq_true, if_false, ih, cellGet]
      split_ifs <;> simp_all
    · simp only [List.filter_cons, bne_iff_ne, ne_eq, hc, not_false_eq_true, if_true, cellGet, ih]
      split_ifs <;> simp_all

variable [DecidableEq α]

/-- A read after a write, of any address, in any list. -/
theorem cellGet_cellSet (m : List (Nat × α)) (a b : Nat) (v : α) :
    cellGet d (cellSet d m a v) b = if b = a then v else cellGet d m b := by
  unfold cellSet
  split
  · rw [cellGet_filter_ne]; split_ifs <;> simp_all
  · rw [cellGet_cellInsert _ _ _ _ (by simp), cellGet_filter_ne]; split_ifs <;> simp_all

theorem cellWfFrom_mono {lo k : Nat} {m : List (Nat × α)} (h : cellWfFrom d k m = true) (hl : lo ≤ k) :
    cellWfFrom d lo m = true := by
  cases m with
  | nil => rfl
  | cons x m => obtain ⟨b, v⟩ := x; simp_all [cellWfFrom]; omega

theorem cellWfFrom_filter {p : Nat × α → Bool} {lo : Nat} {m : List (Nat × α)} (h : cellWfFrom d lo m = true) :
    cellWfFrom d lo (m.filter p) = true := by
  induction m generalizing lo with
  | nil => rfl
  | cons x m ih =>
    obtain ⟨b, v⟩ := x
    simp only [cellWfFrom, Bool.and_eq_true, decide_eq_true_eq] at h
    simp only [List.filter_cons]
    split
    · simp [cellWfFrom, h.1.1, h.1.2, ih h.2]
    · exact cellWfFrom_mono (ih h.2) (by omega)

theorem cellWfFrom_insert {lo : Nat} {m : List (Nat × α)} {a : Nat} {v : α} (h : cellWfFrom d lo m = true)
    (hn : ∀ x ∈ m, x.1 ≠ a) (hl : lo ≤ a) (hv : v ≠ d a) : cellWfFrom d lo (cellInsert m a v) = true := by
  induction m generalizing lo with
  | nil => simp [cellInsert, cellWfFrom, hl, hv]
  | cons x m ih =>
    obtain ⟨b, w⟩ := x
    have hb : b ≠ a := hn (b, w) (by simp)
    simp only [cellWfFrom, Bool.and_eq_true, decide_eq_true_eq] at h
    simp only [cellInsert]
    split
    · simp only [cellWfFrom, Bool.and_eq_true, decide_eq_true_eq]
      exact ⟨⟨hl, hv⟩, ⟨by omega, h.1.2⟩, h.2⟩
    · simp only [cellWfFrom, Bool.and_eq_true, decide_eq_true_eq]
      exact ⟨h.1, ih h.2 (fun y hy => hn y (by simp [hy])) (by omega)⟩

/-- A write keeps the canonical form. -/
theorem cellWf_cellSet {m : List (Nat × α)} (a : Nat) (v : α) (h : cellWf d m = true) : cellWf d (cellSet d m a v) = true := by
  unfold cellSet
  split
  · exact cellWfFrom_filter h
  · exact cellWfFrom_insert (cellWfFrom_filter h) (by simp) (by omega) ‹_›

/-- Dropping entries keeps the canonical form. -/
theorem cellWf_filter {p : Nat × α → Bool} {m : List (Nat × α)} (h : cellWf d m = true) : cellWf d (m.filter p) = true :=
  cellWfFrom_filter h

/-- A store of bytes keeps the canonical form. -/
theorem memory_wf_lakeStore (bs : Bytes) (m : List Host.Cell) (a : Nat) (h : Memory.wf m = true) :
    Memory.wf (lakeStore m a bs) = true := by
  induction bs generalizing m a with
  | nil => exact h
  | cons b bs ih => exact ih _ _ (cellWf_cellSet a b h)

theorem memory_wf_lakeSet (s : State) (a : Nat) (v : Byte) (h : Memory.wf s.lake = true) : Memory.wf (s.lakeSet a v).lake = true :=
  cellWf_cellSet a v h

theorem memory_wf_lakeWrite (s : State) (a : Nat) (bs : Bytes) (h : Memory.wf s.lake = true) :
    Memory.wf (s.lakeWrite a bs).lake = true := memory_wf_lakeStore bs s.lake a h

/-- A byte after a store: the stored byte inside the range, and the byte that was there outside it. -/
theorem cellGet_lakeStore (bs : Bytes) (m : List Host.Cell) (a b : Nat) :
    cellGet lakeDef (lakeStore m a bs) b =
      if a ≤ b ∧ b < a + bs.length then bs.getD (b - a) 0#8 else cellGet lakeDef m b := by
  induction bs generalizing m a with
  | nil =>
    simp only [lakeStore, List.length_nil, Nat.add_zero]
    rw [if_neg (by omega)]
  | cons x bs ih =>
    simp only [lakeStore, ih, cellGet_cellSet, List.length_cons]
    by_cases hb : b = a
    · subst hb; simp
    · by_cases h1 : a + 1 ≤ b ∧ b < a + 1 + bs.length
      · have h2 : a ≤ b ∧ b < a + (bs.length + 1) := by omega
        rw [if_pos h1, if_pos h2]
        obtain ⟨k, hk⟩ : ∃ k, b - a = k + 1 := ⟨b - a - 1, by omega⟩
        rw [hk, show b - (a + 1) = k by omega]; simp
      · have h2 : ¬(a ≤ b ∧ b < a + (bs.length + 1)) := by omega
        rw [if_neg h1, if_neg h2, if_neg hb]

/-- The byte of the Lake at any address after a write. -/
theorem lakeGet_lakeWrite (s : State) (a b : Nat) (bs : Bytes) :
    (s.lakeWrite a bs).lakeGet b = if a ≤ b ∧ b < a + bs.length then bs.getD (b - a) 0#8 else s.lakeGet b :=
  cellGet_lakeStore bs s.lake a b

/-- The register at any address after a write. -/
theorem rd_wr (s : State) (a b : Nat) (v : Word) : (s.wr a v).rd b = if b = a then v else s.rd b := cellGet_cellSet s.regs a b v

@[simp] theorem rd_wr_same (s : State) (a : Nat) (v : Word) : (s.wr a v).rd a = v := by simp [rd_wr]

theorem rd_wr_ne (s : State) {a b : Nat} (v : Word) (h : b ≠ a) : (s.wr a v).rd b = s.rd b := by simp [rd_wr, h]

/-- The table entry at any address after a write. -/
theorem tbl_tblSet (s : State) (a b : Nat) (v : Word) : (s.tblSet a v).tbl b = if b = a then v else s.tbl b :=
  cellGet_cellSet s.tables a b v

/-- Staging keeps the registers staged once each. -/
theorem staged_nodup_stage (s : State) (a : Nat) (v : Word) (h : (s.staged.map (·.1)).Nodup) :
    ((s.stage a v).staged.map (·.1)).Nodup := by
  simp only [State.stage, List.map_cons, List.nodup_cons]
  refine ⟨by simp, ?_⟩
  exact h.sublist (List.Sublist.map _ List.filter_sublist)

end Sys2Proof.Machine
end

