-- ==== Sys2Proof/Laws/State.lean ====
section
/-! SUPPORT. What each update of the state leaves: one lemma per field per update, and the reads of a register, a byte of the Lake and a
table entry after an update of something else. -/

namespace Sys2Proof.Machine
open Sys2Proof

/-! `State.wr` changes `regs` alone. -/

@[simp] theorem State.wr_pending (s : State) (a : Nat) (v : Word) : (s.wr a v).pending = s.pending := rfl
@[simp] theorem State.wr_now (s : State) (a : Nat) (v : Word) : (s.wr a v).now = s.now := rfl
@[simp] theorem State.wr_tarn (s : State) (a : Nat) (v : Word) : (s.wr a v).tarn = s.tarn := rfl
@[simp] theorem State.wr_staged (s : State) (a : Nat) (v : Word) : (s.wr a v).staged = s.staged := rfl
@[simp] theorem State.wr_commits (s : State) (a : Nat) (v : Word) : (s.wr a v).commits = s.commits := rfl
@[simp] theorem State.wr_latch (s : State) (a : Nat) (v : Word) : (s.wr a v).latch = s.latch := rfl
@[simp] theorem State.wr_power (s : State) (a : Nat) (v : Word) : (s.wr a v).power = s.power := rfl
@[simp] theorem State.wr_keep (s : State) (a : Nat) (v : Word) : (s.wr a v).keep = s.keep := rfl
@[simp] theorem State.wr_sic (s : State) (a : Nat) (v : Word) : (s.wr a v).sic = s.sic := rfl
@[simp] theorem State.wr_str (s : State) (a : Nat) (v : Word) : (s.wr a v).str = s.str := rfl
@[simp] theorem State.wr_ctl (s : State) (a : Nat) (v : Word) : (s.wr a v).ctl = s.ctl := rfl
@[simp] theorem State.wr_stalls (s : State) (a : Nat) (v : Word) : (s.wr a v).stalls = s.stalls := rfl
@[simp] theorem State.wr_sources (s : State) (a : Nat) (v : Word) : (s.wr a v).sources = s.sources := rfl
@[simp] theorem State.wr_targets (s : State) (a : Nat) (v : Word) : (s.wr a v).targets = s.targets := rfl
@[simp] theorem State.wr_tb (s : State) (a : Nat) (v : Word) : (s.wr a v).tb = s.tb := rfl
@[simp] theorem State.wr_wp (s : State) (a : Nat) (v : Word) : (s.wr a v).wp = s.wp := rfl
@[simp] theorem State.wr_ltg (s : State) (a : Nat) (v : Word) : (s.wr a v).ltg = s.ltg := rfl
@[simp] theorem State.wr_gpio (s : State) (a : Nat) (v : Word) : (s.wr a v).gpio = s.gpio := rfl
@[simp] theorem State.wr_ptp (s : State) (a : Nat) (v : Word) : (s.wr a v).ptp = s.ptp := rfl
@[simp] theorem State.wr_spr (s : State) (a : Nat) (v : Word) : (s.wr a v).spr = s.spr := rfl
@[simp] theorem State.wr_grp (s : State) (a : Nat) (v : Word) : (s.wr a v).grp = s.grp := rfl
@[simp] theorem State.wr_twb (s : State) (a : Nat) (v : Word) : (s.wr a v).twb = s.twb := rfl
@[simp] theorem State.wr_engs (s : State) (a : Nat) (v : Word) : (s.wr a v).engs = s.engs := rfl
@[simp] theorem State.wr_engine (s : State) (a : Nat) (v : Word) : (s.wr a v).engine = s.engine := rfl
@[simp] theorem State.wr_seam (s : State) (a : Nat) (v : Word) : (s.wr a v).seam = s.seam := rfl
@[simp] theorem State.wr_tnr (s : State) (a : Nat) (v : Word) : (s.wr a v).tnr = s.tnr := rfl
@[simp] theorem State.wr_tally (s : State) (a : Nat) (v : Word) : (s.wr a v).tally = s.tally := rfl
@[simp] theorem State.wr_load (s : State) (a : Nat) (v : Word) : (s.wr a v).load = s.load := rfl
@[simp] theorem State.wr_tables (s : State) (a : Nat) (v : Word) : (s.wr a v).tables = s.tables := rfl
@[simp] theorem State.wr_out (s : State) (a : Nat) (v : Word) : (s.wr a v).out = s.out := rfl
@[simp] theorem State.wr_xpt (s : State) (a : Nat) (v : Word) : (s.wr a v).xpt = s.xpt := rfl
@[simp] theorem State.wr_drains (s : State) (a : Nat) (v : Word) : (s.wr a v).drains = s.drains := rfl
@[simp] theorem State.wr_links (s : State) (a : Nat) (v : Word) : (s.wr a v).links = s.links := rfl
@[simp] theorem State.wr_portMode (s : State) (a : Nat) (v : Word) : (s.wr a v).portMode = s.portMode := rfl
@[simp] theorem State.wr_lakeCtl (s : State) (a : Nat) (v : Word) : (s.wr a v).lakeCtl = s.lakeCtl := rfl
@[simp] theorem State.wr_crc (s : State) (a : Nat) (v : Word) : (s.wr a v).crc = s.crc := rfl
@[simp] theorem State.wr_netPonds (s : State) (a : Nat) (v : Word) : (s.wr a v).netPonds = s.netPonds := rfl
@[simp] theorem State.wr_chains (s : State) (a : Nat) (v : Word) : (s.wr a v).chains = s.chains := rfl
@[simp] theorem State.wr_readPtr (s : State) (a : Nat) (v : Word) : (s.wr a v).readPtr = s.readPtr := rfl
@[simp] theorem State.wr_releases (s : State) (a : Nat) (v : Word) : (s.wr a v).releases = s.releases := rfl
@[simp] theorem State.wr_resets (s : State) (a : Nat) (v : Word) : (s.wr a v).resets = s.resets := rfl
@[simp] theorem State.wr_edges (s : State) (a : Nat) (v : Word) : (s.wr a v).edges = s.edges := rfl
@[simp] theorem State.wr_lake (s : State) (a : Nat) (v : Word) : (s.wr a v).lake = s.lake := rfl
@[simp] theorem State.wr_draws (s : State) (a : Nat) (v : Word) : (s.wr a v).draws = s.draws := rfl
@[simp] theorem State.wr_sent (s : State) (a : Nat) (v : Word) : (s.wr a v).sent = s.sent := rfl
@[simp] theorem State.wr_lakeGet (s : State) (a : Nat) (v : Word) (r : Nat) : (s.wr a v).lakeGet r = s.lakeGet r := rfl
@[simp] theorem State.wr_tbl (s : State) (a : Nat) (v : Word) (r : Nat) : (s.wr a v).tbl r = s.tbl r := rfl

/-! `State.tblSet` changes `tables` alone. -/

@[simp] theorem State.tblSet_pending (s : State) (a : Nat) (v : Word) : (s.tblSet a v).pending = s.pending := rfl
@[simp] theorem State.tblSet_now (s : State) (a : Nat) (v : Word) : (s.tblSet a v).now = s.now := rfl
@[simp] theorem State.tblSet_tarn (s : State) (a : Nat) (v : Word) : (s.tblSet a v).tarn = s.tarn := rfl
@[simp] theorem State.tblSet_regs (s : State) (a : Nat) (v : Word) : (s.tblSet a v).regs = s.regs := rfl
@[simp] theorem State.tblSet_staged (s : State) (a : Nat) (v : Word) : (s.tblSet a v).staged = s.staged := rfl
@[simp] theorem State.tblSet_commits (s : State) (a : Nat) (v : Word) : (s.tblSet a v).commits = s.commits := rfl
@[simp] theorem State.tblSet_latch (s : State) (a : Nat) (v : Word) : (s.tblSet a v).latch = s.latch := rfl
@[simp] theorem State.tblSet_power (s : State) (a : Nat) (v : Word) : (s.tblSet a v).power = s.power := rfl
@[simp] theorem State.tblSet_keep (s : State) (a : Nat) (v : Word) : (s.tblSet a v).keep = s.keep := rfl
@[simp] theorem State.tblSet_sic (s : State) (a : Nat) (v : Word) : (s.tblSet a v).sic = s.sic := rfl
@[simp] theorem State.tblSet_str (s : State) (a : Nat) (v : Word) : (s.tblSet a v).str = s.str := rfl
@[simp] theorem State.tblSet_ctl (s : State) (a : Nat) (v : Word) : (s.tblSet a v).ctl = s.ctl := rfl
@[simp] theorem State.tblSet_stalls (s : State) (a : Nat) (v : Word) : (s.tblSet a v).stalls = s.stalls := rfl
@[simp] theorem State.tblSet_sources (s : State) (a : Nat) (v : Word) : (s.tblSet a v).sources = s.sources := rfl
@[simp] theorem State.tblSet_targets (s : State) (a : Nat) (v : Word) : (s.tblSet a v).targets = s.targets := rfl
@[simp] theorem State.tblSet_tb (s : State) (a : Nat) (v : Word) : (s.tblSet a v).tb = s.tb := rfl
@[simp] theorem State.tblSet_wp (s : State) (a : Nat) (v : Word) : (s.tblSet a v).wp = s.wp := rfl
@[simp] theorem State.tblSet_ltg (s : State) (a : Nat) (v : Word) : (s.tblSet a v).ltg = s.ltg := rfl
@[simp] theorem State.tblSet_gpio (s : State) (a : Nat) (v : Word) : (s.tblSet a v).gpio = s.gpio := rfl
@[simp] theorem State.tblSet_ptp (s : State) (a : Nat) (v : Word) : (s.tblSet a v).ptp = s.ptp := rfl
@[simp] theorem State.tblSet_spr (s : State) (a : Nat) (v : Word) : (s.tblSet a v).spr = s.spr := rfl
@[simp] theorem State.tblSet_grp (s : State) (a : Nat) (v : Word) : (s.tblSet a v).grp = s.grp := rfl
@[simp] theorem State.tblSet_twb (s : State) (a : Nat) (v : Word) : (s.tblSet a v).twb = s.twb := rfl
@[simp] theorem State.tblSet_engs (s : State) (a : Nat) (v : Word) : (s.tblSet a v).engs = s.engs := rfl
@[simp] theorem State.tblSet_engine (s : State) (a : Nat) (v : Word) : (s.tblSet a v).engine = s.engine := rfl
@[simp] theorem State.tblSet_seam (s : State) (a : Nat) (v : Word) : (s.tblSet a v).seam = s.seam := rfl
@[simp] theorem State.tblSet_tnr (s : State) (a : Nat) (v : Word) : (s.tblSet a v).tnr = s.tnr := rfl
@[simp] theorem State.tblSet_tally (s : State) (a : Nat) (v : Word) : (s.tblSet a v).tally = s.tally := rfl
@[simp] theorem State.tblSet_load (s : State) (a : Nat) (v : Word) : (s.tblSet a v).load = s.load := rfl
@[simp] theorem State.tblSet_out (s : State) (a : Nat) (v : Word) : (s.tblSet a v).out = s.out := rfl
@[simp] theorem State.tblSet_xpt (s : State) (a : Nat) (v : Word) : (s.tblSet a v).xpt = s.xpt := rfl
@[simp] theorem State.tblSet_drains (s : State) (a : Nat) (v : Word) : (s.tblSet a v).drains = s.drains := rfl
@[simp] theorem State.tblSet_links (s : State) (a : Nat) (v : Word) : (s.tblSet a v).links = s.links := rfl
@[simp] theorem State.tblSet_portMode (s : State) (a : Nat) (v : Word) : (s.tblSet a v).portMode = s.portMode := rfl
@[simp] theorem State.tblSet_lakeCtl (s : State) (a : Nat) (v : Word) : (s.tblSet a v).lakeCtl = s.lakeCtl := rfl
@[simp] theorem State.tblSet_crc (s : State) (a : Nat) (v : Word) : (s.tblSet a v).crc = s.crc := rfl
@[simp] theorem State.tblSet_netPonds (s : State) (a : Nat) (v : Word) : (s.tblSet a v).netPonds = s.netPonds := rfl
@[simp] theorem State.tblSet_chains (s : State) (a : Nat) (v : Word) : (s.tblSet a v).chains = s.chains := rfl
@[simp] theorem State.tblSet_readPtr (s : State) (a : Nat) (v : Word) : (s.tblSet a v).readPtr = s.readPtr := rfl
@[simp] theorem State.tblSet_releases (s : State) (a : Nat) (v : Word) : (s.tblSet a v).releases = s.releases := rfl
@[simp] theorem State.tblSet_resets (s : State) (a : Nat) (v : Word) : (s.tblSet a v).resets = s.resets := rfl
@[simp] theorem State.tblSet_edges (s : State) (a : Nat) (v : Word) : (s.tblSet a v).edges = s.edges := rfl
@[simp] theorem State.tblSet_lake (s : State) (a : Nat) (v : Word) : (s.tblSet a v).lake = s.lake := rfl
@[simp] theorem State.tblSet_draws (s : State) (a : Nat) (v : Word) : (s.tblSet a v).draws = s.draws := rfl
@[simp] theorem State.tblSet_sent (s : State) (a : Nat) (v : Word) : (s.tblSet a v).sent = s.sent := rfl
@[simp] theorem State.tblSet_rd (s : State) (a : Nat) (v : Word) (r : Nat) : (s.tblSet a v).rd r = s.rd r := rfl
@[simp] theorem State.tblSet_lakeGet (s : State) (a : Nat) (v : Word) (r : Nat) : (s.tblSet a v).lakeGet r = s.lakeGet r := rfl

/-! `State.stage` changes `staged` alone. -/

@[simp] theorem State.stage_pending (s : State) (a : Nat) (v : Word) : (s.stage a v).pending = s.pending := rfl
@[simp] theorem State.stage_now (s : State) (a : Nat) (v : Word) : (s.stage a v).now = s.now := rfl
@[simp] theorem State.stage_tarn (s : State) (a : Nat) (v : Word) : (s.stage a v).tarn = s.tarn := rfl
@[simp] theorem State.stage_regs (s : State) (a : Nat) (v : Word) : (s.stage a v).regs = s.regs := rfl
@[simp] theorem State.stage_commits (s : State) (a : Nat) (v : Word) : (s.stage a v).commits = s.commits := rfl
@[simp] theorem State.stage_latch (s : State) (a : Nat) (v : Word) : (s.stage a v).latch = s.latch := rfl
@[simp] theorem State.stage_power (s : State) (a : Nat) (v : Word) : (s.stage a v).power = s.power := rfl
@[simp] theorem State.stage_keep (s : State) (a : Nat) (v : Word) : (s.stage a v).keep = s.keep := rfl
@[simp] theorem State.stage_sic (s : State) (a : Nat) (v : Word) : (s.stage a v).sic = s.sic := rfl
@[simp] theorem State.stage_str (s : State) (a : Nat) (v : Word) : (s.stage a v).str = s.str := rfl
@[simp] theorem State.stage_ctl (s : State) (a : Nat) (v : Word) : (s.stage a v).ctl = s.ctl := rfl
@[simp] theorem State.stage_stalls (s : State) (a : Nat) (v : Word) : (s.stage a v).stalls = s.stalls := rfl
@[simp] theorem State.stage_sources (s : State) (a : Nat) (v : Word) : (s.stage a v).sources = s.sources := rfl
@[simp] theorem State.stage_targets (s : State) (a : Nat) (v : Word) : (s.stage a v).targets = s.targets := rfl
@[simp] theorem State.stage_tb (s : State) (a : Nat) (v : Word) : (s.stage a v).tb = s.tb := rfl
@[simp] theorem State.stage_wp (s : State) (a : Nat) (v : Word) : (s.stage a v).wp = s.wp := rfl
@[simp] theorem State.stage_ltg (s : State) (a : Nat) (v : Word) : (s.stage a v).ltg = s.ltg := rfl
@[simp] theorem State.stage_gpio (s : State) (a : Nat) (v : Word) : (s.stage a v).gpio = s.gpio := rfl
@[simp] theorem State.stage_ptp (s : State) (a : Nat) (v : Word) : (s.stage a v).ptp = s.ptp := rfl
@[simp] theorem State.stage_spr (s : State) (a : Nat) (v : Word) : (s.stage a v).spr = s.spr := rfl
@[simp] theorem State.stage_grp (s : State) (a : Nat) (v : Word) : (s.stage a v).grp = s.grp := rfl
@[simp] theorem State.stage_twb (s : State) (a : Nat) (v : Word) : (s.stage a v).twb = s.twb := rfl
@[simp] theorem State.stage_engs (s : State) (a : Nat) (v : Word) : (s.stage a v).engs = s.engs := rfl
@[simp] theorem State.stage_engine (s : State) (a : Nat) (v : Word) : (s.stage a v).engine = s.engine := rfl
@[simp] theorem State.stage_seam (s : State) (a : Nat) (v : Word) : (s.stage a v).seam = s.seam := rfl
@[simp] theorem State.stage_tnr (s : State) (a : Nat) (v : Word) : (s.stage a v).tnr = s.tnr := rfl
@[simp] theorem State.stage_tally (s : State) (a : Nat) (v : Word) : (s.stage a v).tally = s.tally := rfl
@[simp] theorem State.stage_load (s : State) (a : Nat) (v : Word) : (s.stage a v).load = s.load := rfl
@[simp] theorem State.stage_tables (s : State) (a : Nat) (v : Word) : (s.stage a v).tables = s.tables := rfl
@[simp] theorem State.stage_out (s : State) (a : Nat) (v : Word) : (s.stage a v).out = s.out := rfl
@[simp] theorem State.stage_xpt (s : State) (a : Nat) (v : Word) : (s.stage a v).xpt = s.xpt := rfl
@[simp] theorem State.stage_drains (s : State) (a : Nat) (v : Word) : (s.stage a v).drains = s.drains := rfl
@[simp] theorem State.stage_links (s : State) (a : Nat) (v : Word) : (s.stage a v).links = s.links := rfl
@[simp] theorem State.stage_portMode (s : State) (a : Nat) (v : Word) : (s.stage a v).portMode = s.portMode := rfl
@[simp] theorem State.stage_lakeCtl (s : State) (a : Nat) (v : Word) : (s.stage a v).lakeCtl = s.lakeCtl := rfl
@[simp] theorem State.stage_crc (s : State) (a : Nat) (v : Word) : (s.stage a v).crc = s.crc := rfl
@[simp] theorem State.stage_netPonds (s : State) (a : Nat) (v : Word) : (s.stage a v).netPonds = s.netPonds := rfl
@[simp] theorem State.stage_chains (s : State) (a : Nat) (v : Word) : (s.stage a v).chains = s.chains := rfl
@[simp] theorem State.stage_readPtr (s : State) (a : Nat) (v : Word) : (s.stage a v).readPtr = s.readPtr := rfl
@[simp] theorem State.stage_releases (s : State) (a : Nat) (v : Word) : (s.stage a v).releases = s.releases := rfl
@[simp] theorem State.stage_resets (s : State) (a : Nat) (v : Word) : (s.stage a v).resets = s.resets := rfl
@[simp] theorem State.stage_edges (s : State) (a : Nat) (v : Word) : (s.stage a v).edges = s.edges := rfl
@[simp] theorem State.stage_lake (s : State) (a : Nat) (v : Word) : (s.stage a v).lake = s.lake := rfl
@[simp] theorem State.stage_draws (s : State) (a : Nat) (v : Word) : (s.stage a v).draws = s.draws := rfl
@[simp] theorem State.stage_sent (s : State) (a : Nat) (v : Word) : (s.stage a v).sent = s.sent := rfl
@[simp] theorem State.stage_rd (s : State) (a : Nat) (v : Word) (r : Nat) : (s.stage a v).rd r = s.rd r := rfl
@[simp] theorem State.stage_lakeGet (s : State) (a : Nat) (v : Word) (r : Nat) : (s.stage a v).lakeGet r = s.lakeGet r := rfl
@[simp] theorem State.stage_tbl (s : State) (a : Nat) (v : Word) (r : Nat) : (s.stage a v).tbl r = s.tbl r := rfl

/-! `State.emit` changes `sent` alone. -/

@[simp] theorem State.emit_pending (s : State) (o : Out) : (s.emit o).pending = s.pending := rfl
@[simp] theorem State.emit_now (s : State) (o : Out) : (s.emit o).now = s.now := rfl
@[simp] theorem State.emit_tarn (s : State) (o : Out) : (s.emit o).tarn = s.tarn := rfl
@[simp] theorem State.emit_regs (s : State) (o : Out) : (s.emit o).regs = s.regs := rfl
@[simp] theorem State.emit_staged (s : State) (o : Out) : (s.emit o).staged = s.staged := rfl
@[simp] theorem State.emit_commits (s : State) (o : Out) : (s.emit o).commits = s.commits := rfl
@[simp] theorem State.emit_latch (s : State) (o : Out) : (s.emit o).latch = s.latch := rfl
@[simp] theorem State.emit_power (s : State) (o : Out) : (s.emit o).power = s.power := rfl
@[simp] theorem State.emit_keep (s : State) (o : Out) : (s.emit o).keep = s.keep := rfl
@[simp] theorem State.emit_sic (s : State) (o : Out) : (s.emit o).sic = s.sic := rfl
@[simp] theorem State.emit_str (s : State) (o : Out) : (s.emit o).str = s.str := rfl
@[simp] theorem State.emit_ctl (s : State) (o : Out) : (s.emit o).ctl = s.ctl := rfl
@[simp] theorem State.emit_stalls (s : State) (o : Out) : (s.emit o).stalls = s.stalls := rfl
@[simp] theorem State.emit_sources (s : State) (o : Out) : (s.emit o).sources = s.sources := rfl
@[simp] theorem State.emit_targets (s : State) (o : Out) : (s.emit o).targets = s.targets := rfl
@[simp] theorem State.emit_tb (s : State) (o : Out) : (s.emit o).tb = s.tb := rfl
@[simp] theorem State.emit_wp (s : State) (o : Out) : (s.emit o).wp = s.wp := rfl
@[simp] theorem State.emit_ltg (s : State) (o : Out) : (s.emit o).ltg = s.ltg := rfl
@[simp] theorem State.emit_gpio (s : State) (o : Out) : (s.emit o).gpio = s.gpio := rfl
@[simp] theorem State.emit_ptp (s : State) (o : Out) : (s.emit o).ptp = s.ptp := rfl
@[simp] theorem State.emit_spr (s : State) (o : Out) : (s.emit o).spr = s.spr := rfl
@[simp] theorem State.emit_grp (s : State) (o : Out) : (s.emit o).grp = s.grp := rfl
@[simp] theorem State.emit_twb (s : State) (o : Out) : (s.emit o).twb = s.twb := rfl
@[simp] theorem State.emit_engs (s : State) (o : Out) : (s.emit o).engs = s.engs := rfl
@[simp] theorem State.emit_engine (s : State) (o : Out) : (s.emit o).engine = s.engine := rfl
@[simp] theorem State.emit_seam (s : State) (o : Out) : (s.emit o).seam = s.seam := rfl
@[simp] theorem State.emit_tnr (s : State) (o : Out) : (s.emit o).tnr = s.tnr := rfl
@[simp] theorem State.emit_tally (s : State) (o : Out) : (s.emit o).tally = s.tally := rfl
@[simp] theorem State.emit_load (s : State) (o : Out) : (s.emit o).load = s.load := rfl
@[simp] theorem State.emit_tables (s : State) (o : Out) : (s.emit o).tables = s.tables := rfl
@[simp] theorem State.emit_out (s : State) (o : Out) : (s.emit o).out = s.out := rfl
@[simp] theorem State.emit_xpt (s : State) (o : Out) : (s.emit o).xpt = s.xpt := rfl
@[simp] theorem State.emit_drains (s : State) (o : Out) : (s.emit o).drains = s.drains := rfl
@[simp] theorem State.emit_links (s : State) (o : Out) : (s.emit o).links = s.links := rfl
@[simp] theorem State.emit_portMode (s : State) (o : Out) : (s.emit o).portMode = s.portMode := rfl
@[simp] theorem State.emit_lakeCtl (s : State) (o : Out) : (s.emit o).lakeCtl = s.lakeCtl := rfl
@[simp] theorem State.emit_crc (s : State) (o : Out) : (s.emit o).crc = s.crc := rfl
@[simp] theorem State.emit_netPonds (s : State) (o : Out) : (s.emit o).netPonds = s.netPonds := rfl
@[simp] theorem State.emit_chains (s : State) (o : Out) : (s.emit o).chains = s.chains := rfl
@[simp] theorem State.emit_readPtr (s : State) (o : Out) : (s.emit o).readPtr = s.readPtr := rfl
@[simp] theorem State.emit_releases (s : State) (o : Out) : (s.emit o).releases = s.releases := rfl
@[simp] theorem State.emit_resets (s : State) (o : Out) : (s.emit o).resets = s.resets := rfl
@[simp] theorem State.emit_edges (s : State) (o : Out) : (s.emit o).edges = s.edges := rfl
@[simp] theorem State.emit_lake (s : State) (o : Out) : (s.emit o).lake = s.lake := rfl
@[simp] theorem State.emit_draws (s : State) (o : Out) : (s.emit o).draws = s.draws := rfl
@[simp] theorem State.emit_rd (s : State) (o : Out) (r : Nat) : (s.emit o).rd r = s.rd r := rfl
@[simp] theorem State.emit_lakeGet (s : State) (o : Out) (r : Nat) : (s.emit o).lakeGet r = s.lakeGet r := rfl
@[simp] theorem State.emit_tbl (s : State) (o : Out) (r : Nat) : (s.emit o).tbl r = s.tbl r := rfl

/-! `State.lakeSet` changes `lake` alone. -/

@[simp] theorem State.lakeSet_pending (s : State) (a : Nat) (v : Byte) : (s.lakeSet a v).pending = s.pending := rfl
@[simp] theorem State.lakeSet_now (s : State) (a : Nat) (v : Byte) : (s.lakeSet a v).now = s.now := rfl
@[simp] theorem State.lakeSet_tarn (s : State) (a : Nat) (v : Byte) : (s.lakeSet a v).tarn = s.tarn := rfl
@[simp] theorem State.lakeSet_regs (s : State) (a : Nat) (v : Byte) : (s.lakeSet a v).regs = s.regs := rfl
@[simp] theorem State.lakeSet_staged (s : State) (a : Nat) (v : Byte) : (s.lakeSet a v).staged = s.staged := rfl
@[simp] theorem State.lakeSet_commits (s : State) (a : Nat) (v : Byte) : (s.lakeSet a v).commits = s.commits := rfl
@[simp] theorem State.lakeSet_latch (s : State) (a : Nat) (v : Byte) : (s.lakeSet a v).latch = s.latch := rfl
@[simp] theorem State.lakeSet_power (s : State) (a : Nat) (v : Byte) : (s.lakeSet a v).power = s.power := rfl
@[simp] theorem State.lakeSet_keep (s : State) (a : Nat) (v : Byte) : (s.lakeSet a v).keep = s.keep := rfl
@[simp] theorem State.lakeSet_sic (s : State) (a : Nat) (v : Byte) : (s.lakeSet a v).sic = s.sic := rfl
@[simp] theorem State.lakeSet_str (s : State) (a : Nat) (v : Byte) : (s.lakeSet a v).str = s.str := rfl
@[simp] theorem State.lakeSet_ctl (s : State) (a : Nat) (v : Byte) : (s.lakeSet a v).ctl = s.ctl := rfl
@[simp] theorem State.lakeSet_stalls (s : State) (a : Nat) (v : Byte) : (s.lakeSet a v).stalls = s.stalls := rfl
@[simp] theorem State.lakeSet_sources (s : State) (a : Nat) (v : Byte) : (s.lakeSet a v).sources = s.sources := rfl
@[simp] theorem State.lakeSet_targets (s : State) (a : Nat) (v : Byte) : (s.lakeSet a v).targets = s.targets := rfl
@[simp] theorem State.lakeSet_tb (s : State) (a : Nat) (v : Byte) : (s.lakeSet a v).tb = s.tb := rfl
@[simp] theorem State.lakeSet_wp (s : State) (a : Nat) (v : Byte) : (s.lakeSet a v).wp = s.wp := rfl
@[simp] theorem State.lakeSet_ltg (s : State) (a : Nat) (v : Byte) : (s.lakeSet a v).ltg = s.ltg := rfl
@[simp] theorem State.lakeSet_gpio (s : State) (a : Nat) (v : Byte) : (s.lakeSet a v).gpio = s.gpio := rfl
@[simp] theorem State.lakeSet_ptp (s : State) (a : Nat) (v : Byte) : (s.lakeSet a v).ptp = s.ptp := rfl
@[simp] theorem State.lakeSet_spr (s : State) (a : Nat) (v : Byte) : (s.lakeSet a v).spr = s.spr := rfl
@[simp] theorem State.lakeSet_grp (s : State) (a : Nat) (v : Byte) : (s.lakeSet a v).grp = s.grp := rfl
@[simp] theorem State.lakeSet_twb (s : State) (a : Nat) (v : Byte) : (s.lakeSet a v).twb = s.twb := rfl
@[simp] theorem State.lakeSet_engs (s : State) (a : Nat) (v : Byte) : (s.lakeSet a v).engs = s.engs := rfl
@[simp] theorem State.lakeSet_engine (s : State) (a : Nat) (v : Byte) : (s.lakeSet a v).engine = s.engine := rfl
@[simp] theorem State.lakeSet_seam (s : State) (a : Nat) (v : Byte) : (s.lakeSet a v).seam = s.seam := rfl
@[simp] theorem State.lakeSet_tnr (s : State) (a : Nat) (v : Byte) : (s.lakeSet a v).tnr = s.tnr := rfl
@[simp] theorem State.lakeSet_tally (s : State) (a : Nat) (v : Byte) : (s.lakeSet a v).tally = s.tally := rfl
@[simp] theorem State.lakeSet_load (s : State) (a : Nat) (v : Byte) : (s.lakeSet a v).load = s.load := rfl
@[simp] theorem State.lakeSet_tables (s : State) (a : Nat) (v : Byte) : (s.lakeSet a v).tables = s.tables := rfl
@[simp] theorem State.lakeSet_out (s : State) (a : Nat) (v : Byte) : (s.lakeSet a v).out = s.out := rfl
@[simp] theorem State.lakeSet_xpt (s : State) (a : Nat) (v : Byte) : (s.lakeSet a v).xpt = s.xpt := rfl
@[simp] theorem State.lakeSet_drains (s : State) (a : Nat) (v : Byte) : (s.lakeSet a v).drains = s.drains := rfl
@[simp] theorem State.lakeSet_links (s : State) (a : Nat) (v : Byte) : (s.lakeSet a v).links = s.links := rfl
@[simp] theorem State.lakeSet_portMode (s : State) (a : Nat) (v : Byte) : (s.lakeSet a v).portMode = s.portMode := rfl
@[simp] theorem State.lakeSet_lakeCtl (s : State) (a : Nat) (v : Byte) : (s.lakeSet a v).lakeCtl = s.lakeCtl := rfl
@[simp] theorem State.lakeSet_crc (s : State) (a : Nat) (v : Byte) : (s.lakeSet a v).crc = s.crc := rfl
@[simp] theorem State.lakeSet_netPonds (s : State) (a : Nat) (v : Byte) : (s.lakeSet a v).netPonds = s.netPonds := rfl
@[simp] theorem State.lakeSet_chains (s : State) (a : Nat) (v : Byte) : (s.lakeSet a v).chains = s.chains := rfl
@[simp] theorem State.lakeSet_readPtr (s : State) (a : Nat) (v : Byte) : (s.lakeSet a v).readPtr = s.readPtr := rfl
@[simp] theorem State.lakeSet_releases (s : State) (a : Nat) (v : Byte) : (s.lakeSet a v).releases = s.releases := rfl
@[simp] theorem State.lakeSet_resets (s : State) (a : Nat) (v : Byte) : (s.lakeSet a v).resets = s.resets := rfl
@[simp] theorem State.lakeSet_edges (s : State) (a : Nat) (v : Byte) : (s.lakeSet a v).edges = s.edges := rfl
@[simp] theorem State.lakeSet_draws (s : State) (a : Nat) (v : Byte) : (s.lakeSet a v).draws = s.draws := rfl
@[simp] theorem State.lakeSet_sent (s : State) (a : Nat) (v : Byte) : (s.lakeSet a v).sent = s.sent := rfl
@[simp] theorem State.lakeSet_rd (s : State) (a : Nat) (v : Byte) (r : Nat) : (s.lakeSet a v).rd r = s.rd r := rfl
@[simp] theorem State.lakeSet_tbl (s : State) (a : Nat) (v : Byte) (r : Nat) : (s.lakeSet a v).tbl r = s.tbl r := rfl

/-! `State.lakeWrite` changes `lake` alone. -/

@[simp] theorem State.lakeWrite_pending (s : State) (a : Nat) (bs : Bytes) : (s.lakeWrite a bs).pending = s.pending := rfl
@[simp] theorem State.lakeWrite_now (s : State) (a : Nat) (bs : Bytes) : (s.lakeWrite a bs).now = s.now := rfl
@[simp] theorem State.lakeWrite_tarn (s : State) (a : Nat) (bs : Bytes) : (s.lakeWrite a bs).tarn = s.tarn := rfl
@[simp] theorem State.lakeWrite_regs (s : State) (a : Nat) (bs : Bytes) : (s.lakeWrite a bs).regs = s.regs := rfl
@[simp] theorem State.lakeWrite_staged (s : State) (a : Nat) (bs : Bytes) : (s.lakeWrite a bs).staged = s.staged := rfl
@[simp] theorem State.lakeWrite_commits (s : State) (a : Nat) (bs : Bytes) : (s.lakeWrite a bs).commits = s.commits := rfl
@[simp] theorem State.lakeWrite_latch (s : State) (a : Nat) (bs : Bytes) : (s.lakeWrite a bs).latch = s.latch := rfl
@[simp] theorem State.lakeWrite_power (s : State) (a : Nat) (bs : Bytes) : (s.lakeWrite a bs).power = s.power := rfl
@[simp] theorem State.lakeWrite_keep (s : State) (a : Nat) (bs : Bytes) : (s.lakeWrite a bs).keep = s.keep := rfl
@[simp] theorem State.lakeWrite_sic (s : State) (a : Nat) (bs : Bytes) : (s.lakeWrite a bs).sic = s.sic := rfl
@[simp] theorem State.lakeWrite_str (s : State) (a : Nat) (bs : Bytes) : (s.lakeWrite a bs).str = s.str := rfl
@[simp] theorem State.lakeWrite_ctl (s : State) (a : Nat) (bs : Bytes) : (s.lakeWrite a bs).ctl = s.ctl := rfl
@[simp] theorem State.lakeWrite_stalls (s : State) (a : Nat) (bs : Bytes) : (s.lakeWrite a bs).stalls = s.stalls := rfl
@[simp] theorem State.lakeWrite_sources (s : State) (a : Nat) (bs : Bytes) : (s.lakeWrite a bs).sources = s.sources := rfl
@[simp] theorem State.lakeWrite_targets (s : State) (a : Nat) (bs : Bytes) : (s.lakeWrite a bs).targets = s.targets := rfl
@[simp] theorem State.lakeWrite_tb (s : State) (a : Nat) (bs : Bytes) : (s.lakeWrite a bs).tb = s.tb := rfl
@[simp] theorem State.lakeWrite_wp (s : State) (a : Nat) (bs : Bytes) : (s.lakeWrite a bs).wp = s.wp := rfl
@[simp] theorem State.lakeWrite_ltg (s : State) (a : Nat) (bs : Bytes) : (s.lakeWrite a bs).ltg = s.ltg := rfl
@[simp] theorem State.lakeWrite_gpio (s : State) (a : Nat) (bs : Bytes) : (s.lakeWrite a bs).gpio = s.gpio := rfl
@[simp] theorem State.lakeWrite_ptp (s : State) (a : Nat) (bs : Bytes) : (s.lakeWrite a bs).ptp = s.ptp := rfl
@[simp] theorem State.lakeWrite_spr (s : State) (a : Nat) (bs : Bytes) : (s.lakeWrite a bs).spr = s.spr := rfl
@[simp] theorem State.lakeWrite_grp (s : State) (a : Nat) (bs : Bytes) : (s.lakeWrite a bs).grp = s.grp := rfl
@[simp] theorem State.lakeWrite_twb (s : State) (a : Nat) (bs : Bytes) : (s.lakeWrite a bs).twb = s.twb := rfl
@[simp] theorem State.lakeWrite_engs (s : State) (a : Nat) (bs : Bytes) : (s.lakeWrite a bs).engs = s.engs := rfl
@[simp] theorem State.lakeWrite_engine (s : State) (a : Nat) (bs : Bytes) : (s.lakeWrite a bs).engine = s.engine := rfl
@[simp] theorem State.lakeWrite_seam (s : State) (a : Nat) (bs : Bytes) : (s.lakeWrite a bs).seam = s.seam := rfl
@[simp] theorem State.lakeWrite_tnr (s : State) (a : Nat) (bs : Bytes) : (s.lakeWrite a bs).tnr = s.tnr := rfl
@[simp] theorem State.lakeWrite_tally (s : State) (a : Nat) (bs : Bytes) : (s.lakeWrite a bs).tally = s.tally := rfl
@[simp] theorem State.lakeWrite_load (s : State) (a : Nat) (bs : Bytes) : (s.lakeWrite a bs).load = s.load := rfl
@[simp] theorem State.lakeWrite_tables (s : State) (a : Nat) (bs : Bytes) : (s.lakeWrite a bs).tables = s.tables := rfl
@[simp] theorem State.lakeWrite_out (s : State) (a : Nat) (bs : Bytes) : (s.lakeWrite a bs).out = s.out := rfl
@[simp] theorem State.lakeWrite_xpt (s : State) (a : Nat) (bs : Bytes) : (s.lakeWrite a bs).xpt = s.xpt := rfl
@[simp] theorem State.lakeWrite_drains (s : State) (a : Nat) (bs : Bytes) : (s.lakeWrite a bs).drains = s.drains := rfl
@[simp] theorem State.lakeWrite_links (s : State) (a : Nat) (bs : Bytes) : (s.lakeWrite a bs).links = s.links := rfl
@[simp] theorem State.lakeWrite_portMode (s : State) (a : Nat) (bs : Bytes) : (s.lakeWrite a bs).portMode = s.portMode := rfl
@[simp] theorem State.lakeWrite_lakeCtl (s : State) (a : Nat) (bs : Bytes) : (s.lakeWrite a bs).lakeCtl = s.lakeCtl := rfl
@[simp] theorem State.lakeWrite_crc (s : State) (a : Nat) (bs : Bytes) : (s.lakeWrite a bs).crc = s.crc := rfl
@[simp] theorem State.lakeWrite_netPonds (s : State) (a : Nat) (bs : Bytes) : (s.lakeWrite a bs).netPonds = s.netPonds := rfl
@[simp] theorem State.lakeWrite_chains (s : State) (a : Nat) (bs : Bytes) : (s.lakeWrite a bs).chains = s.chains := rfl
@[simp] theorem State.lakeWrite_readPtr (s : State) (a : Nat) (bs : Bytes) : (s.lakeWrite a bs).readPtr = s.readPtr := rfl
@[simp] theorem State.lakeWrite_releases (s : State) (a : Nat) (bs : Bytes) : (s.lakeWrite a bs).releases = s.releases := rfl
@[simp] theorem State.lakeWrite_resets (s : State) (a : Nat) (bs : Bytes) : (s.lakeWrite a bs).resets = s.resets := rfl
@[simp] theorem State.lakeWrite_edges (s : State) (a : Nat) (bs : Bytes) : (s.lakeWrite a bs).edges = s.edges := rfl
@[simp] theorem State.lakeWrite_draws (s : State) (a : Nat) (bs : Bytes) : (s.lakeWrite a bs).draws = s.draws := rfl
@[simp] theorem State.lakeWrite_sent (s : State) (a : Nat) (bs : Bytes) : (s.lakeWrite a bs).sent = s.sent := rfl
@[simp] theorem State.lakeWrite_rd (s : State) (a : Nat) (bs : Bytes) (r : Nat) : (s.lakeWrite a bs).rd r = s.rd r := rfl
@[simp] theorem State.lakeWrite_tbl (s : State) (a : Nat) (bs : Bytes) (r : Nat) : (s.lakeWrite a bs).tbl r = s.tbl r := rfl

/-! `State.touch` changes `keep` alone. -/

@[simp] theorem State.touch_pending (s : State) : (s.touch).pending = s.pending := rfl
@[simp] theorem State.touch_now (s : State) : (s.touch).now = s.now := rfl
@[simp] theorem State.touch_tarn (s : State) : (s.touch).tarn = s.tarn := rfl
@[simp] theorem State.touch_regs (s : State) : (s.touch).regs = s.regs := rfl
@[simp] theorem State.touch_staged (s : State) : (s.touch).staged = s.staged := rfl
@[simp] theorem State.touch_commits (s : State) : (s.touch).commits = s.commits := rfl
@[simp] theorem State.touch_latch (s : State) : (s.touch).latch = s.latch := rfl
@[simp] theorem State.touch_power (s : State) : (s.touch).power = s.power := rfl
@[simp] theorem State.touch_sic (s : State) : (s.touch).sic = s.sic := rfl
@[simp] theorem State.touch_str (s : State) : (s.touch).str = s.str := rfl
@[simp] theorem State.touch_ctl (s : State) : (s.touch).ctl = s.ctl := rfl
@[simp] theorem State.touch_stalls (s : State) : (s.touch).stalls = s.stalls := rfl
@[simp] theorem State.touch_sources (s : State) : (s.touch).sources = s.sources := rfl
@[simp] theorem State.touch_targets (s : State) : (s.touch).targets = s.targets := rfl
@[simp] theorem State.touch_tb (s : State) : (s.touch).tb = s.tb := rfl
@[simp] theorem State.touch_wp (s : State) : (s.touch).wp = s.wp := rfl
@[simp] theorem State.touch_ltg (s : State) : (s.touch).ltg = s.ltg := rfl
@[simp] theorem State.touch_gpio (s : State) : (s.touch).gpio = s.gpio := rfl
@[simp] theorem State.touch_ptp (s : State) : (s.touch).ptp = s.ptp := rfl
@[simp] theorem State.touch_spr (s : State) : (s.touch).spr = s.spr := rfl
@[simp] theorem State.touch_grp (s : State) : (s.touch).grp = s.grp := rfl
@[simp] theorem State.touch_twb (s : State) : (s.touch).twb = s.twb := rfl
@[simp] theorem State.touch_engs (s : State) : (s.touch).engs = s.engs := rfl
@[simp] theorem State.touch_engine (s : State) : (s.touch).engine = s.engine := rfl
@[simp] theorem State.touch_seam (s : State) : (s.touch).seam = s.seam := rfl
@[simp] theorem State.touch_tnr (s : State) : (s.touch).tnr = s.tnr := rfl
@[simp] theorem State.touch_tally (s : State) : (s.touch).tally = s.tally := rfl
@[simp] theorem State.touch_load (s : State) : (s.touch).load = s.load := rfl
@[simp] theorem State.touch_tables (s : State) : (s.touch).tables = s.tables := rfl
@[simp] theorem State.touch_out (s : State) : (s.touch).out = s.out := rfl
@[simp] theorem State.touch_xpt (s : State) : (s.touch).xpt = s.xpt := rfl
@[simp] theorem State.touch_drains (s : State) : (s.touch).drains = s.drains := rfl
@[simp] theorem State.touch_links (s : State) : (s.touch).links = s.links := rfl
@[simp] theorem State.touch_portMode (s : State) : (s.touch).portMode = s.portMode := rfl
@[simp] theorem State.touch_lakeCtl (s : State) : (s.touch).lakeCtl = s.lakeCtl := rfl
@[simp] theorem State.touch_crc (s : State) : (s.touch).crc = s.crc := rfl
@[simp] theorem State.touch_netPonds (s : State) : (s.touch).netPonds = s.netPonds := rfl
@[simp] theorem State.touch_chains (s : State) : (s.touch).chains = s.chains := rfl
@[simp] theorem State.touch_readPtr (s : State) : (s.touch).readPtr = s.readPtr := rfl
@[simp] theorem State.touch_releases (s : State) : (s.touch).releases = s.releases := rfl
@[simp] theorem State.touch_resets (s : State) : (s.touch).resets = s.resets := rfl
@[simp] theorem State.touch_edges (s : State) : (s.touch).edges = s.edges := rfl
@[simp] theorem State.touch_lake (s : State) : (s.touch).lake = s.lake := rfl
@[simp] theorem State.touch_draws (s : State) : (s.touch).draws = s.draws := rfl
@[simp] theorem State.touch_sent (s : State) : (s.touch).sent = s.sent := rfl
@[simp] theorem State.touch_rd (s : State) (r : Nat) : (s.touch).rd r = s.rd r := rfl
@[simp] theorem State.touch_lakeGet (s : State) (r : Nat) : (s.touch).lakeGet r = s.lakeGet r := rfl
@[simp] theorem State.touch_tbl (s : State) (r : Nat) : (s.touch).tbl r = s.tbl r := rfl

/-! `State.onPower` changes `power` alone. -/

@[simp] theorem State.onPower_pending (s : State) (f : Power → Power) : (s.onPower f).pending = s.pending := rfl
@[simp] theorem State.onPower_now (s : State) (f : Power → Power) : (s.onPower f).now = s.now := rfl
@[simp] theorem State.onPower_tarn (s : State) (f : Power → Power) : (s.onPower f).tarn = s.tarn := rfl
@[simp] theorem State.onPower_regs (s : State) (f : Power → Power) : (s.onPower f).regs = s.regs := rfl
@[simp] theorem State.onPower_staged (s : State) (f : Power → Power) : (s.onPower f).staged = s.staged := rfl
@[simp] theorem State.onPower_commits (s : State) (f : Power → Power) : (s.onPower f).commits = s.commits := rfl
@[simp] theorem State.onPower_latch (s : State) (f : Power → Power) : (s.onPower f).latch = s.latch := rfl
@[simp] theorem State.onPower_keep (s : State) (f : Power → Power) : (s.onPower f).keep = s.keep := rfl
@[simp] theorem State.onPower_sic (s : State) (f : Power → Power) : (s.onPower f).sic = s.sic := rfl
@[simp] theorem State.onPower_str (s : State) (f : Power → Power) : (s.onPower f).str = s.str := rfl
@[simp] theorem State.onPower_ctl (s : State) (f : Power → Power) : (s.onPower f).ctl = s.ctl := rfl
@[simp] theorem State.onPower_stalls (s : State) (f : Power → Power) : (s.onPower f).stalls = s.stalls := rfl
@[simp] theorem State.onPower_sources (s : State) (f : Power → Power) : (s.onPower f).sources = s.sources := rfl
@[simp] theorem State.onPower_targets (s : State) (f : Power → Power) : (s.onPower f).targets = s.targets := rfl
@[simp] theorem State.onPower_tb (s : State) (f : Power → Power) : (s.onPower f).tb = s.tb := rfl
@[simp] theorem State.onPower_wp (s : State) (f : Power → Power) : (s.onPower f).wp = s.wp := rfl
@[simp] theorem State.onPower_ltg (s : State) (f : Power → Power) : (s.onPower f).ltg = s.ltg := rfl
@[simp] theorem State.onPower_gpio (s : State) (f : Power → Power) : (s.onPower f).gpio = s.gpio := rfl
@[simp] theorem State.onPower_ptp (s : State) (f : Power → Power) : (s.onPower f).ptp = s.ptp := rfl
@[simp] theorem State.onPower_spr (s : State) (f : Power → Power) : (s.onPower f).spr = s.spr := rfl
@[simp] theorem State.onPower_grp (s : State) (f : Power → Power) : (s.onPower f).grp = s.grp := rfl
@[simp] theorem State.onPower_twb (s : State) (f : Power → Power) : (s.onPower f).twb = s.twb := rfl
@[simp] theorem State.onPower_engs (s : State) (f : Power → Power) : (s.onPower f).engs = s.engs := rfl
@[simp] theorem State.onPower_engine (s : State) (f : Power → Power) : (s.onPower f).engine = s.engine := rfl
@[simp] theorem State.onPower_seam (s : State) (f : Power → Power) : (s.onPower f).seam = s.seam := rfl
@[simp] theorem State.onPower_tnr (s : State) (f : Power → Power) : (s.onPower f).tnr = s.tnr := rfl
@[simp] theorem State.onPower_tally (s : State) (f : Power → Power) : (s.onPower f).tally = s.tally := rfl
@[simp] theorem State.onPower_load (s : State) (f : Power → Power) : (s.onPower f).load = s.load := rfl
@[simp] theorem State.onPower_tables (s : State) (f : Power → Power) : (s.onPower f).tables = s.tables := rfl
@[simp] theorem State.onPower_out (s : State) (f : Power → Power) : (s.onPower f).out = s.out := rfl
@[simp] theorem State.onPower_xpt (s : State) (f : Power → Power) : (s.onPower f).xpt = s.xpt := rfl
@[simp] theorem State.onPower_drains (s : State) (f : Power → Power) : (s.onPower f).drains = s.drains := rfl
@[simp] theorem State.onPower_links (s : State) (f : Power → Power) : (s.onPower f).links = s.links := rfl
@[simp] theorem State.onPower_portMode (s : State) (f : Power → Power) : (s.onPower f).portMode = s.portMode := rfl
@[simp] theorem State.onPower_lakeCtl (s : State) (f : Power → Power) : (s.onPower f).lakeCtl = s.lakeCtl := rfl
@[simp] theorem State.onPower_crc (s : State) (f : Power → Power) : (s.onPower f).crc = s.crc := rfl
@[simp] theorem State.onPower_netPonds (s : State) (f : Power → Power) : (s.onPower f).netPonds = s.netPonds := rfl
@[simp] theorem State.onPower_chains (s : State) (f : Power → Power) : (s.onPower f).chains = s.chains := rfl
@[simp] theorem State.onPower_readPtr (s : State) (f : Power → Power) : (s.onPower f).readPtr = s.readPtr := rfl
@[simp] theorem State.onPower_releases (s : State) (f : Power → Power) : (s.onPower f).releases = s.releases := rfl
@[simp] theorem State.onPower_resets (s : State) (f : Power → Power) : (s.onPower f).resets = s.resets := rfl
@[simp] theorem State.onPower_edges (s : State) (f : Power → Power) : (s.onPower f).edges = s.edges := rfl
@[simp] theorem State.onPower_lake (s : State) (f : Power → Power) : (s.onPower f).lake = s.lake := rfl
@[simp] theorem State.onPower_draws (s : State) (f : Power → Power) : (s.onPower f).draws = s.draws := rfl
@[simp] theorem State.onPower_sent (s : State) (f : Power → Power) : (s.onPower f).sent = s.sent := rfl
@[simp] theorem State.onPower_rd (s : State) (f : Power → Power) (r : Nat) : (s.onPower f).rd r = s.rd r := rfl
@[simp] theorem State.onPower_lakeGet (s : State) (f : Power → Power) (r : Nat) : (s.onPower f).lakeGet r = s.lakeGet r := rfl
@[simp] theorem State.onPower_tbl (s : State) (f : Power → Power) (r : Nat) : (s.onPower f).tbl r = s.tbl r := rfl

/-! `State.setF` changes `regs` alone. -/

@[simp] theorem State.setF_pending (s : State) (a hi lo v : Nat) : (s.setF a hi lo v).pending = s.pending := rfl
@[simp] theorem State.setF_now (s : State) (a hi lo v : Nat) : (s.setF a hi lo v).now = s.now := rfl
@[simp] theorem State.setF_tarn (s : State) (a hi lo v : Nat) : (s.setF a hi lo v).tarn = s.tarn := rfl
@[simp] theorem State.setF_staged (s : State) (a hi lo v : Nat) : (s.setF a hi lo v).staged = s.staged := rfl
@[simp] theorem State.setF_commits (s : State) (a hi lo v : Nat) : (s.setF a hi lo v).commits = s.commits := rfl
@[simp] theorem State.setF_latch (s : State) (a hi lo v : Nat) : (s.setF a hi lo v).latch = s.latch := rfl
@[simp] theorem State.setF_power (s : State) (a hi lo v : Nat) : (s.setF a hi lo v).power = s.power := rfl
@[simp] theorem State.setF_keep (s : State) (a hi lo v : Nat) : (s.setF a hi lo v).keep = s.keep := rfl
@[simp] theorem State.setF_sic (s : State) (a hi lo v : Nat) : (s.setF a hi lo v).sic = s.sic := rfl
@[simp] theorem State.setF_str (s : State) (a hi lo v : Nat) : (s.setF a hi lo v).str = s.str := rfl
@[simp] theorem State.setF_ctl (s : State) (a hi lo v : Nat) : (s.setF a hi lo v).ctl = s.ctl := rfl
@[simp] theorem State.setF_stalls (s : State) (a hi lo v : Nat) : (s.setF a hi lo v).stalls = s.stalls := rfl
@[simp] theorem State.setF_sources (s : State) (a hi lo v : Nat) : (s.setF a hi lo v).sources = s.sources := rfl
@[simp] theorem State.setF_targets (s : State) (a hi lo v : Nat) : (s.setF a hi lo v).targets = s.targets := rfl
@[simp] theorem State.setF_tb (s : State) (a hi lo v : Nat) : (s.setF a hi lo v).tb = s.tb := rfl
@[simp] theorem State.setF_wp (s : State) (a hi lo v : Nat) : (s.setF a hi lo v).wp = s.wp := rfl
@[simp] theorem State.setF_ltg (s : State) (a hi lo v : Nat) : (s.setF a hi lo v).ltg = s.ltg := rfl
@[simp] theorem State.setF_gpio (s : State) (a hi lo v : Nat) : (s.setF a hi lo v).gpio = s.gpio := rfl
@[simp] theorem State.setF_ptp (s : State) (a hi lo v : Nat) : (s.setF a hi lo v).ptp = s.ptp := rfl
@[simp] theorem State.setF_spr (s : State) (a hi lo v : Nat) : (s.setF a hi lo v).spr = s.spr := rfl
@[simp] theorem State.setF_grp (s : State) (a hi lo v : Nat) : (s.setF a hi lo v).grp = s.grp := rfl
@[simp] theorem State.setF_twb (s : State) (a hi lo v : Nat) : (s.setF a hi lo v).twb = s.twb := rfl
@[simp] theorem State.setF_engs (s : State) (a hi lo v : Nat) : (s.setF a hi lo v).engs = s.engs := rfl
@[simp] theorem State.setF_engine (s : State) (a hi lo v : Nat) : (s.setF a hi lo v).engine = s.engine := rfl
@[simp] theorem State.setF_seam (s : State) (a hi lo v : Nat) : (s.setF a hi lo v).seam = s.seam := rfl
@[simp] theorem State.setF_tnr (s : State) (a hi lo v : Nat) : (s.setF a hi lo v).tnr = s.tnr := rfl
@[simp] theorem State.setF_tally (s : State) (a hi lo v : Nat) : (s.setF a hi lo v).tally = s.tally := rfl
@[simp] theorem State.setF_load (s : State) (a hi lo v : Nat) : (s.setF a hi lo v).load = s.load := rfl
@[simp] theorem State.setF_tables (s : State) (a hi lo v : Nat) : (s.setF a hi lo v).tables = s.tables := rfl
@[simp] theorem State.setF_out (s : State) (a hi lo v : Nat) : (s.setF a hi lo v).out = s.out := rfl
@[simp] theorem State.setF_xpt (s : State) (a hi lo v : Nat) : (s.setF a hi lo v).xpt = s.xpt := rfl
@[simp] theorem State.setF_drains (s : State) (a hi lo v : Nat) : (s.setF a hi lo v).drains = s.drains := rfl
@[simp] theorem State.setF_links (s : State) (a hi lo v : Nat) : (s.setF a hi lo v).links = s.links := rfl
@[simp] theorem State.setF_portMode (s : State) (a hi lo v : Nat) : (s.setF a hi lo v).portMode = s.portMode := rfl
@[simp] theorem State.setF_lakeCtl (s : State) (a hi lo v : Nat) : (s.setF a hi lo v).lakeCtl = s.lakeCtl := rfl
@[simp] theorem State.setF_crc (s : State) (a hi lo v : Nat) : (s.setF a hi lo v).crc = s.crc := rfl
@[simp] theorem State.setF_netPonds (s : State) (a hi lo v : Nat) : (s.setF a hi lo v).netPonds = s.netPonds := rfl
@[simp] theorem State.setF_chains (s : State) (a hi lo v : Nat) : (s.setF a hi lo v).chains = s.chains := rfl
@[simp] theorem State.setF_readPtr (s : State) (a hi lo v : Nat) : (s.setF a hi lo v).readPtr = s.readPtr := rfl
@[simp] theorem State.setF_releases (s : State) (a hi lo v : Nat) : (s.setF a hi lo v).releases = s.releases := rfl
@[simp] theorem State.setF_resets (s : State) (a hi lo v : Nat) : (s.setF a hi lo v).resets = s.resets := rfl
@[simp] theorem State.setF_edges (s : State) (a hi lo v : Nat) : (s.setF a hi lo v).edges = s.edges := rfl
@[simp] theorem State.setF_lake (s : State) (a hi lo v : Nat) : (s.setF a hi lo v).lake = s.lake := rfl
@[simp] theorem State.setF_draws (s : State) (a hi lo v : Nat) : (s.setF a hi lo v).draws = s.draws := rfl
@[simp] theorem State.setF_sent (s : State) (a hi lo v : Nat) : (s.setF a hi lo v).sent = s.sent := rfl
@[simp] theorem State.setF_lakeGet (s : State) (a hi lo v : Nat) (r : Nat) : (s.setF a hi lo v).lakeGet r = s.lakeGet r := rfl
@[simp] theorem State.setF_tbl (s : State) (a hi lo v : Nat) (r : Nat) : (s.setF a hi lo v).tbl r = s.tbl r := rfl

/-! `State.setB` changes `regs` alone. -/

@[simp] theorem State.setB_pending (s : State) (a i : Nat) (b : Bool) : (s.setB a i b).pending = s.pending := rfl
@[simp] theorem State.setB_now (s : State) (a i : Nat) (b : Bool) : (s.setB a i b).now = s.now := rfl
@[simp] theorem State.setB_tarn (s : State) (a i : Nat) (b : Bool) : (s.setB a i b).tarn = s.tarn := rfl
@[simp] theorem State.setB_staged (s : State) (a i : Nat) (b : Bool) : (s.setB a i b).staged = s.staged := rfl
@[simp] theorem State.setB_commits (s : State) (a i : Nat) (b : Bool) : (s.setB a i b).commits = s.commits := rfl
@[simp] theorem State.setB_latch (s : State) (a i : Nat) (b : Bool) : (s.setB a i b).latch = s.latch := rfl
@[simp] theorem State.setB_power (s : State) (a i : Nat) (b : Bool) : (s.setB a i b).power = s.power := rfl
@[simp] theorem State.setB_keep (s : State) (a i : Nat) (b : Bool) : (s.setB a i b).keep = s.keep := rfl
@[simp] theorem State.setB_sic (s : State) (a i : Nat) (b : Bool) : (s.setB a i b).sic = s.sic := rfl
@[simp] theorem State.setB_str (s : State) (a i : Nat) (b : Bool) : (s.setB a i b).str = s.str := rfl
@[simp] theorem State.setB_ctl (s : State) (a i : Nat) (b : Bool) : (s.setB a i b).ctl = s.ctl := rfl
@[simp] theorem State.setB_stalls (s : State) (a i : Nat) (b : Bool) : (s.setB a i b).stalls = s.stalls := rfl
@[simp] theorem State.setB_sources (s : State) (a i : Nat) (b : Bool) : (s.setB a i b).sources = s.sources := rfl
@[simp] theorem State.setB_targets (s : State) (a i : Nat) (b : Bool) : (s.setB a i b).targets = s.targets := rfl
@[simp] theorem State.setB_tb (s : State) (a i : Nat) (b : Bool) : (s.setB a i b).tb = s.tb := rfl
@[simp] theorem State.setB_wp (s : State) (a i : Nat) (b : Bool) : (s.setB a i b).wp = s.wp := rfl
@[simp] theorem State.setB_ltg (s : State) (a i : Nat) (b : Bool) : (s.setB a i b).ltg = s.ltg := rfl
@[simp] theorem State.setB_gpio (s : State) (a i : Nat) (b : Bool) : (s.setB a i b).gpio = s.gpio := rfl
@[simp] theorem State.setB_ptp (s : State) (a i : Nat) (b : Bool) : (s.setB a i b).ptp = s.ptp := rfl
@[simp] theorem State.setB_spr (s : State) (a i : Nat) (b : Bool) : (s.setB a i b).spr = s.spr := rfl
@[simp] theorem State.setB_grp (s : State) (a i : Nat) (b : Bool) : (s.setB a i b).grp = s.grp := rfl
@[simp] theorem State.setB_twb (s : State) (a i : Nat) (b : Bool) : (s.setB a i b).twb = s.twb := rfl
@[simp] theorem State.setB_engs (s : State) (a i : Nat) (b : Bool) : (s.setB a i b).engs = s.engs := rfl
@[simp] theorem State.setB_engine (s : State) (a i : Nat) (b : Bool) : (s.setB a i b).engine = s.engine := rfl
@[simp] theorem State.setB_seam (s : State) (a i : Nat) (b : Bool) : (s.setB a i b).seam = s.seam := rfl
@[simp] theorem State.setB_tnr (s : State) (a i : Nat) (b : Bool) : (s.setB a i b).tnr = s.tnr := rfl
@[simp] theorem State.setB_tally (s : State) (a i : Nat) (b : Bool) : (s.setB a i b).tally = s.tally := rfl
@[simp] theorem State.setB_load (s : State) (a i : Nat) (b : Bool) : (s.setB a i b).load = s.load := rfl
@[simp] theorem State.setB_tables (s : State) (a i : Nat) (b : Bool) : (s.setB a i b).tables = s.tables := rfl
@[simp] theorem State.setB_out (s : State) (a i : Nat) (b : Bool) : (s.setB a i b).out = s.out := rfl
@[simp] theorem State.setB_xpt (s : State) (a i : Nat) (b : Bool) : (s.setB a i b).xpt = s.xpt := rfl
@[simp] theorem State.setB_drains (s : State) (a i : Nat) (b : Bool) : (s.setB a i b).drains = s.drains := rfl
@[simp] theorem State.setB_links (s : State) (a i : Nat) (b : Bool) : (s.setB a i b).links = s.links := rfl
@[simp] theorem State.setB_portMode (s : State) (a i : Nat) (b : Bool) : (s.setB a i b).portMode = s.portMode := rfl
@[simp] theorem State.setB_lakeCtl (s : State) (a i : Nat) (b : Bool) : (s.setB a i b).lakeCtl = s.lakeCtl := rfl
@[simp] theorem State.setB_crc (s : State) (a i : Nat) (b : Bool) : (s.setB a i b).crc = s.crc := rfl
@[simp] theorem State.setB_netPonds (s : State) (a i : Nat) (b : Bool) : (s.setB a i b).netPonds = s.netPonds := rfl
@[simp] theorem State.setB_chains (s : State) (a i : Nat) (b : Bool) : (s.setB a i b).chains = s.chains := rfl
@[simp] theorem State.setB_readPtr (s : State) (a i : Nat) (b : Bool) : (s.setB a i b).readPtr = s.readPtr := rfl
@[simp] theorem State.setB_releases (s : State) (a i : Nat) (b : Bool) : (s.setB a i b).releases = s.releases := rfl
@[simp] theorem State.setB_resets (s : State) (a i : Nat) (b : Bool) : (s.setB a i b).resets = s.resets := rfl
@[simp] theorem State.setB_edges (s : State) (a i : Nat) (b : Bool) : (s.setB a i b).edges = s.edges := rfl
@[simp] theorem State.setB_lake (s : State) (a i : Nat) (b : Bool) : (s.setB a i b).lake = s.lake := rfl
@[simp] theorem State.setB_draws (s : State) (a i : Nat) (b : Bool) : (s.setB a i b).draws = s.draws := rfl
@[simp] theorem State.setB_sent (s : State) (a i : Nat) (b : Bool) : (s.setB a i b).sent = s.sent := rfl
@[simp] theorem State.setB_lakeGet (s : State) (a i : Nat) (b : Bool) (r : Nat) : (s.setB a i b).lakeGet r = s.lakeGet r := rfl
@[simp] theorem State.setB_tbl (s : State) (a i : Nat) (b : Bool) (r : Nat) : (s.setB a i b).tbl r = s.tbl r := rfl

/-! `State.raise` changes `regs` alone. -/

@[simp] theorem State.raise_pending (s : State) (a i : Nat) : (s.raise a i).pending = s.pending := rfl
@[simp] theorem State.raise_now (s : State) (a i : Nat) : (s.raise a i).now = s.now := rfl
@[simp] theorem State.raise_tarn (s : State) (a i : Nat) : (s.raise a i).tarn = s.tarn := rfl
@[simp] theorem State.raise_staged (s : State) (a i : Nat) : (s.raise a i).staged = s.staged := rfl
@[simp] theorem State.raise_commits (s : State) (a i : Nat) : (s.raise a i).commits = s.commits := rfl
@[simp] theorem State.raise_latch (s : State) (a i : Nat) : (s.raise a i).latch = s.latch := rfl
@[simp] theorem State.raise_power (s : State) (a i : Nat) : (s.raise a i).power = s.power := rfl
@[simp] theorem State.raise_keep (s : State) (a i : Nat) : (s.raise a i).keep = s.keep := rfl
@[simp] theorem State.raise_sic (s : State) (a i : Nat) : (s.raise a i).sic = s.sic := rfl
@[simp] theorem State.raise_str (s : State) (a i : Nat) : (s.raise a i).str = s.str := rfl
@[simp] theorem State.raise_ctl (s : State) (a i : Nat) : (s.raise a i).ctl = s.ctl := rfl
@[simp] theorem State.raise_stalls (s : State) (a i : Nat) : (s.raise a i).stalls = s.stalls := rfl
@[simp] theorem State.raise_sources (s : State) (a i : Nat) : (s.raise a i).sources = s.sources := rfl
@[simp] theorem State.raise_targets (s : State) (a i : Nat) : (s.raise a i).targets = s.targets := rfl
@[simp] theorem State.raise_tb (s : State) (a i : Nat) : (s.raise a i).tb = s.tb := rfl
@[simp] theorem State.raise_wp (s : State) (a i : Nat) : (s.raise a i).wp = s.wp := rfl
@[simp] theorem State.raise_ltg (s : State) (a i : Nat) : (s.raise a i).ltg = s.ltg := rfl
@[simp] theorem State.raise_gpio (s : State) (a i : Nat) : (s.raise a i).gpio = s.gpio := rfl
@[simp] theorem State.raise_ptp (s : State) (a i : Nat) : (s.raise a i).ptp = s.ptp := rfl
@[simp] theorem State.raise_spr (s : State) (a i : Nat) : (s.raise a i).spr = s.spr := rfl
@[simp] theorem State.raise_grp (s : State) (a i : Nat) : (s.raise a i).grp = s.grp := rfl
@[simp] theorem State.raise_twb (s : State) (a i : Nat) : (s.raise a i).twb = s.twb := rfl
@[simp] theorem State.raise_engs (s : State) (a i : Nat) : (s.raise a i).engs = s.engs := rfl
@[simp] theorem State.raise_engine (s : State) (a i : Nat) : (s.raise a i).engine = s.engine := rfl
@[simp] theorem State.raise_seam (s : State) (a i : Nat) : (s.raise a i).seam = s.seam := rfl
@[simp] theorem State.raise_tnr (s : State) (a i : Nat) : (s.raise a i).tnr = s.tnr := rfl
@[simp] theorem State.raise_tally (s : State) (a i : Nat) : (s.raise a i).tally = s.tally := rfl
@[simp] theorem State.raise_load (s : State) (a i : Nat) : (s.raise a i).load = s.load := rfl
@[simp] theorem State.raise_tables (s : State) (a i : Nat) : (s.raise a i).tables = s.tables := rfl
@[simp] theorem State.raise_out (s : State) (a i : Nat) : (s.raise a i).out = s.out := rfl
@[simp] theorem State.raise_xpt (s : State) (a i : Nat) : (s.raise a i).xpt = s.xpt := rfl
@[simp] theorem State.raise_drains (s : State) (a i : Nat) : (s.raise a i).drains = s.drains := rfl
@[simp] theorem State.raise_links (s : State) (a i : Nat) : (s.raise a i).links = s.links := rfl
@[simp] theorem State.raise_portMode (s : State) (a i : Nat) : (s.raise a i).portMode = s.portMode := rfl
@[simp] theorem State.raise_lakeCtl (s : State) (a i : Nat) : (s.raise a i).lakeCtl = s.lakeCtl := rfl
@[simp] theorem State.raise_crc (s : State) (a i : Nat) : (s.raise a i).crc = s.crc := rfl
@[simp] theorem State.raise_netPonds (s : State) (a i : Nat) : (s.raise a i).netPonds = s.netPonds := rfl
@[simp] theorem State.raise_chains (s : State) (a i : Nat) : (s.raise a i).chains = s.chains := rfl
@[simp] theorem State.raise_readPtr (s : State) (a i : Nat) : (s.raise a i).readPtr = s.readPtr := rfl
@[simp] theorem State.raise_releases (s : State) (a i : Nat) : (s.raise a i).releases = s.releases := rfl
@[simp] theorem State.raise_resets (s : State) (a i : Nat) : (s.raise a i).resets = s.resets := rfl
@[simp] theorem State.raise_edges (s : State) (a i : Nat) : (s.raise a i).edges = s.edges := rfl
@[simp] theorem State.raise_lake (s : State) (a i : Nat) : (s.raise a i).lake = s.lake := rfl
@[simp] theorem State.raise_draws (s : State) (a i : Nat) : (s.raise a i).draws = s.draws := rfl
@[simp] theorem State.raise_sent (s : State) (a i : Nat) : (s.raise a i).sent = s.sent := rfl
@[simp] theorem State.raise_lakeGet (s : State) (a i : Nat) (r : Nat) : (s.raise a i).lakeGet r = s.lakeGet r := rfl
@[simp] theorem State.raise_tbl (s : State) (a i : Nat) (r : Nat) : (s.raise a i).tbl r = s.tbl r := rfl

/-! `State.inc` changes `regs` alone. -/

@[simp] theorem State.inc_pending (s : State) (a n : Nat) : (s.inc a n).pending = s.pending := rfl
@[simp] theorem State.inc_now (s : State) (a n : Nat) : (s.inc a n).now = s.now := rfl
@[simp] theorem State.inc_tarn (s : State) (a n : Nat) : (s.inc a n).tarn = s.tarn := rfl
@[simp] theorem State.inc_staged (s : State) (a n : Nat) : (s.inc a n).staged = s.staged := rfl
@[simp] theorem State.inc_commits (s : State) (a n : Nat) : (s.inc a n).commits = s.commits := rfl
@[simp] theorem State.inc_latch (s : State) (a n : Nat) : (s.inc a n).latch = s.latch := rfl
@[simp] theorem State.inc_power (s : State) (a n : Nat) : (s.inc a n).power = s.power := rfl
@[simp] theorem State.inc_keep (s : State) (a n : Nat) : (s.inc a n).keep = s.keep := rfl
@[simp] theorem State.inc_sic (s : State) (a n : Nat) : (s.inc a n).sic = s.sic := rfl
@[simp] theorem State.inc_str (s : State) (a n : Nat) : (s.inc a n).str = s.str := rfl
@[simp] theorem State.inc_ctl (s : State) (a n : Nat) : (s.inc a n).ctl = s.ctl := rfl
@[simp] theorem State.inc_stalls (s : State) (a n : Nat) : (s.inc a n).stalls = s.stalls := rfl
@[simp] theorem State.inc_sources (s : State) (a n : Nat) : (s.inc a n).sources = s.sources := rfl
@[simp] theorem State.inc_targets (s : State) (a n : Nat) : (s.inc a n).targets = s.targets := rfl
@[simp] theorem State.inc_tb (s : State) (a n : Nat) : (s.inc a n).tb = s.tb := rfl
@[simp] theorem State.inc_wp (s : State) (a n : Nat) : (s.inc a n).wp = s.wp := rfl
@[simp] theorem State.inc_ltg (s : State) (a n : Nat) : (s.inc a n).ltg = s.ltg := rfl
@[simp] theorem State.inc_gpio (s : State) (a n : Nat) : (s.inc a n).gpio = s.gpio := rfl
@[simp] theorem State.inc_ptp (s : State) (a n : Nat) : (s.inc a n).ptp = s.ptp := rfl
@[simp] theorem State.inc_spr (s : State) (a n : Nat) : (s.inc a n).spr = s.spr := rfl
@[simp] theorem State.inc_grp (s : State) (a n : Nat) : (s.inc a n).grp = s.grp := rfl
@[simp] theorem State.inc_twb (s : State) (a n : Nat) : (s.inc a n).twb = s.twb := rfl
@[simp] theorem State.inc_engs (s : State) (a n : Nat) : (s.inc a n).engs = s.engs := rfl
@[simp] theorem State.inc_engine (s : State) (a n : Nat) : (s.inc a n).engine = s.engine := rfl
@[simp] theorem State.inc_seam (s : State) (a n : Nat) : (s.inc a n).seam = s.seam := rfl
@[simp] theorem State.inc_tnr (s : State) (a n : Nat) : (s.inc a n).tnr = s.tnr := rfl
@[simp] theorem State.inc_tally (s : State) (a n : Nat) : (s.inc a n).tally = s.tally := rfl
@[simp] theorem State.inc_load (s : State) (a n : Nat) : (s.inc a n).load = s.load := rfl
@[simp] theorem State.inc_tables (s : State) (a n : Nat) : (s.inc a n).tables = s.tables := rfl
@[simp] theorem State.inc_out (s : State) (a n : Nat) : (s.inc a n).out = s.out := rfl
@[simp] theorem State.inc_xpt (s : State) (a n : Nat) : (s.inc a n).xpt = s.xpt := rfl
@[simp] theorem State.inc_drains (s : State) (a n : Nat) : (s.inc a n).drains = s.drains := rfl
@[simp] theorem State.inc_links (s : State) (a n : Nat) : (s.inc a n).links = s.links := rfl
@[simp] theorem State.inc_portMode (s : State) (a n : Nat) : (s.inc a n).portMode = s.portMode := rfl
@[simp] theorem State.inc_lakeCtl (s : State) (a n : Nat) : (s.inc a n).lakeCtl = s.lakeCtl := rfl
@[simp] theorem State.inc_crc (s : State) (a n : Nat) : (s.inc a n).crc = s.crc := rfl
@[simp] theorem State.inc_netPonds (s : State) (a n : Nat) : (s.inc a n).netPonds = s.netPonds := rfl
@[simp] theorem State.inc_chains (s : State) (a n : Nat) : (s.inc a n).chains = s.chains := rfl
@[simp] theorem State.inc_readPtr (s : State) (a n : Nat) : (s.inc a n).readPtr = s.readPtr := rfl
@[simp] theorem State.inc_releases (s : State) (a n : Nat) : (s.inc a n).releases = s.releases := rfl
@[simp] theorem State.inc_resets (s : State) (a n : Nat) : (s.inc a n).resets = s.resets := rfl
@[simp] theorem State.inc_edges (s : State) (a n : Nat) : (s.inc a n).edges = s.edges := rfl
@[simp] theorem State.inc_lake (s : State) (a n : Nat) : (s.inc a n).lake = s.lake := rfl
@[simp] theorem State.inc_draws (s : State) (a n : Nat) : (s.inc a n).draws = s.draws := rfl
@[simp] theorem State.inc_sent (s : State) (a n : Nat) : (s.inc a n).sent = s.sent := rfl
@[simp] theorem State.inc_lakeGet (s : State) (a n : Nat) (r : Nat) : (s.inc a n).lakeGet r = s.lakeGet r := rfl
@[simp] theorem State.inc_tbl (s : State) (a n : Nat) (r : Nat) : (s.inc a n).tbl r = s.tbl r := rfl

/-! `State.onSpr` changes `spr` alone. -/

@[simp] theorem State.onSpr_pending (s : State) (i : Fin 32) (f : Spring → Spring) : (s.onSpr i f).pending = s.pending := rfl
@[simp] theorem State.onSpr_now (s : State) (i : Fin 32) (f : Spring → Spring) : (s.onSpr i f).now = s.now := rfl
@[simp] theorem State.onSpr_tarn (s : State) (i : Fin 32) (f : Spring → Spring) : (s.onSpr i f).tarn = s.tarn := rfl
@[simp] theorem State.onSpr_regs (s : State) (i : Fin 32) (f : Spring → Spring) : (s.onSpr i f).regs = s.regs := rfl
@[simp] theorem State.onSpr_staged (s : State) (i : Fin 32) (f : Spring → Spring) : (s.onSpr i f).staged = s.staged := rfl
@[simp] theorem State.onSpr_commits (s : State) (i : Fin 32) (f : Spring → Spring) : (s.onSpr i f).commits = s.commits := rfl
@[simp] theorem State.onSpr_latch (s : State) (i : Fin 32) (f : Spring → Spring) : (s.onSpr i f).latch = s.latch := rfl
@[simp] theorem State.onSpr_power (s : State) (i : Fin 32) (f : Spring → Spring) : (s.onSpr i f).power = s.power := rfl
@[simp] theorem State.onSpr_keep (s : State) (i : Fin 32) (f : Spring → Spring) : (s.onSpr i f).keep = s.keep := rfl
@[simp] theorem State.onSpr_sic (s : State) (i : Fin 32) (f : Spring → Spring) : (s.onSpr i f).sic = s.sic := rfl
@[simp] theorem State.onSpr_str (s : State) (i : Fin 32) (f : Spring → Spring) : (s.onSpr i f).str = s.str := rfl
@[simp] theorem State.onSpr_ctl (s : State) (i : Fin 32) (f : Spring → Spring) : (s.onSpr i f).ctl = s.ctl := rfl
@[simp] theorem State.onSpr_stalls (s : State) (i : Fin 32) (f : Spring → Spring) : (s.onSpr i f).stalls = s.stalls := rfl
@[simp] theorem State.onSpr_sources (s : State) (i : Fin 32) (f : Spring → Spring) : (s.onSpr i f).sources = s.sources := rfl
@[simp] theorem State.onSpr_targets (s : State) (i : Fin 32) (f : Spring → Spring) : (s.onSpr i f).targets = s.targets := rfl
@[simp] theorem State.onSpr_tb (s : State) (i : Fin 32) (f : Spring → Spring) : (s.onSpr i f).tb = s.tb := rfl
@[simp] theorem State.onSpr_wp (s : State) (i : Fin 32) (f : Spring → Spring) : (s.onSpr i f).wp = s.wp := rfl
@[simp] theorem State.onSpr_ltg (s : State) (i : Fin 32) (f : Spring → Spring) : (s.onSpr i f).ltg = s.ltg := rfl
@[simp] theorem State.onSpr_gpio (s : State) (i : Fin 32) (f : Spring → Spring) : (s.onSpr i f).gpio = s.gpio := rfl
@[simp] theorem State.onSpr_ptp (s : State) (i : Fin 32) (f : Spring → Spring) : (s.onSpr i f).ptp = s.ptp := rfl
@[simp] theorem State.onSpr_grp (s : State) (i : Fin 32) (f : Spring → Spring) : (s.onSpr i f).grp = s.grp := rfl
@[simp] theorem State.onSpr_twb (s : State) (i : Fin 32) (f : Spring → Spring) : (s.onSpr i f).twb = s.twb := rfl
@[simp] theorem State.onSpr_engs (s : State) (i : Fin 32) (f : Spring → Spring) : (s.onSpr i f).engs = s.engs := rfl
@[simp] theorem State.onSpr_engine (s : State) (i : Fin 32) (f : Spring → Spring) : (s.onSpr i f).engine = s.engine := rfl
@[simp] theorem State.onSpr_seam (s : State) (i : Fin 32) (f : Spring → Spring) : (s.onSpr i f).seam = s.seam := rfl
@[simp] theorem State.onSpr_tnr (s : State) (i : Fin 32) (f : Spring → Spring) : (s.onSpr i f).tnr = s.tnr := rfl
@[simp] theorem State.onSpr_tally (s : State) (i : Fin 32) (f : Spring → Spring) : (s.onSpr i f).tally = s.tally := rfl
@[simp] theorem State.onSpr_load (s : State) (i : Fin 32) (f : Spring → Spring) : (s.onSpr i f).load = s.load := rfl
@[simp] theorem State.onSpr_tables (s : State) (i : Fin 32) (f : Spring → Spring) : (s.onSpr i f).tables = s.tables := rfl
@[simp] theorem State.onSpr_out (s : State) (i : Fin 32) (f : Spring → Spring) : (s.onSpr i f).out = s.out := rfl
@[simp] theorem State.onSpr_xpt (s : State) (i : Fin 32) (f : Spring → Spring) : (s.onSpr i f).xpt = s.xpt := rfl
@[simp] theorem State.onSpr_drains (s : State) (i : Fin 32) (f : Spring → Spring) : (s.onSpr i f).drains = s.drains := rfl
@[simp] theorem State.onSpr_links (s : State) (i : Fin 32) (f : Spring → Spring) : (s.onSpr i f).links = s.links := rfl
@[simp] theorem State.onSpr_portMode (s : State) (i : Fin 32) (f : Spring → Spring) : (s.onSpr i f).portMode = s.portMode := rfl
@[simp] theorem State.onSpr_lakeCtl (s : State) (i : Fin 32) (f : Spring → Spring) : (s.onSpr i f).lakeCtl = s.lakeCtl := rfl
@[simp] theorem State.onSpr_crc (s : State) (i : Fin 32) (f : Spring → Spring) : (s.onSpr i f).crc = s.crc := rfl
@[simp] theorem State.onSpr_netPonds (s : State) (i : Fin 32) (f : Spring → Spring) : (s.onSpr i f).netPonds = s.netPonds := rfl
@[simp] theorem State.onSpr_chains (s : State) (i : Fin 32) (f : Spring → Spring) : (s.onSpr i f).chains = s.chains := rfl
@[simp] theorem State.onSpr_readPtr (s : State) (i : Fin 32) (f : Spring → Spring) : (s.onSpr i f).readPtr = s.readPtr := rfl
@[simp] theorem State.onSpr_releases (s : State) (i : Fin 32) (f : Spring → Spring) : (s.onSpr i f).releases = s.releases := rfl
@[simp] theorem State.onSpr_resets (s : State) (i : Fin 32) (f : Spring → Spring) : (s.onSpr i f).resets = s.resets := rfl
@[simp] theorem State.onSpr_edges (s : State) (i : Fin 32) (f : Spring → Spring) : (s.onSpr i f).edges = s.edges := rfl
@[simp] theorem State.onSpr_lake (s : State) (i : Fin 32) (f : Spring → Spring) : (s.onSpr i f).lake = s.lake := rfl
@[simp] theorem State.onSpr_draws (s : State) (i : Fin 32) (f : Spring → Spring) : (s.onSpr i f).draws = s.draws := rfl
@[simp] theorem State.onSpr_sent (s : State) (i : Fin 32) (f : Spring → Spring) : (s.onSpr i f).sent = s.sent := rfl
@[simp] theorem State.onSpr_rd (s : State) (i : Fin 32) (f : Spring → Spring) (r : Nat) : (s.onSpr i f).rd r = s.rd r := rfl
@[simp] theorem State.onSpr_lakeGet (s : State) (i : Fin 32) (f : Spring → Spring) (r : Nat) : (s.onSpr i f).lakeGet r = s.lakeGet r := rfl
@[simp] theorem State.onSpr_tbl (s : State) (i : Fin 32) (f : Spring → Spring) (r : Nat) : (s.onSpr i f).tbl r = s.tbl r := rfl

/-! `State.onGrp` changes `grp` alone. -/

@[simp] theorem State.onGrp_pending (s : State) (i : Fin 12) (f : Group → Group) : (s.onGrp i f).pending = s.pending := rfl
@[simp] theorem State.onGrp_now (s : State) (i : Fin 12) (f : Group → Group) : (s.onGrp i f).now = s.now := rfl
@[simp] theorem State.onGrp_tarn (s : State) (i : Fin 12) (f : Group → Group) : (s.onGrp i f).tarn = s.tarn := rfl
@[simp] theorem State.onGrp_regs (s : State) (i : Fin 12) (f : Group → Group) : (s.onGrp i f).regs = s.regs := rfl
@[simp] theorem State.onGrp_staged (s : State) (i : Fin 12) (f : Group → Group) : (s.onGrp i f).staged = s.staged := rfl
@[simp] theorem State.onGrp_commits (s : State) (i : Fin 12) (f : Group → Group) : (s.onGrp i f).commits = s.commits := rfl
@[simp] theorem State.onGrp_latch (s : State) (i : Fin 12) (f : Group → Group) : (s.onGrp i f).latch = s.latch := rfl
@[simp] theorem State.onGrp_power (s : State) (i : Fin 12) (f : Group → Group) : (s.onGrp i f).power = s.power := rfl
@[simp] theorem State.onGrp_keep (s : State) (i : Fin 12) (f : Group → Group) : (s.onGrp i f).keep = s.keep := rfl
@[simp] theorem State.onGrp_sic (s : State) (i : Fin 12) (f : Group → Group) : (s.onGrp i f).sic = s.sic := rfl
@[simp] theorem State.onGrp_str (s : State) (i : Fin 12) (f : Group → Group) : (s.onGrp i f).str = s.str := rfl
@[simp] theorem State.onGrp_ctl (s : State) (i : Fin 12) (f : Group → Group) : (s.onGrp i f).ctl = s.ctl := rfl
@[simp] theorem State.onGrp_stalls (s : State) (i : Fin 12) (f : Group → Group) : (s.onGrp i f).stalls = s.stalls := rfl
@[simp] theorem State.onGrp_sources (s : State) (i : Fin 12) (f : Group → Group) : (s.onGrp i f).sources = s.sources := rfl
@[simp] theorem State.onGrp_targets (s : State) (i : Fin 12) (f : Group → Group) : (s.onGrp i f).targets = s.targets := rfl
@[simp] theorem State.onGrp_tb (s : State) (i : Fin 12) (f : Group → Group) : (s.onGrp i f).tb = s.tb := rfl
@[simp] theorem State.onGrp_wp (s : State) (i : Fin 12) (f : Group → Group) : (s.onGrp i f).wp = s.wp := rfl
@[simp] theorem State.onGrp_ltg (s : State) (i : Fin 12) (f : Group → Group) : (s.onGrp i f).ltg = s.ltg := rfl
@[simp] theorem State.onGrp_gpio (s : State) (i : Fin 12) (f : Group → Group) : (s.onGrp i f).gpio = s.gpio := rfl
@[simp] theorem State.onGrp_ptp (s : State) (i : Fin 12) (f : Group → Group) : (s.onGrp i f).ptp = s.ptp := rfl
@[simp] theorem State.onGrp_spr (s : State) (i : Fin 12) (f : Group → Group) : (s.onGrp i f).spr = s.spr := rfl
@[simp] theorem State.onGrp_twb (s : State) (i : Fin 12) (f : Group → Group) : (s.onGrp i f).twb = s.twb := rfl
@[simp] theorem State.onGrp_engs (s : State) (i : Fin 12) (f : Group → Group) : (s.onGrp i f).engs = s.engs := rfl
@[simp] theorem State.onGrp_engine (s : State) (i : Fin 12) (f : Group → Group) : (s.onGrp i f).engine = s.engine := rfl
@[simp] theorem State.onGrp_seam (s : State) (i : Fin 12) (f : Group → Group) : (s.onGrp i f).seam = s.seam := rfl
@[simp] theorem State.onGrp_tnr (s : State) (i : Fin 12) (f : Group → Group) : (s.onGrp i f).tnr = s.tnr := rfl
@[simp] theorem State.onGrp_tally (s : State) (i : Fin 12) (f : Group → Group) : (s.onGrp i f).tally = s.tally := rfl
@[simp] theorem State.onGrp_load (s : State) (i : Fin 12) (f : Group → Group) : (s.onGrp i f).load = s.load := rfl
@[simp] theorem State.onGrp_tables (s : State) (i : Fin 12) (f : Group → Group) : (s.onGrp i f).tables = s.tables := rfl
@[simp] theorem State.onGrp_out (s : State) (i : Fin 12) (f : Group → Group) : (s.onGrp i f).out = s.out := rfl
@[simp] theorem State.onGrp_xpt (s : State) (i : Fin 12) (f : Group → Group) : (s.onGrp i f).xpt = s.xpt := rfl
@[simp] theorem State.onGrp_drains (s : State) (i : Fin 12) (f : Group → Group) : (s.onGrp i f).drains = s.drains := rfl
@[simp] theorem State.onGrp_links (s : State) (i : Fin 12) (f : Group → Group) : (s.onGrp i f).links = s.links := rfl
@[simp] theorem State.onGrp_portMode (s : State) (i : Fin 12) (f : Group → Group) : (s.onGrp i f).portMode = s.portMode := rfl
@[simp] theorem State.onGrp_lakeCtl (s : State) (i : Fin 12) (f : Group → Group) : (s.onGrp i f).lakeCtl = s.lakeCtl := rfl
@[simp] theorem State.onGrp_crc (s : State) (i : Fin 12) (f : Group → Group) : (s.onGrp i f).crc = s.crc := rfl
@[simp] theorem State.onGrp_netPonds (s : State) (i : Fin 12) (f : Group → Group) : (s.onGrp i f).netPonds = s.netPonds := rfl
@[simp] theorem State.onGrp_chains (s : State) (i : Fin 12) (f : Group → Group) : (s.onGrp i f).chains = s.chains := rfl
@[simp] theorem State.onGrp_readPtr (s : State) (i : Fin 12) (f : Group → Group) : (s.onGrp i f).readPtr = s.readPtr := rfl
@[simp] theorem State.onGrp_releases (s : State) (i : Fin 12) (f : Group → Group) : (s.onGrp i f).releases = s.releases := rfl
@[simp] theorem State.onGrp_resets (s : State) (i : Fin 12) (f : Group → Group) : (s.onGrp i f).resets = s.resets := rfl
@[simp] theorem State.onGrp_edges (s : State) (i : Fin 12) (f : Group → Group) : (s.onGrp i f).edges = s.edges := rfl
@[simp] theorem State.onGrp_lake (s : State) (i : Fin 12) (f : Group → Group) : (s.onGrp i f).lake = s.lake := rfl
@[simp] theorem State.onGrp_draws (s : State) (i : Fin 12) (f : Group → Group) : (s.onGrp i f).draws = s.draws := rfl
@[simp] theorem State.onGrp_sent (s : State) (i : Fin 12) (f : Group → Group) : (s.onGrp i f).sent = s.sent := rfl
@[simp] theorem State.onGrp_rd (s : State) (i : Fin 12) (f : Group → Group) (r : Nat) : (s.onGrp i f).rd r = s.rd r := rfl
@[simp] theorem State.onGrp_lakeGet (s : State) (i : Fin 12) (f : Group → Group) (r : Nat) : (s.onGrp i f).lakeGet r = s.lakeGet r := rfl
@[simp] theorem State.onGrp_tbl (s : State) (i : Fin 12) (f : Group → Group) (r : Nat) : (s.onGrp i f).tbl r = s.tbl r := rfl

/-! `State.onTwb` changes `twb` alone. -/

@[simp] theorem State.onTwb_pending (s : State) (i : Fin 32) (f : TwoWire → TwoWire) : (s.onTwb i f).pending = s.pending := rfl
@[simp] theorem State.onTwb_now (s : State) (i : Fin 32) (f : TwoWire → TwoWire) : (s.onTwb i f).now = s.now := rfl
@[simp] theorem State.onTwb_tarn (s : State) (i : Fin 32) (f : TwoWire → TwoWire) : (s.onTwb i f).tarn = s.tarn := rfl
@[simp] theorem State.onTwb_regs (s : State) (i : Fin 32) (f : TwoWire → TwoWire) : (s.onTwb i f).regs = s.regs := rfl
@[simp] theorem State.onTwb_staged (s : State) (i : Fin 32) (f : TwoWire → TwoWire) : (s.onTwb i f).staged = s.staged := rfl
@[simp] theorem State.onTwb_commits (s : State) (i : Fin 32) (f : TwoWire → TwoWire) : (s.onTwb i f).commits = s.commits := rfl
@[simp] theorem State.onTwb_latch (s : State) (i : Fin 32) (f : TwoWire → TwoWire) : (s.onTwb i f).latch = s.latch := rfl
@[simp] theorem State.onTwb_power (s : State) (i : Fin 32) (f : TwoWire → TwoWire) : (s.onTwb i f).power = s.power := rfl
@[simp] theorem State.onTwb_keep (s : State) (i : Fin 32) (f : TwoWire → TwoWire) : (s.onTwb i f).keep = s.keep := rfl
@[simp] theorem State.onTwb_sic (s : State) (i : Fin 32) (f : TwoWire → TwoWire) : (s.onTwb i f).sic = s.sic := rfl
@[simp] theorem State.onTwb_str (s : State) (i : Fin 32) (f : TwoWire → TwoWire) : (s.onTwb i f).str = s.str := rfl
@[simp] theorem State.onTwb_ctl (s : State) (i : Fin 32) (f : TwoWire → TwoWire) : (s.onTwb i f).ctl = s.ctl := rfl
@[simp] theorem State.onTwb_stalls (s : State) (i : Fin 32) (f : TwoWire → TwoWire) : (s.onTwb i f).stalls = s.stalls := rfl
@[simp] theorem State.onTwb_sources (s : State) (i : Fin 32) (f : TwoWire → TwoWire) : (s.onTwb i f).sources = s.sources := rfl
@[simp] theorem State.onTwb_targets (s : State) (i : Fin 32) (f : TwoWire → TwoWire) : (s.onTwb i f).targets = s.targets := rfl
@[simp] theorem State.onTwb_tb (s : State) (i : Fin 32) (f : TwoWire → TwoWire) : (s.onTwb i f).tb = s.tb := rfl
@[simp] theorem State.onTwb_wp (s : State) (i : Fin 32) (f : TwoWire → TwoWire) : (s.onTwb i f).wp = s.wp := rfl
@[simp] theorem State.onTwb_ltg (s : State) (i : Fin 32) (f : TwoWire → TwoWire) : (s.onTwb i f).ltg = s.ltg := rfl
@[simp] theorem State.onTwb_gpio (s : State) (i : Fin 32) (f : TwoWire → TwoWire) : (s.onTwb i f).gpio = s.gpio := rfl
@[simp] theorem State.onTwb_ptp (s : State) (i : Fin 32) (f : TwoWire → TwoWire) : (s.onTwb i f).ptp = s.ptp := rfl
@[simp] theorem State.onTwb_spr (s : State) (i : Fin 32) (f : TwoWire → TwoWire) : (s.onTwb i f).spr = s.spr := rfl
@[simp] theorem State.onTwb_grp (s : State) (i : Fin 32) (f : TwoWire → TwoWire) : (s.onTwb i f).grp = s.grp := rfl
@[simp] theorem State.onTwb_engs (s : State) (i : Fin 32) (f : TwoWire → TwoWire) : (s.onTwb i f).engs = s.engs := rfl
@[simp] theorem State.onTwb_engine (s : State) (i : Fin 32) (f : TwoWire → TwoWire) : (s.onTwb i f).engine = s.engine := rfl
@[simp] theorem State.onTwb_seam (s : State) (i : Fin 32) (f : TwoWire → TwoWire) : (s.onTwb i f).seam = s.seam := rfl
@[simp] theorem State.onTwb_tnr (s : State) (i : Fin 32) (f : TwoWire → TwoWire) : (s.onTwb i f).tnr = s.tnr := rfl
@[simp] theorem State.onTwb_tally (s : State) (i : Fin 32) (f : TwoWire → TwoWire) : (s.onTwb i f).tally = s.tally := rfl
@[simp] theorem State.onTwb_load (s : State) (i : Fin 32) (f : TwoWire → TwoWire) : (s.onTwb i f).load = s.load := rfl
@[simp] theorem State.onTwb_tables (s : State) (i : Fin 32) (f : TwoWire → TwoWire) : (s.onTwb i f).tables = s.tables := rfl
@[simp] theorem State.onTwb_out (s : State) (i : Fin 32) (f : TwoWire → TwoWire) : (s.onTwb i f).out = s.out := rfl
@[simp] theorem State.onTwb_xpt (s : State) (i : Fin 32) (f : TwoWire → TwoWire) : (s.onTwb i f).xpt = s.xpt := rfl
@[simp] theorem State.onTwb_drains (s : State) (i : Fin 32) (f : TwoWire → TwoWire) : (s.onTwb i f).drains = s.drains := rfl
@[simp] theorem State.onTwb_links (s : State) (i : Fin 32) (f : TwoWire → TwoWire) : (s.onTwb i f).links = s.links := rfl
@[simp] theorem State.onTwb_portMode (s : State) (i : Fin 32) (f : TwoWire → TwoWire) : (s.onTwb i f).portMode = s.portMode := rfl
@[simp] theorem State.onTwb_lakeCtl (s : State) (i : Fin 32) (f : TwoWire → TwoWire) : (s.onTwb i f).lakeCtl = s.lakeCtl := rfl
@[simp] theorem State.onTwb_crc (s : State) (i : Fin 32) (f : TwoWire → TwoWire) : (s.onTwb i f).crc = s.crc := rfl
@[simp] theorem State.onTwb_netPonds (s : State) (i : Fin 32) (f : TwoWire → TwoWire) : (s.onTwb i f).netPonds = s.netPonds := rfl
@[simp] theorem State.onTwb_chains (s : State) (i : Fin 32) (f : TwoWire → TwoWire) : (s.onTwb i f).chains = s.chains := rfl
@[simp] theorem State.onTwb_readPtr (s : State) (i : Fin 32) (f : TwoWire → TwoWire) : (s.onTwb i f).readPtr = s.readPtr := rfl
@[simp] theorem State.onTwb_releases (s : State) (i : Fin 32) (f : TwoWire → TwoWire) : (s.onTwb i f).releases = s.releases := rfl
@[simp] theorem State.onTwb_resets (s : State) (i : Fin 32) (f : TwoWire → TwoWire) : (s.onTwb i f).resets = s.resets := rfl
@[simp] theorem State.onTwb_edges (s : State) (i : Fin 32) (f : TwoWire → TwoWire) : (s.onTwb i f).edges = s.edges := rfl
@[simp] theorem State.onTwb_lake (s : State) (i : Fin 32) (f : TwoWire → TwoWire) : (s.onTwb i f).lake = s.lake := rfl
@[simp] theorem State.onTwb_draws (s : State) (i : Fin 32) (f : TwoWire → TwoWire) : (s.onTwb i f).draws = s.draws := rfl
@[simp] theorem State.onTwb_sent (s : State) (i : Fin 32) (f : TwoWire → TwoWire) : (s.onTwb i f).sent = s.sent := rfl
@[simp] theorem State.onTwb_rd (s : State) (i : Fin 32) (f : TwoWire → TwoWire) (r : Nat) : (s.onTwb i f).rd r = s.rd r := rfl
@[simp] theorem State.onTwb_lakeGet (s : State) (i : Fin 32) (f : TwoWire → TwoWire) (r : Nat) : (s.onTwb i f).lakeGet r = s.lakeGet r := rfl
@[simp] theorem State.onTwb_tbl (s : State) (i : Fin 32) (f : TwoWire → TwoWire) (r : Nat) : (s.onTwb i f).tbl r = s.tbl r := rfl

/-! `State.onStall` changes `stalls` alone. -/

@[simp] theorem State.onStall_pending (s : State) (i : Fin 8) (f : Stall → Stall) : (s.onStall i f).pending = s.pending := rfl
@[simp] theorem State.onStall_now (s : State) (i : Fin 8) (f : Stall → Stall) : (s.onStall i f).now = s.now := rfl
@[simp] theorem State.onStall_tarn (s : State) (i : Fin 8) (f : Stall → Stall) : (s.onStall i f).tarn = s.tarn := rfl
@[simp] theorem State.onStall_regs (s : State) (i : Fin 8) (f : Stall → Stall) : (s.onStall i f).regs = s.regs := rfl
@[simp] theorem State.onStall_staged (s : State) (i : Fin 8) (f : Stall → Stall) : (s.onStall i f).staged = s.staged := rfl
@[simp] theorem State.onStall_commits (s : State) (i : Fin 8) (f : Stall → Stall) : (s.onStall i f).commits = s.commits := rfl
@[simp] theorem State.onStall_latch (s : State) (i : Fin 8) (f : Stall → Stall) : (s.onStall i f).latch = s.latch := rfl
@[simp] theorem State.onStall_power (s : State) (i : Fin 8) (f : Stall → Stall) : (s.onStall i f).power = s.power := rfl
@[simp] theorem State.onStall_keep (s : State) (i : Fin 8) (f : Stall → Stall) : (s.onStall i f).keep = s.keep := rfl
@[simp] theorem State.onStall_sic (s : State) (i : Fin 8) (f : Stall → Stall) : (s.onStall i f).sic = s.sic := rfl
@[simp] theorem State.onStall_str (s : State) (i : Fin 8) (f : Stall → Stall) : (s.onStall i f).str = s.str := rfl
@[simp] theorem State.onStall_ctl (s : State) (i : Fin 8) (f : Stall → Stall) : (s.onStall i f).ctl = s.ctl := rfl
@[simp] theorem State.onStall_sources (s : State) (i : Fin 8) (f : Stall → Stall) : (s.onStall i f).sources = s.sources := rfl
@[simp] theorem State.onStall_targets (s : State) (i : Fin 8) (f : Stall → Stall) : (s.onStall i f).targets = s.targets := rfl
@[simp] theorem State.onStall_tb (s : State) (i : Fin 8) (f : Stall → Stall) : (s.onStall i f).tb = s.tb := rfl
@[simp] theorem State.onStall_wp (s : State) (i : Fin 8) (f : Stall → Stall) : (s.onStall i f).wp = s.wp := rfl
@[simp] theorem State.onStall_ltg (s : State) (i : Fin 8) (f : Stall → Stall) : (s.onStall i f).ltg = s.ltg := rfl
@[simp] theorem State.onStall_gpio (s : State) (i : Fin 8) (f : Stall → Stall) : (s.onStall i f).gpio = s.gpio := rfl
@[simp] theorem State.onStall_ptp (s : State) (i : Fin 8) (f : Stall → Stall) : (s.onStall i f).ptp = s.ptp := rfl
@[simp] theorem State.onStall_spr (s : State) (i : Fin 8) (f : Stall → Stall) : (s.onStall i f).spr = s.spr := rfl
@[simp] theorem State.onStall_grp (s : State) (i : Fin 8) (f : Stall → Stall) : (s.onStall i f).grp = s.grp := rfl
@[simp] theorem State.onStall_twb (s : State) (i : Fin 8) (f : Stall → Stall) : (s.onStall i f).twb = s.twb := rfl
@[simp] theorem State.onStall_engs (s : State) (i : Fin 8) (f : Stall → Stall) : (s.onStall i f).engs = s.engs := rfl
@[simp] theorem State.onStall_engine (s : State) (i : Fin 8) (f : Stall → Stall) : (s.onStall i f).engine = s.engine := rfl
@[simp] theorem State.onStall_seam (s : State) (i : Fin 8) (f : Stall → Stall) : (s.onStall i f).seam = s.seam := rfl
@[simp] theorem State.onStall_tnr (s : State) (i : Fin 8) (f : Stall → Stall) : (s.onStall i f).tnr = s.tnr := rfl
@[simp] theorem State.onStall_tally (s : State) (i : Fin 8) (f : Stall → Stall) : (s.onStall i f).tally = s.tally := rfl
@[simp] theorem State.onStall_load (s : State) (i : Fin 8) (f : Stall → Stall) : (s.onStall i f).load = s.load := rfl
@[simp] theorem State.onStall_tables (s : State) (i : Fin 8) (f : Stall → Stall) : (s.onStall i f).tables = s.tables := rfl
@[simp] theorem State.onStall_out (s : State) (i : Fin 8) (f : Stall → Stall) : (s.onStall i f).out = s.out := rfl
@[simp] theorem State.onStall_xpt (s : State) (i : Fin 8) (f : Stall → Stall) : (s.onStall i f).xpt = s.xpt := rfl
@[simp] theorem State.onStall_drains (s : State) (i : Fin 8) (f : Stall → Stall) : (s.onStall i f).drains = s.drains := rfl
@[simp] theorem State.onStall_links (s : State) (i : Fin 8) (f : Stall → Stall) : (s.onStall i f).links = s.links := rfl
@[simp] theorem State.onStall_portMode (s : State) (i : Fin 8) (f : Stall → Stall) : (s.onStall i f).portMode = s.portMode := rfl
@[simp] theorem State.onStall_lakeCtl (s : State) (i : Fin 8) (f : Stall → Stall) : (s.onStall i f).lakeCtl = s.lakeCtl := rfl
@[simp] theorem State.onStall_crc (s : State) (i : Fin 8) (f : Stall → Stall) : (s.onStall i f).crc = s.crc := rfl
@[simp] theorem State.onStall_netPonds (s : State) (i : Fin 8) (f : Stall → Stall) : (s.onStall i f).netPonds = s.netPonds := rfl
@[simp] theorem State.onStall_chains (s : State) (i : Fin 8) (f : Stall → Stall) : (s.onStall i f).chains = s.chains := rfl
@[simp] theorem State.onStall_readPtr (s : State) (i : Fin 8) (f : Stall → Stall) : (s.onStall i f).readPtr = s.readPtr := rfl
@[simp] theorem State.onStall_releases (s : State) (i : Fin 8) (f : Stall → Stall) : (s.onStall i f).releases = s.releases := rfl
@[simp] theorem State.onStall_resets (s : State) (i : Fin 8) (f : Stall → Stall) : (s.onStall i f).resets = s.resets := rfl
@[simp] theorem State.onStall_edges (s : State) (i : Fin 8) (f : Stall → Stall) : (s.onStall i f).edges = s.edges := rfl
@[simp] theorem State.onStall_lake (s : State) (i : Fin 8) (f : Stall → Stall) : (s.onStall i f).lake = s.lake := rfl
@[simp] theorem State.onStall_draws (s : State) (i : Fin 8) (f : Stall → Stall) : (s.onStall i f).draws = s.draws := rfl
@[simp] theorem State.onStall_sent (s : State) (i : Fin 8) (f : Stall → Stall) : (s.onStall i f).sent = s.sent := rfl
@[simp] theorem State.onStall_rd (s : State) (i : Fin 8) (f : Stall → Stall) (r : Nat) : (s.onStall i f).rd r = s.rd r := rfl
@[simp] theorem State.onStall_lakeGet (s : State) (i : Fin 8) (f : Stall → Stall) (r : Nat) : (s.onStall i f).lakeGet r = s.lakeGet r := rfl
@[simp] theorem State.onStall_tbl (s : State) (i : Fin 8) (f : Stall → Stall) (r : Nat) : (s.onStall i f).tbl r = s.tbl r := rfl

/-! `State.onSrc` changes `sources` alone. -/

@[simp] theorem State.onSrc_pending (s : State) (i : Fin 768) (f : Source → Source) : (s.onSrc i f).pending = s.pending := rfl
@[simp] theorem State.onSrc_now (s : State) (i : Fin 768) (f : Source → Source) : (s.onSrc i f).now = s.now := rfl
@[simp] theorem State.onSrc_tarn (s : State) (i : Fin 768) (f : Source → Source) : (s.onSrc i f).tarn = s.tarn := rfl
@[simp] theorem State.onSrc_regs (s : State) (i : Fin 768) (f : Source → Source) : (s.onSrc i f).regs = s.regs := rfl
@[simp] theorem State.onSrc_staged (s : State) (i : Fin 768) (f : Source → Source) : (s.onSrc i f).staged = s.staged := rfl
@[simp] theorem State.onSrc_commits (s : State) (i : Fin 768) (f : Source → Source) : (s.onSrc i f).commits = s.commits := rfl
@[simp] theorem State.onSrc_latch (s : State) (i : Fin 768) (f : Source → Source) : (s.onSrc i f).latch = s.latch := rfl
@[simp] theorem State.onSrc_power (s : State) (i : Fin 768) (f : Source → Source) : (s.onSrc i f).power = s.power := rfl
@[simp] theorem State.onSrc_keep (s : State) (i : Fin 768) (f : Source → Source) : (s.onSrc i f).keep = s.keep := rfl
@[simp] theorem State.onSrc_sic (s : State) (i : Fin 768) (f : Source → Source) : (s.onSrc i f).sic = s.sic := rfl
@[simp] theorem State.onSrc_str (s : State) (i : Fin 768) (f : Source → Source) : (s.onSrc i f).str = s.str := rfl
@[simp] theorem State.onSrc_ctl (s : State) (i : Fin 768) (f : Source → Source) : (s.onSrc i f).ctl = s.ctl := rfl
@[simp] theorem State.onSrc_stalls (s : State) (i : Fin 768) (f : Source → Source) : (s.onSrc i f).stalls = s.stalls := rfl
@[simp] theorem State.onSrc_targets (s : State) (i : Fin 768) (f : Source → Source) : (s.onSrc i f).targets = s.targets := rfl
@[simp] theorem State.onSrc_tb (s : State) (i : Fin 768) (f : Source → Source) : (s.onSrc i f).tb = s.tb := rfl
@[simp] theorem State.onSrc_wp (s : State) (i : Fin 768) (f : Source → Source) : (s.onSrc i f).wp = s.wp := rfl
@[simp] theorem State.onSrc_ltg (s : State) (i : Fin 768) (f : Source → Source) : (s.onSrc i f).ltg = s.ltg := rfl
@[simp] theorem State.onSrc_gpio (s : State) (i : Fin 768) (f : Source → Source) : (s.onSrc i f).gpio = s.gpio := rfl
@[simp] theorem State.onSrc_ptp (s : State) (i : Fin 768) (f : Source → Source) : (s.onSrc i f).ptp = s.ptp := rfl
@[simp] theorem State.onSrc_spr (s : State) (i : Fin 768) (f : Source → Source) : (s.onSrc i f).spr = s.spr := rfl
@[simp] theorem State.onSrc_grp (s : State) (i : Fin 768) (f : Source → Source) : (s.onSrc i f).grp = s.grp := rfl
@[simp] theorem State.onSrc_twb (s : State) (i : Fin 768) (f : Source → Source) : (s.onSrc i f).twb = s.twb := rfl
@[simp] theorem State.onSrc_engs (s : State) (i : Fin 768) (f : Source → Source) : (s.onSrc i f).engs = s.engs := rfl
@[simp] theorem State.onSrc_engine (s : State) (i : Fin 768) (f : Source → Source) : (s.onSrc i f).engine = s.engine := rfl
@[simp] theorem State.onSrc_seam (s : State) (i : Fin 768) (f : Source → Source) : (s.onSrc i f).seam = s.seam := rfl
@[simp] theorem State.onSrc_tnr (s : State) (i : Fin 768) (f : Source → Source) : (s.onSrc i f).tnr = s.tnr := rfl
@[simp] theorem State.onSrc_tally (s : State) (i : Fin 768) (f : Source → Source) : (s.onSrc i f).tally = s.tally := rfl
@[simp] theorem State.onSrc_load (s : State) (i : Fin 768) (f : Source → Source) : (s.onSrc i f).load = s.load := rfl
@[simp] theorem State.onSrc_tables (s : State) (i : Fin 768) (f : Source → Source) : (s.onSrc i f).tables = s.tables := rfl
@[simp] theorem State.onSrc_out (s : State) (i : Fin 768) (f : Source → Source) : (s.onSrc i f).out = s.out := rfl
@[simp] theorem State.onSrc_xpt (s : State) (i : Fin 768) (f : Source → Source) : (s.onSrc i f).xpt = s.xpt := rfl
@[simp] theorem State.onSrc_drains (s : State) (i : Fin 768) (f : Source → Source) : (s.onSrc i f).drains = s.drains := rfl
@[simp] theorem State.onSrc_links (s : State) (i : Fin 768) (f : Source → Source) : (s.onSrc i f).links = s.links := rfl
@[simp] theorem State.onSrc_portMode (s : State) (i : Fin 768) (f : Source → Source) : (s.onSrc i f).portMode = s.portMode := rfl
@[simp] theorem State.onSrc_lakeCtl (s : State) (i : Fin 768) (f : Source → Source) : (s.onSrc i f).lakeCtl = s.lakeCtl := rfl
@[simp] theorem State.onSrc_crc (s : State) (i : Fin 768) (f : Source → Source) : (s.onSrc i f).crc = s.crc := rfl
@[simp] theorem State.onSrc_netPonds (s : State) (i : Fin 768) (f : Source → Source) : (s.onSrc i f).netPonds = s.netPonds := rfl
@[simp] theorem State.onSrc_chains (s : State) (i : Fin 768) (f : Source → Source) : (s.onSrc i f).chains = s.chains := rfl
@[simp] theorem State.onSrc_readPtr (s : State) (i : Fin 768) (f : Source → Source) : (s.onSrc i f).readPtr = s.readPtr := rfl
@[simp] theorem State.onSrc_releases (s : State) (i : Fin 768) (f : Source → Source) : (s.onSrc i f).releases = s.releases := rfl
@[simp] theorem State.onSrc_resets (s : State) (i : Fin 768) (f : Source → Source) : (s.onSrc i f).resets = s.resets := rfl
@[simp] theorem State.onSrc_edges (s : State) (i : Fin 768) (f : Source → Source) : (s.onSrc i f).edges = s.edges := rfl
@[simp] theorem State.onSrc_lake (s : State) (i : Fin 768) (f : Source → Source) : (s.onSrc i f).lake = s.lake := rfl
@[simp] theorem State.onSrc_draws (s : State) (i : Fin 768) (f : Source → Source) : (s.onSrc i f).draws = s.draws := rfl
@[simp] theorem State.onSrc_sent (s : State) (i : Fin 768) (f : Source → Source) : (s.onSrc i f).sent = s.sent := rfl
@[simp] theorem State.onSrc_rd (s : State) (i : Fin 768) (f : Source → Source) (r : Nat) : (s.onSrc i f).rd r = s.rd r := rfl
@[simp] theorem State.onSrc_lakeGet (s : State) (i : Fin 768) (f : Source → Source) (r : Nat) : (s.onSrc i f).lakeGet r = s.lakeGet r := rfl
@[simp] theorem State.onSrc_tbl (s : State) (i : Fin 768) (f : Source → Source) (r : Nat) : (s.onSrc i f).tbl r = s.tbl r := rfl

/-! `State.onTgt` changes `targets` alone. -/

@[simp] theorem State.onTgt_pending (s : State) (i : Fin 20) (f : Target → Target) : (s.onTgt i f).pending = s.pending := rfl
@[simp] theorem State.onTgt_now (s : State) (i : Fin 20) (f : Target → Target) : (s.onTgt i f).now = s.now := rfl
@[simp] theorem State.onTgt_tarn (s : State) (i : Fin 20) (f : Target → Target) : (s.onTgt i f).tarn = s.tarn := rfl
@[simp] theorem State.onTgt_regs (s : State) (i : Fin 20) (f : Target → Target) : (s.onTgt i f).regs = s.regs := rfl
@[simp] theorem State.onTgt_staged (s : State) (i : Fin 20) (f : Target → Target) : (s.onTgt i f).staged = s.staged := rfl
@[simp] theorem State.onTgt_commits (s : State) (i : Fin 20) (f : Target → Target) : (s.onTgt i f).commits = s.commits := rfl
@[simp] theorem State.onTgt_latch (s : State) (i : Fin 20) (f : Target → Target) : (s.onTgt i f).latch = s.latch := rfl
@[simp] theorem State.onTgt_power (s : State) (i : Fin 20) (f : Target → Target) : (s.onTgt i f).power = s.power := rfl
@[simp] theorem State.onTgt_keep (s : State) (i : Fin 20) (f : Target → Target) : (s.onTgt i f).keep = s.keep := rfl
@[simp] theorem State.onTgt_sic (s : State) (i : Fin 20) (f : Target → Target) : (s.onTgt i f).sic = s.sic := rfl
@[simp] theorem State.onTgt_str (s : State) (i : Fin 20) (f : Target → Target) : (s.onTgt i f).str = s.str := rfl
@[simp] theorem State.onTgt_ctl (s : State) (i : Fin 20) (f : Target → Target) : (s.onTgt i f).ctl = s.ctl := rfl
@[simp] theorem State.onTgt_stalls (s : State) (i : Fin 20) (f : Target → Target) : (s.onTgt i f).stalls = s.stalls := rfl
@[simp] theorem State.onTgt_sources (s : State) (i : Fin 20) (f : Target → Target) : (s.onTgt i f).sources = s.sources := rfl
@[simp] theorem State.onTgt_tb (s : State) (i : Fin 20) (f : Target → Target) : (s.onTgt i f).tb = s.tb := rfl
@[simp] theorem State.onTgt_wp (s : State) (i : Fin 20) (f : Target → Target) : (s.onTgt i f).wp = s.wp := rfl
@[simp] theorem State.onTgt_ltg (s : State) (i : Fin 20) (f : Target → Target) : (s.onTgt i f).ltg = s.ltg := rfl
@[simp] theorem State.onTgt_gpio (s : State) (i : Fin 20) (f : Target → Target) : (s.onTgt i f).gpio = s.gpio := rfl
@[simp] theorem State.onTgt_ptp (s : State) (i : Fin 20) (f : Target → Target) : (s.onTgt i f).ptp = s.ptp := rfl
@[simp] theorem State.onTgt_spr (s : State) (i : Fin 20) (f : Target → Target) : (s.onTgt i f).spr = s.spr := rfl
@[simp] theorem State.onTgt_grp (s : State) (i : Fin 20) (f : Target → Target) : (s.onTgt i f).grp = s.grp := rfl
@[simp] theorem State.onTgt_twb (s : State) (i : Fin 20) (f : Target → Target) : (s.onTgt i f).twb = s.twb := rfl
@[simp] theorem State.onTgt_engs (s : State) (i : Fin 20) (f : Target → Target) : (s.onTgt i f).engs = s.engs := rfl
@[simp] theorem State.onTgt_engine (s : State) (i : Fin 20) (f : Target → Target) : (s.onTgt i f).engine = s.engine := rfl
@[simp] theorem State.onTgt_seam (s : State) (i : Fin 20) (f : Target → Target) : (s.onTgt i f).seam = s.seam := rfl
@[simp] theorem State.onTgt_tnr (s : State) (i : Fin 20) (f : Target → Target) : (s.onTgt i f).tnr = s.tnr := rfl
@[simp] theorem State.onTgt_tally (s : State) (i : Fin 20) (f : Target → Target) : (s.onTgt i f).tally = s.tally := rfl
@[simp] theorem State.onTgt_load (s : State) (i : Fin 20) (f : Target → Target) : (s.onTgt i f).load = s.load := rfl
@[simp] theorem State.onTgt_tables (s : State) (i : Fin 20) (f : Target → Target) : (s.onTgt i f).tables = s.tables := rfl
@[simp] theorem State.onTgt_out (s : State) (i : Fin 20) (f : Target → Target) : (s.onTgt i f).out = s.out := rfl
@[simp] theorem State.onTgt_xpt (s : State) (i : Fin 20) (f : Target → Target) : (s.onTgt i f).xpt = s.xpt := rfl
@[simp] theorem State.onTgt_drains (s : State) (i : Fin 20) (f : Target → Target) : (s.onTgt i f).drains = s.drains := rfl
@[simp] theorem State.onTgt_links (s : State) (i : Fin 20) (f : Target → Target) : (s.onTgt i f).links = s.links := rfl
@[simp] theorem State.onTgt_portMode (s : State) (i : Fin 20) (f : Target → Target) : (s.onTgt i f).portMode = s.portMode := rfl
@[simp] theorem State.onTgt_lakeCtl (s : State) (i : Fin 20) (f : Target → Target) : (s.onTgt i f).lakeCtl = s.lakeCtl := rfl
@[simp] theorem State.onTgt_crc (s : State) (i : Fin 20) (f : Target → Target) : (s.onTgt i f).crc = s.crc := rfl
@[simp] theorem State.onTgt_netPonds (s : State) (i : Fin 20) (f : Target → Target) : (s.onTgt i f).netPonds = s.netPonds := rfl
@[simp] theorem State.onTgt_chains (s : State) (i : Fin 20) (f : Target → Target) : (s.onTgt i f).chains = s.chains := rfl
@[simp] theorem State.onTgt_readPtr (s : State) (i : Fin 20) (f : Target → Target) : (s.onTgt i f).readPtr = s.readPtr := rfl
@[simp] theorem State.onTgt_releases (s : State) (i : Fin 20) (f : Target → Target) : (s.onTgt i f).releases = s.releases := rfl
@[simp] theorem State.onTgt_resets (s : State) (i : Fin 20) (f : Target → Target) : (s.onTgt i f).resets = s.resets := rfl
@[simp] theorem State.onTgt_edges (s : State) (i : Fin 20) (f : Target → Target) : (s.onTgt i f).edges = s.edges := rfl
@[simp] theorem State.onTgt_lake (s : State) (i : Fin 20) (f : Target → Target) : (s.onTgt i f).lake = s.lake := rfl
@[simp] theorem State.onTgt_draws (s : State) (i : Fin 20) (f : Target → Target) : (s.onTgt i f).draws = s.draws := rfl
@[simp] theorem State.onTgt_sent (s : State) (i : Fin 20) (f : Target → Target) : (s.onTgt i f).sent = s.sent := rfl
@[simp] theorem State.onTgt_rd (s : State) (i : Fin 20) (f : Target → Target) (r : Nat) : (s.onTgt i f).rd r = s.rd r := rfl
@[simp] theorem State.onTgt_lakeGet (s : State) (i : Fin 20) (f : Target → Target) (r : Nat) : (s.onTgt i f).lakeGet r = s.lakeGet r := rfl
@[simp] theorem State.onTgt_tbl (s : State) (i : Fin 20) (f : Target → Target) (r : Nat) : (s.onTgt i f).tbl r = s.tbl r := rfl

/-! `State.onTb` changes `tb` alone. -/

@[simp] theorem State.onTb_pending (s : State) (i : Fin 4) (f : TimeBase → TimeBase) : (s.onTb i f).pending = s.pending := rfl
@[simp] theorem State.onTb_now (s : State) (i : Fin 4) (f : TimeBase → TimeBase) : (s.onTb i f).now = s.now := rfl
@[simp] theorem State.onTb_tarn (s : State) (i : Fin 4) (f : TimeBase → TimeBase) : (s.onTb i f).tarn = s.tarn := rfl
@[simp] theorem State.onTb_regs (s : State) (i : Fin 4) (f : TimeBase → TimeBase) : (s.onTb i f).regs = s.regs := rfl
@[simp] theorem State.onTb_staged (s : State) (i : Fin 4) (f : TimeBase → TimeBase) : (s.onTb i f).staged = s.staged := rfl
@[simp] theorem State.onTb_commits (s : State) (i : Fin 4) (f : TimeBase → TimeBase) : (s.onTb i f).commits = s.commits := rfl
@[simp] theorem State.onTb_latch (s : State) (i : Fin 4) (f : TimeBase → TimeBase) : (s.onTb i f).latch = s.latch := rfl
@[simp] theorem State.onTb_power (s : State) (i : Fin 4) (f : TimeBase → TimeBase) : (s.onTb i f).power = s.power := rfl
@[simp] theorem State.onTb_keep (s : State) (i : Fin 4) (f : TimeBase → TimeBase) : (s.onTb i f).keep = s.keep := rfl
@[simp] theorem State.onTb_sic (s : State) (i : Fin 4) (f : TimeBase → TimeBase) : (s.onTb i f).sic = s.sic := rfl
@[simp] theorem State.onTb_str (s : State) (i : Fin 4) (f : TimeBase → TimeBase) : (s.onTb i f).str = s.str := rfl
@[simp] theorem State.onTb_ctl (s : State) (i : Fin 4) (f : TimeBase → TimeBase) : (s.onTb i f).ctl = s.ctl := rfl
@[simp] theorem State.onTb_stalls (s : State) (i : Fin 4) (f : TimeBase → TimeBase) : (s.onTb i f).stalls = s.stalls := rfl
@[simp] theorem State.onTb_sources (s : State) (i : Fin 4) (f : TimeBase → TimeBase) : (s.onTb i f).sources = s.sources := rfl
@[simp] theorem State.onTb_targets (s : State) (i : Fin 4) (f : TimeBase → TimeBase) : (s.onTb i f).targets = s.targets := rfl
@[simp] theorem State.onTb_wp (s : State) (i : Fin 4) (f : TimeBase → TimeBase) : (s.onTb i f).wp = s.wp := rfl
@[simp] theorem State.onTb_ltg (s : State) (i : Fin 4) (f : TimeBase → TimeBase) : (s.onTb i f).ltg = s.ltg := rfl
@[simp] theorem State.onTb_gpio (s : State) (i : Fin 4) (f : TimeBase → TimeBase) : (s.onTb i f).gpio = s.gpio := rfl
@[simp] theorem State.onTb_ptp (s : State) (i : Fin 4) (f : TimeBase → TimeBase) : (s.onTb i f).ptp = s.ptp := rfl
@[simp] theorem State.onTb_spr (s : State) (i : Fin 4) (f : TimeBase → TimeBase) : (s.onTb i f).spr = s.spr := rfl
@[simp] theorem State.onTb_grp (s : State) (i : Fin 4) (f : TimeBase → TimeBase) : (s.onTb i f).grp = s.grp := rfl
@[simp] theorem State.onTb_twb (s : State) (i : Fin 4) (f : TimeBase → TimeBase) : (s.onTb i f).twb = s.twb := rfl
@[simp] theorem State.onTb_engs (s : State) (i : Fin 4) (f : TimeBase → TimeBase) : (s.onTb i f).engs = s.engs := rfl
@[simp] theorem State.onTb_engine (s : State) (i : Fin 4) (f : TimeBase → TimeBase) : (s.onTb i f).engine = s.engine := rfl
@[simp] theorem State.onTb_seam (s : State) (i : Fin 4) (f : TimeBase → TimeBase) : (s.onTb i f).seam = s.seam := rfl
@[simp] theorem State.onTb_tnr (s : State) (i : Fin 4) (f : TimeBase → TimeBase) : (s.onTb i f).tnr = s.tnr := rfl
@[simp] theorem State.onTb_tally (s : State) (i : Fin 4) (f : TimeBase → TimeBase) : (s.onTb i f).tally = s.tally := rfl
@[simp] theorem State.onTb_load (s : State) (i : Fin 4) (f : TimeBase → TimeBase) : (s.onTb i f).load = s.load := rfl
@[simp] theorem State.onTb_tables (s : State) (i : Fin 4) (f : TimeBase → TimeBase) : (s.onTb i f).tables = s.tables := rfl
@[simp] theorem State.onTb_out (s : State) (i : Fin 4) (f : TimeBase → TimeBase) : (s.onTb i f).out = s.out := rfl
@[simp] theorem State.onTb_xpt (s : State) (i : Fin 4) (f : TimeBase → TimeBase) : (s.onTb i f).xpt = s.xpt := rfl
@[simp] theorem State.onTb_drains (s : State) (i : Fin 4) (f : TimeBase → TimeBase) : (s.onTb i f).drains = s.drains := rfl
@[simp] theorem State.onTb_links (s : State) (i : Fin 4) (f : TimeBase → TimeBase) : (s.onTb i f).links = s.links := rfl
@[simp] theorem State.onTb_portMode (s : State) (i : Fin 4) (f : TimeBase → TimeBase) : (s.onTb i f).portMode = s.portMode := rfl
@[simp] theorem State.onTb_lakeCtl (s : State) (i : Fin 4) (f : TimeBase → TimeBase) : (s.onTb i f).lakeCtl = s.lakeCtl := rfl
@[simp] theorem State.onTb_crc (s : State) (i : Fin 4) (f : TimeBase → TimeBase) : (s.onTb i f).crc = s.crc := rfl
@[simp] theorem State.onTb_netPonds (s : State) (i : Fin 4) (f : TimeBase → TimeBase) : (s.onTb i f).netPonds = s.netPonds := rfl
@[simp] theorem State.onTb_chains (s : State) (i : Fin 4) (f : TimeBase → TimeBase) : (s.onTb i f).chains = s.chains := rfl
@[simp] theorem State.onTb_readPtr (s : State) (i : Fin 4) (f : TimeBase → TimeBase) : (s.onTb i f).readPtr = s.readPtr := rfl
@[simp] theorem State.onTb_releases (s : State) (i : Fin 4) (f : TimeBase → TimeBase) : (s.onTb i f).releases = s.releases := rfl
@[simp] theorem State.onTb_resets (s : State) (i : Fin 4) (f : TimeBase → TimeBase) : (s.onTb i f).resets = s.resets := rfl
@[simp] theorem State.onTb_edges (s : State) (i : Fin 4) (f : TimeBase → TimeBase) : (s.onTb i f).edges = s.edges := rfl
@[simp] theorem State.onTb_lake (s : State) (i : Fin 4) (f : TimeBase → TimeBase) : (s.onTb i f).lake = s.lake := rfl
@[simp] theorem State.onTb_draws (s : State) (i : Fin 4) (f : TimeBase → TimeBase) : (s.onTb i f).draws = s.draws := rfl
@[simp] theorem State.onTb_sent (s : State) (i : Fin 4) (f : TimeBase → TimeBase) : (s.onTb i f).sent = s.sent := rfl
@[simp] theorem State.onTb_rd (s : State) (i : Fin 4) (f : TimeBase → TimeBase) (r : Nat) : (s.onTb i f).rd r = s.rd r := rfl
@[simp] theorem State.onTb_lakeGet (s : State) (i : Fin 4) (f : TimeBase → TimeBase) (r : Nat) : (s.onTb i f).lakeGet r = s.lakeGet r := rfl
@[simp] theorem State.onTb_tbl (s : State) (i : Fin 4) (f : TimeBase → TimeBase) (r : Nat) : (s.onTb i f).tbl r = s.tbl r := rfl

/-! `State.onWp` changes `wp` alone. -/

@[simp] theorem State.onWp_pending (s : State) (i : Fin 4) (f : WebPos → WebPos) : (s.onWp i f).pending = s.pending := rfl
@[simp] theorem State.onWp_now (s : State) (i : Fin 4) (f : WebPos → WebPos) : (s.onWp i f).now = s.now := rfl
@[simp] theorem State.onWp_tarn (s : State) (i : Fin 4) (f : WebPos → WebPos) : (s.onWp i f).tarn = s.tarn := rfl
@[simp] theorem State.onWp_regs (s : State) (i : Fin 4) (f : WebPos → WebPos) : (s.onWp i f).regs = s.regs := rfl
@[simp] theorem State.onWp_staged (s : State) (i : Fin 4) (f : WebPos → WebPos) : (s.onWp i f).staged = s.staged := rfl
@[simp] theorem State.onWp_commits (s : State) (i : Fin 4) (f : WebPos → WebPos) : (s.onWp i f).commits = s.commits := rfl
@[simp] theorem State.onWp_latch (s : State) (i : Fin 4) (f : WebPos → WebPos) : (s.onWp i f).latch = s.latch := rfl
@[simp] theorem State.onWp_power (s : State) (i : Fin 4) (f : WebPos → WebPos) : (s.onWp i f).power = s.power := rfl
@[simp] theorem State.onWp_keep (s : State) (i : Fin 4) (f : WebPos → WebPos) : (s.onWp i f).keep = s.keep := rfl
@[simp] theorem State.onWp_sic (s : State) (i : Fin 4) (f : WebPos → WebPos) : (s.onWp i f).sic = s.sic := rfl
@[simp] theorem State.onWp_str (s : State) (i : Fin 4) (f : WebPos → WebPos) : (s.onWp i f).str = s.str := rfl
@[simp] theorem State.onWp_ctl (s : State) (i : Fin 4) (f : WebPos → WebPos) : (s.onWp i f).ctl = s.ctl := rfl
@[simp] theorem State.onWp_stalls (s : State) (i : Fin 4) (f : WebPos → WebPos) : (s.onWp i f).stalls = s.stalls := rfl
@[simp] theorem State.onWp_sources (s : State) (i : Fin 4) (f : WebPos → WebPos) : (s.onWp i f).sources = s.sources := rfl
@[simp] theorem State.onWp_targets (s : State) (i : Fin 4) (f : WebPos → WebPos) : (s.onWp i f).targets = s.targets := rfl
@[simp] theorem State.onWp_tb (s : State) (i : Fin 4) (f : WebPos → WebPos) : (s.onWp i f).tb = s.tb := rfl
@[simp] theorem State.onWp_ltg (s : State) (i : Fin 4) (f : WebPos → WebPos) : (s.onWp i f).ltg = s.ltg := rfl
@[simp] theorem State.onWp_gpio (s : State) (i : Fin 4) (f : WebPos → WebPos) : (s.onWp i f).gpio = s.gpio := rfl
@[simp] theorem State.onWp_ptp (s : State) (i : Fin 4) (f : WebPos → WebPos) : (s.onWp i f).ptp = s.ptp := rfl
@[simp] theorem State.onWp_spr (s : State) (i : Fin 4) (f : WebPos → WebPos) : (s.onWp i f).spr = s.spr := rfl
@[simp] theorem State.onWp_grp (s : State) (i : Fin 4) (f : WebPos → WebPos) : (s.onWp i f).grp = s.grp := rfl
@[simp] theorem State.onWp_twb (s : State) (i : Fin 4) (f : WebPos → WebPos) : (s.onWp i f).twb = s.twb := rfl
@[simp] theorem State.onWp_engs (s : State) (i : Fin 4) (f : WebPos → WebPos) : (s.onWp i f).engs = s.engs := rfl
@[simp] theorem State.onWp_engine (s : State) (i : Fin 4) (f : WebPos → WebPos) : (s.onWp i f).engine = s.engine := rfl
@[simp] theorem State.onWp_seam (s : State) (i : Fin 4) (f : WebPos → WebPos) : (s.onWp i f).seam = s.seam := rfl
@[simp] theorem State.onWp_tnr (s : State) (i : Fin 4) (f : WebPos → WebPos) : (s.onWp i f).tnr = s.tnr := rfl
@[simp] theorem State.onWp_tally (s : State) (i : Fin 4) (f : WebPos → WebPos) : (s.onWp i f).tally = s.tally := rfl
@[simp] theorem State.onWp_load (s : State) (i : Fin 4) (f : WebPos → WebPos) : (s.onWp i f).load = s.load := rfl
@[simp] theorem State.onWp_tables (s : State) (i : Fin 4) (f : WebPos → WebPos) : (s.onWp i f).tables = s.tables := rfl
@[simp] theorem State.onWp_out (s : State) (i : Fin 4) (f : WebPos → WebPos) : (s.onWp i f).out = s.out := rfl
@[simp] theorem State.onWp_xpt (s : State) (i : Fin 4) (f : WebPos → WebPos) : (s.onWp i f).xpt = s.xpt := rfl
@[simp] theorem State.onWp_drains (s : State) (i : Fin 4) (f : WebPos → WebPos) : (s.onWp i f).drains = s.drains := rfl
@[simp] theorem State.onWp_links (s : State) (i : Fin 4) (f : WebPos → WebPos) : (s.onWp i f).links = s.links := rfl
@[simp] theorem State.onWp_portMode (s : State) (i : Fin 4) (f : WebPos → WebPos) : (s.onWp i f).portMode = s.portMode := rfl
@[simp] theorem State.onWp_lakeCtl (s : State) (i : Fin 4) (f : WebPos → WebPos) : (s.onWp i f).lakeCtl = s.lakeCtl := rfl
@[simp] theorem State.onWp_crc (s : State) (i : Fin 4) (f : WebPos → WebPos) : (s.onWp i f).crc = s.crc := rfl
@[simp] theorem State.onWp_netPonds (s : State) (i : Fin 4) (f : WebPos → WebPos) : (s.onWp i f).netPonds = s.netPonds := rfl
@[simp] theorem State.onWp_chains (s : State) (i : Fin 4) (f : WebPos → WebPos) : (s.onWp i f).chains = s.chains := rfl
@[simp] theorem State.onWp_readPtr (s : State) (i : Fin 4) (f : WebPos → WebPos) : (s.onWp i f).readPtr = s.readPtr := rfl
@[simp] theorem State.onWp_releases (s : State) (i : Fin 4) (f : WebPos → WebPos) : (s.onWp i f).releases = s.releases := rfl
@[simp] theorem State.onWp_resets (s : State) (i : Fin 4) (f : WebPos → WebPos) : (s.onWp i f).resets = s.resets := rfl
@[simp] theorem State.onWp_edges (s : State) (i : Fin 4) (f : WebPos → WebPos) : (s.onWp i f).edges = s.edges := rfl
@[simp] theorem State.onWp_lake (s : State) (i : Fin 4) (f : WebPos → WebPos) : (s.onWp i f).lake = s.lake := rfl
@[simp] theorem State.onWp_draws (s : State) (i : Fin 4) (f : WebPos → WebPos) : (s.onWp i f).draws = s.draws := rfl
@[simp] theorem State.onWp_sent (s : State) (i : Fin 4) (f : WebPos → WebPos) : (s.onWp i f).sent = s.sent := rfl
@[simp] theorem State.onWp_rd (s : State) (i : Fin 4) (f : WebPos → WebPos) (r : Nat) : (s.onWp i f).rd r = s.rd r := rfl
@[simp] theorem State.onWp_lakeGet (s : State) (i : Fin 4) (f : WebPos → WebPos) (r : Nat) : (s.onWp i f).lakeGet r = s.lakeGet r := rfl
@[simp] theorem State.onWp_tbl (s : State) (i : Fin 4) (f : WebPos → WebPos) (r : Nat) : (s.onWp i f).tbl r = s.tbl r := rfl

/-! `State.onLtg` changes `ltg` alone. -/

@[simp] theorem State.onLtg_pending (s : State) (i : Fin 4) (f : Ltg → Ltg) : (s.onLtg i f).pending = s.pending := rfl
@[simp] theorem State.onLtg_now (s : State) (i : Fin 4) (f : Ltg → Ltg) : (s.onLtg i f).now = s.now := rfl
@[simp] theorem State.onLtg_tarn (s : State) (i : Fin 4) (f : Ltg → Ltg) : (s.onLtg i f).tarn = s.tarn := rfl
@[simp] theorem State.onLtg_regs (s : State) (i : Fin 4) (f : Ltg → Ltg) : (s.onLtg i f).regs = s.regs := rfl
@[simp] theorem State.onLtg_staged (s : State) (i : Fin 4) (f : Ltg → Ltg) : (s.onLtg i f).staged = s.staged := rfl
@[simp] theorem State.onLtg_commits (s : State) (i : Fin 4) (f : Ltg → Ltg) : (s.onLtg i f).commits = s.commits := rfl
@[simp] theorem State.onLtg_latch (s : State) (i : Fin 4) (f : Ltg → Ltg) : (s.onLtg i f).latch = s.latch := rfl
@[simp] theorem State.onLtg_power (s : State) (i : Fin 4) (f : Ltg → Ltg) : (s.onLtg i f).power = s.power := rfl
@[simp] theorem State.onLtg_keep (s : State) (i : Fin 4) (f : Ltg → Ltg) : (s.onLtg i f).keep = s.keep := rfl
@[simp] theorem State.onLtg_sic (s : State) (i : Fin 4) (f : Ltg → Ltg) : (s.onLtg i f).sic = s.sic := rfl
@[simp] theorem State.onLtg_str (s : State) (i : Fin 4) (f : Ltg → Ltg) : (s.onLtg i f).str = s.str := rfl
@[simp] theorem State.onLtg_ctl (s : State) (i : Fin 4) (f : Ltg → Ltg) : (s.onLtg i f).ctl = s.ctl := rfl
@[simp] theorem State.onLtg_stalls (s : State) (i : Fin 4) (f : Ltg → Ltg) : (s.onLtg i f).stalls = s.stalls := rfl
@[simp] theorem State.onLtg_sources (s : State) (i : Fin 4) (f : Ltg → Ltg) : (s.onLtg i f).sources = s.sources := rfl
@[simp] theorem State.onLtg_targets (s : State) (i : Fin 4) (f : Ltg → Ltg) : (s.onLtg i f).targets = s.targets := rfl
@[simp] theorem State.onLtg_tb (s : State) (i : Fin 4) (f : Ltg → Ltg) : (s.onLtg i f).tb = s.tb := rfl
@[simp] theorem State.onLtg_wp (s : State) (i : Fin 4) (f : Ltg → Ltg) : (s.onLtg i f).wp = s.wp := rfl
@[simp] theorem State.onLtg_gpio (s : State) (i : Fin 4) (f : Ltg → Ltg) : (s.onLtg i f).gpio = s.gpio := rfl
@[simp] theorem State.onLtg_ptp (s : State) (i : Fin 4) (f : Ltg → Ltg) : (s.onLtg i f).ptp = s.ptp := rfl
@[simp] theorem State.onLtg_spr (s : State) (i : Fin 4) (f : Ltg → Ltg) : (s.onLtg i f).spr = s.spr := rfl
@[simp] theorem State.onLtg_grp (s : State) (i : Fin 4) (f : Ltg → Ltg) : (s.onLtg i f).grp = s.grp := rfl
@[simp] theorem State.onLtg_twb (s : State) (i : Fin 4) (f : Ltg → Ltg) : (s.onLtg i f).twb = s.twb := rfl
@[simp] theorem State.onLtg_engs (s : State) (i : Fin 4) (f : Ltg → Ltg) : (s.onLtg i f).engs = s.engs := rfl
@[simp] theorem State.onLtg_engine (s : State) (i : Fin 4) (f : Ltg → Ltg) : (s.onLtg i f).engine = s.engine := rfl
@[simp] theorem State.onLtg_seam (s : State) (i : Fin 4) (f : Ltg → Ltg) : (s.onLtg i f).seam = s.seam := rfl
@[simp] theorem State.onLtg_tnr (s : State) (i : Fin 4) (f : Ltg → Ltg) : (s.onLtg i f).tnr = s.tnr := rfl
@[simp] theorem State.onLtg_tally (s : State) (i : Fin 4) (f : Ltg → Ltg) : (s.onLtg i f).tally = s.tally := rfl
@[simp] theorem State.onLtg_load (s : State) (i : Fin 4) (f : Ltg → Ltg) : (s.onLtg i f).load = s.load := rfl
@[simp] theorem State.onLtg_tables (s : State) (i : Fin 4) (f : Ltg → Ltg) : (s.onLtg i f).tables = s.tables := rfl
@[simp] theorem State.onLtg_out (s : State) (i : Fin 4) (f : Ltg → Ltg) : (s.onLtg i f).out = s.out := rfl
@[simp] theorem State.onLtg_xpt (s : State) (i : Fin 4) (f : Ltg → Ltg) : (s.onLtg i f).xpt = s.xpt := rfl
@[simp] theorem State.onLtg_drains (s : State) (i : Fin 4) (f : Ltg → Ltg) : (s.onLtg i f).drains = s.drains := rfl
@[simp] theorem State.onLtg_links (s : State) (i : Fin 4) (f : Ltg → Ltg) : (s.onLtg i f).links = s.links := rfl
@[simp] theorem State.onLtg_portMode (s : State) (i : Fin 4) (f : Ltg → Ltg) : (s.onLtg i f).portMode = s.portMode := rfl
@[simp] theorem State.onLtg_lakeCtl (s : State) (i : Fin 4) (f : Ltg → Ltg) : (s.onLtg i f).lakeCtl = s.lakeCtl := rfl
@[simp] theorem State.onLtg_crc (s : State) (i : Fin 4) (f : Ltg → Ltg) : (s.onLtg i f).crc = s.crc := rfl
@[simp] theorem State.onLtg_netPonds (s : State) (i : Fin 4) (f : Ltg → Ltg) : (s.onLtg i f).netPonds = s.netPonds := rfl
@[simp] theorem State.onLtg_chains (s : State) (i : Fin 4) (f : Ltg → Ltg) : (s.onLtg i f).chains = s.chains := rfl
@[simp] theorem State.onLtg_readPtr (s : State) (i : Fin 4) (f : Ltg → Ltg) : (s.onLtg i f).readPtr = s.readPtr := rfl
@[simp] theorem State.onLtg_releases (s : State) (i : Fin 4) (f : Ltg → Ltg) : (s.onLtg i f).releases = s.releases := rfl
@[simp] theorem State.onLtg_resets (s : State) (i : Fin 4) (f : Ltg → Ltg) : (s.onLtg i f).resets = s.resets := rfl
@[simp] theorem State.onLtg_edges (s : State) (i : Fin 4) (f : Ltg → Ltg) : (s.onLtg i f).edges = s.edges := rfl
@[simp] theorem State.onLtg_lake (s : State) (i : Fin 4) (f : Ltg → Ltg) : (s.onLtg i f).lake = s.lake := rfl
@[simp] theorem State.onLtg_draws (s : State) (i : Fin 4) (f : Ltg → Ltg) : (s.onLtg i f).draws = s.draws := rfl
@[simp] theorem State.onLtg_sent (s : State) (i : Fin 4) (f : Ltg → Ltg) : (s.onLtg i f).sent = s.sent := rfl
@[simp] theorem State.onLtg_rd (s : State) (i : Fin 4) (f : Ltg → Ltg) (r : Nat) : (s.onLtg i f).rd r = s.rd r := rfl
@[simp] theorem State.onLtg_lakeGet (s : State) (i : Fin 4) (f : Ltg → Ltg) (r : Nat) : (s.onLtg i f).lakeGet r = s.lakeGet r := rfl
@[simp] theorem State.onLtg_tbl (s : State) (i : Fin 4) (f : Ltg → Ltg) (r : Nat) : (s.onLtg i f).tbl r = s.tbl r := rfl

/-! `State.onGpio` changes `gpio` alone. -/

@[simp] theorem State.onGpio_pending (s : State) (i : Fin 16) (f : Gpio → Gpio) : (s.onGpio i f).pending = s.pending := rfl
@[simp] theorem State.onGpio_now (s : State) (i : Fin 16) (f : Gpio → Gpio) : (s.onGpio i f).now = s.now := rfl
@[simp] theorem State.onGpio_tarn (s : State) (i : Fin 16) (f : Gpio → Gpio) : (s.onGpio i f).tarn = s.tarn := rfl
@[simp] theorem State.onGpio_regs (s : State) (i : Fin 16) (f : Gpio → Gpio) : (s.onGpio i f).regs = s.regs := rfl
@[simp] theorem State.onGpio_staged (s : State) (i : Fin 16) (f : Gpio → Gpio) : (s.onGpio i f).staged = s.staged := rfl
@[simp] theorem State.onGpio_commits (s : State) (i : Fin 16) (f : Gpio → Gpio) : (s.onGpio i f).commits = s.commits := rfl
@[simp] theorem State.onGpio_latch (s : State) (i : Fin 16) (f : Gpio → Gpio) : (s.onGpio i f).latch = s.latch := rfl
@[simp] theorem State.onGpio_power (s : State) (i : Fin 16) (f : Gpio → Gpio) : (s.onGpio i f).power = s.power := rfl
@[simp] theorem State.onGpio_keep (s : State) (i : Fin 16) (f : Gpio → Gpio) : (s.onGpio i f).keep = s.keep := rfl
@[simp] theorem State.onGpio_sic (s : State) (i : Fin 16) (f : Gpio → Gpio) : (s.onGpio i f).sic = s.sic := rfl
@[simp] theorem State.onGpio_str (s : State) (i : Fin 16) (f : Gpio → Gpio) : (s.onGpio i f).str = s.str := rfl
@[simp] theorem State.onGpio_ctl (s : State) (i : Fin 16) (f : Gpio → Gpio) : (s.onGpio i f).ctl = s.ctl := rfl
@[simp] theorem State.onGpio_stalls (s : State) (i : Fin 16) (f : Gpio → Gpio) : (s.onGpio i f).stalls = s.stalls := rfl
@[simp] theorem State.onGpio_sources (s : State) (i : Fin 16) (f : Gpio → Gpio) : (s.onGpio i f).sources = s.sources := rfl
@[simp] theorem State.onGpio_targets (s : State) (i : Fin 16) (f : Gpio → Gpio) : (s.onGpio i f).targets = s.targets := rfl
@[simp] theorem State.onGpio_tb (s : State) (i : Fin 16) (f : Gpio → Gpio) : (s.onGpio i f).tb = s.tb := rfl
@[simp] theorem State.onGpio_wp (s : State) (i : Fin 16) (f : Gpio → Gpio) : (s.onGpio i f).wp = s.wp := rfl
@[simp] theorem State.onGpio_ltg (s : State) (i : Fin 16) (f : Gpio → Gpio) : (s.onGpio i f).ltg = s.ltg := rfl
@[simp] theorem State.onGpio_ptp (s : State) (i : Fin 16) (f : Gpio → Gpio) : (s.onGpio i f).ptp = s.ptp := rfl
@[simp] theorem State.onGpio_spr (s : State) (i : Fin 16) (f : Gpio → Gpio) : (s.onGpio i f).spr = s.spr := rfl
@[simp] theorem State.onGpio_grp (s : State) (i : Fin 16) (f : Gpio → Gpio) : (s.onGpio i f).grp = s.grp := rfl
@[simp] theorem State.onGpio_twb (s : State) (i : Fin 16) (f : Gpio → Gpio) : (s.onGpio i f).twb = s.twb := rfl
@[simp] theorem State.onGpio_engs (s : State) (i : Fin 16) (f : Gpio → Gpio) : (s.onGpio i f).engs = s.engs := rfl
@[simp] theorem State.onGpio_engine (s : State) (i : Fin 16) (f : Gpio → Gpio) : (s.onGpio i f).engine = s.engine := rfl
@[simp] theorem State.onGpio_seam (s : State) (i : Fin 16) (f : Gpio → Gpio) : (s.onGpio i f).seam = s.seam := rfl
@[simp] theorem State.onGpio_tnr (s : State) (i : Fin 16) (f : Gpio → Gpio) : (s.onGpio i f).tnr = s.tnr := rfl
@[simp] theorem State.onGpio_tally (s : State) (i : Fin 16) (f : Gpio → Gpio) : (s.onGpio i f).tally = s.tally := rfl
@[simp] theorem State.onGpio_load (s : State) (i : Fin 16) (f : Gpio → Gpio) : (s.onGpio i f).load = s.load := rfl
@[simp] theorem State.onGpio_tables (s : State) (i : Fin 16) (f : Gpio → Gpio) : (s.onGpio i f).tables = s.tables := rfl
@[simp] theorem State.onGpio_out (s : State) (i : Fin 16) (f : Gpio → Gpio) : (s.onGpio i f).out = s.out := rfl
@[simp] theorem State.onGpio_xpt (s : State) (i : Fin 16) (f : Gpio → Gpio) : (s.onGpio i f).xpt = s.xpt := rfl
@[simp] theorem State.onGpio_drains (s : State) (i : Fin 16) (f : Gpio → Gpio) : (s.onGpio i f).drains = s.drains := rfl
@[simp] theorem State.onGpio_links (s : State) (i : Fin 16) (f : Gpio → Gpio) : (s.onGpio i f).links = s.links := rfl
@[simp] theorem State.onGpio_portMode (s : State) (i : Fin 16) (f : Gpio → Gpio) : (s.onGpio i f).portMode = s.portMode := rfl
@[simp] theorem State.onGpio_lakeCtl (s : State) (i : Fin 16) (f : Gpio → Gpio) : (s.onGpio i f).lakeCtl = s.lakeCtl := rfl
@[simp] theorem State.onGpio_crc (s : State) (i : Fin 16) (f : Gpio → Gpio) : (s.onGpio i f).crc = s.crc := rfl
@[simp] theorem State.onGpio_netPonds (s : State) (i : Fin 16) (f : Gpio → Gpio) : (s.onGpio i f).netPonds = s.netPonds := rfl
@[simp] theorem State.onGpio_chains (s : State) (i : Fin 16) (f : Gpio → Gpio) : (s.onGpio i f).chains = s.chains := rfl
@[simp] theorem State.onGpio_readPtr (s : State) (i : Fin 16) (f : Gpio → Gpio) : (s.onGpio i f).readPtr = s.readPtr := rfl
@[simp] theorem State.onGpio_releases (s : State) (i : Fin 16) (f : Gpio → Gpio) : (s.onGpio i f).releases = s.releases := rfl
@[simp] theorem State.onGpio_resets (s : State) (i : Fin 16) (f : Gpio → Gpio) : (s.onGpio i f).resets = s.resets := rfl
@[simp] theorem State.onGpio_edges (s : State) (i : Fin 16) (f : Gpio → Gpio) : (s.onGpio i f).edges = s.edges := rfl
@[simp] theorem State.onGpio_lake (s : State) (i : Fin 16) (f : Gpio → Gpio) : (s.onGpio i f).lake = s.lake := rfl
@[simp] theorem State.onGpio_draws (s : State) (i : Fin 16) (f : Gpio → Gpio) : (s.onGpio i f).draws = s.draws := rfl
@[simp] theorem State.onGpio_sent (s : State) (i : Fin 16) (f : Gpio → Gpio) : (s.onGpio i f).sent = s.sent := rfl
@[simp] theorem State.onGpio_rd (s : State) (i : Fin 16) (f : Gpio → Gpio) (r : Nat) : (s.onGpio i f).rd r = s.rd r := rfl
@[simp] theorem State.onGpio_lakeGet (s : State) (i : Fin 16) (f : Gpio → Gpio) (r : Nat) : (s.onGpio i f).lakeGet r = s.lakeGet r := rfl
@[simp] theorem State.onGpio_tbl (s : State) (i : Fin 16) (f : Gpio → Gpio) (r : Nat) : (s.onGpio i f).tbl r = s.tbl r := rfl

/-! `State.onPtp` changes `ptp` alone. -/

@[simp] theorem State.onPtp_pending (s : State) (i : Fin 4) (f : PtpPort → PtpPort) : (s.onPtp i f).pending = s.pending := rfl
@[simp] theorem State.onPtp_now (s : State) (i : Fin 4) (f : PtpPort → PtpPort) : (s.onPtp i f).now = s.now := rfl
@[simp] theorem State.onPtp_tarn (s : State) (i : Fin 4) (f : PtpPort → PtpPort) : (s.onPtp i f).tarn = s.tarn := rfl
@[simp] theorem State.onPtp_regs (s : State) (i : Fin 4) (f : PtpPort → PtpPort) : (s.onPtp i f).regs = s.regs := rfl
@[simp] theorem State.onPtp_staged (s : State) (i : Fin 4) (f : PtpPort → PtpPort) : (s.onPtp i f).staged = s.staged := rfl
@[simp] theorem State.onPtp_commits (s : State) (i : Fin 4) (f : PtpPort → PtpPort) : (s.onPtp i f).commits = s.commits := rfl
@[simp] theorem State.onPtp_latch (s : State) (i : Fin 4) (f : PtpPort → PtpPort) : (s.onPtp i f).latch = s.latch := rfl
@[simp] theorem State.onPtp_power (s : State) (i : Fin 4) (f : PtpPort → PtpPort) : (s.onPtp i f).power = s.power := rfl
@[simp] theorem State.onPtp_keep (s : State) (i : Fin 4) (f : PtpPort → PtpPort) : (s.onPtp i f).keep = s.keep := rfl
@[simp] theorem State.onPtp_sic (s : State) (i : Fin 4) (f : PtpPort → PtpPort) : (s.onPtp i f).sic = s.sic := rfl
@[simp] theorem State.onPtp_str (s : State) (i : Fin 4) (f : PtpPort → PtpPort) : (s.onPtp i f).str = s.str := rfl
@[simp] theorem State.onPtp_ctl (s : State) (i : Fin 4) (f : PtpPort → PtpPort) : (s.onPtp i f).ctl = s.ctl := rfl
@[simp] theorem State.onPtp_stalls (s : State) (i : Fin 4) (f : PtpPort → PtpPort) : (s.onPtp i f).stalls = s.stalls := rfl
@[simp] theorem State.onPtp_sources (s : State) (i : Fin 4) (f : PtpPort → PtpPort) : (s.onPtp i f).sources = s.sources := rfl
@[simp] theorem State.onPtp_targets (s : State) (i : Fin 4) (f : PtpPort → PtpPort) : (s.onPtp i f).targets = s.targets := rfl
@[simp] theorem State.onPtp_tb (s : State) (i : Fin 4) (f : PtpPort → PtpPort) : (s.onPtp i f).tb = s.tb := rfl
@[simp] theorem State.onPtp_wp (s : State) (i : Fin 4) (f : PtpPort → PtpPort) : (s.onPtp i f).wp = s.wp := rfl
@[simp] theorem State.onPtp_ltg (s : State) (i : Fin 4) (f : PtpPort → PtpPort) : (s.onPtp i f).ltg = s.ltg := rfl
@[simp] theorem State.onPtp_gpio (s : State) (i : Fin 4) (f : PtpPort → PtpPort) : (s.onPtp i f).gpio = s.gpio := rfl
@[simp] theorem State.onPtp_spr (s : State) (i : Fin 4) (f : PtpPort → PtpPort) : (s.onPtp i f).spr = s.spr := rfl
@[simp] theorem State.onPtp_grp (s : State) (i : Fin 4) (f : PtpPort → PtpPort) : (s.onPtp i f).grp = s.grp := rfl
@[simp] theorem State.onPtp_twb (s : State) (i : Fin 4) (f : PtpPort → PtpPort) : (s.onPtp i f).twb = s.twb := rfl
@[simp] theorem State.onPtp_engs (s : State) (i : Fin 4) (f : PtpPort → PtpPort) : (s.onPtp i f).engs = s.engs := rfl
@[simp] theorem State.onPtp_engine (s : State) (i : Fin 4) (f : PtpPort → PtpPort) : (s.onPtp i f).engine = s.engine := rfl
@[simp] theorem State.onPtp_seam (s : State) (i : Fin 4) (f : PtpPort → PtpPort) : (s.onPtp i f).seam = s.seam := rfl
@[simp] theorem State.onPtp_tnr (s : State) (i : Fin 4) (f : PtpPort → PtpPort) : (s.onPtp i f).tnr = s.tnr := rfl
@[simp] theorem State.onPtp_tally (s : State) (i : Fin 4) (f : PtpPort → PtpPort) : (s.onPtp i f).tally = s.tally := rfl
@[simp] theorem State.onPtp_load (s : State) (i : Fin 4) (f : PtpPort → PtpPort) : (s.onPtp i f).load = s.load := rfl
@[simp] theorem State.onPtp_tables (s : State) (i : Fin 4) (f : PtpPort → PtpPort) : (s.onPtp i f).tables = s.tables := rfl
@[simp] theorem State.onPtp_out (s : State) (i : Fin 4) (f : PtpPort → PtpPort) : (s.onPtp i f).out = s.out := rfl
@[simp] theorem State.onPtp_xpt (s : State) (i : Fin 4) (f : PtpPort → PtpPort) : (s.onPtp i f).xpt = s.xpt := rfl
@[simp] theorem State.onPtp_drains (s : State) (i : Fin 4) (f : PtpPort → PtpPort) : (s.onPtp i f).drains = s.drains := rfl
@[simp] theorem State.onPtp_links (s : State) (i : Fin 4) (f : PtpPort → PtpPort) : (s.onPtp i f).links = s.links := rfl
@[simp] theorem State.onPtp_portMode (s : State) (i : Fin 4) (f : PtpPort → PtpPort) : (s.onPtp i f).portMode = s.portMode := rfl
@[simp] theorem State.onPtp_lakeCtl (s : State) (i : Fin 4) (f : PtpPort → PtpPort) : (s.onPtp i f).lakeCtl = s.lakeCtl := rfl
@[simp] theorem State.onPtp_crc (s : State) (i : Fin 4) (f : PtpPort → PtpPort) : (s.onPtp i f).crc = s.crc := rfl
@[simp] theorem State.onPtp_netPonds (s : State) (i : Fin 4) (f : PtpPort → PtpPort) : (s.onPtp i f).netPonds = s.netPonds := rfl
@[simp] theorem State.onPtp_chains (s : State) (i : Fin 4) (f : PtpPort → PtpPort) : (s.onPtp i f).chains = s.chains := rfl
@[simp] theorem State.onPtp_readPtr (s : State) (i : Fin 4) (f : PtpPort → PtpPort) : (s.onPtp i f).readPtr = s.readPtr := rfl
@[simp] theorem State.onPtp_releases (s : State) (i : Fin 4) (f : PtpPort → PtpPort) : (s.onPtp i f).releases = s.releases := rfl
@[simp] theorem State.onPtp_resets (s : State) (i : Fin 4) (f : PtpPort → PtpPort) : (s.onPtp i f).resets = s.resets := rfl
@[simp] theorem State.onPtp_edges (s : State) (i : Fin 4) (f : PtpPort → PtpPort) : (s.onPtp i f).edges = s.edges := rfl
@[simp] theorem State.onPtp_lake (s : State) (i : Fin 4) (f : PtpPort → PtpPort) : (s.onPtp i f).lake = s.lake := rfl
@[simp] theorem State.onPtp_draws (s : State) (i : Fin 4) (f : PtpPort → PtpPort) : (s.onPtp i f).draws = s.draws := rfl
@[simp] theorem State.onPtp_sent (s : State) (i : Fin 4) (f : PtpPort → PtpPort) : (s.onPtp i f).sent = s.sent := rfl
@[simp] theorem State.onPtp_rd (s : State) (i : Fin 4) (f : PtpPort → PtpPort) (r : Nat) : (s.onPtp i f).rd r = s.rd r := rfl
@[simp] theorem State.onPtp_lakeGet (s : State) (i : Fin 4) (f : PtpPort → PtpPort) (r : Nat) : (s.onPtp i f).lakeGet r = s.lakeGet r := rfl
@[simp] theorem State.onPtp_tbl (s : State) (i : Fin 4) (f : PtpPort → PtpPort) (r : Nat) : (s.onPtp i f).tbl r = s.tbl r := rfl

/-! `State.onEng` changes `engs` alone. -/

@[simp] theorem State.onEng_pending (s : State) (i : Fin 12) (f : EngG → EngG) : (s.onEng i f).pending = s.pending := rfl
@[simp] theorem State.onEng_now (s : State) (i : Fin 12) (f : EngG → EngG) : (s.onEng i f).now = s.now := rfl
@[simp] theorem State.onEng_tarn (s : State) (i : Fin 12) (f : EngG → EngG) : (s.onEng i f).tarn = s.tarn := rfl
@[simp] theorem State.onEng_regs (s : State) (i : Fin 12) (f : EngG → EngG) : (s.onEng i f).regs = s.regs := rfl
@[simp] theorem State.onEng_staged (s : State) (i : Fin 12) (f : EngG → EngG) : (s.onEng i f).staged = s.staged := rfl
@[simp] theorem State.onEng_commits (s : State) (i : Fin 12) (f : EngG → EngG) : (s.onEng i f).commits = s.commits := rfl
@[simp] theorem State.onEng_latch (s : State) (i : Fin 12) (f : EngG → EngG) : (s.onEng i f).latch = s.latch := rfl
@[simp] theorem State.onEng_power (s : State) (i : Fin 12) (f : EngG → EngG) : (s.onEng i f).power = s.power := rfl
@[simp] theorem State.onEng_keep (s : State) (i : Fin 12) (f : EngG → EngG) : (s.onEng i f).keep = s.keep := rfl
@[simp] theorem State.onEng_sic (s : State) (i : Fin 12) (f : EngG → EngG) : (s.onEng i f).sic = s.sic := rfl
@[simp] theorem State.onEng_str (s : State) (i : Fin 12) (f : EngG → EngG) : (s.onEng i f).str = s.str := rfl
@[simp] theorem State.onEng_ctl (s : State) (i : Fin 12) (f : EngG → EngG) : (s.onEng i f).ctl = s.ctl := rfl
@[simp] theorem State.onEng_stalls (s : State) (i : Fin 12) (f : EngG → EngG) : (s.onEng i f).stalls = s.stalls := rfl
@[simp] theorem State.onEng_sources (s : State) (i : Fin 12) (f : EngG → EngG) : (s.onEng i f).sources = s.sources := rfl
@[simp] theorem State.onEng_targets (s : State) (i : Fin 12) (f : EngG → EngG) : (s.onEng i f).targets = s.targets := rfl
@[simp] theorem State.onEng_tb (s : State) (i : Fin 12) (f : EngG → EngG) : (s.onEng i f).tb = s.tb := rfl
@[simp] theorem State.onEng_wp (s : State) (i : Fin 12) (f : EngG → EngG) : (s.onEng i f).wp = s.wp := rfl
@[simp] theorem State.onEng_ltg (s : State) (i : Fin 12) (f : EngG → EngG) : (s.onEng i f).ltg = s.ltg := rfl
@[simp] theorem State.onEng_gpio (s : State) (i : Fin 12) (f : EngG → EngG) : (s.onEng i f).gpio = s.gpio := rfl
@[simp] theorem State.onEng_ptp (s : State) (i : Fin 12) (f : EngG → EngG) : (s.onEng i f).ptp = s.ptp := rfl
@[simp] theorem State.onEng_spr (s : State) (i : Fin 12) (f : EngG → EngG) : (s.onEng i f).spr = s.spr := rfl
@[simp] theorem State.onEng_grp (s : State) (i : Fin 12) (f : EngG → EngG) : (s.onEng i f).grp = s.grp := rfl
@[simp] theorem State.onEng_twb (s : State) (i : Fin 12) (f : EngG → EngG) : (s.onEng i f).twb = s.twb := rfl
@[simp] theorem State.onEng_engine (s : State) (i : Fin 12) (f : EngG → EngG) : (s.onEng i f).engine = s.engine := rfl
@[simp] theorem State.onEng_seam (s : State) (i : Fin 12) (f : EngG → EngG) : (s.onEng i f).seam = s.seam := rfl
@[simp] theorem State.onEng_tnr (s : State) (i : Fin 12) (f : EngG → EngG) : (s.onEng i f).tnr = s.tnr := rfl
@[simp] theorem State.onEng_tally (s : State) (i : Fin 12) (f : EngG → EngG) : (s.onEng i f).tally = s.tally := rfl
@[simp] theorem State.onEng_load (s : State) (i : Fin 12) (f : EngG → EngG) : (s.onEng i f).load = s.load := rfl
@[simp] theorem State.onEng_tables (s : State) (i : Fin 12) (f : EngG → EngG) : (s.onEng i f).tables = s.tables := rfl
@[simp] theorem State.onEng_out (s : State) (i : Fin 12) (f : EngG → EngG) : (s.onEng i f).out = s.out := rfl
@[simp] theorem State.onEng_xpt (s : State) (i : Fin 12) (f : EngG → EngG) : (s.onEng i f).xpt = s.xpt := rfl
@[simp] theorem State.onEng_drains (s : State) (i : Fin 12) (f : EngG → EngG) : (s.onEng i f).drains = s.drains := rfl
@[simp] theorem State.onEng_links (s : State) (i : Fin 12) (f : EngG → EngG) : (s.onEng i f).links = s.links := rfl
@[simp] theorem State.onEng_portMode (s : State) (i : Fin 12) (f : EngG → EngG) : (s.onEng i f).portMode = s.portMode := rfl
@[simp] theorem State.onEng_lakeCtl (s : State) (i : Fin 12) (f : EngG → EngG) : (s.onEng i f).lakeCtl = s.lakeCtl := rfl
@[simp] theorem State.onEng_crc (s : State) (i : Fin 12) (f : EngG → EngG) : (s.onEng i f).crc = s.crc := rfl
@[simp] theorem State.onEng_netPonds (s : State) (i : Fin 12) (f : EngG → EngG) : (s.onEng i f).netPonds = s.netPonds := rfl
@[simp] theorem State.onEng_chains (s : State) (i : Fin 12) (f : EngG → EngG) : (s.onEng i f).chains = s.chains := rfl
@[simp] theorem State.onEng_readPtr (s : State) (i : Fin 12) (f : EngG → EngG) : (s.onEng i f).readPtr = s.readPtr := rfl
@[simp] theorem State.onEng_releases (s : State) (i : Fin 12) (f : EngG → EngG) : (s.onEng i f).releases = s.releases := rfl
@[simp] theorem State.onEng_resets (s : State) (i : Fin 12) (f : EngG → EngG) : (s.onEng i f).resets = s.resets := rfl
@[simp] theorem State.onEng_edges (s : State) (i : Fin 12) (f : EngG → EngG) : (s.onEng i f).edges = s.edges := rfl
@[simp] theorem State.onEng_lake (s : State) (i : Fin 12) (f : EngG → EngG) : (s.onEng i f).lake = s.lake := rfl
@[simp] theorem State.onEng_draws (s : State) (i : Fin 12) (f : EngG → EngG) : (s.onEng i f).draws = s.draws := rfl
@[simp] theorem State.onEng_sent (s : State) (i : Fin 12) (f : EngG → EngG) : (s.onEng i f).sent = s.sent := rfl
@[simp] theorem State.onEng_rd (s : State) (i : Fin 12) (f : EngG → EngG) (r : Nat) : (s.onEng i f).rd r = s.rd r := rfl
@[simp] theorem State.onEng_lakeGet (s : State) (i : Fin 12) (f : EngG → EngG) (r : Nat) : (s.onEng i f).lakeGet r = s.lakeGet r := rfl
@[simp] theorem State.onEng_tbl (s : State) (i : Fin 12) (f : EngG → EngG) (r : Nat) : (s.onEng i f).tbl r = s.tbl r := rfl

/-! `State.onSeam` changes `seam` alone. -/

@[simp] theorem State.onSeam_pending (s : State) (i : Fin 4) (f : SeamBar → SeamBar) : (s.onSeam i f).pending = s.pending := rfl
@[simp] theorem State.onSeam_now (s : State) (i : Fin 4) (f : SeamBar → SeamBar) : (s.onSeam i f).now = s.now := rfl
@[simp] theorem State.onSeam_tarn (s : State) (i : Fin 4) (f : SeamBar → SeamBar) : (s.onSeam i f).tarn = s.tarn := rfl
@[simp] theorem State.onSeam_regs (s : State) (i : Fin 4) (f : SeamBar → SeamBar) : (s.onSeam i f).regs = s.regs := rfl
@[simp] theorem State.onSeam_staged (s : State) (i : Fin 4) (f : SeamBar → SeamBar) : (s.onSeam i f).staged = s.staged := rfl
@[simp] theorem State.onSeam_commits (s : State) (i : Fin 4) (f : SeamBar → SeamBar) : (s.onSeam i f).commits = s.commits := rfl
@[simp] theorem State.onSeam_latch (s : State) (i : Fin 4) (f : SeamBar → SeamBar) : (s.onSeam i f).latch = s.latch := rfl
@[simp] theorem State.onSeam_power (s : State) (i : Fin 4) (f : SeamBar → SeamBar) : (s.onSeam i f).power = s.power := rfl
@[simp] theorem State.onSeam_keep (s : State) (i : Fin 4) (f : SeamBar → SeamBar) : (s.onSeam i f).keep = s.keep := rfl
@[simp] theorem State.onSeam_sic (s : State) (i : Fin 4) (f : SeamBar → SeamBar) : (s.onSeam i f).sic = s.sic := rfl
@[simp] theorem State.onSeam_str (s : State) (i : Fin 4) (f : SeamBar → SeamBar) : (s.onSeam i f).str = s.str := rfl
@[simp] theorem State.onSeam_ctl (s : State) (i : Fin 4) (f : SeamBar → SeamBar) : (s.onSeam i f).ctl = s.ctl := rfl
@[simp] theorem State.onSeam_stalls (s : State) (i : Fin 4) (f : SeamBar → SeamBar) : (s.onSeam i f).stalls = s.stalls := rfl
@[simp] theorem State.onSeam_sources (s : State) (i : Fin 4) (f : SeamBar → SeamBar) : (s.onSeam i f).sources = s.sources := rfl
@[simp] theorem State.onSeam_targets (s : State) (i : Fin 4) (f : SeamBar → SeamBar) : (s.onSeam i f).targets = s.targets := rfl
@[simp] theorem State.onSeam_tb (s : State) (i : Fin 4) (f : SeamBar → SeamBar) : (s.onSeam i f).tb = s.tb := rfl
@[simp] theorem State.onSeam_wp (s : State) (i : Fin 4) (f : SeamBar → SeamBar) : (s.onSeam i f).wp = s.wp := rfl
@[simp] theorem State.onSeam_ltg (s : State) (i : Fin 4) (f : SeamBar → SeamBar) : (s.onSeam i f).ltg = s.ltg := rfl
@[simp] theorem State.onSeam_gpio (s : State) (i : Fin 4) (f : SeamBar → SeamBar) : (s.onSeam i f).gpio = s.gpio := rfl
@[simp] theorem State.onSeam_ptp (s : State) (i : Fin 4) (f : SeamBar → SeamBar) : (s.onSeam i f).ptp = s.ptp := rfl
@[simp] theorem State.onSeam_spr (s : State) (i : Fin 4) (f : SeamBar → SeamBar) : (s.onSeam i f).spr = s.spr := rfl
@[simp] theorem State.onSeam_grp (s : State) (i : Fin 4) (f : SeamBar → SeamBar) : (s.onSeam i f).grp = s.grp := rfl
@[simp] theorem State.onSeam_twb (s : State) (i : Fin 4) (f : SeamBar → SeamBar) : (s.onSeam i f).twb = s.twb := rfl
@[simp] theorem State.onSeam_engs (s : State) (i : Fin 4) (f : SeamBar → SeamBar) : (s.onSeam i f).engs = s.engs := rfl
@[simp] theorem State.onSeam_engine (s : State) (i : Fin 4) (f : SeamBar → SeamBar) : (s.onSeam i f).engine = s.engine := rfl
@[simp] theorem State.onSeam_tnr (s : State) (i : Fin 4) (f : SeamBar → SeamBar) : (s.onSeam i f).tnr = s.tnr := rfl
@[simp] theorem State.onSeam_tally (s : State) (i : Fin 4) (f : SeamBar → SeamBar) : (s.onSeam i f).tally = s.tally := rfl
@[simp] theorem State.onSeam_load (s : State) (i : Fin 4) (f : SeamBar → SeamBar) : (s.onSeam i f).load = s.load := rfl
@[simp] theorem State.onSeam_tables (s : State) (i : Fin 4) (f : SeamBar → SeamBar) : (s.onSeam i f).tables = s.tables := rfl
@[simp] theorem State.onSeam_out (s : State) (i : Fin 4) (f : SeamBar → SeamBar) : (s.onSeam i f).out = s.out := rfl
@[simp] theorem State.onSeam_xpt (s : State) (i : Fin 4) (f : SeamBar → SeamBar) : (s.onSeam i f).xpt = s.xpt := rfl
@[simp] theorem State.onSeam_drains (s : State) (i : Fin 4) (f : SeamBar → SeamBar) : (s.onSeam i f).drains = s.drains := rfl
@[simp] theorem State.onSeam_links (s : State) (i : Fin 4) (f : SeamBar → SeamBar) : (s.onSeam i f).links = s.links := rfl
@[simp] theorem State.onSeam_portMode (s : State) (i : Fin 4) (f : SeamBar → SeamBar) : (s.onSeam i f).portMode = s.portMode := rfl
@[simp] theorem State.onSeam_lakeCtl (s : State) (i : Fin 4) (f : SeamBar → SeamBar) : (s.onSeam i f).lakeCtl = s.lakeCtl := rfl
@[simp] theorem State.onSeam_crc (s : State) (i : Fin 4) (f : SeamBar → SeamBar) : (s.onSeam i f).crc = s.crc := rfl
@[simp] theorem State.onSeam_netPonds (s : State) (i : Fin 4) (f : SeamBar → SeamBar) : (s.onSeam i f).netPonds = s.netPonds := rfl
@[simp] theorem State.onSeam_chains (s : State) (i : Fin 4) (f : SeamBar → SeamBar) : (s.onSeam i f).chains = s.chains := rfl
@[simp] theorem State.onSeam_readPtr (s : State) (i : Fin 4) (f : SeamBar → SeamBar) : (s.onSeam i f).readPtr = s.readPtr := rfl
@[simp] theorem State.onSeam_releases (s : State) (i : Fin 4) (f : SeamBar → SeamBar) : (s.onSeam i f).releases = s.releases := rfl
@[simp] theorem State.onSeam_resets (s : State) (i : Fin 4) (f : SeamBar → SeamBar) : (s.onSeam i f).resets = s.resets := rfl
@[simp] theorem State.onSeam_edges (s : State) (i : Fin 4) (f : SeamBar → SeamBar) : (s.onSeam i f).edges = s.edges := rfl
@[simp] theorem State.onSeam_lake (s : State) (i : Fin 4) (f : SeamBar → SeamBar) : (s.onSeam i f).lake = s.lake := rfl
@[simp] theorem State.onSeam_draws (s : State) (i : Fin 4) (f : SeamBar → SeamBar) : (s.onSeam i f).draws = s.draws := rfl
@[simp] theorem State.onSeam_sent (s : State) (i : Fin 4) (f : SeamBar → SeamBar) : (s.onSeam i f).sent = s.sent := rfl
@[simp] theorem State.onSeam_rd (s : State) (i : Fin 4) (f : SeamBar → SeamBar) (r : Nat) : (s.onSeam i f).rd r = s.rd r := rfl
@[simp] theorem State.onSeam_lakeGet (s : State) (i : Fin 4) (f : SeamBar → SeamBar) (r : Nat) : (s.onSeam i f).lakeGet r = s.lakeGet r := rfl
@[simp] theorem State.onSeam_tbl (s : State) (i : Fin 4) (f : SeamBar → SeamBar) (r : Nat) : (s.onSeam i f).tbl r = s.tbl r := rfl

/-! `State.onTnr` changes `tnr` alone. -/

@[simp] theorem State.onTnr_pending (s : State) (i : Fin 4) (f : Tnr → Tnr) : (s.onTnr i f).pending = s.pending := rfl
@[simp] theorem State.onTnr_now (s : State) (i : Fin 4) (f : Tnr → Tnr) : (s.onTnr i f).now = s.now := rfl
@[simp] theorem State.onTnr_tarn (s : State) (i : Fin 4) (f : Tnr → Tnr) : (s.onTnr i f).tarn = s.tarn := rfl
@[simp] theorem State.onTnr_regs (s : State) (i : Fin 4) (f : Tnr → Tnr) : (s.onTnr i f).regs = s.regs := rfl
@[simp] theorem State.onTnr_staged (s : State) (i : Fin 4) (f : Tnr → Tnr) : (s.onTnr i f).staged = s.staged := rfl
@[simp] theorem State.onTnr_commits (s : State) (i : Fin 4) (f : Tnr → Tnr) : (s.onTnr i f).commits = s.commits := rfl
@[simp] theorem State.onTnr_latch (s : State) (i : Fin 4) (f : Tnr → Tnr) : (s.onTnr i f).latch = s.latch := rfl
@[simp] theorem State.onTnr_power (s : State) (i : Fin 4) (f : Tnr → Tnr) : (s.onTnr i f).power = s.power := rfl
@[simp] theorem State.onTnr_keep (s : State) (i : Fin 4) (f : Tnr → Tnr) : (s.onTnr i f).keep = s.keep := rfl
@[simp] theorem State.onTnr_sic (s : State) (i : Fin 4) (f : Tnr → Tnr) : (s.onTnr i f).sic = s.sic := rfl
@[simp] theorem State.onTnr_str (s : State) (i : Fin 4) (f : Tnr → Tnr) : (s.onTnr i f).str = s.str := rfl
@[simp] theorem State.onTnr_ctl (s : State) (i : Fin 4) (f : Tnr → Tnr) : (s.onTnr i f).ctl = s.ctl := rfl
@[simp] theorem State.onTnr_stalls (s : State) (i : Fin 4) (f : Tnr → Tnr) : (s.onTnr i f).stalls = s.stalls := rfl
@[simp] theorem State.onTnr_sources (s : State) (i : Fin 4) (f : Tnr → Tnr) : (s.onTnr i f).sources = s.sources := rfl
@[simp] theorem State.onTnr_targets (s : State) (i : Fin 4) (f : Tnr → Tnr) : (s.onTnr i f).targets = s.targets := rfl
@[simp] theorem State.onTnr_tb (s : State) (i : Fin 4) (f : Tnr → Tnr) : (s.onTnr i f).tb = s.tb := rfl
@[simp] theorem State.onTnr_wp (s : State) (i : Fin 4) (f : Tnr → Tnr) : (s.onTnr i f).wp = s.wp := rfl
@[simp] theorem State.onTnr_ltg (s : State) (i : Fin 4) (f : Tnr → Tnr) : (s.onTnr i f).ltg = s.ltg := rfl
@[simp] theorem State.onTnr_gpio (s : State) (i : Fin 4) (f : Tnr → Tnr) : (s.onTnr i f).gpio = s.gpio := rfl
@[simp] theorem State.onTnr_ptp (s : State) (i : Fin 4) (f : Tnr → Tnr) : (s.onTnr i f).ptp = s.ptp := rfl
@[simp] theorem State.onTnr_spr (s : State) (i : Fin 4) (f : Tnr → Tnr) : (s.onTnr i f).spr = s.spr := rfl
@[simp] theorem State.onTnr_grp (s : State) (i : Fin 4) (f : Tnr → Tnr) : (s.onTnr i f).grp = s.grp := rfl
@[simp] theorem State.onTnr_twb (s : State) (i : Fin 4) (f : Tnr → Tnr) : (s.onTnr i f).twb = s.twb := rfl
@[simp] theorem State.onTnr_engs (s : State) (i : Fin 4) (f : Tnr → Tnr) : (s.onTnr i f).engs = s.engs := rfl
@[simp] theorem State.onTnr_engine (s : State) (i : Fin 4) (f : Tnr → Tnr) : (s.onTnr i f).engine = s.engine := rfl
@[simp] theorem State.onTnr_seam (s : State) (i : Fin 4) (f : Tnr → Tnr) : (s.onTnr i f).seam = s.seam := rfl
@[simp] theorem State.onTnr_tally (s : State) (i : Fin 4) (f : Tnr → Tnr) : (s.onTnr i f).tally = s.tally := rfl
@[simp] theorem State.onTnr_load (s : State) (i : Fin 4) (f : Tnr → Tnr) : (s.onTnr i f).load = s.load := rfl
@[simp] theorem State.onTnr_tables (s : State) (i : Fin 4) (f : Tnr → Tnr) : (s.onTnr i f).tables = s.tables := rfl
@[simp] theorem State.onTnr_out (s : State) (i : Fin 4) (f : Tnr → Tnr) : (s.onTnr i f).out = s.out := rfl
@[simp] theorem State.onTnr_xpt (s : State) (i : Fin 4) (f : Tnr → Tnr) : (s.onTnr i f).xpt = s.xpt := rfl
@[simp] theorem State.onTnr_drains (s : State) (i : Fin 4) (f : Tnr → Tnr) : (s.onTnr i f).drains = s.drains := rfl
@[simp] theorem State.onTnr_links (s : State) (i : Fin 4) (f : Tnr → Tnr) : (s.onTnr i f).links = s.links := rfl
@[simp] theorem State.onTnr_portMode (s : State) (i : Fin 4) (f : Tnr → Tnr) : (s.onTnr i f).portMode = s.portMode := rfl
@[simp] theorem State.onTnr_lakeCtl (s : State) (i : Fin 4) (f : Tnr → Tnr) : (s.onTnr i f).lakeCtl = s.lakeCtl := rfl
@[simp] theorem State.onTnr_crc (s : State) (i : Fin 4) (f : Tnr → Tnr) : (s.onTnr i f).crc = s.crc := rfl
@[simp] theorem State.onTnr_netPonds (s : State) (i : Fin 4) (f : Tnr → Tnr) : (s.onTnr i f).netPonds = s.netPonds := rfl
@[simp] theorem State.onTnr_chains (s : State) (i : Fin 4) (f : Tnr → Tnr) : (s.onTnr i f).chains = s.chains := rfl
@[simp] theorem State.onTnr_readPtr (s : State) (i : Fin 4) (f : Tnr → Tnr) : (s.onTnr i f).readPtr = s.readPtr := rfl
@[simp] theorem State.onTnr_releases (s : State) (i : Fin 4) (f : Tnr → Tnr) : (s.onTnr i f).releases = s.releases := rfl
@[simp] theorem State.onTnr_resets (s : State) (i : Fin 4) (f : Tnr → Tnr) : (s.onTnr i f).resets = s.resets := rfl
@[simp] theorem State.onTnr_edges (s : State) (i : Fin 4) (f : Tnr → Tnr) : (s.onTnr i f).edges = s.edges := rfl
@[simp] theorem State.onTnr_lake (s : State) (i : Fin 4) (f : Tnr → Tnr) : (s.onTnr i f).lake = s.lake := rfl
@[simp] theorem State.onTnr_draws (s : State) (i : Fin 4) (f : Tnr → Tnr) : (s.onTnr i f).draws = s.draws := rfl
@[simp] theorem State.onTnr_sent (s : State) (i : Fin 4) (f : Tnr → Tnr) : (s.onTnr i f).sent = s.sent := rfl
@[simp] theorem State.onTnr_rd (s : State) (i : Fin 4) (f : Tnr → Tnr) (r : Nat) : (s.onTnr i f).rd r = s.rd r := rfl
@[simp] theorem State.onTnr_lakeGet (s : State) (i : Fin 4) (f : Tnr → Tnr) (r : Nat) : (s.onTnr i f).lakeGet r = s.lakeGet r := rfl
@[simp] theorem State.onTnr_tbl (s : State) (i : Fin 4) (f : Tnr → Tnr) (r : Nat) : (s.onTnr i f).tbl r = s.tbl r := rfl

/-! `State.onTally` changes `tally` alone. -/

@[simp] theorem State.onTally_pending (s : State) (i : Fin 12) (f : Tally → Tally) : (s.onTally i f).pending = s.pending := rfl
@[simp] theorem State.onTally_now (s : State) (i : Fin 12) (f : Tally → Tally) : (s.onTally i f).now = s.now := rfl
@[simp] theorem State.onTally_tarn (s : State) (i : Fin 12) (f : Tally → Tally) : (s.onTally i f).tarn = s.tarn := rfl
@[simp] theorem State.onTally_regs (s : State) (i : Fin 12) (f : Tally → Tally) : (s.onTally i f).regs = s.regs := rfl
@[simp] theorem State.onTally_staged (s : State) (i : Fin 12) (f : Tally → Tally) : (s.onTally i f).staged = s.staged := rfl
@[simp] theorem State.onTally_commits (s : State) (i : Fin 12) (f : Tally → Tally) : (s.onTally i f).commits = s.commits := rfl
@[simp] theorem State.onTally_latch (s : State) (i : Fin 12) (f : Tally → Tally) : (s.onTally i f).latch = s.latch := rfl
@[simp] theorem State.onTally_power (s : State) (i : Fin 12) (f : Tally → Tally) : (s.onTally i f).power = s.power := rfl
@[simp] theorem State.onTally_keep (s : State) (i : Fin 12) (f : Tally → Tally) : (s.onTally i f).keep = s.keep := rfl
@[simp] theorem State.onTally_sic (s : State) (i : Fin 12) (f : Tally → Tally) : (s.onTally i f).sic = s.sic := rfl
@[simp] theorem State.onTally_str (s : State) (i : Fin 12) (f : Tally → Tally) : (s.onTally i f).str = s.str := rfl
@[simp] theorem State.onTally_ctl (s : State) (i : Fin 12) (f : Tally → Tally) : (s.onTally i f).ctl = s.ctl := rfl
@[simp] theorem State.onTally_stalls (s : State) (i : Fin 12) (f : Tally → Tally) : (s.onTally i f).stalls = s.stalls := rfl
@[simp] theorem State.onTally_sources (s : State) (i : Fin 12) (f : Tally → Tally) : (s.onTally i f).sources = s.sources := rfl
@[simp] theorem State.onTally_targets (s : State) (i : Fin 12) (f : Tally → Tally) : (s.onTally i f).targets = s.targets := rfl
@[simp] theorem State.onTally_tb (s : State) (i : Fin 12) (f : Tally → Tally) : (s.onTally i f).tb = s.tb := rfl
@[simp] theorem State.onTally_wp (s : State) (i : Fin 12) (f : Tally → Tally) : (s.onTally i f).wp = s.wp := rfl
@[simp] theorem State.onTally_ltg (s : State) (i : Fin 12) (f : Tally → Tally) : (s.onTally i f).ltg = s.ltg := rfl
@[simp] theorem State.onTally_gpio (s : State) (i : Fin 12) (f : Tally → Tally) : (s.onTally i f).gpio = s.gpio := rfl
@[simp] theorem State.onTally_ptp (s : State) (i : Fin 12) (f : Tally → Tally) : (s.onTally i f).ptp = s.ptp := rfl
@[simp] theorem State.onTally_spr (s : State) (i : Fin 12) (f : Tally → Tally) : (s.onTally i f).spr = s.spr := rfl
@[simp] theorem State.onTally_grp (s : State) (i : Fin 12) (f : Tally → Tally) : (s.onTally i f).grp = s.grp := rfl
@[simp] theorem State.onTally_twb (s : State) (i : Fin 12) (f : Tally → Tally) : (s.onTally i f).twb = s.twb := rfl
@[simp] theorem State.onTally_engs (s : State) (i : Fin 12) (f : Tally → Tally) : (s.onTally i f).engs = s.engs := rfl
@[simp] theorem State.onTally_engine (s : State) (i : Fin 12) (f : Tally → Tally) : (s.onTally i f).engine = s.engine := rfl
@[simp] theorem State.onTally_seam (s : State) (i : Fin 12) (f : Tally → Tally) : (s.onTally i f).seam = s.seam := rfl
@[simp] theorem State.onTally_tnr (s : State) (i : Fin 12) (f : Tally → Tally) : (s.onTally i f).tnr = s.tnr := rfl
@[simp] theorem State.onTally_load (s : State) (i : Fin 12) (f : Tally → Tally) : (s.onTally i f).load = s.load := rfl
@[simp] theorem State.onTally_tables (s : State) (i : Fin 12) (f : Tally → Tally) : (s.onTally i f).tables = s.tables := rfl
@[simp] theorem State.onTally_out (s : State) (i : Fin 12) (f : Tally → Tally) : (s.onTally i f).out = s.out := rfl
@[simp] theorem State.onTally_xpt (s : State) (i : Fin 12) (f : Tally → Tally) : (s.onTally i f).xpt = s.xpt := rfl
@[simp] theorem State.onTally_drains (s : State) (i : Fin 12) (f : Tally → Tally) : (s.onTally i f).drains = s.drains := rfl
@[simp] theorem State.onTally_links (s : State) (i : Fin 12) (f : Tally → Tally) : (s.onTally i f).links = s.links := rfl
@[simp] theorem State.onTally_portMode (s : State) (i : Fin 12) (f : Tally → Tally) : (s.onTally i f).portMode = s.portMode := rfl
@[simp] theorem State.onTally_lakeCtl (s : State) (i : Fin 12) (f : Tally → Tally) : (s.onTally i f).lakeCtl = s.lakeCtl := rfl
@[simp] theorem State.onTally_crc (s : State) (i : Fin 12) (f : Tally → Tally) : (s.onTally i f).crc = s.crc := rfl
@[simp] theorem State.onTally_netPonds (s : State) (i : Fin 12) (f : Tally → Tally) : (s.onTally i f).netPonds = s.netPonds := rfl
@[simp] theorem State.onTally_chains (s : State) (i : Fin 12) (f : Tally → Tally) : (s.onTally i f).chains = s.chains := rfl
@[simp] theorem State.onTally_readPtr (s : State) (i : Fin 12) (f : Tally → Tally) : (s.onTally i f).readPtr = s.readPtr := rfl
@[simp] theorem State.onTally_releases (s : State) (i : Fin 12) (f : Tally → Tally) : (s.onTally i f).releases = s.releases := rfl
@[simp] theorem State.onTally_resets (s : State) (i : Fin 12) (f : Tally → Tally) : (s.onTally i f).resets = s.resets := rfl
@[simp] theorem State.onTally_edges (s : State) (i : Fin 12) (f : Tally → Tally) : (s.onTally i f).edges = s.edges := rfl
@[simp] theorem State.onTally_lake (s : State) (i : Fin 12) (f : Tally → Tally) : (s.onTally i f).lake = s.lake := rfl
@[simp] theorem State.onTally_draws (s : State) (i : Fin 12) (f : Tally → Tally) : (s.onTally i f).draws = s.draws := rfl
@[simp] theorem State.onTally_sent (s : State) (i : Fin 12) (f : Tally → Tally) : (s.onTally i f).sent = s.sent := rfl
@[simp] theorem State.onTally_rd (s : State) (i : Fin 12) (f : Tally → Tally) (r : Nat) : (s.onTally i f).rd r = s.rd r := rfl
@[simp] theorem State.onTally_lakeGet (s : State) (i : Fin 12) (f : Tally → Tally) (r : Nat) : (s.onTally i f).lakeGet r = s.lakeGet r := rfl
@[simp] theorem State.onTally_tbl (s : State) (i : Fin 12) (f : Tally → Tally) (r : Nat) : (s.onTally i f).tbl r = s.tbl r := rfl

/-! `State.onLoad` changes `load` alone. -/

@[simp] theorem State.onLoad_pending (s : State) (i : Fin 12) (f : LoadPort → LoadPort) : (s.onLoad i f).pending = s.pending := rfl
@[simp] theorem State.onLoad_now (s : State) (i : Fin 12) (f : LoadPort → LoadPort) : (s.onLoad i f).now = s.now := rfl
@[simp] theorem State.onLoad_tarn (s : State) (i : Fin 12) (f : LoadPort → LoadPort) : (s.onLoad i f).tarn = s.tarn := rfl
@[simp] theorem State.onLoad_regs (s : State) (i : Fin 12) (f : LoadPort → LoadPort) : (s.onLoad i f).regs = s.regs := rfl
@[simp] theorem State.onLoad_staged (s : State) (i : Fin 12) (f : LoadPort → LoadPort) : (s.onLoad i f).staged = s.staged := rfl
@[simp] theorem State.onLoad_commits (s : State) (i : Fin 12) (f : LoadPort → LoadPort) : (s.onLoad i f).commits = s.commits := rfl
@[simp] theorem State.onLoad_latch (s : State) (i : Fin 12) (f : LoadPort → LoadPort) : (s.onLoad i f).latch = s.latch := rfl
@[simp] theorem State.onLoad_power (s : State) (i : Fin 12) (f : LoadPort → LoadPort) : (s.onLoad i f).power = s.power := rfl
@[simp] theorem State.onLoad_keep (s : State) (i : Fin 12) (f : LoadPort → LoadPort) : (s.onLoad i f).keep = s.keep := rfl
@[simp] theorem State.onLoad_sic (s : State) (i : Fin 12) (f : LoadPort → LoadPort) : (s.onLoad i f).sic = s.sic := rfl
@[simp] theorem State.onLoad_str (s : State) (i : Fin 12) (f : LoadPort → LoadPort) : (s.onLoad i f).str = s.str := rfl
@[simp] theorem State.onLoad_ctl (s : State) (i : Fin 12) (f : LoadPort → LoadPort) : (s.onLoad i f).ctl = s.ctl := rfl
@[simp] theorem State.onLoad_stalls (s : State) (i : Fin 12) (f : LoadPort → LoadPort) : (s.onLoad i f).stalls = s.stalls := rfl
@[simp] theorem State.onLoad_sources (s : State) (i : Fin 12) (f : LoadPort → LoadPort) : (s.onLoad i f).sources = s.sources := rfl
@[simp] theorem State.onLoad_targets (s : State) (i : Fin 12) (f : LoadPort → LoadPort) : (s.onLoad i f).targets = s.targets := rfl
@[simp] theorem State.onLoad_tb (s : State) (i : Fin 12) (f : LoadPort → LoadPort) : (s.onLoad i f).tb = s.tb := rfl
@[simp] theorem State.onLoad_wp (s : State) (i : Fin 12) (f : LoadPort → LoadPort) : (s.onLoad i f).wp = s.wp := rfl
@[simp] theorem State.onLoad_ltg (s : State) (i : Fin 12) (f : LoadPort → LoadPort) : (s.onLoad i f).ltg = s.ltg := rfl
@[simp] theorem State.onLoad_gpio (s : State) (i : Fin 12) (f : LoadPort → LoadPort) : (s.onLoad i f).gpio = s.gpio := rfl
@[simp] theorem State.onLoad_ptp (s : State) (i : Fin 12) (f : LoadPort → LoadPort) : (s.onLoad i f).ptp = s.ptp := rfl
@[simp] theorem State.onLoad_spr (s : State) (i : Fin 12) (f : LoadPort → LoadPort) : (s.onLoad i f).spr = s.spr := rfl
@[simp] theorem State.onLoad_grp (s : State) (i : Fin 12) (f : LoadPort → LoadPort) : (s.onLoad i f).grp = s.grp := rfl
@[simp] theorem State.onLoad_twb (s : State) (i : Fin 12) (f : LoadPort → LoadPort) : (s.onLoad i f).twb = s.twb := rfl
@[simp] theorem State.onLoad_engs (s : State) (i : Fin 12) (f : LoadPort → LoadPort) : (s.onLoad i f).engs = s.engs := rfl
@[simp] theorem State.onLoad_engine (s : State) (i : Fin 12) (f : LoadPort → LoadPort) : (s.onLoad i f).engine = s.engine := rfl
@[simp] theorem State.onLoad_seam (s : State) (i : Fin 12) (f : LoadPort → LoadPort) : (s.onLoad i f).seam = s.seam := rfl
@[simp] theorem State.onLoad_tnr (s : State) (i : Fin 12) (f : LoadPort → LoadPort) : (s.onLoad i f).tnr = s.tnr := rfl
@[simp] theorem State.onLoad_tally (s : State) (i : Fin 12) (f : LoadPort → LoadPort) : (s.onLoad i f).tally = s.tally := rfl
@[simp] theorem State.onLoad_tables (s : State) (i : Fin 12) (f : LoadPort → LoadPort) : (s.onLoad i f).tables = s.tables := rfl
@[simp] theorem State.onLoad_out (s : State) (i : Fin 12) (f : LoadPort → LoadPort) : (s.onLoad i f).out = s.out := rfl
@[simp] theorem State.onLoad_xpt (s : State) (i : Fin 12) (f : LoadPort → LoadPort) : (s.onLoad i f).xpt = s.xpt := rfl
@[simp] theorem State.onLoad_drains (s : State) (i : Fin 12) (f : LoadPort → LoadPort) : (s.onLoad i f).drains = s.drains := rfl
@[simp] theorem State.onLoad_links (s : State) (i : Fin 12) (f : LoadPort → LoadPort) : (s.onLoad i f).links = s.links := rfl
@[simp] theorem State.onLoad_portMode (s : State) (i : Fin 12) (f : LoadPort → LoadPort) : (s.onLoad i f).portMode = s.portMode := rfl
@[simp] theorem State.onLoad_lakeCtl (s : State) (i : Fin 12) (f : LoadPort → LoadPort) : (s.onLoad i f).lakeCtl = s.lakeCtl := rfl
@[simp] theorem State.onLoad_crc (s : State) (i : Fin 12) (f : LoadPort → LoadPort) : (s.onLoad i f).crc = s.crc := rfl
@[simp] theorem State.onLoad_netPonds (s : State) (i : Fin 12) (f : LoadPort → LoadPort) : (s.onLoad i f).netPonds = s.netPonds := rfl
@[simp] theorem State.onLoad_chains (s : State) (i : Fin 12) (f : LoadPort → LoadPort) : (s.onLoad i f).chains = s.chains := rfl
@[simp] theorem State.onLoad_readPtr (s : State) (i : Fin 12) (f : LoadPort → LoadPort) : (s.onLoad i f).readPtr = s.readPtr := rfl
@[simp] theorem State.onLoad_releases (s : State) (i : Fin 12) (f : LoadPort → LoadPort) : (s.onLoad i f).releases = s.releases := rfl
@[simp] theorem State.onLoad_resets (s : State) (i : Fin 12) (f : LoadPort → LoadPort) : (s.onLoad i f).resets = s.resets := rfl
@[simp] theorem State.onLoad_edges (s : State) (i : Fin 12) (f : LoadPort → LoadPort) : (s.onLoad i f).edges = s.edges := rfl
@[simp] theorem State.onLoad_lake (s : State) (i : Fin 12) (f : LoadPort → LoadPort) : (s.onLoad i f).lake = s.lake := rfl
@[simp] theorem State.onLoad_draws (s : State) (i : Fin 12) (f : LoadPort → LoadPort) : (s.onLoad i f).draws = s.draws := rfl
@[simp] theorem State.onLoad_sent (s : State) (i : Fin 12) (f : LoadPort → LoadPort) : (s.onLoad i f).sent = s.sent := rfl
@[simp] theorem State.onLoad_rd (s : State) (i : Fin 12) (f : LoadPort → LoadPort) (r : Nat) : (s.onLoad i f).rd r = s.rd r := rfl
@[simp] theorem State.onLoad_lakeGet (s : State) (i : Fin 12) (f : LoadPort → LoadPort) (r : Nat) : (s.onLoad i f).lakeGet r = s.lakeGet r := rfl
@[simp] theorem State.onLoad_tbl (s : State) (i : Fin 12) (f : LoadPort → LoadPort) (r : Nat) : (s.onLoad i f).tbl r = s.tbl r := rfl

/-! `State.onOut` changes `out` alone. -/

@[simp] theorem State.onOut_pending (s : State) (i : Fin 16) (f : Stream → Stream) : (s.onOut i f).pending = s.pending := rfl
@[simp] theorem State.onOut_now (s : State) (i : Fin 16) (f : Stream → Stream) : (s.onOut i f).now = s.now := rfl
@[simp] theorem State.onOut_tarn (s : State) (i : Fin 16) (f : Stream → Stream) : (s.onOut i f).tarn = s.tarn := rfl
@[simp] theorem State.onOut_regs (s : State) (i : Fin 16) (f : Stream → Stream) : (s.onOut i f).regs = s.regs := rfl
@[simp] theorem State.onOut_staged (s : State) (i : Fin 16) (f : Stream → Stream) : (s.onOut i f).staged = s.staged := rfl
@[simp] theorem State.onOut_commits (s : State) (i : Fin 16) (f : Stream → Stream) : (s.onOut i f).commits = s.commits := rfl
@[simp] theorem State.onOut_latch (s : State) (i : Fin 16) (f : Stream → Stream) : (s.onOut i f).latch = s.latch := rfl
@[simp] theorem State.onOut_power (s : State) (i : Fin 16) (f : Stream → Stream) : (s.onOut i f).power = s.power := rfl
@[simp] theorem State.onOut_keep (s : State) (i : Fin 16) (f : Stream → Stream) : (s.onOut i f).keep = s.keep := rfl
@[simp] theorem State.onOut_sic (s : State) (i : Fin 16) (f : Stream → Stream) : (s.onOut i f).sic = s.sic := rfl
@[simp] theorem State.onOut_str (s : State) (i : Fin 16) (f : Stream → Stream) : (s.onOut i f).str = s.str := rfl
@[simp] theorem State.onOut_ctl (s : State) (i : Fin 16) (f : Stream → Stream) : (s.onOut i f).ctl = s.ctl := rfl
@[simp] theorem State.onOut_stalls (s : State) (i : Fin 16) (f : Stream → Stream) : (s.onOut i f).stalls = s.stalls := rfl
@[simp] theorem State.onOut_sources (s : State) (i : Fin 16) (f : Stream → Stream) : (s.onOut i f).sources = s.sources := rfl
@[simp] theorem State.onOut_targets (s : State) (i : Fin 16) (f : Stream → Stream) : (s.onOut i f).targets = s.targets := rfl
@[simp] theorem State.onOut_tb (s : State) (i : Fin 16) (f : Stream → Stream) : (s.onOut i f).tb = s.tb := rfl
@[simp] theorem State.onOut_wp (s : State) (i : Fin 16) (f : Stream → Stream) : (s.onOut i f).wp = s.wp := rfl
@[simp] theorem State.onOut_ltg (s : State) (i : Fin 16) (f : Stream → Stream) : (s.onOut i f).ltg = s.ltg := rfl
@[simp] theorem State.onOut_gpio (s : State) (i : Fin 16) (f : Stream → Stream) : (s.onOut i f).gpio = s.gpio := rfl
@[simp] theorem State.onOut_ptp (s : State) (i : Fin 16) (f : Stream → Stream) : (s.onOut i f).ptp = s.ptp := rfl
@[simp] theorem State.onOut_spr (s : State) (i : Fin 16) (f : Stream → Stream) : (s.onOut i f).spr = s.spr := rfl
@[simp] theorem State.onOut_grp (s : State) (i : Fin 16) (f : Stream → Stream) : (s.onOut i f).grp = s.grp := rfl
@[simp] theorem State.onOut_twb (s : State) (i : Fin 16) (f : Stream → Stream) : (s.onOut i f).twb = s.twb := rfl
@[simp] theorem State.onOut_engs (s : State) (i : Fin 16) (f : Stream → Stream) : (s.onOut i f).engs = s.engs := rfl
@[simp] theorem State.onOut_engine (s : State) (i : Fin 16) (f : Stream → Stream) : (s.onOut i f).engine = s.engine := rfl
@[simp] theorem State.onOut_seam (s : State) (i : Fin 16) (f : Stream → Stream) : (s.onOut i f).seam = s.seam := rfl
@[simp] theorem State.onOut_tnr (s : State) (i : Fin 16) (f : Stream → Stream) : (s.onOut i f).tnr = s.tnr := rfl
@[simp] theorem State.onOut_tally (s : State) (i : Fin 16) (f : Stream → Stream) : (s.onOut i f).tally = s.tally := rfl
@[simp] theorem State.onOut_load (s : State) (i : Fin 16) (f : Stream → Stream) : (s.onOut i f).load = s.load := rfl
@[simp] theorem State.onOut_tables (s : State) (i : Fin 16) (f : Stream → Stream) : (s.onOut i f).tables = s.tables := rfl
@[simp] theorem State.onOut_xpt (s : State) (i : Fin 16) (f : Stream → Stream) : (s.onOut i f).xpt = s.xpt := rfl
@[simp] theorem State.onOut_drains (s : State) (i : Fin 16) (f : Stream → Stream) : (s.onOut i f).drains = s.drains := rfl
@[simp] theorem State.onOut_links (s : State) (i : Fin 16) (f : Stream → Stream) : (s.onOut i f).links = s.links := rfl
@[simp] theorem State.onOut_portMode (s : State) (i : Fin 16) (f : Stream → Stream) : (s.onOut i f).portMode = s.portMode := rfl
@[simp] theorem State.onOut_lakeCtl (s : State) (i : Fin 16) (f : Stream → Stream) : (s.onOut i f).lakeCtl = s.lakeCtl := rfl
@[simp] theorem State.onOut_crc (s : State) (i : Fin 16) (f : Stream → Stream) : (s.onOut i f).crc = s.crc := rfl
@[simp] theorem State.onOut_netPonds (s : State) (i : Fin 16) (f : Stream → Stream) : (s.onOut i f).netPonds = s.netPonds := rfl
@[simp] theorem State.onOut_chains (s : State) (i : Fin 16) (f : Stream → Stream) : (s.onOut i f).chains = s.chains := rfl
@[simp] theorem State.onOut_readPtr (s : State) (i : Fin 16) (f : Stream → Stream) : (s.onOut i f).readPtr = s.readPtr := rfl
@[simp] theorem State.onOut_releases (s : State) (i : Fin 16) (f : Stream → Stream) : (s.onOut i f).releases = s.releases := rfl
@[simp] theorem State.onOut_resets (s : State) (i : Fin 16) (f : Stream → Stream) : (s.onOut i f).resets = s.resets := rfl
@[simp] theorem State.onOut_edges (s : State) (i : Fin 16) (f : Stream → Stream) : (s.onOut i f).edges = s.edges := rfl
@[simp] theorem State.onOut_lake (s : State) (i : Fin 16) (f : Stream → Stream) : (s.onOut i f).lake = s.lake := rfl
@[simp] theorem State.onOut_draws (s : State) (i : Fin 16) (f : Stream → Stream) : (s.onOut i f).draws = s.draws := rfl
@[simp] theorem State.onOut_sent (s : State) (i : Fin 16) (f : Stream → Stream) : (s.onOut i f).sent = s.sent := rfl
@[simp] theorem State.onOut_rd (s : State) (i : Fin 16) (f : Stream → Stream) (r : Nat) : (s.onOut i f).rd r = s.rd r := rfl
@[simp] theorem State.onOut_lakeGet (s : State) (i : Fin 16) (f : Stream → Stream) (r : Nat) : (s.onOut i f).lakeGet r = s.lakeGet r := rfl
@[simp] theorem State.onOut_tbl (s : State) (i : Fin 16) (f : Stream → Stream) (r : Nat) : (s.onOut i f).tbl r = s.tbl r := rfl

/-! `State.onXpt` changes `xpt` alone. -/

@[simp] theorem State.onXpt_pending (s : State) (i : Fin 16) (f : Xpt → Xpt) : (s.onXpt i f).pending = s.pending := rfl
@[simp] theorem State.onXpt_now (s : State) (i : Fin 16) (f : Xpt → Xpt) : (s.onXpt i f).now = s.now := rfl
@[simp] theorem State.onXpt_tarn (s : State) (i : Fin 16) (f : Xpt → Xpt) : (s.onXpt i f).tarn = s.tarn := rfl
@[simp] theorem State.onXpt_regs (s : State) (i : Fin 16) (f : Xpt → Xpt) : (s.onXpt i f).regs = s.regs := rfl
@[simp] theorem State.onXpt_staged (s : State) (i : Fin 16) (f : Xpt → Xpt) : (s.onXpt i f).staged = s.staged := rfl
@[simp] theorem State.onXpt_commits (s : State) (i : Fin 16) (f : Xpt → Xpt) : (s.onXpt i f).commits = s.commits := rfl
@[simp] theorem State.onXpt_latch (s : State) (i : Fin 16) (f : Xpt → Xpt) : (s.onXpt i f).latch = s.latch := rfl
@[simp] theorem State.onXpt_power (s : State) (i : Fin 16) (f : Xpt → Xpt) : (s.onXpt i f).power = s.power := rfl
@[simp] theorem State.onXpt_keep (s : State) (i : Fin 16) (f : Xpt → Xpt) : (s.onXpt i f).keep = s.keep := rfl
@[simp] theorem State.onXpt_sic (s : State) (i : Fin 16) (f : Xpt → Xpt) : (s.onXpt i f).sic = s.sic := rfl
@[simp] theorem State.onXpt_str (s : State) (i : Fin 16) (f : Xpt → Xpt) : (s.onXpt i f).str = s.str := rfl
@[simp] theorem State.onXpt_ctl (s : State) (i : Fin 16) (f : Xpt → Xpt) : (s.onXpt i f).ctl = s.ctl := rfl
@[simp] theorem State.onXpt_stalls (s : State) (i : Fin 16) (f : Xpt → Xpt) : (s.onXpt i f).stalls = s.stalls := rfl
@[simp] theorem State.onXpt_sources (s : State) (i : Fin 16) (f : Xpt → Xpt) : (s.onXpt i f).sources = s.sources := rfl
@[simp] theorem State.onXpt_targets (s : State) (i : Fin 16) (f : Xpt → Xpt) : (s.onXpt i f).targets = s.targets := rfl
@[simp] theorem State.onXpt_tb (s : State) (i : Fin 16) (f : Xpt → Xpt) : (s.onXpt i f).tb = s.tb := rfl
@[simp] theorem State.onXpt_wp (s : State) (i : Fin 16) (f : Xpt → Xpt) : (s.onXpt i f).wp = s.wp := rfl
@[simp] theorem State.onXpt_ltg (s : State) (i : Fin 16) (f : Xpt → Xpt) : (s.onXpt i f).ltg = s.ltg := rfl
@[simp] theorem State.onXpt_gpio (s : State) (i : Fin 16) (f : Xpt → Xpt) : (s.onXpt i f).gpio = s.gpio := rfl
@[simp] theorem State.onXpt_ptp (s : State) (i : Fin 16) (f : Xpt → Xpt) : (s.onXpt i f).ptp = s.ptp := rfl
@[simp] theorem State.onXpt_spr (s : State) (i : Fin 16) (f : Xpt → Xpt) : (s.onXpt i f).spr = s.spr := rfl
@[simp] theorem State.onXpt_grp (s : State) (i : Fin 16) (f : Xpt → Xpt) : (s.onXpt i f).grp = s.grp := rfl
@[simp] theorem State.onXpt_twb (s : State) (i : Fin 16) (f : Xpt → Xpt) : (s.onXpt i f).twb = s.twb := rfl
@[simp] theorem State.onXpt_engs (s : State) (i : Fin 16) (f : Xpt → Xpt) : (s.onXpt i f).engs = s.engs := rfl
@[simp] theorem State.onXpt_engine (s : State) (i : Fin 16) (f : Xpt → Xpt) : (s.onXpt i f).engine = s.engine := rfl
@[simp] theorem State.onXpt_seam (s : State) (i : Fin 16) (f : Xpt → Xpt) : (s.onXpt i f).seam = s.seam := rfl
@[simp] theorem State.onXpt_tnr (s : State) (i : Fin 16) (f : Xpt → Xpt) : (s.onXpt i f).tnr = s.tnr := rfl
@[simp] theorem State.onXpt_tally (s : State) (i : Fin 16) (f : Xpt → Xpt) : (s.onXpt i f).tally = s.tally := rfl
@[simp] theorem State.onXpt_load (s : State) (i : Fin 16) (f : Xpt → Xpt) : (s.onXpt i f).load = s.load := rfl
@[simp] theorem State.onXpt_tables (s : State) (i : Fin 16) (f : Xpt → Xpt) : (s.onXpt i f).tables = s.tables := rfl
@[simp] theorem State.onXpt_out (s : State) (i : Fin 16) (f : Xpt → Xpt) : (s.onXpt i f).out = s.out := rfl
@[simp] theorem State.onXpt_drains (s : State) (i : Fin 16) (f : Xpt → Xpt) : (s.onXpt i f).drains = s.drains := rfl
@[simp] theorem State.onXpt_links (s : State) (i : Fin 16) (f : Xpt → Xpt) : (s.onXpt i f).links = s.links := rfl
@[simp] theorem State.onXpt_portMode (s : State) (i : Fin 16) (f : Xpt → Xpt) : (s.onXpt i f).portMode = s.portMode := rfl
@[simp] theorem State.onXpt_lakeCtl (s : State) (i : Fin 16) (f : Xpt → Xpt) : (s.onXpt i f).lakeCtl = s.lakeCtl := rfl
@[simp] theorem State.onXpt_crc (s : State) (i : Fin 16) (f : Xpt → Xpt) : (s.onXpt i f).crc = s.crc := rfl
@[simp] theorem State.onXpt_netPonds (s : State) (i : Fin 16) (f : Xpt → Xpt) : (s.onXpt i f).netPonds = s.netPonds := rfl
@[simp] theorem State.onXpt_chains (s : State) (i : Fin 16) (f : Xpt → Xpt) : (s.onXpt i f).chains = s.chains := rfl
@[simp] theorem State.onXpt_readPtr (s : State) (i : Fin 16) (f : Xpt → Xpt) : (s.onXpt i f).readPtr = s.readPtr := rfl
@[simp] theorem State.onXpt_releases (s : State) (i : Fin 16) (f : Xpt → Xpt) : (s.onXpt i f).releases = s.releases := rfl
@[simp] theorem State.onXpt_resets (s : State) (i : Fin 16) (f : Xpt → Xpt) : (s.onXpt i f).resets = s.resets := rfl
@[simp] theorem State.onXpt_edges (s : State) (i : Fin 16) (f : Xpt → Xpt) : (s.onXpt i f).edges = s.edges := rfl
@[simp] theorem State.onXpt_lake (s : State) (i : Fin 16) (f : Xpt → Xpt) : (s.onXpt i f).lake = s.lake := rfl
@[simp] theorem State.onXpt_draws (s : State) (i : Fin 16) (f : Xpt → Xpt) : (s.onXpt i f).draws = s.draws := rfl
@[simp] theorem State.onXpt_sent (s : State) (i : Fin 16) (f : Xpt → Xpt) : (s.onXpt i f).sent = s.sent := rfl
@[simp] theorem State.onXpt_rd (s : State) (i : Fin 16) (f : Xpt → Xpt) (r : Nat) : (s.onXpt i f).rd r = s.rd r := rfl
@[simp] theorem State.onXpt_lakeGet (s : State) (i : Fin 16) (f : Xpt → Xpt) (r : Nat) : (s.onXpt i f).lakeGet r = s.lakeGet r := rfl
@[simp] theorem State.onXpt_tbl (s : State) (i : Fin 16) (f : Xpt → Xpt) (r : Nat) : (s.onXpt i f).tbl r = s.tbl r := rfl

/-! `State.onLink` changes `links` alone. -/

@[simp] theorem State.onLink_pending (s : State) (i : Fin 8) (f : Link → Link) : (s.onLink i f).pending = s.pending := rfl
@[simp] theorem State.onLink_now (s : State) (i : Fin 8) (f : Link → Link) : (s.onLink i f).now = s.now := rfl
@[simp] theorem State.onLink_tarn (s : State) (i : Fin 8) (f : Link → Link) : (s.onLink i f).tarn = s.tarn := rfl
@[simp] theorem State.onLink_regs (s : State) (i : Fin 8) (f : Link → Link) : (s.onLink i f).regs = s.regs := rfl
@[simp] theorem State.onLink_staged (s : State) (i : Fin 8) (f : Link → Link) : (s.onLink i f).staged = s.staged := rfl
@[simp] theorem State.onLink_commits (s : State) (i : Fin 8) (f : Link → Link) : (s.onLink i f).commits = s.commits := rfl
@[simp] theorem State.onLink_latch (s : State) (i : Fin 8) (f : Link → Link) : (s.onLink i f).latch = s.latch := rfl
@[simp] theorem State.onLink_power (s : State) (i : Fin 8) (f : Link → Link) : (s.onLink i f).power = s.power := rfl
@[simp] theorem State.onLink_keep (s : State) (i : Fin 8) (f : Link → Link) : (s.onLink i f).keep = s.keep := rfl
@[simp] theorem State.onLink_sic (s : State) (i : Fin 8) (f : Link → Link) : (s.onLink i f).sic = s.sic := rfl
@[simp] theorem State.onLink_str (s : State) (i : Fin 8) (f : Link → Link) : (s.onLink i f).str = s.str := rfl
@[simp] theorem State.onLink_ctl (s : State) (i : Fin 8) (f : Link → Link) : (s.onLink i f).ctl = s.ctl := rfl
@[simp] theorem State.onLink_stalls (s : State) (i : Fin 8) (f : Link → Link) : (s.onLink i f).stalls = s.stalls := rfl
@[simp] theorem State.onLink_sources (s : State) (i : Fin 8) (f : Link → Link) : (s.onLink i f).sources = s.sources := rfl
@[simp] theorem State.onLink_targets (s : State) (i : Fin 8) (f : Link → Link) : (s.onLink i f).targets = s.targets := rfl
@[simp] theorem State.onLink_tb (s : State) (i : Fin 8) (f : Link → Link) : (s.onLink i f).tb = s.tb := rfl
@[simp] theorem State.onLink_wp (s : State) (i : Fin 8) (f : Link → Link) : (s.onLink i f).wp = s.wp := rfl
@[simp] theorem State.onLink_ltg (s : State) (i : Fin 8) (f : Link → Link) : (s.onLink i f).ltg = s.ltg := rfl
@[simp] theorem State.onLink_gpio (s : State) (i : Fin 8) (f : Link → Link) : (s.onLink i f).gpio = s.gpio := rfl
@[simp] theorem State.onLink_ptp (s : State) (i : Fin 8) (f : Link → Link) : (s.onLink i f).ptp = s.ptp := rfl
@[simp] theorem State.onLink_spr (s : State) (i : Fin 8) (f : Link → Link) : (s.onLink i f).spr = s.spr := rfl
@[simp] theorem State.onLink_grp (s : State) (i : Fin 8) (f : Link → Link) : (s.onLink i f).grp = s.grp := rfl
@[simp] theorem State.onLink_twb (s : State) (i : Fin 8) (f : Link → Link) : (s.onLink i f).twb = s.twb := rfl
@[simp] theorem State.onLink_engs (s : State) (i : Fin 8) (f : Link → Link) : (s.onLink i f).engs = s.engs := rfl
@[simp] theorem State.onLink_engine (s : State) (i : Fin 8) (f : Link → Link) : (s.onLink i f).engine = s.engine := rfl
@[simp] theorem State.onLink_seam (s : State) (i : Fin 8) (f : Link → Link) : (s.onLink i f).seam = s.seam := rfl
@[simp] theorem State.onLink_tnr (s : State) (i : Fin 8) (f : Link → Link) : (s.onLink i f).tnr = s.tnr := rfl
@[simp] theorem State.onLink_tally (s : State) (i : Fin 8) (f : Link → Link) : (s.onLink i f).tally = s.tally := rfl
@[simp] theorem State.onLink_load (s : State) (i : Fin 8) (f : Link → Link) : (s.onLink i f).load = s.load := rfl
@[simp] theorem State.onLink_tables (s : State) (i : Fin 8) (f : Link → Link) : (s.onLink i f).tables = s.tables := rfl
@[simp] theorem State.onLink_out (s : State) (i : Fin 8) (f : Link → Link) : (s.onLink i f).out = s.out := rfl
@[simp] theorem State.onLink_xpt (s : State) (i : Fin 8) (f : Link → Link) : (s.onLink i f).xpt = s.xpt := rfl
@[simp] theorem State.onLink_drains (s : State) (i : Fin 8) (f : Link → Link) : (s.onLink i f).drains = s.drains := rfl
@[simp] theorem State.onLink_portMode (s : State) (i : Fin 8) (f : Link → Link) : (s.onLink i f).portMode = s.portMode := rfl
@[simp] theorem State.onLink_lakeCtl (s : State) (i : Fin 8) (f : Link → Link) : (s.onLink i f).lakeCtl = s.lakeCtl := rfl
@[simp] theorem State.onLink_crc (s : State) (i : Fin 8) (f : Link → Link) : (s.onLink i f).crc = s.crc := rfl
@[simp] theorem State.onLink_netPonds (s : State) (i : Fin 8) (f : Link → Link) : (s.onLink i f).netPonds = s.netPonds := rfl
@[simp] theorem State.onLink_chains (s : State) (i : Fin 8) (f : Link → Link) : (s.onLink i f).chains = s.chains := rfl
@[simp] theorem State.onLink_readPtr (s : State) (i : Fin 8) (f : Link → Link) : (s.onLink i f).readPtr = s.readPtr := rfl
@[simp] theorem State.onLink_releases (s : State) (i : Fin 8) (f : Link → Link) : (s.onLink i f).releases = s.releases := rfl
@[simp] theorem State.onLink_resets (s : State) (i : Fin 8) (f : Link → Link) : (s.onLink i f).resets = s.resets := rfl
@[simp] theorem State.onLink_edges (s : State) (i : Fin 8) (f : Link → Link) : (s.onLink i f).edges = s.edges := rfl
@[simp] theorem State.onLink_lake (s : State) (i : Fin 8) (f : Link → Link) : (s.onLink i f).lake = s.lake := rfl
@[simp] theorem State.onLink_draws (s : State) (i : Fin 8) (f : Link → Link) : (s.onLink i f).draws = s.draws := rfl
@[simp] theorem State.onLink_sent (s : State) (i : Fin 8) (f : Link → Link) : (s.onLink i f).sent = s.sent := rfl
@[simp] theorem State.onLink_rd (s : State) (i : Fin 8) (f : Link → Link) (r : Nat) : (s.onLink i f).rd r = s.rd r := rfl
@[simp] theorem State.onLink_lakeGet (s : State) (i : Fin 8) (f : Link → Link) (r : Nat) : (s.onLink i f).lakeGet r = s.lakeGet r := rfl
@[simp] theorem State.onLink_tbl (s : State) (i : Fin 8) (f : Link → Link) (r : Nat) : (s.onLink i f).tbl r = s.tbl r := rfl

/-! `State.crcOn` changes `crc` alone. -/

@[simp] theorem State.crcOn_pending (s : State) (i : Fin 16) (f : CrcUnit → CrcUnit) : (s.crcOn i f).pending = s.pending := rfl
@[simp] theorem State.crcOn_now (s : State) (i : Fin 16) (f : CrcUnit → CrcUnit) : (s.crcOn i f).now = s.now := rfl
@[simp] theorem State.crcOn_tarn (s : State) (i : Fin 16) (f : CrcUnit → CrcUnit) : (s.crcOn i f).tarn = s.tarn := rfl
@[simp] theorem State.crcOn_regs (s : State) (i : Fin 16) (f : CrcUnit → CrcUnit) : (s.crcOn i f).regs = s.regs := rfl
@[simp] theorem State.crcOn_staged (s : State) (i : Fin 16) (f : CrcUnit → CrcUnit) : (s.crcOn i f).staged = s.staged := rfl
@[simp] theorem State.crcOn_commits (s : State) (i : Fin 16) (f : CrcUnit → CrcUnit) : (s.crcOn i f).commits = s.commits := rfl
@[simp] theorem State.crcOn_latch (s : State) (i : Fin 16) (f : CrcUnit → CrcUnit) : (s.crcOn i f).latch = s.latch := rfl
@[simp] theorem State.crcOn_power (s : State) (i : Fin 16) (f : CrcUnit → CrcUnit) : (s.crcOn i f).power = s.power := rfl
@[simp] theorem State.crcOn_keep (s : State) (i : Fin 16) (f : CrcUnit → CrcUnit) : (s.crcOn i f).keep = s.keep := rfl
@[simp] theorem State.crcOn_sic (s : State) (i : Fin 16) (f : CrcUnit → CrcUnit) : (s.crcOn i f).sic = s.sic := rfl
@[simp] theorem State.crcOn_str (s : State) (i : Fin 16) (f : CrcUnit → CrcUnit) : (s.crcOn i f).str = s.str := rfl
@[simp] theorem State.crcOn_ctl (s : State) (i : Fin 16) (f : CrcUnit → CrcUnit) : (s.crcOn i f).ctl = s.ctl := rfl
@[simp] theorem State.crcOn_stalls (s : State) (i : Fin 16) (f : CrcUnit → CrcUnit) : (s.crcOn i f).stalls = s.stalls := rfl
@[simp] theorem State.crcOn_sources (s : State) (i : Fin 16) (f : CrcUnit → CrcUnit) : (s.crcOn i f).sources = s.sources := rfl
@[simp] theorem State.crcOn_targets (s : State) (i : Fin 16) (f : CrcUnit → CrcUnit) : (s.crcOn i f).targets = s.targets := rfl
@[simp] theorem State.crcOn_tb (s : State) (i : Fin 16) (f : CrcUnit → CrcUnit) : (s.crcOn i f).tb = s.tb := rfl
@[simp] theorem State.crcOn_wp (s : State) (i : Fin 16) (f : CrcUnit → CrcUnit) : (s.crcOn i f).wp = s.wp := rfl
@[simp] theorem State.crcOn_ltg (s : State) (i : Fin 16) (f : CrcUnit → CrcUnit) : (s.crcOn i f).ltg = s.ltg := rfl
@[simp] theorem State.crcOn_gpio (s : State) (i : Fin 16) (f : CrcUnit → CrcUnit) : (s.crcOn i f).gpio = s.gpio := rfl
@[simp] theorem State.crcOn_ptp (s : State) (i : Fin 16) (f : CrcUnit → CrcUnit) : (s.crcOn i f).ptp = s.ptp := rfl
@[simp] theorem State.crcOn_spr (s : State) (i : Fin 16) (f : CrcUnit → CrcUnit) : (s.crcOn i f).spr = s.spr := rfl
@[simp] theorem State.crcOn_grp (s : State) (i : Fin 16) (f : CrcUnit → CrcUnit) : (s.crcOn i f).grp = s.grp := rfl
@[simp] theorem State.crcOn_twb (s : State) (i : Fin 16) (f : CrcUnit → CrcUnit) : (s.crcOn i f).twb = s.twb := rfl
@[simp] theorem State.crcOn_engs (s : State) (i : Fin 16) (f : CrcUnit → CrcUnit) : (s.crcOn i f).engs = s.engs := rfl
@[simp] theorem State.crcOn_engine (s : State) (i : Fin 16) (f : CrcUnit → CrcUnit) : (s.crcOn i f).engine = s.engine := rfl
@[simp] theorem State.crcOn_seam (s : State) (i : Fin 16) (f : CrcUnit → CrcUnit) : (s.crcOn i f).seam = s.seam := rfl
@[simp] theorem State.crcOn_tnr (s : State) (i : Fin 16) (f : CrcUnit → CrcUnit) : (s.crcOn i f).tnr = s.tnr := rfl
@[simp] theorem State.crcOn_tally (s : State) (i : Fin 16) (f : CrcUnit → CrcUnit) : (s.crcOn i f).tally = s.tally := rfl
@[simp] theorem State.crcOn_load (s : State) (i : Fin 16) (f : CrcUnit → CrcUnit) : (s.crcOn i f).load = s.load := rfl
@[simp] theorem State.crcOn_tables (s : State) (i : Fin 16) (f : CrcUnit → CrcUnit) : (s.crcOn i f).tables = s.tables := rfl
@[simp] theorem State.crcOn_out (s : State) (i : Fin 16) (f : CrcUnit → CrcUnit) : (s.crcOn i f).out = s.out := rfl
@[simp] theorem State.crcOn_xpt (s : State) (i : Fin 16) (f : CrcUnit → CrcUnit) : (s.crcOn i f).xpt = s.xpt := rfl
@[simp] theorem State.crcOn_drains (s : State) (i : Fin 16) (f : CrcUnit → CrcUnit) : (s.crcOn i f).drains = s.drains := rfl
@[simp] theorem State.crcOn_links (s : State) (i : Fin 16) (f : CrcUnit → CrcUnit) : (s.crcOn i f).links = s.links := rfl
@[simp] theorem State.crcOn_portMode (s : State) (i : Fin 16) (f : CrcUnit → CrcUnit) : (s.crcOn i f).portMode = s.portMode := rfl
@[simp] theorem State.crcOn_lakeCtl (s : State) (i : Fin 16) (f : CrcUnit → CrcUnit) : (s.crcOn i f).lakeCtl = s.lakeCtl := rfl
@[simp] theorem State.crcOn_netPonds (s : State) (i : Fin 16) (f : CrcUnit → CrcUnit) : (s.crcOn i f).netPonds = s.netPonds := rfl
@[simp] theorem State.crcOn_chains (s : State) (i : Fin 16) (f : CrcUnit → CrcUnit) : (s.crcOn i f).chains = s.chains := rfl
@[simp] theorem State.crcOn_readPtr (s : State) (i : Fin 16) (f : CrcUnit → CrcUnit) : (s.crcOn i f).readPtr = s.readPtr := rfl
@[simp] theorem State.crcOn_releases (s : State) (i : Fin 16) (f : CrcUnit → CrcUnit) : (s.crcOn i f).releases = s.releases := rfl
@[simp] theorem State.crcOn_resets (s : State) (i : Fin 16) (f : CrcUnit → CrcUnit) : (s.crcOn i f).resets = s.resets := rfl
@[simp] theorem State.crcOn_edges (s : State) (i : Fin 16) (f : CrcUnit → CrcUnit) : (s.crcOn i f).edges = s.edges := rfl
@[simp] theorem State.crcOn_lake (s : State) (i : Fin 16) (f : CrcUnit → CrcUnit) : (s.crcOn i f).lake = s.lake := rfl
@[simp] theorem State.crcOn_draws (s : State) (i : Fin 16) (f : CrcUnit → CrcUnit) : (s.crcOn i f).draws = s.draws := rfl
@[simp] theorem State.crcOn_sent (s : State) (i : Fin 16) (f : CrcUnit → CrcUnit) : (s.crcOn i f).sent = s.sent := rfl
@[simp] theorem State.crcOn_rd (s : State) (i : Fin 16) (f : CrcUnit → CrcUnit) (r : Nat) : (s.crcOn i f).rd r = s.rd r := rfl
@[simp] theorem State.crcOn_lakeGet (s : State) (i : Fin 16) (f : CrcUnit → CrcUnit) (r : Nat) : (s.crcOn i f).lakeGet r = s.lakeGet r := rfl
@[simp] theorem State.crcOn_tbl (s : State) (i : Fin 16) (f : CrcUnit → CrcUnit) (r : Nat) : (s.crcOn i f).tbl r = s.tbl r := rfl

end Sys2Proof.Machine
end

