-- ==== Sys2Proof/WellFormed.lean ====
section
/-! DEFINITION. Which commands are well formed: operands that the types leave wider than the spec's fields are within them, and lists
have the lengths that the spec gives them. -/

namespace Sys2Proof

/-- `x` fits in `n` bits. -/
def fits (n x : Nat) : Bool := decide (x < 2 ^ n)

/-- The fields of a PTP message: a 16-bit sequence number, an 8-byte clock identity with a 2-byte port, an 8-bit domain and one of the
three transports (R265). -/
def PtpMsg.wf (m : PtpMsg) : Bool := fits 16 m.seq && fits 80 m.sender && fits 8 m.domain && decide (m.transport < 3)

/-- The fields of an Announce message (R264). -/
def AnnounceDs.wf (d : AnnounceDs) : Bool :=
  fits 64 d.gm && fits 8 d.prio1 && fits 8 d.clockClass && fits 8 d.accuracy && fits 16 d.variance && fits 8 d.prio2
    && fits 16 d.steps && fits 80 d.sender

/-- A network address fits its encapsulation: 32 bits in IPv4, 128 in IPv6; a UDP port fits 16 bits (R216). -/
def NetSrc.wf (x : NetSrc) : Bool := fits 16 x.udp && fits 16 x.dport &&
  fits (if x.enc = 2 then 128 else 32) x.ip && fits (if x.enc = 2 then 128 else 32) x.dip

/-- The address of an ICP peer is IPv4 or IPv6 (R280). -/
def Peer.wf (p : Peer) : Bool := fits 16 p.udp && (p.addr.length == 4 || p.addr.length == 16)

/-- The addresses of an ICP message are of one family (R280). -/
def IcpHead.wf (h : IcpHead) : Bool := h.peer.wf && fits (if h.peer.addr.length = 16 then 128 else 32) h.dip

/-- Bytes of an operation entry with its padding (Table 13.5). -/
def IcpOp.size_ (o : IcpOp) : Nat := 8 + (o.payload.length + 3) / 4 * 4

/-- What the four ball pairs of a Spring carry between two starts of transmission: at most a header, a payload and its CRC, and the filler of
one byte a lane (R55, R59). -/
def pairsWf (pairs : List Bytes) : Bool := pairs.length == 4 && pairs.all (fun l => decide (l.length ≤ 65544))

/-- A command is well formed. -/
def Instr.wf : Instr → Bool
  | .longPacket _ pairs | .shortPacket _ pairs => pairsWf pairs
  | .ptpSync _ m | .ptpFollowUp _ m | .ptpDelayReq _ m | .ptpDelayResp _ m | .ptpPdelayReq _ m | .ptpPdelayResp _ m _ => m.wf
  | .ptpAnnounce _ m d => m.wf && d.wf
  | .ptpMessageSend _ kind => decide (kind < 3)
  | .openMessage _ src _ _ _ _ _ _ | .closeMessage _ src _ | .ackMessage _ src _ _ _ _ _ | .arpRequest _ src _ => src.wf
  | .echoRequest _ src _ _ payload => src.wf && fits 16 payload.length
  | .pfcFrame _ prios => decide ((prios.map (·.1)).Nodup)
  | .hello h _ _ _ _ | .bye h | .keepalive h | .sleep h _ | .icpMessageReject h _ _ _ _ => h.wf
  | .req h ops _ => h.wf && fits 16 (ops.foldl (fun n o => n + o.size_) 0)
  | .bulkReceive h _ _ data _ => h.wf && data.length % 4 == 0 && fits 16 (data.length + 8)
  | .icpWrite _ _ items _ _ | .icpPwrite _ _ _ items _ _ => decide (1 ≤ items.length) && decide (items.length ≤ 256)
  | .crcDataWrite _ o size _ => o.val % 2 ^ size.val == 0 && decide (o.val + 2 ^ size.val ≤ 4)
  | .pondPacketNotice _ len => decide (1 ≤ len)
  | .lakeRequest _ _ len write _ => match write with
    | some w => w.1.length == len
    | none => true
  | .twtRead _ n => decide (1 ≤ n)
  | _ => true

end Sys2Proof
end

