-- ==== Sys2Proof/Tests/Slice0.lean ====
section
/-! SUPPORT. Tests: the well-formedness checks refuse ill-formed commands; the spec's worked examples; single commands on small states. -/

namespace Sys2Proof.Tests
open Sys2Proof Sys2Proof.Machine

/-! Each check of `Instr.wf` refuses an ill-formed command, and takes one that differs from it in the refused operand only. -/

theorem test_wf_ball_pairs : (Instr.longPacket 0 [[], [], []]).wf = false ∧ (Instr.longPacket 0 [[], [], [], []]).wf = true := by decide
theorem test_wf_short_pairs : (Instr.shortPacket 0 []).wf = false ∧ (Instr.shortPacket 0 [[], [], [], [1]]).wf = true := by decide
theorem test_wf_ptp_seq : (Instr.ptpSync 0 { seq := 65536 }).wf = false ∧ (Instr.ptpSync 0 { seq := 65535 }).wf = true := by decide
theorem test_wf_ptp_transport : (Instr.ptpDelayReq 0 { transport := 3 }).wf = false ∧ (Instr.ptpDelayReq 0 { transport := 2 }).wf = true := by
  decide
theorem test_wf_ptp_sender : (Instr.ptpFollowUp 0 { sender := 2 ^ 80 }).wf = false := by decide
theorem test_wf_ptp_domain : (Instr.ptpDelayResp 0 { domain := 256 }).wf = false := by decide
theorem test_wf_announce : (Instr.ptpAnnounce 0 {} { clockClass := 256 }).wf = false ∧ (Instr.ptpAnnounce 0 {} {}).wf = true := by decide
theorem test_wf_ptp_kind : (Instr.ptpMessageSend 0 3).wf = false ∧ (Instr.ptpMessageSend 0 2).wf = true := by decide
theorem test_wf_network_source :
    (Instr.closeMessage 0 { enc := 1, ip := 2 ^ 32 } {}).wf = false ∧ (Instr.closeMessage 0 { enc := 2, ip := 2 ^ 32 } {}).wf = true ∧
      (Instr.closeMessage 0 { udp := 65536 } {}).wf = false := by decide
theorem test_wf_pfc : (Instr.pfcFrame 0 [(1, 5), (1, 0)]).wf = false ∧ (Instr.pfcFrame 0 [(1, 5), (2, 0)]).wf = true := by decide
theorem test_wf_peer : (Instr.bye { peer := { addr := [10, 0, 0] } }).wf = false ∧ (Instr.bye { peer := { addr := [10, 0, 0, 1] } }).wf = true := by
  decide
theorem test_wf_bulk :
    (Instr.bulkReceive { peer := { addr := [10, 0, 0, 1] } } 0 0 [1, 2, 3] []).wf = false ∧
      (Instr.bulkReceive { peer := { addr := [10, 0, 0, 1] } } 0 0 [1, 2, 3, 4] []).wf = true := by decide
theorem test_wf_write_count : (Instr.icpWrite 0 2 [] 0 none).wf = false ∧ (Instr.icpPwrite 0 0 2 [1] 0 .clean).wf = true := by decide
theorem test_wf_crc_size : (Instr.crcDataWrite 0 1 1 0).wf = false ∧ (Instr.crcDataWrite 0 2 1 0).wf = true ∧ (Instr.crcDataWrite 0 1 2 0).wf = false := by
  decide
theorem test_wf_notice : (Instr.pondPacketNotice 0 0).wf = false ∧ (Instr.pondPacketNotice 0 1).wf = true := by decide
theorem test_wf_lake_request :
    (Instr.lakeRequest (.aperture 0) 0 2 (some ([7], {})) []).wf = false ∧ (Instr.lakeRequest (.aperture 0) 0 1 (some ([7], {})) []).wf = true := by
  decide
theorem test_wf_twt_read : (Instr.twtRead 0 0).wf = false ∧ (Instr.twtRead 0 1).wf = true := by decide

/-- The rows of the command table give no bits: no word spells a command. -/
theorem test_no_word_decodes : decodeTableWord 32 0xFFFFFFFF = none := by decide

/-! The spec's worked examples. -/

/-- The ASCII bytes "123456789". -/
def nine : Bytes := (List.range 9).map (fun i => BitVec.ofNat 8 (0x31 + i))

/-- The check value of a configuration of Table 14.7. -/
def checked (w poly init : Nat) (rin rout : Bool) (x : Nat) : Nat := crcResult w rout x (crcFeedBytes w poly rin init nine)

/-- R198: the check value of CRC-32C. -/
theorem test_crc32c : crc32c nine = 0xE3069283 := by decide +kernel
/-- Table 14.7. -/
theorem test_crc_configurations :
    checked 32 0x1EDC6F41 0xFFFFFFFF true true 0xFFFFFFFF = 0xE3069283 ∧ checked 32 0x04C11DB7 0xFFFFFFFF true true 0xFFFFFFFF = 0xCBF43926 ∧
      checked 16 0x1021 0xFFFF true true 0 = 0x6F91 ∧ checked 8 0x07 0 false false 0 = 0xF4 ∧ checked 5 0x05 0x1F true true 0x1F = 0x19 ∧
      checked 64 0x42F0E1EBA9EA3693 0xFFFFFFFFFFFFFFFF true true 0xFFFFFFFFFFFFFFFF = 0x995DC9BBDF1939FA := by decide +kernel
/-- Table 14.7: the CSI-2 payload CRC (R60). -/
theorem test_packet_crc : crc16 nine = 0x6F91 := by decide +kernel
/-- Numbers and units, worked example: frame 3 is five frames later than frame 0xFFFFFFFE (R12). -/
theorem test_frame_wrap : wrapDiff 32 3 0xFFFFFFFE = 5 ∧ isLater 32 0xFFFFFFFE 3 = false := by decide
/-- The correction chain's worked example: flat field (R157). -/
theorem test_flat_field : ffSample (BitVec.ofNat 32 (0x4C00 * 65536 + 420)) 28472 = 33312 := by decide
/-- The correction chain's worked example: white balance (R160). -/
theorem test_white_balance : wbSample 0x1200 30200 = 33975 ∧ wbSample 0x1500 24150 = 31697 := by decide
/-- The correction chain's worked example: row 1 of the colour matrix (R161). -/
theorem test_colour_matrix :
    cmSample [0#32, 0#32, 0#32, 0#32, 0x1400FD00#32, 0x0000FF00#32, 0#32, 0#32, 0#32, 0x3FF00#32, 0#32] 1 [33975, 33312, 31697] = 33033 := by decide
/-- The correction chain's worked example: the tone curve between its entries 2,064 and 2,065 (R162). -/
theorem test_tone : toneSample (fun k => if k = 2064 then 40180 else 40193) 33033 = 40187 := by decide
/-- The correction chain's worked example: the blend of a sample past convergence, and of one beyond its bound (R149, R151). -/
theorem test_blend :
    let p : BlendPar := { i := 3118, conv := 16, kw := 4, bypUpd := 0, k := 64, n0 := 1600, n1 := 0x1000 }
    ((p.blend 28506 28470).y = 28472 ∧ (p.blend 28506 28470).acc = some 28472 ∧ (p.blend 28506 28470).dev = 0x24) ∧
      (p.blend 34900 28430).y = 34900 ∧ (p.blend 34900 28430).acc = some 28430 ∧ (p.blend 34900 28430).dev = 0x9946 := by decide

/-- Log entry 87: a header with its ECC reads back, and one wrong bit is corrected. -/
theorem test_header : checkHeader 0x00F01A (headerEcc 0x00F01A) = (0, 0x00F01A) ∧ checkHeader 0x00F01B (headerEcc 0x00F01A) = (1, 0x00F01A) := by
  decide +kernel
/-- A frame's check sequence, as the CRC-32 of Table 14.7: least significant byte first. -/
theorem test_fcs : fcsGood ((List.range 14).map (fun i => BitVec.ofNat 8 i) ++ leBytes 4 (crc32 ((List.range 14).map (fun i => BitVec.ofNat 8 i)))) = true := by
  decide +kernel

/-! Single commands. -/

/-- The state of a command's next state, tested. -/
def after (c : Instr) (s : State) (p : State → Bool) : Bool := match exec c s with
  | .next t => p t
  | _ => false

/-- The reset state with the device in Ready. -/
def ready : State := { State.reset with power := { State.reset.power with st := .on, resetLow := false, held := false, boot := none } }

/-- R320 and Table 14.8: INIT of a unit in its reset configuration loads 0xFFFFFFFF. -/
theorem test_crc_init : after (.crcInit 3) ready (fun t => t.rd (A.crcValLo 3) == 0xFFFFFFFF#32 && t.rd (A.crcBytes 3) == 0#32) = true := by
  decide +kernel
/-- R321: a 32-bit write feeds [7:0] first. -/
theorem test_crc_feed_order :
    after (.crcDataWrite 3 0 2 0x34333231#32) ready
      (fun t => t.crcC 3 == crcFeedBytes 32 0x1EDC6F41 true (ready.crcC 3) [0x31, 0x32, 0x33, 0x34] && t.rd (A.crcBytes 3) == 4#32) = true := by
  decide +kernel
/-- R323: with ALIVE_EN at 1, INIT feeds the two alive bytes, low byte first, BYTES does not count them, and ALIVE counts on. -/
theorem test_crc_alive :
    after (.crcInit 0) ((ready.setB (A.crcCtl 0) 12 true).wr (A.crcAlive 0) 0x1234#32)
      (fun t => t.crcC 0 == crcFeedBytes 32 0x1EDC6F41 true 0xFFFFFFFF [0x34, 0x12] && t.rd (A.crcAlive 0) == 0x1235#32 && t.rd (A.crcBytes 0) == 0#32)
      = true := by
  decide +kernel
/-- An empty queue: the clock of the model advances. -/
theorem test_idle_step : (match step State.reset with | .next t => t.now == State.reset.now + 1 && t.pending.isEmpty | _ => false) = true := by
  decide +kernel
/-- The command in front is taken from the queue. -/
theorem test_front_leaves :
    (match step { ready with pending := [.crcInit 3, .resetLLow 1000] } with | .next t => t.pending == [.resetLLow 1000] | _ => false) = true := by
  decide +kernel

end Sys2Proof.Tests
end

