-- ==== Sys2Proof/Tests/Witnesses.lean ====
section
/-! SUPPORT. For each statement, states and operands that meet the hypotheses of each of its clauses. -/

set_option linter.unusedVariables false
set_option maxRecDepth 100000
set_option Elab.async false

namespace Sys2Proof.Machine
open Sys2Proof Sys2Proof.Safety

/-! Helpers: states to start from, and small changes of them. -/

/-- The device is in Ready. -/
def State.up (s : State) : State := { s with power := { s.power with st := .on, resetLow := false, held := false, boot := none } }
/-- No command of the structure image controller is under way. -/
def State.free (s : State) : State := { s.up with sic := { s.up.sic with busy := .none, phase := .idle } }
/-- A window that is draining. -/
def drain0 : Drain := { stream := 0, key := 0, xpt := State.reset.xpt[0], rec_ := {}, from_ := 0 }
/-- The structure image controller changes. -/
def State.sic1 (s : State) (f : Sic → Sic) : State := { s with sic := f s.sic }
/-- The power state changes. -/
def State.pow1 (s : State) (f : Power → Power) : State := { s with power := f s.power }
/-- The address of a register of a row with a property. -/
def pickReg (rnd : Nat) (p : RegRow → Bool) : Nat :=
  let l := allRows.filter p
  let r := l.getD (rnd % l.length) { name := "", base := 0 }
  r.base + (r.dims.foldl (fun (acc : Nat × Nat) d => (acc.1 + (acc.2 % d.1) * d.2, acc.2 / d.1)) (0, rnd / 1000)).1

/-- A small press: two bars, one of them in line, a free-running group, three streams and two stalls. -/
def pressGroups : List GroupRec :=
  [{ springs := [0, 1], channels := 3, columns := 64, width := 120, mark := .encoder 0 0x10000000 0, depth := 4 },
   { springs := [2], channels := 1, columns := 64, width := 64, mark := .sensor 3 false, depth := 4 }, ({} : GroupRec), ({} : GroupRec),
   { springs := [8], free := true, refSpring := 8, channels := 1, columns := 64, width := 64, mark := .count 100 }] ++ List.replicate 7 ({} : GroupRec)

/-- The press's structure. -/
def pressStr : Structure := {
  bare := false, serial := 3, groups := pressGroups, calendar := [some 0, some 1, none, some 4],
  sram := (List.range 86).map (fun p => (p, 65536)),
  lake := [{ kind := 1, owner := 0, base := 0x1000000, size := 0x1000000 }, { kind := 3, owner := 0, base := 0x4000000, size := 0x1000000 }],
  streams := [{ exists_ := true, group := 0, tap := 5, mode := .reliable, standby := some 4, window := 0x100000, pond := 65536, format := 1 },
    { exists_ := true, group := 1, tap := 0, mode := .lossy, primary := 1, window := 0x100000, pond := 65536, format := 1 },
    { exists_ := true, group := 0, stats := true, mode := .reliable, primary := 2, window := 0x100000, pond := 65536, format := 1 }] ++
    List.replicate 13 ({} : StreamRec),
  stalls := [{ allPages := true, share := 1, springs := [0, 1, 2], twb := [0, 1], crc := [0], chans := 3 },
    { allPages := true, springs := [8], twb := [2], crc := [1], chans := 3 }] ++ List.replicate 6 ({} : StallRec) }

/-- The press in Ready, ten seconds after its start. -/
def press : State :=
  let s : State := { now := 10 ^ 10, tarn := 10 ^ 10 + 7, str := pressStr }
  s.setB (A.ethCtl 0) 0 true

/-- The press in Run: its groups are active and its links are up. -/
def running : State :=
  { press with
    grp := press.grp.map (fun x => { x with active := true, begun := true })
    links := press.links.map (fun x => { x with up := true })
    twb := press.twb.map (fun x => { x with st := 1 })
    spr := press.spr.map (fun x => { x with st := 3 }) }

/-- The bytes of each ball pair for a long packet on one lane: a header, a payload of `k` bytes, and a checksum that `bad` is added to. -/
def onePair (s : State) (n : Fin 32) (vc dt k bad : Nat) : List Bytes :=
  let payload : Bytes := List.replicate k 77#8
  let d := dt + 64 * vc + 256 * k
  let bs : Bytes := leBytes 3 d ++ leBytes 1 (headerEcc d) ++ payload ++ leBytes 2 (crc16 payload + bad)
  let map := (s.spr[n]).laneMap
  let bs := if s.b (A.sprCtl n) 5 then scramble (laneSeed 0) bs else bs
  (List.range 4).map (fun p => if laneOf map 0 = p then (if bit map (8 + p) then bs.map (fun b => ~~~b) else bs) else [])

/-- What a message on a link that is up may reach (R216, R217). -/
def linkState (s : State) (l : Fin 8) : State :=
  let s1 : State := ((s.setB (A.ethCtl 0) 0 true).setB (A.ethCtl 1) 0 true).onLink l (fun x => { x with
    aligned := true, lfault := false, rfault := false, up := true })
  let put := fun (m : List (Nat × Word)) (a : Nat) (v : Word) => cellInsert (m.filter (fun x => x.1 != a)) a v
  { s1 with regs := put (put s1.regs (A.ethlMacLo (l.val / 4) (l.val % 4)) 9#32) (A.ethlMacHi (l.val / 4) (l.val % 4)) 0#32 }

/-- A stall's aperture lies in a readout buffer of its own. -/
def openAperture (s : State) (t : Fin 8) : State :=
  { s with str := { s.str with bare := false, lake := [{ kind := 5, owner := t.val, base := 0, size := 2 ^ 20 }] } }.wr (A.lakeApBaseLo t) 0x8000#32 |>.wr (A.lakeApBaseHi t) 0#32

/-- A port that accepts the message. -/
def ptpReady (s : State) (p : Fin 4) : State :=
  let s1 := (s.setB (A.ptpCtl p) 0 true)
  (s1.setB (A.piCtl (s1.ptpInst p)) 0 true).onPtp p (fun x => { x with linkUp := true })

/-- The message with the domain and transport that the port takes. -/
def ptpFor (s : State) (p : Fin 4) (m : PtpMsg) : PtpMsg :=
  { m with domain := s.f (A.piCtl (s.ptpInst p)) 15 8, transport := s.ptpTransport p }

/-- A state whose management port is enabled. -/
def icpReady (s : State) (h : IcpHead) : State := (s.setB (A.ethCtl (2 + h.port)) 0 true).setF (A.ethMaxframe (2 + h.port)) 13 0 1518

/-- The head of a message that comes to the device. -/
def icpToMe (s : State) (h : IcpHead) : IcpHead :=
  { h with dport := BitVec.ofNat 16 (s.f A.ctlPort 15 0), dip := if h.peer.addr.length = 16 then s.linkIp6 (8 + h.port) else s.linkIp4 (8 + h.port) }

/-- A session of a stall, for a witness. -/
def someSession (n t : Nat) : Session :=
  { number := n, stall := t, place := 0, version := 0x23, key := [1#8], chans := 3, mgmtPort := 0, peer := { addr := [1, 2, 3, 4], udp := 5 },
    provisioning := false, lastSeq := none, cache := [], devSeq := 1, lastMsg := 0 }

/-- A long operation, for a witness. -/
def someOp (o t : Nat) (w : Bool) : LongOp :=
  { opid := o, stall := t, session := 7, write := w, lake := 64, len := 20000, tag := 9, sent := 0, missing := if w then [(0, 20000)] else [],
    lastBulk := 0, via := someSession 7 t }

/-- A broadcast ARP request for an address, with its FCS. -/
def arpFrame (ip : Nat) : Bytes :=
  let d := beBytes 6 0xFFFFFFFFFFFF ++ beBytes 6 7 ++ beBytes 2 0x0806 ++ beBytes 8 0x0001080006040001 ++ beBytes 16 99 ++ beBytes 4 ip ++
    List.replicate 18 0#8
  d ++ leBytes 4 (crc32 d)

/-- Everything that the image lets source `n` go to is asleep, and the source waits. -/
def wakeSetup (s : State) (t : Fin 20) (act : Nat) : State :=
  let s1 : State := { s with
    sources := s.sources.map (fun x => { x with phase := .pending }), targets := s.targets.map (fun x => { x with asleep := true }) }
  ((s1.wr A.evcHold 0#32).setF (A.evctWake t) 4 0 0).setF (A.evctWake t) 9 8 act

/-- Readings within the limits that the registers give. -/
def goodReadings (s : State) : Vector (BitVec 16) 24 :=
  Vector.ofFn (fun j => BitVec.ofNat 16 (max (s.f (A.telVLim j.val) 15 0) (supplyFailMv j.val)))

/-- Copies of every record, for a witness. -/
def someRecs (good0 good1 : Bool) : List RecPair :=
  (List.range 7).map (fun i =>
    let a := newCopy (i + 1) 3 7 0 (List.replicate 40 1#8) (factoryContent (i + 1))
    let b := newCopy (i + 1) 4 7 0 (List.replicate 40 2#8) (factoryContent (i + 1))
    { b0 := if good0 then a else a.flip 3 1#8, b1 := if good1 then b else b.flip 90 1#8 })

/-- Streams that are reliable with records at several stages, on a link that is up. -/
def marketFix (s : State) (l : Fin 8) (n rnd : Nat) : State :=
  let s : State := { s with drains := [], now := s.now + 10 ^ 9, releases := [], str := { s.str with streams := (s.str.streams.map (fun (r : StreamRec) => { r with exists_ := false })).mapIdx (fun i r => if i == n || (i < 4 && rnd / 97 % 3 != 0) then { r with exists_ := true, mode := .reliable, primary := l.val, standby := none, window := 5, region := some 0, stall := (i + rnd) % 3 } else r), stalls := s.str.stalls.mapIdx (fun i r => { r with share := (rnd / (3 + i)) % 3 * 20 }), lake := [{ kind := 3, owner := n, base := 0, size := 1000000 }] } }
  let s : State := ((((s.setB (A.ethCtl 0) 0 true).setB (A.ethCtl 1) 0 true).wr A.mktSeg (wd 0x200)).onLink l (fun x => { x with aligned := true, lfault := false, rfault := false, up := true, pauses := [], lastStall := rnd % 4, deficits := [(0, rnd % 9000), (1, rnd / 7 % 5000)] }))
  let s : State := { s with portMode := s.portMode.map (fun _ => 2), netPonds := s.netPonds.map (fun _ => []) }
  { s with xpt := s.xpt.mapIdx (fun i x => { x with standby := false, silent := false, session := some 3, held := if (rnd + i) % 5 = 0 then [{ seq := 7, record := { bytes := List.replicate (rnd % 2000) 9#8 } }] else [], tx := if (rnd / 5 + i) % 3 = 0 then some { gap := false, seq := 7, bytes := List.replicate (600 + rnd % 900) 5#8, resend := rnd % 2 == 0, offset := 512, link := l.val, via := [] } else none, gap := none, gapDue := false, resendQ := if (rnd + i) % 5 = 0 then [3, 7] else [], newQ := if (rnd / 11 + i) % 4 = 0 then [(9, { bytes := List.replicate (rnd % 700) 3#8 })] else [], failbackDue := false, deficits := [(l.val, rnd / 3 % 1500)], winFull := false, limit := x.sent + 10000000 }), out := s.out.mapIdx (fun i x => { x with pond := if (rnd / 13 + i) % 3 = 0 then [] else [{ bytes := List.replicate (64 + (rnd + 97 * i) % 900) 1 }] }) }

end Sys2Proof.Machine

namespace Sys2Proof.Tests
open Sys2Proof Sys2Proof.Machine Sys2Proof.Safety Sys2Proof.Says

/-- With sources 512 and 513 set pending, no other is. -/
theorem two_pending (x : Fin 768)
    (h : ((((State.reset.sources.set 512 { phase := .pending }).set 513 { phase := .pending } : Vector Source 768)[x]).phase) = .pending) :
    x = 512 ∨ x = 513 := by
  simp only [Fin.getElem_fin, Vector.getElem_set] at h
  split at h
  · exact .inr (Fin.ext (Eq.symm ‹513 = x.val›))
  · split at h
    · exact .inl (Fin.ext (Eq.symm ‹512 = x.val›))
    · simp [State.reset, Vector.getElem_replicate] at h

/-- Clauses of `Obligations.RegisterAccessesActByTheirCodes` have states and operands that meet their hypotheses. -/
theorem witness_RegisterAccessesActByTheirCodes :
    (let s : State := State.reset
    let rnd : Nat := 4
    let t : Fin 8 := 0
    let g : Nat := 2
    let a : BitVec 24 := BitVec.ofNat 24 (pickReg rnd (fun r => r.rws == 0))
    let t : Fin 8 := if rnd % 3 == 0 then t else 0
    let s : State := s.up
    let g : Nat := ((s.globalAddr t a.toNat).getD 0)
    let r : RegRow := ((rowOf g).getD ({ name := "", base := 0 }))
    decide (s.on = true ∧
      s.globalAddr t a.toNat = some g ∧
      s.check false t g 4 false true = 0 ∧
      rowOf g = some r ∧
      r.rws = 0 ∧
      isCommit g = false ∧
      ownEffect g = false ∧
      isAperture g = false ∧
      s.instDefined g = true ∧
      s.seamBeyond g = false) = true) ∧
    (let s : State := State.reset
    let rnd : Nat := 2
    let a : BitVec 24 := BitVec.ofNat 24 (A.twbLram (Fin.ofNat 32 (rnd / 7)) (rnd % 256))
    let t : Fin 8 := 0
    let s : State := s.up
    let g : Nat := ((s.globalAddr t a.toNat).getD 0)
    decide (s.on = true ∧
      s.globalAddr t a.toNat = some g ∧
      s.check false t g 4 false true = 0 ∧
      0x180000 ≤ g ∧
      g < 0x190000 ∧
      0x400 ≤ g % 0x800) = true) ∧
    (let s : State := State.reset
    let rnd : Nat := 7
    let t : Fin 8 := 1
    let g : Nat := 1
    let a : BitVec 24 := BitVec.ofNat 24 (pickReg rnd (fun r => r.rws != 0))
    let t : Fin 8 := if rnd % 3 == 0 then t else 0
    let s : State := s.up
    let g : Nat := ((s.globalAddr t a.toNat).getD 0)
    let r : RegRow := ((rowOf g).getD ({ name := "", base := 0 }))
    decide (s.on = true ∧
      s.globalAddr t a.toNat = some g ∧
      s.check false t g 4 false true = 0 ∧
      rowOf g = some r ∧
      r.rws ≠ 0 ∧
      isCommit g = false ∧
      isAperture g = false ∧
      s.instDefined g = true ∧
      s.seamBeyond g = false) = true) ∧
    (let s : State := State.reset
    let rnd : Nat := 3
    let t : Fin 8 := 2
    let size : Fin 4 := 3
    let a : BitVec 24 := BitVec.ofNat 24 (pickReg rnd (fun _ => true))
    let t : Fin 8 := if rnd % 3 == 0 then t else 0
    let s : State := s.up
    let g : Nat := ((s.globalAddr t a.toNat).getD 0)
    decide (s.on = true ∧
      s.globalAddr t a.toNat = some g ∧
      s.check false t g (sizeBytes size) false true ≠ 0) = true) ∧
    (let s : State := State.reset
    let rnd : Nat := 1
    let t : Fin 8 := 6
    let size : Fin 4 := 1
    let a : BitVec 24 := if rnd % 2 == 0 then BitVec.ofNat 24 (rnd % 0x700000 / 4 * 4) else BitVec.ofNat 24 (pickReg rnd (fun _ => true) + 0x40)
    let t : Fin 8 := if rnd % 3 == 0 then t else 0
    let size : Fin 4 := if rnd % 4 == 0 then size else 2
    let s : State := s.up
    let g : Nat := ((s.globalAddr t a.toNat).getD 0)
    decide (s.on = true ∧
      s.globalAddr t a.toNat = some g ∧
      s.check false t g (sizeBytes size) false true = 0 ∧
      isAperture g = false ∧
      size ≠ 3 ∧
      ((rowOf (g / 4 * 4) = none ∨ s.instDefined g = false ∧ size = 2))) = true) ∧
    (let s : State := State.reset
    let rnd : Nat := 9
    let t : Fin 8 := 7
    let a : BitVec 24 := BitVec.ofNat 24 (0x800000 + rnd % 0x800000)
    let s : State := s.up
    decide (s.on = true ∧
      s.globalAddr t a.toNat = none) = true) ∧
    (let s : State := State.reset
    let rnd : Nat := 7
    let t : Fin 8 := 6
    let a : BitVec 24 := BitVec.ofNat 24 (pickReg rnd (fun _ => true))
    let s : State := s.up
    let g : Nat := ((s.globalAddr t a.toNat).getD 0)
    decide (s.on = true ∧
      s.globalAddr t a.toNat = some g ∧
      s.check false t g 4 true false ≠ 0) = true) ∧
    (let s : State := State.reset
    let rnd : Nat := 6
    let t : Fin 8 := 3
    let wide : Bool := true
    let a : BitVec 24 := BitVec.ofNat 24 (pickReg rnd (fun _ => true))
    let s : State := s.up
    let g : Nat := ((s.globalAddr t a.toNat).getD 0)
    decide (s.on = true ∧
      s.globalAddr t a.toNat = some g ∧
      s.check false t g (if wide then 8 else 4) true false ≠ 0) = true) :=
  ⟨by decide +kernel, by decide +kernel, by decide +kernel, by decide +kernel, by decide +kernel, by decide +kernel, by decide +kernel, by decide +kernel⟩

/-- Clauses of `Obligations.RegisterAccessesActByTheirCodes` have states and operands that meet their hypotheses. -/
theorem witness_RegisterAccessesActByTheirCodes_2 :
    (let s : State := State.reset
    let rnd : Nat := 1
    let t : Fin 8 := 7
    let g : Nat := 0
    let a : BitVec 24 := BitVec.ofNat 24 (pickReg rnd (fun r => r.rc != 0))
    let t : Fin 8 := if rnd % 3 == 0 then t else 0
    let s : State := s.up
    let g : Nat := ((s.globalAddr t a.toNat).getD 0)
    let r : RegRow := ((rowOf g).getD ({ name := "", base := 0 }))
    decide (s.on = true ∧
      s.globalAddr t a.toNat = some g ∧
      s.check false t g 4 true false = 0 ∧
      rowOf g = some r ∧
      r.rc ≠ 0 ∧
      isLog g = false ∧
      isAperture g = false ∧
      s.instDefined g = true ∧
      readPort g = false) = true) ∧
    (let s : State := State.reset
    let rnd : Nat := 4
    let t : Fin 8 := 5
    let a : BitVec 24 := BitVec.ofNat 24 (if rnd % 4 == 0 then A.lakeLog else if rnd % 4 == 1 then A.evcFaultLog else if rnd % 4 == 2 then (0x30112C) else A.seamBarLog 2)
    let t : Fin 8 := if rnd % 3 == 0 then t else 0
    let s : State := s.up
    let g : Nat := ((s.globalAddr t a.toNat).getD 0)
    decide (s.on = true ∧
      s.globalAddr t a.toNat = some g ∧
      s.check false t g 4 true false = 0 ∧
      isLog g = true ∧
      isAperture g = false ∧
      s.instDefined g = true) = true) ∧
    (let s : State := State.reset
    let rnd : Nat := 3
    let t : Fin 8 := 0
    let wide : Bool := true
    let g : Nat := 0
    let a : BitVec 24 := BitVec.ofNat 24 (pickReg rnd (fun r => r.rc == 0 && (rnd % 2 == 0 || companions r.base != [])))
    let t : Fin 8 := if rnd % 3 == 0 then t else 0
    let s : State := s.up
    let g : Nat := ((s.globalAddr t a.toNat).getD 0)
    let r : RegRow := ((rowOf g).getD ({ name := "", base := 0 }))
    decide (s.on = true ∧
      s.globalAddr t a.toNat = some g ∧
      s.check false t g (if wide then 8 else 4) true false = 0 ∧
      rowOf g = some r ∧
      r.rc = 0 ∧
      isLog g = false ∧
      isAperture g = false ∧
      s.instDefined g = true ∧
      readPort g = false) = true) :=
  ⟨by decide +kernel, by decide +kernel, by decide +kernel⟩

/-- Clauses of `Obligations.CommitsPutStagedValuesInForce` have states and operands that meet their hypotheses. -/
theorem witness_CommitsPutStagedValuesInForce :
    (let s : State := State.reset
    let b : CommitBlock := CommitBlock.ltg 3
    let t : Fin 8 := 0
    decide (s.on = true ∧
      s.check false t (commitAddr b) 4 false true = 0 ∧
      s.instDefined (commitAddr b) = true) = true) ∧
    (let s : State := State.reset
    let t : Fin 8 := 5
    let b : CommitBlock := CommitBlock.cor 1
    let s : State := s.up
    decide (s.on = true ∧
      ((s.check false t (commitAddr b) 4 false true ≠ 0 ∨ s.instDefined (commitAddr b) = false))) = true) ∧
    (let s : State := State.reset
    let rnd : Nat := 4
    let b : CommitBlock := CommitBlock.cor 6
    let line : Bool := true
    let tag : Nat := 77
    let line : Bool := true
    let s : State := (let a := commitAddr b; let a1 := (match b with | .spr n => A.sprLineLen n | .bar b => A.seamBarCtl b | .cor g => A.corCtl g | .frm g => A.frmMaxlen g | .tal g => A.talCtl g | .out n => A.outCropX n | .ltg b => A.ltgCtl b); { s.up with commits := (a, 77, true) :: s.commits, staged := (a1, 5#32) :: s.staged.filter (fun x => x.1 != a1), grp := if rnd % 3 == 0 then s.grp else s.grp.map (fun x => { x with active := false }) })
    decide (s.on = true ∧
      blockActive s b = false ∧
      s.waiting (commitAddr b) = some (tag, line) ∧
      (s.staged.map (·.1)).Nodup ∧
      blockAccepts s b = true) = true) ∧
    (let s : State := State.reset
    let g : Fin 12 := 8
    let tally : Bool := true
    let s : State := (let a := commitAddr (if tally then .tal g else .frm g); { s with commits := (a, 77, true) :: s.commits, staged := ((if tally then A.talCtl g else A.frmMaxlen g), 5#32) :: s.staged.filter (fun x => x.1 != (if tally then A.talCtl g else A.frmMaxlen g)), grp := vupd s.grp g (fun x => { x with active := false }) })
    let b := (if tally then CommitBlock.tal g else .frm g)
    decide (let b : CommitBlock := if tally then .tal g else .frm g
      s.on = true ∧
      s.activeGroup g = false ∧
      (s.waiting (commitAddr b)).isSome ∧
      (s.staged.map (·.1)).Nodup) = true) ∧
    (let s : State := State.reset
    let b : CommitBlock := CommitBlock.out 7
    let s : State := (let a := commitAddr b; let a1 := (match b with | .bar b => A.seamBarCtl b | .cor g => A.corCtl g | .out n => A.outCropX n | _ => 0); { s.up with commits := (a, 77, true) :: s.commits, staged := (a1, 0x1F05#32) :: s.staged.filter (fun x => x.1 != a1), grp := s.grp.map (fun x => { x with active := false }), load := s.load.map (fun x => { x with active := true }) })
    decide (s.on = true ∧
      blockActive s b = false ∧
      (s.waiting (commitAddr b)).isSome ∧
      blockAccepts s b = false) = true) ∧
    (let s : State := State.reset
    let b : CommitBlock := CommitBlock.tal 4
    let s : State := { s.up with grp := s.grp.map (fun x => { x with active := true }) }
    decide (s.on = true ∧
      ((blockActive s b = true ∨ s.waiting (commitAddr b) = none))) = true) :=
  ⟨by decide +kernel, by decide +kernel, by decide +kernel, by decide +kernel, by decide +kernel, by decide +kernel⟩

/-- Clauses of `Obligations.ResetsAndSupplyLossStopTheDevice` have states and operands that meet their hypotheses. -/
theorem witness_ResetsAndSupplyLossStopTheDevice :
    (let s : State := State.reset
    let rnd : Nat := 9
    let s : State := if rnd % 2 == 0 then s.pow1 (fun p => { p with st := .off, low := [] }) else s.pow1 (fun p => { p with st := .on, held := true, low := [], lastOff := rnd % 4 })
    let kept : Bool := s.power.st == .on && (s.power.lastOff == 1 || s.power.lastOff == 2)
    decide (((s.power.st = .off ∨ s.power.st = .on ∧ s.power.held = true)) ∧
      s.power.low = [] ∧
      s.tapHolds = false ∧
      ((kept = true ↔ s.power.st = .on ∧ (s.power.lastOff = 1 ∨ s.power.lastOff = 2)))) = true) ∧
    (let s : State := State.reset
    let rnd : Nat := 4
    let s : State := (s.pow1 (fun p => { p with st := if rnd % 7 == 0 then .off else .on, held := rnd % 5 != 0, low := if rnd % 2 == 0 then [3] else [], jtag := { p.jtag with ir := [0, 3, 4].getD (rnd % 3) 0 } }))
    decide (((s.power.st = .off ∨ s.power.held = true)) ∧
      s.power.low ≠ []) = true) ∧
    (let s : State := State.reset
    let s : State := s.pow1 (fun p => { p with held := true, jtag := { p.jtag with ir := 3 } })
    decide (((s.power.st = .off ∨ s.power.held = true)) ∧
      s.power.low = [] ∧
      s.tapHolds = true) = true) ∧
    (let s : State := State.reset
    let rnd : Nat := 5
    let s : State := (s.pow1 (fun p => { p with st := if rnd % 7 == 0 then .off else .on, held := rnd % 5 != 0, low := if rnd % 2 == 0 then [3] else [], jtag := { p.jtag with ir := [0, 3, 4].getD (rnd % 3) 0 } }))
    decide (s.power.st ≠ .off ∧
      s.power.held = false) = true) ∧
    (let s : State := State.reset
    let rnd : Nat := 7
    let low : Nat := 6
    let s : State := if rnd % 2 == 0 then s.up else if rnd % 3 == 0 then s.pow1 (fun p => { p with st := .still }) else s
    let low : Nat := 1000 + low
    decide (s.power.st ≠ .off ∧
      1000 ≤ low) = true) ∧
    (let s : State := State.reset
    let rnd : Nat := 0
    let low : Nat := 8
    let s : State := if rnd % 2 == 0 then s.up else s.pow1 (fun p => { p with st := .off })
    let low : Nat := if rnd % 2 == 0 then low else 1000
    decide (low < 1000) = true) ∧
    (let s : State := State.reset
    let rnd : Nat := 1
    let low : Nat := 0
    let s : State := if rnd % 2 == 0 then s.up else s.pow1 (fun p => { p with st := .off })
    let low : Nat := if rnd % 2 == 0 then low else 1000
    decide (s.power.st = .off ∧
      1000 ≤ low) = true) ∧
    (let s : State := State.reset
    let rnd : Nat := 7
    let s : State := s.up
    let v : Word := wd (0xA5A50001 + 2 * (rnd % 100))
    decide (s.on = true ∧
      fld v 31 16 = 0xA5A5 ∧
      bit v 0 = true) = true) :=
  ⟨by decide +kernel, by decide +kernel, by decide +kernel, by decide +kernel, by decide +kernel, by decide +kernel, by decide +kernel, by decide +kernel⟩

/-- Clauses of `Obligations.ResetsAndSupplyLossStopTheDevice` have states and operands that meet their hypotheses. -/
theorem witness_ResetsAndSupplyLossStopTheDevice_2 :
    (let s : State := State.reset
    let v : Word := 0xeced5fd3#32
    decide (s.on = true ∧
      ((fld v 31 16 ≠ 0xA5A5 ∨ bit v 0 = false))) = true) ∧
    (let s : State := State.reset
    let rnd : Nat := 5
    let j : Fin 24 := 1
    let mv : BitVec 16 := BitVec.ofNat 16 (rnd % 3000)
    decide (s.power.st ≠ .off ∧
      s.needs j = true ∧
      mv.toNat < supplyFailMv j) = true) ∧
    (let s : State := State.reset
    let s : State := s.up
    let j : Fin 24 := 0
    let mv : BitVec 16 := 60000#16
    decide (((s.power.st = .off ∨ s.needs j = false ∨ supplyFailMv j ≤ mv.toNat))) = true) ∧
    (let s : State := State.reset
    decide (s.on = true) = true) ∧
    (let s : State := press
    let rnd : Nat := 3
    let s : State := (if rnd % 2 == 0 then s.up else s.pow1 (fun p => { p with st := .doze })).pow1 (fun p => { p with hot := [(3, s.tarn - 1000000)] })
    decide (((s.power.st = .doze ∨ s.power.st = .on ∧ s.power.held = false ∧ s.power.resetLow = false)) ∧
      (∃ x ∈ s.power.hot, x.2 + 1000000 ≤ s.tarn)) = true) ∧
    (let s : State := press
    let rnd : Nat := 3
    let s : State := s.pow1 (fun p => { p with st := .still, hot := if rnd % 2 == 0 then [] else [(3, s.tarn - 1000000)] })
    decide ((∃ x ∈ s.power.hot, x.2 + 1000000 ≤ s.tarn) ∧
      s.power.st = .still ∧
      s.power.trip = none) = true) ∧
    (let s : State := State.reset
    let rnd : Nat := 6
    let s : State := s.pow1 (fun p => { p with st := .still, hot := if rnd % 2 == 0 then [] else [(3, s.tarn - 1000000)] })
    decide ((s.power.hot).all (fun x => decide (s.tarn < x.2 + 1000000)) = true) = true) :=
  ⟨by decide +kernel, by decide +kernel, by decide +kernel, by decide +kernel, by decide +kernel, by decide +kernel, by decide +kernel⟩

/-- Clauses of `Obligations.SlotErasureAndLoadingFollowTheSlotStates` have states and operands that meet their hypotheses. -/
theorem witness_SlotErasureAndLoadingFollowTheSlotStates :
    (let s : State := State.reset
    let rnd : Nat := 1
    let s : State := s.up.sic1 (fun x => { x with busy := [SicBusy.erase false, .copy true, .check false, .installKey 1].getD (rnd % 4) .none })
    let c : Instr := [Instr.erase true, .beginLoad false, .copy false, .endLoad true, .check true, .commit true false true, .confirm, .installKey 1, .lockKey 2, .raiseFloor].getD (rnd % 10) .abort
    decide (sicCommand c = true ∧
      ((∀ b : Bool, c = .erase b → s.sic.busy ≠ .copy b ∧ s.sic.busy ≠ .check b)) ∧
      s.on = true ∧
      s.sicBusy = true) = true) ∧
    (let s : State := State.reset
    let rnd : Nat := 3
    let s : State := s.free.sic1 (fun x => { x with phase := .probation })
    let c : Instr := [Instr.erase true, .beginLoad false, .copy false, .endLoad true, .check true, .commit true false true, .confirm, .installKey 1, .lockKey 2, .raiseFloor].getD (rnd % 10) .abort
    decide (sicCommand c = true ∧
      c ≠ .confirm ∧
      s.on = true ∧
      s.sic.busy = .none ∧
      s.sic.phase = .probation) = true) ∧
    (let s : State := State.reset
    let rnd : Nat := 9
    let b : Bool := true
    let s : State := { s.free with str := { s.str with bare := false }, sic := { s.free.sic with activeB := b } }
    let c : Instr := [Instr.erase b, .beginLoad b, .copy b, .endLoad b, .check b, .commit b false true].getD (rnd % 6) .abort
    decide (slotCommand b c = true ∧
      ((s.on = true ∧ s.sic.busy = .none ∧ s.sic.phase = .idle)) ∧
      s.isActive b = true) = true) ∧
    (let s : State := State.reset
    let b : Bool := true
    let s : State := s.free
    decide (((s.on = true ∧ s.sic.busy = .none ∧ s.sic.phase = .idle)) ∧
      s.isActive b = false ∧
      (s.slot b).state ≠ .loading) = true) ∧
    (let s : State := State.reset
    let b : Bool := true
    let s : State := { s.free with str := { s.str with bare := true } }
    let s : State := s.setSlot b .loading
    decide (((s.on = true ∧ s.sic.busy = .none ∧ s.sic.phase = .idle)) ∧
      s.isActive b = false ∧
      (s.slot b).state = .loading) = true) ∧
    (let s : State := State.reset
    let rnd : Nat := 0
    let b : Bool := true
    let s : State := s.up.sic1 (fun x => { x with busy := if rnd % 2 == 0 then .copy b else .check b })
    decide (s.on = true ∧
      ((s.sic.busy = .copy b ∨ s.sic.busy = .check b))) = true) ∧
    (let s : State := State.reset
    let b : Bool := true
    let s : State := s.up.sic1 (fun x => { x with busy := .erase b })
    decide (s.on = true ∧
      s.sic.busy = .erase b) = true) ∧
    (let s : State := State.reset
    let rnd : Nat := 1
    let c : Instr := [Instr.eraseDone, .checkDone, .copyDone [], .installKeyDone].getD (rnd % 4) .eraseDone
    decide (((c = .eraseDone ∧ (∀ b : Bool, s.sic.busy ≠ .erase b) ∨ c = .checkDone ∧ (∀ b : Bool, s.sic.busy ≠ .check b) ∨ (c = .copyDone [] ∧ ∀ b : Bool, s.sic.busy ≠ .copy b) ∨ c = .installKeyDone ∧ (∀ k : Fin 4, s.sic.busy ≠ .installKey k)))) = true) :=
  ⟨by decide +kernel, by decide +kernel, by decide +kernel, by decide +kernel, by decide +kernel, by decide +kernel, by decide +kernel, by decide +kernel⟩

/-- Clauses of `Obligations.SlotErasureAndLoadingFollowTheSlotStates` have states and operands that meet their hypotheses. -/
theorem witness_SlotErasureAndLoadingFollowTheSlotStates_2 :
    (let s : State := State.reset
    let b : Bool := true
    decide (((s.on = true ∧ s.sic.busy = .none ∧ s.sic.phase = .idle)) ∧
      s.isActive b = false) = true) ∧
    (let s : State := State.reset
    let rnd : Nat := 5
    let s : State := s.free.sic1 (fun x => { x with loadOfs := rnd % 8388700 / 4 * 4 })
    let s : State := s.setSlot s.sic.loadB .loading
    decide (s.on = true ∧
      s.sic.busy ≠ .copy s.sic.loadB ∧
      (s.slot s.sic.loadB).state = .loading ∧
      s.sic.loadOfs ≤ 8388604 ∧
      cellWf lakeDef (s.slot s.sic.loadB).bytes = true) = true) ∧
    (let s : State := State.reset
    let s : State := s.up
    decide (s.on = true ∧
      (((s.slot s.sic.loadB).state ≠ .loading ∨ 8388604 < s.sic.loadOfs ∨ s.sic.busy = .copy s.sic.loadB))) = true) ∧
    (let s : State := State.reset
    let rnd : Nat := 5
    let b : Bool := true
    let s : State := s.free
    let s : State := if rnd % 2 == 0 then s.setSlot b .loading else s
    decide (((s.on = true ∧ s.sic.busy = .none ∧ s.sic.phase = .idle)) ∧
      s.isActive b = false) = true) :=
  ⟨by decide +kernel, by decide +kernel, by decide +kernel, by decide +kernel⟩

/-- Clauses of `Obligations.SlotCopiesAndChecksReportTheirResult` have states and operands that meet their hypotheses. -/
theorem witness_SlotCopiesAndChecksReportTheirResult :
    (let s : State := State.reset
    let rnd : Nat := 5
    let b : Bool := true
    let s : State := s.free.wr A.sicCopyLen (wd (rnd % 9000000))
    decide (((s.on = true ∧ s.sic.busy = .none ∧ s.sic.phase = .idle)) ∧
      s.isActive b = false ∧
      0 < (s.rd A.sicCopyLen).toNat ∧
      (s.rd A.sicCopyLen).toNat ≤ 8388608) = true) ∧
    (let s : State := State.reset
    let rnd : Nat := 6
    let s : State := s.free.wr A.sicCopyLen (wd (if rnd % 2 == 0 then 0 else 8388609 + rnd % 1000))
    decide (((s.on = true ∧ s.sic.busy = .none ∧ s.sic.phase = .idle)) ∧
      (((s.rd A.sicCopyLen).toNat = 0 ∨ 8388608 < (s.rd A.sicCopyLen).toNat))) = true) ∧
    (let s : State := State.reset
    let rnd : Nat := 0
    let b : Bool := true
    let ecc : List (Nat × Ecc) := []
    let s : State := { s.up with str := { s.str with lake := [{ kind := 5, owner := 0, base := 0, size := 2000000 }] }, sic := { s.up.sic with busy := .copy b, copySrc := rnd % 1000000, copyLen := 64 * (rnd % 7) } }
    let ecc : List (Nat × Ecc) := ecc.filter (fun e => e.2 != .bad)
    decide (s.on = true ∧
      s.sic.busy = .copy b ∧
      s.copyReach s.sic.copySrc s.sic.copyLen = true ∧
      (ecc).all (fun e => decide (e.2 ≠ .bad)) = true) = true) ∧
    (let s : State := State.reset
    let rnd : Nat := 7
    let b : Bool := true
    let ecc : List (Nat × Ecc) := []
    let s : State := { s.up with str := { s.str with lake := [{ kind := 5, owner := 0, base := 0, size := 2000000 }] }, sic := { s.up.sic with busy := .copy b, copySrc := rnd % 1000000, copyLen := 64 + 64 * (rnd % 7) } }
    let ecc : List (Nat × Ecc) := (0, .bad) :: ecc
    decide (s.on = true ∧
      s.sic.busy = .copy b ∧
      s.copyReach s.sic.copySrc s.sic.copyLen = true ∧
      (0, Ecc.bad) ∈ ecc ∧
      0 < s.sic.copyLen) = true) ∧
    (let s : State := State.reset
    let rnd : Nat := 8
    let b : Bool := true
    let s : State := { s.up with sic := { s.up.sic with busy := .copy b, copySrc := 2 ^ 40, copyLen := 64 * (rnd % 7) } }
    decide (s.on = true ∧
      s.sic.busy = .copy b ∧
      s.copyReach s.sic.copySrc s.sic.copyLen = false) = true) ∧
    (let s : State := State.reset
    let rnd : Nat := 4
    let b : Bool := true
    let s : State := s.free
    let s : State := if rnd % 2 == 0 then s.setSlot b .loaded else s
    decide (((s.on = true ∧ s.sic.busy = .none ∧ s.sic.phase = .idle)) ∧
      s.isActive b = false ∧
      (s.slot b).state ∈ [SlotState.loaded, .valid, .invalid]) = true) ∧
    (let s : State := State.reset
    let rnd : Nat := 9
    let b : Bool := true
    let s : State := s.free.setSlot b (if rnd % 2 == 0 then .loading else .empty)
    decide (((s.on = true ∧ s.sic.busy = .none ∧ s.sic.phase = .idle)) ∧
      (s.slot b).state ∉ [SlotState.loaded, .valid, .invalid]) = true) ∧
    (let s : State := State.reset
    let b : Bool := true
    let s : State := s.up.sic1 (fun x => { x with busy := .check b })
    decide (s.on = true ∧
      s.sic.busy = .check b) = true) :=
  ⟨by decide +kernel, by decide +kernel, by decide +kernel, by decide +kernel, by decide +kernel, by decide +kernel, by decide +kernel, by decide +kernel⟩

/-- Clauses of `Obligations.SlotCopiesAndChecksReportTheirResult` have states and operands that meet their hypotheses. -/
theorem witness_SlotCopiesAndChecksReportTheirResult_2 :
    (let s : State := State.reset
    let b : Bool := true
    let s : State := s.up.sic1 (fun x => { x with busy := .check b })
    decide (s.on = true ∧
      s.sic.busy = .check b) = true) :=
  by decide +kernel

/-- Clauses of `Obligations.StructureCommitSwitchesHitlessly` have states and operands that meet their hypotheses. -/
theorem witness_StructureCommitSwitchesHitlessly :
    (let s : State := State.reset
    let b : Bool := true
    let force : Bool := true
    let s : State := (s.free.setSlot b .valid)
    decide (((s.on = true ∧ s.sic.busy = .none ∧ s.sic.phase = .idle)) ∧
      s.isActive b = false ∧
      (s.slot b).state = .valid ∧
      ((force = true ∨ s.allCommon (((List.range 12).filter (groupAffected s.str (s.slotStructure b))).filter s.activeGroup) = true))) = true) ∧
    (let s : State := State.reset
    let b : Bool := true
    let s : State := { ((s.free.setSlot b .valid).onGrp 0 (fun x => { x with active := true })).onGrp 1 (fun x => { x with active := true }) with str := { s.str with groups := [{ springs := [0], mark := .count 5 }, { springs := [1], mark := .sensor 1 false }] } }
    decide (((s.on = true ∧ s.sic.busy = .none ∧ s.sic.phase = .idle)) ∧
      s.isActive b = false ∧
      (s.slot b).state = .valid ∧
      s.allCommon (((List.range 12).filter (groupAffected s.str (s.slotStructure b))).filter s.activeGroup) = false) = true) ∧
    (let s : State := State.reset
    let b : Bool := true
    let s : State := s.free
    decide (((s.on = true ∧ s.sic.busy = .none ∧ s.sic.phase = .idle)) ∧
      s.isActive b = false ∧
      (s.slot b).state ≠ .valid) = true) ∧
    (let s : State := State.reset
    let s : State := s.up.sic1 (fun x => { x with phase := .prepare })
    decide (s.on = true ∧
      s.sic.phase = .prepare) = true) ∧
    (let s : State := State.reset
    let rnd : Nat := 3
    let s : State := { s.up with engine := { s.engine with slot := 0 }, sic := { s.sic with phase := .armed, instant := true, next := if rnd % 3 == 0 then {} else { s.str with kept := (List.range 6).map (fun i => { addr := pickReg (rnd * (i + 7) / (i + 1)) (fun r => r.kept != 0), value := wd (rnd * (i + 1)), force := rnd % 2 == 0 }) }, affG := [0, 1, 4], affS := [0, 2], target := rnd % 2 == 0 } }
    decide (s.on = true ∧
      s.switchDue = true) = true) ∧
    (let s : State := State.reset
    let rnd : Nat := 7
    let s : State := { s.up with engine := { s.engine with slot := if rnd % 2 == 0 then 0 else 3 }, sic := { s.sic with phase := if rnd % 3 == 0 then .idle else .armed, instant := false } }
    decide (s.switchDue = false) = true) ∧
    (let s : State := State.reset
    let rnd : Nat := 4
    let r : Fin 28 := 5
    let s : State := s.up.sic1 (fun c => { c with phase := .settle, probation := rnd % 3 == 0, revert := rnd % 5 == 0, settling := if rnd % 2 == 0 then [if r.val < 12 then .group r else .stream (r - 12)] else [if r.val < 12 then .group r else .stream (r - 12), .group 3, .stream 4] })
    decide (let x : SwapRes := if r.val < 12 then .group r else .stream (r - 12)
      let rest := s.sic.settling.filter (· != x)
      s.on = true ∧
      s.sic.phase = .settle ∧
      x ∈ s.sic.settling ∧
      s.resFree x = true) = true) ∧
    (let s : State := State.reset
    let rnd : Nat := 9
    let r : Fin 28 := 2
    let s : State := s.up.sic1 (fun c => { c with phase := .settle, settling := if rnd % 2 == 0 then [] else [.group 3] })
    decide (let x : SwapRes := if r.val < 12 then .group r else .stream (r - 12)
      s.on = true ∧
      s.sic.phase ≠ .switch ∧
      ((s.sic.phase ≠ .settle ∨ x ∉ s.sic.settling ∨ s.resFree x = false))) = true) :=
  ⟨by decide +kernel, by decide +kernel, by decide +kernel, by decide +kernel, by decide +kernel, by decide +kernel, by decide +kernel, by decide +kernel⟩

/-- Clauses of `Obligations.StructureCommitEndsByAbortTimeoutOrConfirm` have states and operands that meet their hypotheses. -/
theorem witness_StructureCommitEndsByAbortTimeoutOrConfirm :
    (let s : State := State.reset
    let rnd : Nat := 4
    let s : State := s.up.sic1 (fun c => { c with phase := if rnd % 2 == 0 then .prepare else .armed, revert := rnd % 3 == 0 })
    decide (s.on = true ∧
      ((s.sic.phase = .prepare ∨ s.sic.phase = .armed))) = true) ∧
    (let s : State := State.reset
    let rnd : Nat := 0
    let s : State := s.up.sic1 (fun c => { c with phase := .probation, busy := .none, old := if rnd % 2 == 0 then {} else s.str })
    decide (s.on = true ∧
      s.sic.phase = .probation) = true) ∧
    (let s : State := State.reset
    let rnd : Nat := 7
    let s : State := s.up.sic1 (fun c => { c with phase := [SwapPhase.idle, .switch, .settle].getD (rnd % 3) .idle, busy := if rnd % 2 == 0 then .none else .erase true })
    decide (s.on = true ∧
      s.sic.phase ≠ .prepare ∧
      s.sic.phase ≠ .armed ∧
      s.sic.phase ≠ .probation) = true) ∧
    (let s : State := State.reset
    let rnd : Nat := 7
    let s : State := s.up.sic1 (fun c => { c with phase := if rnd % 2 == 0 then .prepare else .armed, revert := false, instant := false, since := s.now - 10000000000 })
    let s : State := { s with now := s.now + 700000000000 }
    decide (s.on = true ∧
      ((s.sic.phase = .prepare ∨ s.sic.phase = .armed)) ∧
      s.sic.instant = false ∧
      s.sic.revert = false ∧
      s.sic.since + 1000000 * clampN 1 600000 (s.rd A.sicCommitTmo).toNat ≤ s.now) = true) ∧
    (let s : State := State.reset
    let rnd : Nat := 2
    let s : State := s.up.sic1 (fun c => { c with phase := if rnd % 2 == 0 then .idle else .armed, instant := rnd % 3 == 0, revert := rnd % 5 == 0, since := if rnd % 7 == 0 then 0 else s.now })
    decide (((s.sic.phase ≠ .prepare ∧ s.sic.phase ≠ .armed ∨ s.sic.instant = true ∨ s.sic.revert = true ∨ s.now < s.sic.since + 1000000 * clampN 1 600000 (s.rd A.sicCommitTmo).toNat))) = true) ∧
    (let s : State := State.reset
    let s : State := s.up.sic1 (fun c => { c with phase := .probation, busy := .none })
    decide (s.on = true ∧
      s.sic.busy = .none ∧
      s.sic.phase = .probation) = true) ∧
    (let s : State := State.reset
    let s : State := s.free
    decide (((s.on = true ∧ s.sic.busy = .none ∧ s.sic.phase = .idle))) = true) ∧
    (let s : State := State.reset
    let rnd : Nat := 9
    let s : State := { s.up.sic1 (fun c => { c with phase := .probation, busy := .none, old := if rnd % 2 == 0 then {} else s.str }) with now := s.now + 4000000000000 }
    decide (s.on = true ∧
      s.sic.phase = .probation ∧
      s.sic.probeSince + 1000000 * clampN 1 3600000 (s.rd A.sicProbeTmo).toNat ≤ s.now) = true) :=
  ⟨by decide +kernel, by decide +kernel, by decide +kernel, by decide +kernel, by decide +kernel, by decide +kernel, by decide +kernel, by decide +kernel⟩

/-- Clauses of `Obligations.StructureCommitEndsByAbortTimeoutOrConfirm` have states and operands that meet their hypotheses. -/
theorem witness_StructureCommitEndsByAbortTimeoutOrConfirm_2 :
    (let s : State := State.reset
    let rnd : Nat := 3
    let n : Fin 16 := 2
    let s : State := { s.up with now := s.now + 200000000000, drains := s.drains ++ (List.range (1 + rnd % 2)).map (fun j => { stream := n, key := n.val + 16 * (1 + j), xpt := s.xpt[n], rec_ := {}, from_ := s.now - 100 + j }) }
    let s : State := { s with now := s.now + 200000000000 }
    let d : Drain := ((s.drains.find? (fun d => d.stream == n.val && !d.ended && decide (d.from_ + s.drainTmo ≤ s.now))).getD drain0)
    decide (s.on = true ∧
      s.drains.find? (fun d => d.stream == n.val && !d.ended && decide (d.from_ + s.drainTmo ≤ s.now)) = some d) = true) :=
  by decide +kernel

/-- Clauses of `Obligations.KeysAndFloorOnlyAdvance` have states and operands that meet their hypotheses. -/
theorem witness_KeysAndFloorOnlyAdvance :
    (let s : State := State.reset
    let k : Fin 4 := 1
    let s : State := s.free
    decide (((s.on = true ∧ s.sic.busy = .none ∧ s.sic.phase = .idle)) ∧
      k ≠ 0 ∧
      s.keyLocked k = false) = true) ∧
    (let s : State := State.reset
    let k : Fin 4 := 0
    decide (((s.on = true ∧ s.sic.busy = .none ∧ s.sic.phase = .idle)) ∧
      ((k = 0 ∨ s.keyLocked k = true))) = true) ∧
    (let s : State := State.reset
    let rnd : Nat := 6
    let k : Fin 4 := 0
    let s : State := s.up.sic1 (fun c => { c with busy := .installKey k, keyNew := (List.range 8).map (fun i => wd (rnd + i)) })
    decide (s.on = true ∧
      s.sic.busy = .installKey k) = true) ∧
    (let s : State := State.reset
    decide (((s.on = true ∧ s.sic.busy = .none ∧ s.sic.phase = .idle))) = true) ∧
    (let s : State := State.reset
    let rnd : Nat := 8
    let s : State := { s.free with str := { s.str with bare := false, serial := rnd % 100 } }
    decide (((s.on = true ∧ s.sic.busy = .none ∧ s.sic.phase = .idle)) ∧
      s.str.bare = false) = true) ∧
    (let s : State := State.reset
    let s : State := s.free
    decide (((s.on = true ∧ s.sic.busy = .none ∧ s.sic.phase = .idle)) ∧
      s.str.bare = true) = true) :=
  ⟨by decide +kernel, by decide +kernel, by decide +kernel, by decide +kernel, by decide +kernel, by decide +kernel⟩

/-- Clauses of `Obligations.SpringsEnableDisableAndDeskew` have states and operands that meet their hypotheses. -/
theorem witness_SpringsEnableDisableAndDeskew :
    (let s : State := press
    let rnd : Nat := 2
    let n : Fin 32 := 9
    let s : State := s.up
    let n : Fin 32 := Fin.ofNat 32 (((s.group (rnd % 12)).springs).getD (rnd % 3) (rnd % 32))
    let s : State := s.setB (A.sprCtl n) 0 false
    decide (s.on = true ∧
      s.b (A.sprCtl n) 0 = false ∧
      (s.groupOf n).isSome) = true) ∧
    (let s : State := State.reset
    let n : Fin 32 := 3
    let s : State := s.up.setB (A.sprCtl n) 0 true
    decide (s.b (A.sprCtl n) 0 = true) = true) ∧
    (let s : State := State.reset
    let n : Fin 32 := 1
    decide (s.b (A.sprCtl n) 0 = false) = true) ∧
    (let s : State := State.reset
    let n : Fin 32 := 7
    decide (s.on = true ∧
      s.groupOf n = none) = true) ∧
    (let s : State := State.reset
    let rnd : Nat := 0
    let n : Fin 32 := 2
    let s : State := s.up
    let n : Fin 32 := Fin.ofNat 32 (((s.group (rnd % 12)).springs).getD (rnd % 3) (rnd % 32))
    let s : State := s.setB (A.sprCtl n) 0 true
    decide (s.on = true ∧
      s.b (A.sprCtl n) 0 = true ∧
      (s.spr[n]).queue.length ≤ 17) = true) ∧
    (let s : State := State.reset
    let rnd : Nat := 7
    let n : Fin 32 := 8
    let i : Fin 4 := 0
    let initial : Bool := true
    let e : Fin 256 := 55
    let s : State := { s.up with spr := vupd s.spr n (fun x => { x with st := 2 + rnd % 2, lanes := 4, deskewed := rnd % 16 }) }
    let s : State := if rnd % 3 < 2 then s.setB (A.sprDskVal n i) 16 false else s
    let s : State := s.setB (A.sprCtl n) 14 (rnd % 8 != 0)
    let want : Nat := if initial then e.val else if s.f (A.sprDskVal n i) 7 0 ≤ e.val then s.f (A.sprDskVal n i) 7 0 + min (e.val - s.f (A.sprDskVal n i) 7 0) (atLeast1 (s.f (A.sprDskWin n i) 19 16)) else s.f (A.sprDskVal n i) 7 0 - min (s.f (A.sprDskVal n i) 7 0 - e.val) (atLeast1 (s.f (A.sprDskWin n i) 19 16))
    decide (s.on = true ∧
      2 ≤ (s.spr[n]).st ∧
      i.val < (s.spr[n]).lanes ∧
      ((initial = true ∨ s.b (A.sprCtl n) 14 = true)) ∧
      want = (if initial then e.val else if s.f (A.sprDskVal n i) 7 0 ≤ e.val then s.f (A.sprDskVal n i) 7 0 + min (e.val - s.f (A.sprDskVal n i) 7 0) (atLeast1 (s.f (A.sprDskWin n i) 19 16)) else s.f (A.sprDskVal n i) 7 0 - min (s.f (A.sprDskVal n i) 7 0 - e.val) (atLeast1 (s.f (A.sprDskWin n i) 19 16)))) = true) ∧
    (let s : State := State.reset
    let n : Fin 32 := 5
    let i : Fin 4 := 0
    let s : State := { s.up with spr := vupd s.spr n (fun x => { x with st := 2, lanes := 4, deskewed := 15 - 2 ^ i.val }) }
    decide (s.on = true ∧
      (s.spr[n]).st = 2 ∧
      i.val < (s.spr[n]).lanes ∧
      ((s.spr[n]).deskewed ||| 2 ^ i.val) % 2 ^ (s.spr[n]).lanes = 2 ^ (s.spr[n]).lanes - 1) = true) ∧
    (let s : State := State.reset
    let rnd : Nat := 9
    let n : Fin 32 := 1
    let i : Fin 4 := 1
    let initial : Bool := true
    let s : State := { s.up with spr := vupd s.spr n (fun x => { x with st := 2 + rnd % 2, lanes := 4 }) }
    let s : State := s.setB (A.sprCtl n) 14 true
    decide (s.on = true ∧
      2 ≤ (s.spr[n]).st ∧
      i.val < (s.spr[n]).lanes ∧
      ((initial = true ∨ s.b (A.sprCtl n) 14 = true))) = true) :=
  ⟨by decide +kernel, by decide +kernel, by decide +kernel, by decide +kernel, by decide +kernel, by decide +kernel, by decide +kernel, by decide +kernel⟩

/-- Clauses of `Obligations.SpringsEnableDisableAndDeskew` have states and operands that meet their hypotheses. -/
theorem witness_SpringsEnableDisableAndDeskew_2 :
    (let s : State := State.reset
    let rnd : Nat := 4
    let n : Fin 32 := 2
    let i : Fin 4 := 0
    let initial : Bool := true
    let s : State := { s.up with spr := vupd s.spr n (fun x => { x with st := rnd % 4, lanes := 1 + rnd % 4 }) }
    let s : State := if rnd % 3 == 0 then s.setB (A.sprCtl n) 14 false else s
    decide ((((s.spr[n]).st = 0 ∨ (s.spr[n]).lanes ≤ i.val ∨ (initial = false ∧ s.b (A.sprCtl n) 14 = false)))) = true) ∧
    (let s : State := State.reset
    let s : State := s.up
    decide (s.on = true) = true) ∧
    (let s : State := State.reset
    let s : State := s.up
    decide (s.on = true) = true) ∧
    (let s : State := State.reset
    let rnd : Nat := 9
    let n : Fin 32 := 4
    let s : State := { s.up with spr := vupd s.spr n (fun x => { x with st := 1 + rnd % 3, lanes := 4, deskewed := 15 }) }
    decide (s.on = true ∧
      (s.spr[n]).listens = true) = true) ∧
    (let s : State := State.reset
    let rnd : Nat := 8
    let n : Fin 32 := 1
    let s : State := { s.up with spr := vupd s.spr n (fun x => { x with st := rnd % 2, lanes := 2, deskewed := 0 }) }
    decide ((s.spr[n]).listens = false) = true) :=
  ⟨by decide +kernel, by decide +kernel, by decide +kernel, by decide +kernel, by decide +kernel⟩

/-- Clauses of `Obligations.SensorPacketsBecomeLines` have states and operands that meet their hypotheses. -/
theorem witness_SensorPacketsBecomeLines :
    (let s : State := press
    let rnd : Nat := 2
    let n : Fin 32 := 3
    let m : Nat := 2
    let n : Fin 32 := Fin.ofNat 32 (((s.group (rnd % 4)).springs).getD (rnd % 3) (rnd % 32))
    let vc := rnd % 4
    let dt := 0x2A
    let m : Nat := rnd % 8
    let e : TrigEntry := { cycle := 1000, tag := { frame := 7, line := 3 } }
    let g : Fin 12 := Fin.ofNat 12 ((s.groupOf n).getD 0)
    let s : State := { (((List.range 8).foldl (fun s k => s.wr (A.sprMap n k) (if k = m then wd (1 + 8 * 0x2A + 512 * vc) else 0#32)) s.up).setF (A.sprCtl n) 13 12 0).setB (A.sprCtl n) 7 false with commits := [], now := 1000 + s.f (A.sprTrigLat n) 15 0 * 10, spr := vupd s.spr n (fun x => { x with st := 3, lanes := 1, lock := 1, laneMap := wd (rnd % 4 + 256 * (rnd % 16)), cur := none, pond := x.pond.filter (·.done), queue := [e] }) }
    let pairs : List Bytes := onePair s n vc dt (rnd % 9) (rnd % 2)
    let p : Packet := s.packetOf n pairs
    decide (s.on = true ∧
      (s.spr[n]).receives = true ∧
      s.packetOf n pairs = p ∧
      p.ecc = 0 ∧
      p.vcx = 0 ∧
      16 ≤ p.dt ∧
      s.b (A.sprCtl n) 7 = false ∧
      s.f (A.sprCtl n) 13 12 ≠ 1 ∧
      (s.spr[n]).cur = none ∧
      s.groupOf n = some g.val ∧
      s.mapEntries n = [m] ∧
      s.entriesFor n p.vc p.dt = [m] ∧
      (s.spr[n]).queue.head? = some e ∧
      e.cycle + s.f (A.sprTrigLat n) 15 0 * 10 ≤ s.now ∧
      s.now ≤ e.cycle + s.f (A.sprTrigLat n) 31 16 * 10 ∧
      s.waiting (A.sprCommit n) = none ∧
      (s.grp[g]).isCut e.tag = false ∧
      (s.spr[n]).pond.all (·.done) = true ∧
      pondFill (s.spr[n]).pond + s.unseen n + s.itemSize n (s.group g).channels + 64 ≤ ingressSize) = true) ∧
    (let s : State := State.reset
    let rnd : Nat := 5
    let n : Fin 32 := 2
    let n : Fin 32 := Fin.ofNat 32 (((s.group (rnd % 4)).springs).getD (rnd % 3) (rnd % 32))
    let s : State := { s.up with spr := vupd s.spr n (fun x => { x with st := 3, lanes := 1, lock := 1, laneMap := 0#32 }) }
    let pairs : List Bytes := [[BitVec.ofNat 8 rnd, BitVec.ofNat 8 (rnd / 8), 5#8, BitVec.ofNat 8 (rnd / 64), 7#8]]
    decide (s.on = true ∧
      (s.spr[n]).receives = true ∧
      (s.packetOf n pairs).ecc = 2) = true) ∧
    (let s : State := State.reset
    let rnd : Nat := 9
    let n : Fin 32 := 3
    let n : Fin 32 := Fin.ofNat 32 (((s.group (rnd % 4)).springs).getD (rnd % 3) (rnd % 32))
    let s : State := (({ s.up with commits := [], spr := vupd s.spr n (fun x => { x with st := 3, lanes := 1, lock := 1, laneMap := 0#32, frameOpen := 0 }) } : State)).setB (A.sprCtl n) 7 (rnd % 2 == 0)
    let pairs : List Bytes := onePair s n (rnd % 4) (16 + rnd % 47) (rnd % 9) (rnd % 2)
    decide (s.on = true ∧
      (s.spr[n]).receives = true ∧
      (s.packetOf n pairs).ecc = 0 ∧
      s.waiting (A.sprCommit n) = none ∧
      16 ≤ (s.packetOf n pairs).dt ∧
      (((s.packetOf n pairs).vcx ≠ 0 ∨ s.frameShut n (s.packetOf n pairs).vc = true ∨ s.entriesFor n (s.packetOf n pairs).vc (s.packetOf n pairs).dt = []))) = true) ∧
    (let s : State := State.reset
    let rnd : Nat := 8
    let n : Fin 32 := 3
    let n : Fin 32 := Fin.ofNat 32 (((s.group (rnd % 4)).springs).getD (rnd % 3) (rnd % 32))
    let s : State := { s.up with spr := vupd s.spr n (fun x => { x with st := [0, 2, 3].getD (rnd % 3) 0, lanes := 4, lock := 7 }) }
    let pairs : List Bytes := onePair s n (rnd % 4) (rnd % 63) (rnd % 9) (rnd % 2)
    decide (s.on = true ∧
      (s.spr[n]).st ≠ 1 ∧
      2 ≤ (s.spr[n]).st ∧
      (s.spr[n]).receives = false) = true) ∧
    (let s : State := State.reset
    let rnd : Nat := 0
    let n : Fin 32 := 9
    let n : Fin 32 := Fin.ofNat 32 (((s.group (rnd % 4)).springs).getD (rnd % 3) (rnd % 32))
    let s : State := { s.up with spr := vupd s.spr n (fun x => { x with st := [0, 2, 3].getD (rnd % 3) 0, lanes := 4, lock := 7 }) }
    let pairs : List Bytes := onePair s n (rnd % 4) (rnd % 63) (rnd % 9) (rnd % 2)
    decide (s.on = true ∧
      (s.spr[n]).st ≠ 1 ∧
      (s.spr[n]).st = 0) = true) ∧
    (let s : State := State.reset
    let rnd : Nat := 6
    let n : Fin 32 := 5
    let n : Fin 32 := Fin.ofNat 32 (((s.group (rnd % 4)).springs).getD (rnd % 3) (rnd % 32))
    let s : State := (({ s.up with spr := vupd s.spr n (fun x => { x with st := 3, lanes := 1, lock := 1, laneMap := 0#32, frameOpen := rnd % 16 }) } : State)).setB (A.sprCtl n) 7 (rnd % 4 != 0)
    let pairs : List Bytes := onePair s n (rnd % 4) (if rnd % 3 == 0 then rnd % 16 else rnd % 2) (rnd % 9) (rnd % 2)
    let p : Packet := s.packetOf n pairs
    decide (s.on = true ∧
      (s.spr[n]).receives = true ∧
      s.packetOf n pairs = p ∧
      p.ecc = 0 ∧
      p.vcx = 0 ∧
      p.dt < 16 ∧
      p.vc < 4) = true) ∧
    (let s : State := press
    let rnd : Nat := 8
    let n : Fin 32 := 6
    let vc : Fin 4 := 3
    let dt : Fin 64 := 3
    let dt : Fin 64 := if rnd % 3 == 0 then dt else 0x2A
    let n : Fin 32 := Fin.ofNat 32 (((s.group (rnd % 4)).springs).getD (rnd % 3) (rnd % 32))
    let s : State := (((List.range 8).foldl (fun s k => s.wr (A.sprMap n k) (if k = 2 then wd (1 + 8 * dt.val + 512 * vc.val) else 0#32)) ({ s.up with commits := [], spr := vupd s.spr n (fun x => { x with st := 3, lanes := 1, lock := 1, cur := none, queue := if rnd % 2 == 0 then [] else [{ cycle := s.now + 5 * rnd, tag := {} }] }) } : State)).setF (A.sprCtl n) 13 12 0).setB (A.sprCtl n) 7 false
    decide (s.on = true ∧
      (s.spr[n]).receives = true ∧
      (s.spr[n]).cur = none ∧
      ((s.groupOf n).bind (fin? 12)).isSome ∧
      s.f (A.sprCtl n) 13 12 ≠ 1 ∧
      s.frameShut n vc = false ∧
      s.entriesFor n vc dt ≠ [] ∧
      s.waiting (A.sprCommit n) = none ∧
      (((s.spr[n]).queue.head?).all (fun e => decide (s.now < e.cycle + s.f (A.sprTrigLat n) 15 0 * 10 ∨ e.cycle + s.f (A.sprTrigLat n) 31 16 * 10 < s.now)) = true)) = true) ∧
    (let s : State := press
    let rnd : Nat := 1
    let n : Fin 32 := 9
    let vc : Fin 4 := 3
    let n : Fin 32 := Fin.ofNat 32 (((s.group (rnd % 4)).springs).getD (rnd % 3) (rnd % 32))
    let dt : Fin 64 := 0x2A
    let vc : Fin 4 := Fin.ofNat 4 rnd
    let m := rnd % 8
    let e : TrigEntry := { cycle := 1000, tag := { frame := 7, line := 3 } }
    let g : Fin 12 := Fin.ofNat 12 ((s.groupOf n).getD 0)
    let s : State := { (((List.range 8).foldl (fun s k => s.wr (A.sprMap n k) (if k = m then wd (1 + 8 * 0x2A + 512 * vc.val) else 0#32)) s.up).setF (A.sprCtl n) 13 12 0).setB (A.sprCtl n) 7 false with commits := [], now := 1000 + s.f (A.sprTrigLat n) 15 0 * 10, spr := vupd s.spr n (fun x => { x with st := 3, lanes := 1, lock := 1, laneMap := wd (rnd % 4 + 256 * (rnd % 16)), cur := none, pond := x.pond.filter (·.done), queue := [e] }) }
    decide (s.on = true ∧
      (s.spr[n]).receives = true ∧
      (s.spr[n]).cur = none ∧
      s.groupOf n = some g.val ∧
      s.f (A.sprCtl n) 13 12 ≠ 1 ∧
      s.frameShut n vc = false ∧
      s.entriesFor n vc dt ≠ [] ∧
      s.waiting (A.sprCommit n) = none ∧
      (s.spr[n]).queue.head? = some e ∧
      e.cycle + s.f (A.sprTrigLat n) 15 0 * 10 ≤ s.now ∧
      s.now ≤ e.cycle + s.f (A.sprTrigLat n) 31 16 * 10 ∧
      (s.grp[g]).isCut e.tag = false ∧
      pondFill (s.spr[n]).pond + s.unseen n + s.itemSize n (s.group g).channels + 64 ≤ ingressSize) = true) :=
  ⟨by decide +kernel, by decide +kernel, by decide +kernel, by decide +kernel, by decide +kernel, by decide +kernel, by decide +kernel, by decide +kernel⟩

/-- Clauses of `Obligations.SensorPacketsBecomeLines` have states and operands that meet their hypotheses. -/
theorem witness_SensorPacketsBecomeLines_2 :
    (let s : State := State.reset
    let rnd : Nat := 5
    let n : Fin 32 := 6
    let vc : Fin 4 := 2
    let n : Fin 32 := Fin.ofNat 32 (((s.group (rnd % 4)).springs).getD (rnd % 3) (rnd % 32))
    let s : State := (({ s.up with spr := vupd s.spr n (fun x => { x with st := rnd % 5, lanes := 1, lock := if rnd % 3 == 0 then 0 else 1, frameOpen := 0 }) } : State)).setB (A.sprCtl n) 7 true
    decide ((s.spr[n]).st ≠ 1 ∧
      (((s.spr[n]).receives = false ∨ s.frameShut n vc = true))) = true) ∧
    (let s : State := State.reset
    let rnd : Nat := 0
    let n : Fin 32 := 2
    let n : Fin 32 := Fin.ofNat 32 (((s.group (rnd % 4)).springs).getD (rnd % 3) (rnd % 32))
    let s : State := ({ s.up with now := s.now + 1000000, spr := vupd s.spr n (fun x => { x with queue := (List.range (rnd % 5)).map (fun i => { cycle := s.now + i * (rnd % 400000), tag := { line := i } }) }) }).setF (A.sprCtl n) 13 12 0
    decide (s.on = true ∧
      (s.spr[n]).queue.length ≤ 16 ∧
      s.f (A.sprCtl n) 13 12 ≠ 1) = true) ∧
    (let s : State := press
    let rnd : Nat := 1
    let n : Fin 32 := 1
    let n : Fin 32 := Fin.ofNat 32 (((s.group (rnd % 4)).springs).getD (rnd % 3) (rnd % 32))
    let g : Fin 12 := Fin.ofNat 12 ((s.groupOf n).getD 0)
    let e : TrigEntry := { cycle := 1000, tag := { frame := 7, line := 3 } }
    let s : State := ({ s.up with commits := [], now := s.now + 2000000, spr := vupd s.spr n (fun x => { x with cur := none, pond := x.pond.filter (·.done), queue := [e, { cycle := s.now + 2000000 - rnd % 5, tag := { line := 4 } }] }) }).setF (A.sprCtl n) 13 12 0
    decide (s.on = true ∧
      s.groupOf n = some g.val ∧
      s.f (A.sprCtl n) 13 12 ≠ 1 ∧
      s.waiting (A.sprCommit n) = none ∧
      (s.spr[n]).queue.head? = some e ∧
      e.cycle + s.f (A.sprTrigLat n) 31 16 * 10 < s.now ∧
      ((s.spr[n]).queue.drop 1 |>.head?).all (fun d => decide (s.now ≤ d.cycle + s.f (A.sprTrigLat n) 31 16 * 10)) = true ∧
      (s.grp[g]).isCut e.tag = false ∧
      pondFill (s.spr[n]).pond + s.unseen n + s.itemSize n (s.group g).channels + 64 ≤ ingressSize) = true) ∧
    (let s : State := State.reset
    let rnd : Nat := 6
    let n : Fin 32 := 5
    let n : Fin 32 := Fin.ofNat 32 (((s.group (rnd % 4)).springs).getD (rnd % 3) (rnd % 32))
    let s : State := { s.up with now := s.now + 1000000, spr := vupd s.spr n (fun x => { x with cur := some { tag := { line := 4 }, trig := {}, start := 3, drop := rnd % 2 == 0 } }) }
    let o : OpenLine := ((s.spr[n]).cur).getD { tag := {}, trig := {}, start := 0 }
    decide (s.on = true ∧
      (s.spr[n]).cur = some o ∧
      o.start + atLeast1 (s.f (A.sprAsmTmo n) 15 0) * 10 ≤ s.now) = true) ∧
    (let d : Nat := 67108863
    decide (d < 2 ^ 26) = true) :=
  ⟨by decide +kernel, by decide +kernel, by decide +kernel, by decide +kernel, by decide +kernel⟩

/-- Clauses of `Obligations.SpringPulsesFollowTheirWidths` have states and operands that meet their hypotheses. -/
theorem witness_SpringPulsesFollowTheirWidths :
    (let s : State := press
    let rnd : Nat := 2
    let n : Fin 32 := 3
    let w : Nat := 1
    let n : Fin 32 := Fin.ofNat 32 (((s.group (rnd % 4)).springs).getD (rnd % 3) (rnd % 32))
    let s : State := ({ s.up with spr := vupd s.spr n (fun x => { x with pulses := if rnd % 2 == 0 then [] else [(s.now - 10, s.now + 5)] }) }).setF (A.sprTrigCtl n) 3 0 (if rnd % 4 == 0 then 3 else 5)
    let at_ : Nat := s.now + s.f (A.sprTrigDly n) 15 0
    let w : Nat := atLeast1 (s.f (A.sprTrigCtl n) 31 16)
    decide (s.on = true ∧
      at_ = s.now + s.f (A.sprTrigDly n) 15 0 ∧
      w = atLeast1 (s.f (A.sprTrigCtl n) 31 16) ∧
      s.f (A.sprTrigCtl n) 3 0 = 5 ∧
      (s.groupOf n).isSome ∧
      (s.spr[n]).pulseEnd ≤ at_) = true) ∧
    (let s : State := State.reset
    let rnd : Nat := 7
    let n : Fin 32 := 9
    let w : Nat := 3
    let n : Fin 32 := Fin.ofNat 32 (((s.group (rnd % 4)).springs).getD (rnd % 3) (rnd % 32))
    let s : State := ({ s.up with spr := vupd s.spr n (fun x => { x with pulses := if rnd % 2 == 0 then [] else [(s.now - 10, s.now + 5)] }) }).setF (A.sprTrigCtl n) 3 0 (if rnd % 4 == 0 then 3 else 5)
    let at_ : Nat := s.now + s.f (A.sprTrigDly n) 15 0
    let w : Nat := atLeast1 (s.f (A.sprTrigCtl n) 31 16)
    decide (s.on = true ∧
      at_ = s.now + s.f (A.sprTrigDly n) 15 0 ∧
      w = atLeast1 (s.f (A.sprTrigCtl n) 31 16) ∧
      ((s.f (A.sprTrigCtl n) 3 0 ≠ 5 ∨ s.groupOf n = none ∨ at_ < (s.spr[n]).pulseEnd))) = true) ∧
    (let s : State := State.reset
    let rnd : Nat := 3
    let n : Fin 32 := 8
    let s : State := { s.up with spr := vupd s.spr n (fun x => { x with pulses := [(s.now - 9, s.now - rnd % 3)], softEnd := if rnd % 2 == 0 then none else some (s.now - rnd % 3) }) }
    decide (s.on = true) = true) ∧
    (let s : State := State.reset
    let s : State := s.up
    decide (s.on = true) = true) ∧
    (let s : State := State.reset
    let n : Fin 32 := 5
    let s : State := { s.up with now := s.now + 70000000, spr := vupd s.spr n (fun x => { x with xrstPulse := some s.now }) }
    let t0 : Nat := ((s.spr[n]).xrstPulse).getD 0
    decide (s.on = true ∧
      (s.spr[n]).xrstPulse = some t0 ∧
      t0 + 1000 * atLeast1 (s.f (A.sprXrst n) 31 16) ≤ s.now) = true) ∧
    (let s : State := State.reset
    let n : Fin 32 := 0
    let s : State := { s.up with spr := vupd s.spr n (fun x => { x with xrstPulse := some s.now }) }
    decide (s.on = true ∧
      ((s.spr[n]).xrstPulse).all (fun t => decide (s.now < t + 1000 * atLeast1 (s.f (A.sprXrst n) 31 16))) = true) = true) :=
  ⟨by decide +kernel, by decide +kernel, by decide +kernel, by decide +kernel, by decide +kernel, by decide +kernel⟩

/-- Clauses of `Obligations.PondsResetAndPass` have states and operands that meet their hypotheses. -/
theorem witness_PondsResetAndPass :
    (let s : State := State.reset
    let s : State := s.up
    decide (s.on = true) = true) ∧
    (let s : State := State.reset
    let rnd : Nat := 1
    let s : State := s.up
    let v : Word := wd (0xD00D0000 + rnd % 90)
    decide (s.on = true ∧
      fld v 31 16 = 0xD00D ∧
      fld v 7 0 < 86) = true) ∧
    (let s : State := State.reset
    let rnd : Nat := 9
    let v : Word := 0x7a36466c#32
    let s : State := s.up
    let v : Word := wd (0xD00D0000 + rnd % 256)
    let v : Word := if rnd % 3 = 0 then wd rnd else v
    decide (s.on = true ∧
      ((fld v 31 16 ≠ 0xD00D ∨ 86 ≤ fld v 7 0))) = true) ∧
    (let s : State := State.reset
    let rnd : Nat := 1
    let p : Fin 22 := 8
    let s : State := s.up
    let len : Nat := rnd % 3000
    let s : State := if rnd % 2 == 0 then { s with str := { s.str with groups := pressGroups } } else s
    decide (s.on = true ∧
      (¬(p.val < 8 ∧ s.linkDown p = true)) ∧
      s.resetNow (64 + p) = false ∧
      packFill (s.netPonds[p]) + (len + 63) / 64 * 64 + s.unseen (64 + p) ≤ netSize p) = true) ∧
    (let s : State := State.reset
    let rnd : Nat := 5
    let p : Fin 22 := 1
    let s : State := s.up
    let len : Nat := rnd % 3000
    let s : State := if rnd % 2 == 0 then { s with str := { s.str with groups := pressGroups } } else s
    decide (s.on = true ∧
      ((p.val < 8 ∧ s.linkDown p = true ∨ s.resetNow (64 + p) = true ∨ netSize p < packFill (s.netPonds[p]) + (len + 63) / 64 * 64 + s.unseen (64 + p)))) = true) ∧
    (let s : State := State.reset
    let rnd : Nat := 2
    let p : Fin 22 := 2
    let s : State := s.up
    let q : Fin 86 := Fin.ofNat 86 (64 + p.val)
    let k : Packet64 := { len := 1 + rnd % 900, seen := s.now - rnd % 3 }
    let rest : List Packet64 := s.netPonds[p]
    let s : State := { s with netPonds := vupd s.netPonds p (fun l => k :: l), ctl := { s.ctl with waitCpl := [] } }
    decide (s.on = true ∧
      q.val = 64 + p.val ∧
      s.netPonds[p] = k :: rest ∧
      k.seen ≤ s.now ∧
      s.resetNow (64 + p) = false ∧
      k.frame = none ∧
      k.cpl = none ∧
      0 < k.len ∧
      s.ctl.waitCpl = []) = true) ∧
    (let s : State := State.reset
    let rnd : Nat := 2
    let p : Fin 22 := 5
    let l : Fin 8 := 2
    let s : State := s.up
    let l : Fin 8 := l
    let p : Fin 22 := Fin.ofNat 22 l.val
    let k : Packet64 := { len := 1 + rnd % 900, seen := s.now - rnd % 3, frame := some (leBytes (1 + rnd % 90) rnd) }
    let f : Bytes := (k.frame.getD [])
    let rest : List Packet64 := s.netPonds[p]
    let s : State := { s with netPonds := vupd s.netPonds p (fun l => k :: l), ctl := { s.ctl with waitCpl := [] } }
    decide (s.on = true ∧
      p.val = l.val ∧
      s.netPonds[p] = k :: rest ∧
      k.seen ≤ s.now ∧
      s.resetNow (64 + p) = false ∧
      k.frame = some f ∧
      k.cpl = none ∧
      s.ctl.waitCpl = []) = true) ∧
    (let s : State := State.reset
    let rnd : Nat := 6
    let t : Fin 8 := 6
    let s : State := s.up
    let it : CplItem := ⟨wd rnd, wd (rnd / 3), 5#32, 9#32⟩
    let k : Packet64 := { len := 64, seen := s.now - rnd % 3, cpl := some (t, it) }
    let rest : List Packet64 := (s.netPonds[(20 : Fin 22)]).take 20
    let s : State := { s with netPonds := vupd s.netPonds 20 (fun _ => k :: rest), ctl := { s.ctl with waitCpl := [] } }
    decide (s.on = true ∧
      s.netPonds[(20 : Fin 22)] = k :: rest ∧
      k.seen ≤ s.now ∧
      s.resetNow 84 = false ∧
      k.frame = none ∧
      k.len = 64 ∧
      k.cpl = some (t, it) ∧
      s.ctl.waitCpl = [] ∧
      packFill s.netPonds[(20 : Fin 22)] ≤ 4096) = true) :=
  ⟨by decide +kernel, by decide +kernel, by decide +kernel, by decide +kernel, by decide +kernel, by decide +kernel, by decide +kernel, by decide +kernel⟩

/-- Clauses of `Obligations.PondsResetAndPass` have states and operands that meet their hypotheses. -/
theorem witness_PondsResetAndPass_2 :
    (let s : State := State.reset
    let rnd : Nat := 9
    let p : Fin 22 := 5
    let s : State := s.up
    let k := { len := 1 + rnd % 900, seen := s.now + 1 + rnd % 3 }
    let s : State := { s with netPonds := vupd s.netPonds p (fun l => if rnd % 2 = 0 then [] else k :: l) }
    decide ((((s.netPonds[p]).head?.all (fun k => decide (s.now < k.seen)) = true ∨ s.resetNow (64 + p) = true))) = true) ∧
    (let s : State := State.reset
    let rnd : Nat := 4
    let i : Fin 54 := 6
    let taken : Bool := true
    let s : State := s.up
    let p : Fin 126 := Fin.ofNat 126 (72 + i.val)
    let s : State := { s with chains := s.chains.map (fun _ => (List.range ([0, 1, 2, 3, 7, 8, 15, 16].getD (rnd % 8) 0)).map (fun j => BitVec.ofNat 128 (j + rnd))) }
    decide (s.on = true ∧
      p.val = 72 + i.val ∧
      ((s.chains[i]).length < stages (158 + i) ∨ taken = true ∧ 1 ≤ (s.chains[i]).length)) = true) ∧
    (let s : State := State.reset
    let rnd : Nat := 6
    let i : Fin 54 := 27
    let taken : Bool := false
    let s : State := s.up
    let p : Fin 126 := Fin.ofNat 126 (72 + i.val)
    let s : State := { s with chains := s.chains.map (fun _ => (List.range ([0, 1, 2, 3, 7, 8, 15, 16].getD (rnd % 8) 0)).map (fun j => BitVec.ofNat 128 (j + rnd))) }
    decide (s.on = true ∧
      p.val = 72 + i.val ∧
      stages (158 + i) ≤ (s.chains[i]).length ∧
      taken = false) = true) ∧
    (let s : State := State.reset
    let rnd : Nat := 2
    let t : Fin 8 := 2
    let taken : Bool := true
    let s : State := s.up
    let p : Fin 126 := Fin.ofNat 126 t.val
    let s : State := s.onStall t (fun x => { x with cpl := (List.range (rnd % 17)).map (fun j => ⟨wd j, wd rnd, 2#32, 3#32⟩) })
    decide (s.on = true ∧
      p.val = t.val ∧
      ((s.stalls[t]).cpl.length < 16 ∨ taken = true)) = true) ∧
    (let s : State := State.reset
    let rnd : Nat := 16
    let t : Fin 8 := 4
    let taken : Bool := false
    let s : State := s.up
    let p : Fin 126 := Fin.ofNat 126 t.val
    let s : State := s.onStall t (fun x => { x with cpl := (List.range (rnd % 17)).map (fun j => ⟨wd j, wd rnd, 2#32, 3#32⟩) })
    decide (s.on = true ∧
      p.val = t.val ∧
      16 ≤ (s.stalls[t]).cpl.length ∧
      taken = false) = true) ∧
    (let s : State := State.reset
    let rnd : Nat := 4
    let n : Fin 32 := 9
    let cal : Bool := true
    let taken : Bool := true
    let s : State := s.up
    let p : Fin 126 := Fin.ofNat 126 ((if cal then 8 else 40) + n.val)
    let s : State := s.onTwb n (fun x => { x with calQ := (List.range (rnd % 5)).map (fun j => { calendar := true, addr := j }), swQ := (List.range (rnd % 5)).map (fun j => { calendar := false, addr := j }) })
    decide (let q := fun (x : TwoWire) => if cal then x.calQ else x.swQ
      s.on = true ∧
      p.val = (if cal then 8 else 40) + n.val ∧
      ((q (s.twb[n])).length < 4 ∨ taken = true)) = true) ∧
    (let s : State := State.reset
    let rnd : Nat := 4
    let n : Fin 32 := 5
    let cal : Bool := true
    let taken : Bool := false
    let s : State := s.up
    let p : Fin 126 := Fin.ofNat 126 ((if cal then 8 else 40) + n.val)
    let s : State := s.onTwb n (fun x => { x with calQ := (List.range (rnd % 5)).map (fun j => { calendar := true, addr := j }), swQ := (List.range (rnd % 5)).map (fun j => { calendar := false, addr := j }) })
    decide (let q := fun (x : TwoWire) => if cal then x.calQ else x.swQ
      s.on = true ∧
      p.val = (if cal then 8 else 40) + n.val ∧
      4 ≤ (q (s.twb[n])).length ∧
      taken = false) = true) ∧
    (let s : State := State.reset
    let rnd : Nat := 2
    let i : Fin 54 := 5
    let s : State := s.up
    let p : Fin 126 := Fin.ofNat 126 (72 + i.val)
    let s : State := { s with chains := s.chains.map (fun _ => (List.range (rnd % 4)).map (fun j => BitVec.ofNat 128 (j + rnd))) }
    decide (s.on = true ∧
      p.val = 72 + i.val) = true) :=
  ⟨by decide +kernel, by decide +kernel, by decide +kernel, by decide +kernel, by decide +kernel, by decide +kernel, by decide +kernel, by decide +kernel⟩

/-- Clauses of `Obligations.PondsResetAndPass` have states and operands that meet their hypotheses. -/
theorem witness_PondsResetAndPass_3 :
    (let s : State := State.reset
    let rnd : Nat := 7
    let t : Fin 8 := 7
    let n : Fin 32 := 4
    let cal : Bool := true
    let s : State := s.up
    let p : Fin 126 := Fin.ofNat 126 t.val
    let q : Fin 126 := Fin.ofNat 126 ((if cal then 8 else 40) + n.val)
    let s : State := (s.onStall t (fun x => { x with cpl := (List.range (rnd % 4)).map (fun j => ⟨wd j, wd rnd, 2#32, 3#32⟩) })).onTwb n (fun x => { x with calQ := (List.range (rnd % 3)).map (fun j => { calendar := true, addr := j }), swQ := (List.range (rnd % 3)).map (fun j => { calendar := false, addr := j }) })
    decide (let f := fun (x : TwoWire) => if cal then x.calQ else x.swQ
      s.on = true ∧
      p.val = t.val ∧
      q.val = (if cal then 8 else 40) + n.val) = true) :=
  by decide +kernel

/-- Clauses of `Obligations.TwoWireListsQueueAndRun` have states and operands that meet their hypotheses. -/
theorem witness_TwoWireListsQueueAndRun :
    (let s : State := State.reset
    let rnd : Nat := 1
    let n : Fin 32 := 0
    let s : State := ({ s.up with twb := vupd s.twb n (fun x => { x with st := 1, swQ := if rnd % 2 = 0 then [] else [{ calendar := false }] }) }).setB (A.twbCtl n) 0 true
    decide (s.on = true ∧
      s.b (A.twbCtl n) 0 = true ∧
      (s.twb[n]).st ∈ [1, 2, 3] ∧
      (s.twb[n]).swQ.length < 4) = true) ∧
    (let s : State := State.reset
    let n : Fin 32 := 7
    let s : State := { s.up with twb := vupd s.twb n (fun x => { x with swQ := List.replicate 4 { calendar := false } }) }
    decide (s.on = true ∧
      4 ≤ (s.twb[n]).swQ.length) = true) ∧
    (let s : State := State.reset
    let rnd : Nat := 9
    let n : Fin 32 := 6
    let s : State := ({ s.up with twb := vupd s.twb n (fun x => { x with st := 4 + rnd % 2, swQ := [], calQ := [] }) }).setB (A.twbCtl n) 0 (rnd % 3 != 0)
    decide (s.on = true ∧
      ((s.b (A.twbCtl n) 0 = false ∨ 4 ≤ (s.twb[n]).st ∧ (s.twb[n]).st ≤ 5)) ∧
      (s.twb[n]).swQ = [] ∧
      (s.twb[n]).calQ = []) = true) ∧
    (let s : State := State.reset
    let rnd : Nat := 6
    let n : Fin 32 := 1
    let s : State := { s.up with twb := vupd s.twb n (fun x => { x with st := 1, run := none, swQ := [{ calendar := false, lake := rnd % 3 = 0, addr := rnd % 200 }] }) }
    let l : TwList := ((s.twb[n]).next).getD { calendar := false }
    decide (s.on = true ∧
      (s.twb[n]).st = 1 ∧
      (s.twb[n]).run = none ∧
      (s.twb[n]).next = some l) = true) ∧
    (let s : State := State.reset
    let rnd : Nat := 10
    let n : Fin 32 := 30
    let resp : TwResp := { acks := [], data := [] }
    let s : State := { s.up with now := s.now + 10 ^ 7, twb := vupd s.twb n (fun x => { x with st := 2, run := some { list := { calendar := false }, steps := if rnd % 2 = 0 then [wd (5 * 2 ^ 28 + rnd % 3), 0#32] else [wd (2 ^ 28 + 0x42), wd (4 * 2 ^ 28), wd (5 * 2 ^ 28 + rnd % 3), 0#32], from_ := s.now + rnd % 3 * 9999000 } }) }
    let r : TwRun := ((s.twb[n]).run).getD { list := { calendar := false } }
    let x : TwExec := s.twGo r resp none
    decide (s.on = true ∧
      (s.twb[n]).run = some r ∧
      s.twGo r resp none = x ∧
      x.code = none ∧
      stepOp (x.run.steps.getD x.run.pc 0#32) = 5 ∧
      r.from_ + 1000 * fld (x.run.steps.getD x.run.pc 0#32) 23 0 ≤ s.now) = true) ∧
    (let s : State := State.reset
    let rnd : Nat := 13
    let n : Fin 32 := 5
    let resp : TwResp := { acks := [], data := [] }
    let s : State := { s.up with now := s.now + 10 ^ 7, twb := vupd s.twb n (fun x => { x with st := 2, run := some { list := { calendar := false }, steps := if rnd % 2 = 0 then [wd (5 * 2 ^ 28 + rnd % 3), 0#32] else [wd (2 ^ 28 + 0x42), wd (4 * 2 ^ 28), wd (5 * 2 ^ 28 + rnd % 3), 0#32], from_ := s.now + rnd % 3 * 9999000 } }) }
    let r : TwRun := ((s.twb[n]).run).getD { list := { calendar := false } }
    let x : TwExec := s.twGo r resp none
    decide (s.on = true ∧
      (s.twb[n]).run = some r ∧
      s.twGo r resp none = x ∧
      (x.code.isSome ∨ s.now < r.from_ + 1000 * fld (x.run.steps.getD x.run.pc 0#32) 23 0)) = true) ∧
    (let s : State := State.reset
    let n : Fin 32 := 27
    let resp : TwResp := { acks := [], data := [] }
    let s : State := { s.up with twb := vupd s.twb n (fun x => { x with st := 2, run := some { list := { calendar := false }, steps := [wd (1 * 2 ^ 28 + 0x42), wd (2 * 2 ^ 28 + 0x1234), 0#32], from_ := s.now } }) }
    let r : TwRun := ((s.twb[n]).run).getD { list := { calendar := false } }
    decide (s.on = true ∧
      (s.twb[n]).run = some r ∧
      (s.twGo r resp none).code.isSome) = true) ∧
    (let s : State := State.reset
    let rnd : Nat := 4
    let n : Fin 32 := 17
    let resp : TwResp := { acks := [true], data := [] }
    let s : State := { s.up with twb := vupd s.twb n (fun x => { x with st := 2, calQ := [], swQ := [], run := some { list := { calendar := false }, steps := [wd (1 * 2 ^ 28 + 0x42), wd (4 * 2 ^ 28), wd (1 * 2 ^ 28 + 0x42), wd (4 * 2 ^ 28), 0#32], from_ := s.now } }) }
    let r : TwRun := ((s.twb[n]).run).getD { list := { calendar := false } }
    let k : Fin 256 := if rnd % 2 = 0 then 1 else 3
    let hold : BusCheck := { sclStuck := rnd % 5 = 0, sdaLow := rnd % 2 = 0, frees := if rnd % 2 = 0 then some 3 else none, stopOk := rnd % 3 = 0 }
    decide (s.on = true ∧
      (s.twb[n]).run = some r ∧
      (s.twGo r resp (some k.val)).code = none ∧
      (s.twGo r resp (some k.val)).run.pc = k.val ∧
      (s.twGo r resp (some k.val)).run.open_ = true ∧
      stepOp (r.steps.getD k.val 0#32) = 4 ∧
      (s.twGo r resp (some k.val)).run.steps = r.steps ∧
      (s.twb[n]).calQ.length + (s.twb[n]).swQ.length ≤ 8) = true) :=
  ⟨by decide +kernel, by decide +kernel, by decide +kernel, by decide +kernel, by decide +kernel, by decide +kernel, by decide +kernel, by decide +kernel⟩

/-- Clauses of `Obligations.TwoWireListsQueueAndRun` have states and operands that meet their hypotheses. -/
theorem witness_TwoWireListsQueueAndRun_2 :
    (let s : State := State.reset
    let s : State := s.up
    decide (s.on = true) = true) :=
  by decide +kernel

/-- Clauses of `Obligations.TwoWireBusFaultsEndLists` have states and operands that meet their hypotheses. -/
theorem witness_TwoWireBusFaultsEndLists :
    (let s : State := State.reset
    let rnd : Nat := 3
    let n : Fin 32 := 4
    let s : State := ({ s.up with twb := vupd s.twb n (fun x => { x with st := 2, run := if rnd % 2 = 0 then none else some { list := { calendar := false } } }) }).setB (A.twbCtl n) 0 true
    let hold : BusCheck := { sclStuck := rnd % 5 = 0, sdaLow := rnd % 3 = 0, frees := if rnd % 2 = 0 then some 3 else none, stopOk := rnd % 7 < 4 }
    decide (s.on = true ∧
      s.b (A.twbCtl n) 0 = true ∧
      (s.twb[n]).calQ.length + (s.twb[n]).swQ.length ≤ 8) = true) ∧
    (let s : State := State.reset
    let rnd : Nat := 7
    let n : Fin 32 := 0
    let s : State := ({ s.up with now := s.now + 10 ^ 8, twb := vupd s.twb n (fun x => { x with st := 5, attempt := rnd % 4, xrstEnd := s.now, swQ := if rnd % 3 = 0 then [] else [{ calendar := false, stall := 2, slot := true }] }) }).setB (A.twbCtl n) 0 true
    let hold : BusCheck := { sclStuck := rnd % 5 = 0, sdaLow := true, frees := if rnd % 2 = 0 then some 3 else none, stopOk := rnd % 7 = 0 }
    decide (s.on = true ∧
      (s.twb[n]).st = 5 ∧
      (s.twb[n]).xrstEnd + 1000 * s.f (A.twbXrstWait n) 15 0 ≤ s.now ∧
      (s.twb[n]).calQ.length + (s.twb[n]).swQ.length ≤ 8) = true) ∧
    (let s : State := State.reset
    let rnd : Nat := 0
    let n : Fin 32 := 3
    let s : State := { s.up with twb := vupd s.twb n (fun x => { x with st := 4 }) }
    let hold : BusCheck := { sclStuck := rnd % 4 = 0, sdaLow := rnd % 2 = 0, frees := some 3, stopOk := rnd % 3 != 0 }
    decide (s.on = true ∧
      (s.twb[n]).st = 4 ∧
      (s.twb[n]).calQ.length + (s.twb[n]).swQ.length ≤ 8) = true) ∧
    (let s : State := State.reset
    let rnd : Nat := 11
    let n : Fin 32 := 0
    let s : State := ({ s.up with twb := vupd s.twb n (fun x => { x with st := rnd % 6, xrstEnd := s.now + rnd % 9 }) }).setB (A.twbCtl n) 0 (rnd % 2 == 0)
    decide (s.b (A.twbCtl n) 0 = false) = true) ∧
    (let s : State := State.reset
    let rnd : Nat := 11
    let n : Fin 32 := 25
    let s : State := ({ s.up with twb := vupd s.twb n (fun x => { x with st := rnd % 6, xrstEnd := s.now + rnd % 9 }) }).setB (A.twbCtl n) 0 (rnd % 2 == 0)
    decide ((s.twb[n]).st ≠ 4) = true) ∧
    (let s : State := State.reset
    let rnd : Nat := 4
    let n : Fin 32 := 4
    let s : State := ({ s.up with twb := vupd s.twb n (fun x => { x with st := rnd % 6, xrstEnd := s.now + rnd % 9 }) }).setB (A.twbCtl n) 0 (rnd % 2 == 0)
    decide (((s.twb[n]).st ≠ 5 ∨ s.now < (s.twb[n]).xrstEnd + 1000 * s.f (A.twbXrstWait n) 15 0)) = true) ∧
    (let s : State := State.reset
    let rnd : Nat := 28
    let n : Fin 32 := 3
    let s : State := ({ s.up with twb := vupd s.twb n (fun x => { x with st := rnd % 6, xrstEnd := s.now + rnd % 9 }) }).setB (A.twbCtl n) 0 (rnd % 2 == 0)
    decide (((s.twb[n]).st ≠ 1 ∨ (s.twb[n]).run.isSome ∨ (s.twb[n]).next = none)) = true) ∧
    (let s : State := State.reset
    let rnd : Nat := 29
    let n : Fin 32 := 28
    let s : State := ({ s.up with twb := vupd s.twb n (fun x => { x with st := rnd % 6, xrstEnd := s.now + rnd % 9 }) }).setB (A.twbCtl n) 0 (rnd % 2 == 0)
    decide ((s.twb[n]).run = none) = true) :=
  ⟨by decide +kernel, by decide +kernel, by decide +kernel, by decide +kernel, by decide +kernel, by decide +kernel, by decide +kernel, by decide +kernel⟩

/-- Clauses of `Obligations.TwoWireBusFaultsEndLists` have states and operands that meet their hypotheses. -/
theorem witness_TwoWireBusFaultsEndLists_2 :
    (let s : State := State.reset
    let rnd : Nat := 7
    let n : Fin 32 := 8
    let s : State := ({ s.up with twb := vupd s.twb n (fun x => { x with st := 2, run := if rnd % 2 = 0 then none else some { list := { calendar := false } }, calQ := if rnd % 3 = 0 then [] else [{ calendar := true, entry := rnd % 64, slot := true }] }) }).setB (A.twbCtl n) 0 true
    decide (s.on = true ∧
      s.b (A.twbCtl n) 0 = true ∧
      (s.twb[n]).calQ.length + (s.twb[n]).swQ.length ≤ 8) = true) ∧
    (let s : State := State.reset
    let rnd : Nat := 7
    let n : Fin 32 := 3
    let s : State := { s.up with twb := vupd s.twb n (fun x => { x with st := 2, run := some { list := { calendar := false }, steps := [wd (1 * 2 ^ 28 + 0x42), wd (2 * 2 ^ 28 + 0x1234), 0#32], from_ := s.now, retries := rnd % 3 } }) }
    let r : TwRun := ((s.twb[n]).run).getD { list := { calendar := false } }
    let k : Fin 256 := Fin.ofNat 256 (rnd % 2)
    let resp : TwResp := { acks := [true, true, true, true], data := [] }
    let x : TwExec := s.twGo r resp (some k.val)
    let tries : Nat := if x.run.open_ = true ∨ k.val = x.run.txStart then x.run.retries else 0
    decide (s.on = true ∧
      (s.twb[n]).run = some r ∧
      s.twGo r resp (some k.val) = x ∧
      x.code = none ∧
      x.run.pc = k.val ∧
      ((x.run.open_ = true ∨ stepOp (x.run.steps.getD k.val 0#32) = 1)) ∧
      (tries = (if x.run.open_ = true ∨ k.val = x.run.txStart then x.run.retries else 0))) = true) ∧
    (let s : State := State.reset
    let rnd : Nat := 5
    let n : Fin 32 := 8
    let s : State := { s.up with twb := vupd s.twb n (fun x => { x with st := 2, run := some { list := { calendar := false }, steps := [wd (1 * 2 ^ 28 + 0x42), wd (2 * 2 ^ 28 + 0x1234), 0#32], from_ := s.now, retries := rnd % 3 } }) }
    let r : TwRun := ((s.twb[n]).run).getD { list := { calendar := false } }
    let k : Fin 256 := Fin.ofNat 256 (rnd % 2)
    let resp : TwResp := { acks := [true, true, true, true], data := [] }
    let hold : BusCheck := { sclStuck := rnd % 5 = 0, sdaLow := rnd % 2 = 0, frees := if rnd % 2 = 0 then some 3 else none, stopOk := rnd % 3 = 0 }
    let x : TwExec := s.twGo r resp (some k.val)
    let low : Nat := if rnd % 4 = 0 then 500 else 10 ^ 9
    decide (s.on = true ∧
      (s.twb[n]).run = some r ∧
      s.twGo r resp (some k.val) = x ∧
      x.code = none ∧
      x.run.pc = k.val ∧
      ((x.run.open_ = true ∨ stepOp (x.run.steps.getD k.val 0#32) = 1)) ∧
      stepOp (x.run.steps.getD k.val 0#32) ≠ 5 ∧
      (s.twb[n]).calQ.length + (s.twb[n]).swQ.length ≤ 8 ∧
      10000 * atLeast1 (s.f (A.twbTmo n) 15 0) ≤ low) = true) ∧
    (let s : State := State.reset
    let rnd : Nat := 8
    let n : Fin 32 := 3
    let s : State := { s.up with twb := vupd s.twb n (fun x => { x with st := 2, run := some { list := { calendar := false }, steps := [wd (1 * 2 ^ 28 + 0x42), wd (2 * 2 ^ 28 + 0x1234), 0#32], from_ := s.now, retries := rnd % 3 } }) }
    let r : TwRun := ((s.twb[n]).run).getD { list := { calendar := false } }
    let k : Fin 256 := Fin.ofNat 256 (rnd % 2)
    let resp : TwResp := { acks := [true, true, true, true], data := [] }
    let hold : BusCheck := { sclStuck := rnd % 5 = 0, sdaLow := rnd % 2 = 0, frees := if rnd % 2 = 0 then some 3 else none, stopOk := rnd % 3 = 0 }
    let x : TwExec := s.twGo r resp (some k.val)
    let low : Nat := if rnd % 4 = 0 then 500 else 10 ^ 9
    decide (s.on = true ∧
      (s.twb[n]).run = some r ∧
      s.twGo r resp (some k.val) = x ∧
      x.code = none ∧
      x.run.pc = k.val ∧
      ((x.run.open_ = true ∨ stepOp (x.run.steps.getD k.val 0#32) = 1)) ∧
      stepOp (x.run.steps.getD k.val 0#32) ≠ 5 ∧
      (s.twb[n]).calQ.length + (s.twb[n]).swQ.length ≤ 8 ∧
      low < 10000 * atLeast1 (s.f (A.twbTmo n) 15 0)) = true) ∧
    (let s : State := State.reset
    let n : Fin 32 := 5
    let s : State := { s.up with now := s.now + 10 ^ 9, twb := vupd s.twb n (fun x => { x with st := 1, run := none, waitFrom := s.now, calQ := [], swQ := [{ calendar := false, addr := 0 }] }) }
    let s : State := (s.wr (A.twbLram n 0) (wd (2 ^ 28 + 0x42))).wr (A.twbLram n 1) 0#32
    let l : TwList := ((s.twb[n]).next).getD { calendar := false }
    decide (s.on = true ∧
      (s.twb[n]).st = 1 ∧
      (s.twb[n]).run = none ∧
      (s.twb[n]).next = some l ∧
      l.lake = false ∧
      (s.acceptList n l []).1 = none ∧
      ((firstStart (s.acceptList n l []).2.1).any (fun i => decide ((((s.acceptList n l []).2.1.take i).any (fun w => stepOp w == 5) = false) ∧ ((s.twb[n]).waitFrom + 10000 * atLeast1 (s.f (A.twbTmo n) 31 16) ≤ s.now))) = true)) = true) ∧
    (let s : State := State.reset
    let n : Fin 32 := 0
    let s : State := { s.up with twb := vupd s.twb n (fun x => { x with st := 1, run := none, waitFrom := s.now, calQ := [], swQ := [{ calendar := false, addr := 0 }] }) }
    let s : State := (s.wr (A.twbLram n 0) (wd (2 ^ 28 + 0x42))).wr (A.twbLram n 1) 0#32
    let l : TwList := ((s.twb[n]).next).getD { calendar := false }
    decide (s.on = true ∧
      (s.twb[n]).st = 1 ∧
      (s.twb[n]).run = none ∧
      (s.twb[n]).next = some l ∧
      l.lake = false ∧
      (s.acceptList n l []).1 = none ∧
      (firstStart (s.acceptList n l []).2.1 = none ∨ s.now < (s.twb[n]).waitFrom + 10000 * atLeast1 (s.f (A.twbTmo n) 31 16))) = true) ∧
    (let s : State := State.reset
    let rnd : Nat := 0
    let n : Fin 32 := 2
    let s : State := { s.up with now := s.now + 10 ^ 9, twb := vupd s.twb n (fun x => { x with st := 2, run := some { list := { calendar := false }, pc := 1, steps := [wd (5 * 2 ^ 28 + 3), wd (1 * 2 ^ 28 + 0x42), wd (2 * 2 ^ 28 + 0x1234), 0#32], from_ := s.now + rnd % 3 * 400000000, retries := rnd % 3 / 2 } }) }
    let r : TwRun := ((s.twb[n]).run).getD { list := { calendar := false } }
    decide (s.on = true ∧
      (s.twb[n]).run = some r ∧
      firstStart r.steps = some r.pc ∧
      r.open_ = false ∧
      r.retries = 0 ∧
      r.from_ + 10000 * atLeast1 (s.f (A.twbTmo n) 31 16) ≤ s.now) = true) ∧
    (let s : State := State.reset
    let n : Fin 32 := 0
    let s : State := { s.up with twb := vupd s.twb n (fun x => { x with st := 2, run := some { list := { calendar := false }, pc := 1, steps := [wd (5 * 2 ^ 28 + 3), wd (1 * 2 ^ 28 + 0x42), wd (2 * 2 ^ 28 + 0x1234), 0#32], from_ := s.now } }) }
    let r : TwRun := ((s.twb[n]).run).getD { list := { calendar := false } }
    decide (s.on = true ∧
      (s.twb[n]).run = some r ∧
      firstStart r.steps = some r.pc ∧
      r.open_ = false ∧
      r.retries = 0 ∧
      s.now < r.from_ + 10000 * atLeast1 (s.f (A.twbTmo n) 31 16)) = true) :=
  ⟨by decide +kernel, by decide +kernel, by decide +kernel, by decide +kernel, by decide +kernel, by decide +kernel, by decide +kernel, by decide +kernel⟩

/-- Clauses of `Obligations.BoardTargetReadsAndWrites` have states and operands that meet their hypotheses. -/
theorem witness_BoardTargetReadsAndWrites :
    (let s : State := State.reset
    let rnd : Nat := 8
    let s : State := if rnd % 2 = 0 then s.up else s
    let s : State := s.setB A.twbtCtl 8 true
    let a : BitVec 24 := BitVec.ofNat 24 ((if rnd % 2 = 0 then 0x6C0000 else 0x190000) + 4 * (rnd % 40))
    decide (s.on = true ∧
      s.b A.twbtCtl 8 = true ∧
      a.toNat % 4 = 0 ∧
      twtRange a.toNat = .write) = true) ∧
    (let s : State := State.reset
    let a : BitVec 24 := 0x24d3a7#24
    let s : State := s.up
    let s : State := s.setB A.twbtCtl 8 true
    decide (s.on = true ∧
      s.b A.twbtCtl 8 = true ∧
      ((a.toNat % 4 ≠ 0 ∨ twtRange a.toNat ≠ .write))) = true) ∧
    (let s : State := State.reset
    let rnd : Nat := 6
    let s : State := s.up
    let s : State := s.setB A.twbtCtl 8 true
    let a : BitVec 24 := BitVec.ofNat 24 (pickReg rnd (fun r => twtRange r.base != .none))
    decide (s.on = true ∧
      s.b A.twbtCtl 8 = true ∧
      a.toNat % 4 = 0 ∧
      twtRange a.toNat ≠ .none) = true) ∧
    (let s : State := State.reset
    let a : BitVec 24 := 0xb7a284#24
    let s : State := s.up
    let s : State := s.setB A.twbtCtl 8 true
    decide (s.on = true ∧
      s.b A.twbtCtl 8 = true ∧
      ((a.toNat % 4 ≠ 0 ∨ twtRange a.toNat = .none))) = true) ∧
    (let s : State := State.reset
    let rnd : Nat := 8
    let s : State := (s.pow1 (fun p => { p with st := .doze })).setB A.twbtCtl 8 true
    let a : BitVec 24 := BitVec.ofNat 24 ((if rnd % 3 = 0 then 0x6C0000 else if rnd % 3 = 1 then 0x700000 else 0x190000) + 4 * (rnd % 40))
    decide (s.power.st = .doze ∧
      s.b A.twbtCtl 8 = true ∧
      a.toNat % 4 = 0 ∧
      twtRangeAsleep a.toNat = .none) = true) ∧
    (let s : State := State.reset
    let rnd : Nat := 4
    let s : State := (s.pow1 (fun p => { p with st := .doze })).setB A.twbtCtl 8 true
    let a : BitVec 24 := BitVec.ofNat 24 ((if rnd % 3 = 0 then 0x6C0000 else if rnd % 3 = 1 then 0x700000 else 0x190000) + 4 * (rnd % 40))
    decide (s.power.st = .doze ∧
      s.b A.twbtCtl 8 = true ∧
      a.toNat % 4 = 0 ∧
      twtRangeAsleep a.toNat ≠ .none) = true) ∧
    (let s : State := State.reset
    let rnd : Nat := 8
    let s : State := (s.pow1 (fun p => { p with st := .doze })).setB A.twbtCtl 8 true
    let a : BitVec 24 := BitVec.ofNat 24 ((if rnd % 3 = 0 then 0x6C0000 else if rnd % 3 = 1 then 0x700000 else 0x190000) + 4 * (rnd % 40))
    decide (s.power.st = .doze ∧
      s.b A.twbtCtl 8 = true ∧
      a.toNat % 4 = 0 ∧
      twtRangeAsleep a.toNat ≠ .write) = true) ∧
    (let s : State := State.reset
    let rnd : Nat := 24
    let s : State := if rnd % 2 = 0 then s.setB A.twbtCtl 8 false else s.pow1 (fun p => { p with st := .off })
    decide (((s.b A.twbtCtl 8 = false ∨ s.power.st = .off))) = true) :=
  ⟨by decide +kernel, by decide +kernel, by decide +kernel, by decide +kernel, by decide +kernel, by decide +kernel, by decide +kernel, by decide +kernel⟩

/-- Clauses of `Obligations.BoardTargetReadsAndWrites` have states and operands that meet their hypotheses. -/
theorem witness_BoardTargetReadsAndWrites_2 :
    (let s : State := State.reset
    let s : State := s.up
    let s : State := s.setB A.twbtCtl 8 true
    decide (s.on = true ∧
      s.b A.twbtCtl 8 = true) = true) ∧
    (let s : State := State.reset
    let rnd : Nat := 8
    let s : State := s.up
    let s : State := s.setB A.twbtCtl 8 true
    let a : BitVec 24 := BitVec.ofNat 24 ((if rnd % 2 = 0 then 0x6C0000 else 0x190000) + 4 * (rnd % 40))
    decide (s.on = true ∧
      s.b A.twbtCtl 8 = true ∧
      a.toNat % 4 = 0 ∧
      twtRange a.toNat = .write) = true) ∧
    (let s : State := State.reset
    let rnd : Nat := 2
    let s : State := s.up
    let s : State := s.setB A.twbtCtl 8 true
    let low : Nat := 10 ^ 10 + rnd
    let a : BitVec 24 := BitVec.ofNat 24 ((if rnd % 2 = 0 then 0x6C0000 else 0x190000) + 4 * (rnd % 40))
    decide (s.on = true ∧
      s.b A.twbtCtl 8 = true ∧
      a.toNat % 4 = 0 ∧
      twtRange a.toNat = .write ∧
      100000 * atLeast1 (s.f A.twbtTmo 15 0) < low) = true) ∧
    (let s : State := State.reset
    let s : State := s.up.setB A.twbtCtl 8 true
    let low : Nat := 7
    let a : BitVec 24 := BitVec.ofNat 24 0x6C0000
    decide (s.on = true ∧
      s.b A.twbtCtl 8 = true ∧
      a.toNat % 4 = 0 ∧
      twtRange a.toNat = .write ∧
      low ≤ 100000 * atLeast1 (s.f A.twbtTmo 15 0)) = true) ∧
    (let s : State := State.reset
    let rnd : Nat := 9
    let s : State := s.up
    let v : Word := wd (2 * rnd + 1)
    decide (s.on = true ∧
      bit v 0 = true) = true) ∧
    (let s : State := State.reset
    let s : State := s.up
    let v : Word := 0#32
    decide (s.on = true ∧
      bit v 0 = false) = true) ∧
    (let s : State := State.reset
    let rnd : Nat := 6
    let s : State := (s.pow1 (fun p => { p with st := if rnd % 2 = 0 then .doze else .still })).setB A.twbtCtl 8 true
    decide (s.b A.twbtCtl 8 = true ∧
      ((s.power.st = .doze ∨ s.power.st = .still ∧ s.ioGone = false))) = true) ∧
    (let s : State := State.reset
    let s : State := s.up
    decide ((s.b A.twbtCtl 8 = false ∨ s.power.st = .on ∨ s.power.st = .off ∨ s.ioGone = true)) = true) :=
  ⟨by decide +kernel, by decide +kernel, by decide +kernel, by decide +kernel, by decide +kernel, by decide +kernel, by decide +kernel, by decide +kernel⟩

/-- Clauses of `Obligations.TriggersAndExposureEntriesFire` have states and operands that meet their hypotheses. -/
theorem witness_TriggersAndExposureEntriesFire :
    (let s : State := State.reset
    let rnd : Nat := 4
    let b : Fin 4 := 1
    let s : State := s.up
    let s : State := ((s.setB (A.ltgCtl b) 0 true).setB (A.ltgCtl b) 1 false).onLtg b (fun x => { x with next := some ((s.ltgPos b + 2 ^ 64 - (if rnd % 3 = 0 then 0 else rnd)) % 2 ^ 64), last := if rnd % 4 = 0 then none else some (s.now - 1000 * (rnd % 200)) })
    let p : Nat := ((s.ltg[b]).next).getD 0
    decide (s.on = true ∧
      s.b (A.ltgCtl b) 0 = true ∧
      s.b (A.ltgCtl b) 1 = false ∧
      (s.ltg[b]).next = some p ∧
      0 ≤ wrapDiff 64 (s.ltgPos b) p ∧
      (s.ltg[b]).last.all (fun t => decide (t + max 1000 (s.f (A.ltgMinPeriod b) 15 0) ≤ s.now)) = true) = true) ∧
    (let s : State := State.reset
    let rnd : Nat := 6
    let b : Fin 4 := 0
    let s : State := s.up
    let s : State := ((s.setB (A.ltgCtl b) 0 true).setB (A.ltgCtl b) 1 false).onLtg b (fun x => { x with next := some ((s.ltgPos b + rnd) % 2 ^ 64) })
    let p : Nat := ((s.ltg[b]).next).getD 0
    decide ((s.ltg[b]).next = some p ∧
      wrapDiff 64 (s.ltgPos b) p < 0) = true) ∧
    (let s : State := State.reset
    let b : Fin 4 := 1
    decide ((s.b (A.ltgCtl b) 0 = false ∨ s.b (A.ltgCtl b) 1 = true)) = true) ∧
    (let s : State := State.reset
    let b : Fin 4 := 3
    let s : State := s.up
    let s : State := ((s.setB (A.ltgCtl b) 0 true).setB (A.ltgCtl b) 1 false).onLtg b (fun x => { x with next := none })
    decide (s.on = true ∧
      s.b (A.ltgCtl b) 0 = true ∧
      s.b (A.ltgCtl b) 1 = false ∧
      (s.ltg[b]).next = none) = true) ∧
    (let s : State := press
    let rnd : Nat := 0
    let b : Fin 4 := 1
    let s : State := s.up
    let s : State := ((s.setB (A.ltgCtl b) 0 true).setB (A.ltgCtl b) 1 true).onLtg b (fun x => { x with from_ := s.now - 20000000, last := if rnd % 4 = 0 then none else some (s.now - 1000 * (rnd % 200)) })
    decide (s.on = true ∧
      s.b (A.ltgCtl b) 0 = true ∧
      s.b (A.ltgCtl b) 1 = true ∧
      (s.ltg[b]).from_ + max 1000 (s.f (A.ltgPeriod b) 23 0) ≤ s.now ∧
      (s.ltg[b]).last.all (fun t => decide (t + max 1000 (s.f (A.ltgMinPeriod b) 15 0) ≤ s.now)) = true) = true) ∧
    (let s : State := State.reset
    let rnd : Nat := 2
    let b : Fin 4 := 2
    let s : State := (s.setB (A.ltgCtl b) 0 (rnd % 2 = 0)).onLtg b (fun x => { x with from_ := s.now - rnd % 5000 })
    decide (((s.b (A.ltgCtl b) 0 = false ∨ s.b (A.ltgCtl b) 1 = false ∨ s.now < (s.ltg[b]).from_ + max 1000 (s.f (A.ltgPeriod b) 23 0)))) = true) ∧
    (let s : State := State.reset
    let rnd : Nat := 6
    let b : Fin 4 := 0
    let s : State := s.up
    let s : State := ((s.setB (A.ltgCtl b) 0 true).setB (A.ltgCtl b) 1 false).onLtg b (fun x => { x with next := some ((s.ltgPos b + 2 ^ 64 - (if rnd % 3 = 0 then 0 else rnd % 9)) % 2 ^ 64), last := some (s.now - rnd % 3000) })
    let p : Nat := ((s.ltg[b]).next).getD 0
    decide (s.on = true ∧
      s.b (A.ltgCtl b) 0 = true ∧
      s.b (A.ltgCtl b) 1 = false ∧
      (s.ltg[b]).next = some p ∧
      0 ≤ wrapDiff 64 (s.ltgPos b) p ∧
      (s.ltg[b]).last.all (fun t => decide (t + max 1000 (s.f (A.ltgMinPeriod b) 15 0) ≤ s.now)) = false) = true) ∧
    (let s : State := press
    let rnd : Nat := 3
    let b : Fin 4 := 3
    let s : State := s.up
    let s : State := ((s.setB (A.ltgCtl b) 0 true).setB (A.ltgCtl b) 1 true).onLtg b (fun x => { x with from_ := s.now - 20000000 , last := some (s.now - rnd % 3000) })
    decide (s.on = true ∧
      s.b (A.ltgCtl b) 0 = true ∧
      s.b (A.ltgCtl b) 1 = true ∧
      (s.ltg[b]).from_ + max 1000 (s.f (A.ltgPeriod b) 23 0) ≤ s.now ∧
      (s.ltg[b]).last.all (fun t => decide (t + max 1000 (s.f (A.ltgMinPeriod b) 15 0) ≤ s.now)) = false) = true) :=
  ⟨by decide +kernel, by decide +kernel, by decide +kernel, by decide +kernel, by decide +kernel, by decide +kernel, by decide +kernel, by decide +kernel⟩

/-- Clauses of `Obligations.TriggersAndExposureEntriesFire` have states and operands that meet their hypotheses. -/
theorem witness_TriggersAndExposureEntriesFire_2 :
    (let s : State := press
    let rnd : Nat := 2
    let n : Fin 32 := 9
    let e : Fin 64 := 7
    let s : State := s.up
    let n : Fin 32 := Fin.ofNat 32 (((s.group (rnd % 4)).springs).getD (rnd % 3) (rnd % 32))
    let s : State := s.setF (A.expeStat n e) 31 28 (if rnd % 2 = 0 then 0 else rnd % 7)
    decide (s.on = true ∧
      (s.groupOf n).isSome = true ∧
      s.entrySt n e ∉ [1, 2, 3] ∧
      ((s.groupOf n).bind (fin? 12)).all (fun g => decide (((s.grp[g]).trig).all (fun x => decide (x.1 ≠ s.now)) = true)) = true) = true) ∧
    (let s : State := press
    let rnd : Nat := 2
    let n : Fin 32 := 3
    let e : Fin 64 := 1
    let g : Fin 12 := 0
    let pitch : Nat := 2
    let s : State := s.up
    let n : Fin 32 := Fin.ofNat 32 (((s.group (rnd % 12)).springs).getD (rnd % 3) (rnd % 32))
    let g : Fin 12 := Fin.ofNat 12 ((s.groupOf n).getD 0)
    let s : State := ((((s.setF (A.expeStat n e) 31 28 (4 + rnd % 3)).wr (A.expeTarget n e) (wd ((s.rd (A.frmFrame g)).toNat + [0, 1, 1, 2, 3, 9].getD (rnd % 6) 0))).setF (A.frmSrc g) 1 0 0).onTwb n (fun x => { x with st := 1, calQ := [] })).onGrp g (fun x => { x with trig := some (s.now, rnd, 1 + rnd % 5000) })
    let s : State := s.setB (A.twbCtl n) 0 true
    let pos : Nat := ((s.grp[g]).trig).elim 0 (fun x => x.2.1)
    let pitch : Nat := ((s.grp[g]).trig).elim 0 (fun x => x.2.2)
    decide (s.on = true ∧
      s.groupOf n = some g.val ∧
      s.entrySt n e ∉ [1, 2, 3] ∧
      (s.grp[g]).trig = some (s.now, pos, pitch) ∧
      (s.twb[n]).st ∈ [1, 2, 3] ∧
      s.b (A.twbCtl n) 0 = true ∧
      (s.twb[n]).calQ.length < 4) = true) ∧
    (let s : State := State.reset
    let rnd : Nat := 4
    let n : Fin 32 := 8
    let e : Fin 64 := 0
    let s : State := s.up
    let s : State := s.setF (A.expeStat n e) 31 28 (1 + rnd % 3)
    decide (((s.groupOf n = none ∨ s.entrySt n e ∈ [1, 2, 3]))) = true) ∧
    (let s : State := State.reset
    let n : Fin 32 := 3
    let e : Fin 64 := 5
    let s : State := s.up
    let s : State := s.setF (A.expeStat n e) 31 28 1
    decide (s.on = true ∧
      s.entrySt n e = 1) = true) ∧
    (let s : State := State.reset
    let n : Fin 32 := 4
    let e : Fin 64 := 6
    decide (s.entrySt n e ≠ 1) = true) :=
  ⟨by decide +kernel, by decide +kernel, by decide +kernel, by decide +kernel, by decide +kernel⟩

/-- Clauses of `Obligations.StitchedLinesAssembleInOrder` have states and operands that meet their hypotheses. -/
theorem witness_StitchedLinesAssembleInOrder :
    (let s : State := press
    let b : Fin 4 := 1
    let s : State := s.up
    let s : State := if (s.seam[b]).inq.isEmpty then s.onSeam b (fun x => { x with inq := [{ tag := {} }], seen := 0, hist := [] }) else s
    let l : SeamLine := ((s.seam[b]).inq.head?).getD { tag := {} }
    let rest : List SeamLine := (s.seam[b]).inq.drop 1
    decide (s.on = true ∧
      (s.seam[b]).inq = l :: rest ∧
      l.marker = false ∧
      l.seen ≤ s.now ∧
      (s.seam[b]).cut ≠ some l.tag.frame ∧
      (s.seam[b]).seen < (s.group b).depth) = true) ∧
    (let s : State := State.reset
    let rnd : Nat := 5
    let b : Fin 4 := 2
    let s : State := s.up
    let s : State := if (s.seam[b]).inq.isEmpty then s.onSeam b (fun x => { x with inq := [{ tag := { frame := rnd % 5 } }], cut := none, seen := (s.group b).depth + rnd % 2, hist := List.replicate ((s.group b).depth + 2) { tag := { frame := rnd % 3 } } }) else s
    let l : SeamLine := ((s.seam[b]).inq.head?).getD { tag := {} }
    let rest : List SeamLine := (s.seam[b]).inq.drop 1
    let named : SeamLine := ((l :: (s.seam[b]).hist)[(s.group b).depth]?).getD { tag := {} }
    decide (let d := (s.group b).depth
      let hist := (l :: (s.seam[b]).hist).take (d + 2)
      s.on = true ∧
      (s.seam[b]).inq = l :: rest ∧
      l.marker = false ∧
      l.seen ≤ s.now ∧
      (s.seam[b]).cut ≠ some l.tag.frame ∧
      d ≤ (s.seam[b]).seen ∧
      (l :: (s.seam[b]).hist)[d]? = some named) = true) ∧
    (let s : State := State.reset
    let rnd : Nat := 9
    let b : Fin 4 := 3
    let s : State := s.up
    let s : State := s.onSeam b (fun x => { x with inq := { tag := { frame := rnd % 5 }, marker := true, cause := rnd % 6 } :: x.inq })
    let l : SeamLine := ((s.seam[b]).inq.head?).getD { tag := {} }
    let rest : List SeamLine := (s.seam[b]).inq.drop 1
    decide (let x := s.seam[b]
      let d := (s.group b).depth
      let v := (List.range (min x.seen d)).reverse.foldl (fun v k => match x.hist[k]? with | some named => v.assemble b x.hist (d - k) named named.at_ | none => v) (s.onSeam b (fun x => { x with inq := rest }))
      s.on = true ∧
      x.inq = l :: rest ∧
      l.marker = true ∧
      l.seen ≤ s.now ∧
      x.cut ≠ some l.tag.frame) = true) ∧
    (let s : State := State.reset
    let rnd : Nat := 5
    let b : Fin 4 := 2
    let s : State := s.up
    let s : State := s.onSeam b (fun x => { x with inq := { tag := { frame := rnd % 5 }, marker := rnd % 2 == 0 } :: x.inq, cut := some (rnd % 5) })
    let l : SeamLine := ((s.seam[b]).inq.head?).getD { tag := {} }
    let rest : List SeamLine := (s.seam[b]).inq.drop 1
    decide (s.on = true ∧
      (s.seam[b]).inq = l :: rest ∧
      l.seen ≤ s.now ∧
      (s.seam[b]).cut = some l.tag.frame ∧
      l.marker = false) = true) ∧
    (let s : State := State.reset
    let rnd : Nat := 8
    let b : Fin 4 := 2
    let s : State := s.up
    let s : State := s.onSeam b (fun x => { x with inq := { tag := { frame := rnd % 5 }, marker := rnd % 2 == 0 } :: x.inq, cut := some (rnd % 5) })
    let l : SeamLine := ((s.seam[b]).inq.head?).getD { tag := {} }
    let rest : List SeamLine := (s.seam[b]).inq.drop 1
    decide (s.on = true ∧
      (s.seam[b]).inq = l :: rest ∧
      l.seen ≤ s.now ∧
      (s.seam[b]).cut = some l.tag.frame ∧
      l.marker = true) = true) ∧
    (let s : State := State.reset
    let b : Fin 4 := 3
    decide ((s.seam[b]).inq.head?.all (fun l => l.marker || decide (s.now < l.seen)) = true) = true) ∧
    (let s : State := State.reset
    let b : Fin 4 := 1
    decide ((s.seam[b]).inq.head?.all (fun l => !l.marker || decide (s.now < l.seen)) = true) = true) ∧
    (let s : State := State.reset
    let b : Fin 4 := 2
    decide ((s.seam[b]).done_ = []) = true) :=
  ⟨by decide +kernel, by decide +kernel, by decide +kernel, by decide +kernel, by decide +kernel, by decide +kernel, by decide +kernel, by decide +kernel⟩

/-- Clauses of `Obligations.SeamTrackingAppliesAtItsFrame` have states and operands that meet their hypotheses. -/
theorem witness_SeamTrackingAppliesAtItsFrame :
    (let s : State := State.reset
    let rnd : Nat := 2
    let b : Fin 4 := 3
    let s : State := s.up
    let s : State := if (s.seam[b]).done_.isEmpty then s.onSeam b (fun x => { x with done_ := [{ frame := rnd % 7, geo := [], rows := [], overlaps := [rnd % 60, 20, 20] }] }) else s
    let f : MeasFrame := ((s.seam[b]).done_.head?).getD { frame := 0, geo := [] }
    let rest : List MeasFrame := (s.seam[b]).done_.drop 1
    decide (s.on = true ∧
      (s.seam[b]).done_ = f :: rest) = true) ∧
    (let s : State := State.reset
    let rnd : Nat := 6
    let b : Fin 4 := 1
    let s : State := s.up
    let s : State := (s.setB (A.seamBarCtl b) 0 (rnd % 4 == 0)).onSeam b (fun x => { x with done_ := [{ frame := rnd % 7, geo := [], rows := [], overlaps := [rnd % 60, 20, 20] }] })
    let f : MeasFrame := ((s.seam[b]).done_.head?).getD { frame := 0, geo := [] }
    let rest : List MeasFrame := (s.seam[b]).done_.drop 1
    decide (s.on = true ∧
      (s.seam[b]).done_ = f :: rest ∧
      s.b (A.seamBarCtl b) 0 = false) = true) ∧
    (let s : State := State.reset
    let rnd : Nat := 9
    let b : Fin 4 := 3
    let s : State := s.up
    let s : State := { (s.setB (A.seamBarCtl b) 0 true) with str := { s.str with groups := s.str.groups.set b.val { s.group b with springs := [5, 9, 2] } } }
    let s : State := (((s.wr (A.seamBarQmin b) (wd (rnd % 60000))).wr (A.seamBarGain b) (wd (rnd * 7))).wr (A.seamBarStepXy b) (wd (rnd * 3))).wr (A.seamBarStepM b) (wd (rnd % 65536))
    let s : State := (List.range 12).foldl (fun s i => let q := i % 3; let n := [5, 9, 2].getD (i / 3) 2; let a := seamRegs q n; ((s.wr a.1 (wd (if q = 2 then 500 else 0))).wr a.2.1 (wd (if q = 2 then 300 else if q = 1 then 0x1FFF000 else 0xFFFF000))).wr a.2.2 (wd 0x900)) s
    let s : State := s.onSeam b (fun x => { x with done_ := [{ frame := rnd % 7, geo := [], rows := (List.range 20).flatMap (fun i => [0, 1].map (fun k => { seam := k, a := (List.range 16).map (fun j => (j * j * 37 + i * 91 + rnd / 7) % 5000), b := (List.range 18).map (fun j => ((j + rnd % 3) * (j + rnd % 3) * 37 + i * 91 + rnd / 7) % 5000), overlap := 16, line := i })), overlaps := [16, 16 + rnd % 2] }] })
    let f : MeasFrame := ((s.seam[b]).done_.head?).getD { frame := 0, geo := [] }
    let rest : List MeasFrame := (s.seam[b]).done_.drop 1
    decide (let ord := s.order b
      let seamOf := fun (k : Nat) => if s.anchor b < k then k - 1 else k
      let cur := fun (q k : Nat) => seamNum q (s.rd (seamRegs q (ord.getD k 0)).1)
      let law := fun (k : Nat) (m : SeamMeas) => (trackLaw (decide (s.anchor b < k)) (s.sprCols (ord.getD k 0)) (s.f (A.seamBarGain b) 7 0) (s.f (A.seamBarGain b) 15 8) (s.f (A.seamBarGain b) 23 16) (s.f (A.seamBarStepXy b) 15 0) (s.f (A.seamBarStepM b) 15 0) (s.f (A.seamBarStepXy b) 31 16) (cur 0 k) (cur 1 k) (cur 2 k) (windowRule s (ord.getD k 0)) m)
      let valid := fun (k : Nat) => if k = s.anchor b then none else (seamMeasured s b f (seamOf k)).filter (fun m => m.valid)
      s.on = true ∧
      (s.seam[b]).done_ = f :: rest ∧
      s.b (A.seamBarCtl b) 0 = true ∧
      ord.Nodup ∧
      (ord).all (fun n => decide (n < 32)) = true) = true) ∧
    (let s : State := press
    let rnd : Nat := 3
    let b : Fin 4 := 2
    let s : State := s.up
    let s : State := { s with str := { s.str with groups := s.str.groups.set b.val { s.group b with depth := 1 + rnd % 9 } } }
    let s : State := s.onSeam b (fun x => { x with hist := List.replicate 20 { tag := { frame := rnd % 5 } }, seen := 20, lastFrame := some 3, updates := [{ spring := rnd % 3, frame := rnd % 3, ofs := rnd, mag := 5, dly := 7, press := rnd % 8 }, { spring := (rnd / 3) % 3, frame := rnd % 4, ofs := 9, mag := 6, dly := 8, press := rnd % 3 }] })
    let l : SeamLine := (((s.seam[b]).hist)[(s.group b).depth - 1]?).getD { tag := {} }
    decide (let due := (s.seam[b]).updates.filter (fun x => !isLater 32 x.frame l.tag.frame)
      s.on = true ∧
      (if (s.group b).depth = 0 then (s.seam[b]).inq.head? else if (s.group b).depth ≤ (s.seam[b]).seen then ((s.seam[b]).hist)[(s.group b).depth - 1]? else none) = some l ∧
      (s.seam[b]).lastFrame = some l.tag.frame) = true) ∧
    (let s : State := press
    let rnd : Nat := 2
    let b : Fin 4 := 2
    let s : State := s.up
    let s : State := { s with str := { s.str with groups := s.str.groups.set b.val { s.group b with depth := 1 + rnd % 9 } } }
    let s : State := s.onSeam b (fun x => { x with hist := List.replicate 20 { tag := { frame := rnd % 5 } }, seen := 20, lastFrame := some 3, updates := [{ spring := rnd % 3, frame := rnd % 3, ofs := rnd, mag := 5, dly := 7, press := rnd % 8 }, { spring := (rnd / 3) % 3, frame := rnd % 4, ofs := 9, mag := 6, dly := 8, press := rnd % 3 }] })
    let l : SeamLine := (((s.seam[b]).hist)[(s.group b).depth - 1]?).getD { tag := {} }
    decide (let due := (s.seam[b]).updates.filter (fun x => !isLater 32 x.frame l.tag.frame)
      s.on = true ∧
      (if (s.group b).depth = 0 then (s.seam[b]).inq.head? else if (s.group b).depth ≤ (s.seam[b]).seen then ((s.seam[b]).hist)[(s.group b).depth - 1]? else none) = some l ∧
      (s.seam[b]).lastFrame ≠ some l.tag.frame ∧
      ((due).all (fun x => decide (x.spring < 32 ∧ x.press < 8)) = true)) = true) ∧
    (let s : State := State.reset
    let i : Fin 2048 := 9
    let s : State := s.up
    decide (s.on = true ∧
      s.bankUsed (i / 1024) = false) = true) ∧
    (let s : State := press
    let i : Fin 2048 := 0
    let s : State := s.up
    decide (s.on = true ∧
      s.bankUsed (i / 1024) = true) = true) :=
  ⟨by decide +kernel, by decide +kernel, by decide +kernel, by decide +kernel, by decide +kernel, by decide +kernel, by decide +kernel⟩

/-- Clauses of `Obligations.RoundsAndSlotsAdvance` have states and operands that meet their hypotheses. -/
theorem witness_RoundsAndSlotsAdvance :
    (let s : State := State.reset
    let rnd : Nat := 7
    let s : State := s.up
    let s : State := if rnd % 4 = 0 then s else { s with engine := { s.engine with rounds := 0 } }.setF A.leUtilWin 15 0 (2 + rnd % 7)
    decide (s.on = true ∧
      s.switchDue = false ∧
      s.engine.rounds + 1 < atLeast1 (s.f A.leUtilWin 15 0)) = true) ∧
    (let s : State := State.reset
    let rnd : Nat := 5
    let s : State := s.up
    let s : State := { s with engine := { s.engine with rounds := rnd % 9 } }.setF A.leUtilWin 15 0 (1 + rnd % 7)
    decide (s.on = true ∧
      s.switchDue = false ∧
      atLeast1 (s.f A.leUtilWin 15 0) ≤ s.engine.rounds + 1) = true) ∧
    (let s : State := State.reset
    let rnd : Nat := 8
    let s : State := s.up
    let s : State := { s with engine := { s.engine with slot := rnd % 260 } }
    decide (let v := s.beginSlot s.engine.slot
      let served := slotServes v s.engine.slot
      s.on = true ∧
      s.engine.slot < 256) = true) ∧
    (let s : State := State.reset
    let rnd : Nat := 9
    let s : State := { s with engine := { s.engine with slot := 256 + rnd % 3 } }
    decide (256 ≤ s.engine.slot) = true) :=
  ⟨by decide +kernel, by decide +kernel, by decide +kernel, by decide +kernel⟩

/-- Clauses of `Obligations.LakeRegionsFeedTheChain` have states and operands that meet their hypotheses. -/
theorem witness_LakeRegionsFeedTheChain :
    (let s : State := press
    let rnd : Nat := 0
    let g : Fin 12 := 6
    let s : State := s.free
    let s : State := (({ s with str := { s.str with groups := s.str.groups.set g.val { s.group g with springs := [9], inline := false, depth := 0 }, lake := [{ kind := 2, owner := g.val, base := 0, size := 10000000 }] } }.onGrp g (fun x => { x with cuts := [] })).onSpr 9 (fun x => { x with pond := [{ tag := { frame := rnd % 3 } }, { tag := { frame := 2, line := 3 } }] })).onEng g (fun e => { e with full := if rnd % 2 = 0 then none else some (7, 0, 0) })
    let s : State := if rnd % 5 < 2 then s else let st := s.str; { s with sic := { s.sic with phase := .settle, old := { st with lake := [{ kind := 2, owner := g.val, base := rnd % 2, size := 10000000 }] }, next := st, marks := [(g.val, rnd / 11 % 3)], awaiting := if rnd % 7 = 0 then [g.val] else [], settling := if rnd / 3 % 4 = 0 then [.group g.val] else [] } }
    let l : GLine := (((pondsView s g).heads g 1).head?).getD { tag := {} }
    copyReady s g l ∧
    decide (s.on = true ∧
      (s.engs[g]).discards l.tag.frame = false ∧
      regionUsed s g l < (lineView s g l).regionLines g) = true) ∧
    (let s : State := press
    let rnd : Nat := 1
    let g : Fin 12 := 9
    let s : State := s.up
    let s : State := (({ s with str := { s.str with groups := s.str.groups.set g.val { s.group g with springs := [9], inline := false, depth := 0 }, lake := [{ kind := 2, owner := g.val, base := 0, size := rnd % 1000 }] } }.onGrp g (fun x => { x with cuts := [] })).onSpr 9 (fun x => { x with pond := [{ tag := { frame := rnd % 3 } }, { tag := { frame := 2, line := 3 } }] })).onEng g (fun e => { e with full := if rnd % 2 = 0 then none else some (7, 0, 0) })
    let s : State := if rnd % 5 < 2 then s else let st := s.str; { s with sic := { s.sic with phase := .settle, old := { st with lake := [{ kind := 2, owner := g.val, base := rnd % 2, size := rnd % 3000 }] }, next := st, marks := [(g.val, rnd / 11 % 3)], awaiting := if rnd % 7 = 0 then [g.val] else [], settling := if rnd / 3 % 4 = 0 then [.group g.val] else [] } }
    let l : GLine := (((pondsView s g).heads g 1).head?).getD { tag := {} }
    copyReady s g l ∧
    decide (s.on = true ∧
      (s.engs[g]).discards l.tag.frame = false ∧
      (lineView s g l).regionLines g ≤ regionUsed s g l) = true) ∧
    (let s : State := press
    let rnd : Nat := 0
    let g : Fin 12 := 8
    let s : State := s.up
    let s : State := (({ s with str := { s.str with groups := s.str.groups.set g.val { s.group g with springs := [9], inline := false, depth := 0 }, lake := [{ kind := 2, owner := g.val, base := 0, size := rnd % 1000 }] } }.onGrp g (fun x => { x with cuts := [] })).onSpr 9 (fun x => { x with pond := [{ tag := { frame := rnd % 3 } }, { tag := { frame := 2, line := 3 } }] })).onEng g (fun e => { e with full := some ((if rnd % 2 = 0 then rnd % 3 else 7), 0, 0) })
    let s : State := if rnd % 5 < 2 then s else let st := s.str; { s with sic := { s.sic with phase := .settle, old := { st with lake := [{ kind := 2, owner := g.val, base := rnd % 2, size := rnd % 3000 }] }, next := st, marks := [(g.val, rnd / 11 % 3)], awaiting := if rnd % 7 = 0 then [g.val] else [], settling := if rnd / 3 % 4 = 0 then [.group g.val] else [] } }
    let l : GLine := (((pondsView s g).heads g 1).head?).getD { tag := {} }
    copyReady s g l ∧
    decide (s.on = true ∧
      (s.engs[g]).discards l.tag.frame = true) = true) ∧
    (let s : State := press
    let rnd : Nat := 4
    let g : Fin 12 := 8
    let s : State := s.up
    let s : State := (({ s with str := { s.str with groups := s.str.groups.set g.val { s.group g with springs := [9], inline := false, depth := 0 }, lake := [{ kind := 2, owner := g.val, base := 0, size := rnd % 1000 }] } }.onGrp g (fun x => { x with cuts := [{ frame := 2, l := 3, spring := 9, at_ := 0, count := 7, active := false }] })).onSpr 9 (fun x => { x with pond := [{ tag := { frame := 2, line := 3 }, marker := true }] })).onEng g (fun e => { e with full := (if rnd % 3 = 0 then none else some (rnd % 3, 1, 1)), copying := if rnd % 2 = 0 then [] else [{ tag := {} }] })
    let s : State := if rnd % 5 < 2 then s else { s with sic := { s.sic with phase := .settle, old := s.str, next := s.str, marks := [(g.val, rnd / 11 % 4)], settling := [.group g.val] } }
    let c : Cut := ((pondsView s g).markerDue g).getD { frame := 0, l := 0, spring := 0, at_ := 0, count := 0 }
    decide (let w := pondsView s g
      s.on = true ∧
      w.defined g = true ∧
      w.isInline g = false ∧
      w.markerDue g = some c) = true) ∧
    (let s : State := State.reset
    let rnd : Nat := 2
    let g : Fin 12 := 5
    let s : State := s.up
    let s : State := if rnd % 3 = 0 then s else (({ s with str := { s.str with groups := s.str.groups.set g.val { s.group g with springs := [9], inline := false, depth := 0 } } }).onSpr 9 (fun x => { x with pond := [{ tag := { frame := rnd % 3 }, done := rnd % 5 != 0 }, { tag := { frame := 2, line := 3 } }] }))
    let s : State := if rnd % 5 < 2 then s else { s with sic := { s.sic with phase := if rnd % 2 = 0 then .settle else .armed, old := s.str, next := s.str, marks := [(g.val, rnd / 11 % 3)], settling := [.group g.val] } }
    decide (let w := pondsView s g;
      ((w.defined g = false ∨ w.isInline g = true ∨ w.markerDue g = none ∧ (w.heads g 1).all (fun l => w.swapHold g l.tag.frame) = true)) ∧
      s.on = true) = true) ∧
    (let s : State := State.reset
    let rnd : Nat := 7
    let g : Fin 12 := 3
    let s : State := s.up
    let s : State := if rnd % 3 = 0 then s else (({ s with str := { s.str with groups := s.str.groups.set g.val { s.group g with springs := [9], inline := false, depth := 0 } } }).onSpr 9 (fun x => { x with pond := [{ tag := { frame := rnd % 3 }, done := rnd % 5 != 0 }, { tag := { frame := 2, line := 3 } }] }))
    let s : State := if rnd % 5 < 2 then s else { s with sic := { s.sic with phase := if rnd % 2 = 0 then .settle else .armed, old := s.str, next := s.str, marks := [(g.val, rnd / 11 % 3)], settling := [.group g.val] } }
    decide (let w := pondsView s g;
      (s.engs[g]).copying = []) = true) ∧
    (let s : State := State.reset
    let g : Fin 12 := 5
    let s : State := s.up
    let s : State := if (s.engs[g]).copying.isEmpty then s.onEng g (fun e => { e with copying := [{ tag := {} }] }) else s
    let l : GLine := ((s.engs[g]).copying.head?).getD { tag := {} }
    let rest : List GLine := (s.engs[g]).copying.drop 1
    decide (s.on = true ∧
      (s.engs[g]).copying = l :: rest) = true) ∧
    (let s : State := State.reset
    let s : State := s.up
    decide (s.on = true) = true) :=
  ⟨⟨by unfold copyReady; decide +kernel, by decide +kernel⟩, ⟨by unfold copyReady; decide +kernel, by decide +kernel⟩, ⟨by unfold copyReady; decide +kernel, by decide +kernel⟩, by decide +kernel, by decide +kernel, by decide +kernel, by decide +kernel, by decide +kernel⟩

/-- Clauses of `Obligations.GroupResetLosesOnlyItsOwnLines` have states and operands that meet their hypotheses. -/
theorem witness_GroupResetLosesOnlyItsOwnLines :
    (let s : State := State.reset
    let rnd : Nat := 1
    let t : Fin 8 := 3
    let m : BitVec 12 := 0x0a5#12
    let s : State := s.up
    let m : BitVec 12 := if rnd % 2 = 0 then BitVec.ofNat 12 (2 ^ (rnd / 2 % 12)) else m
    decide (s.on = true ∧
      (bitsOf 12 m.toNat).all (fun g => s.ownsGroup t g) = true) = true) ∧
    (let s : State := State.reset
    let rnd : Nat := 8
    let t : Fin 8 := 5
    let m : BitVec 12 := 0x003#12
    let s : State := s.up
    let m : BitVec 12 := if rnd % 2 = 0 then BitVec.ofNat 12 (2 ^ (rnd / 2 % 12)) else m
    decide (s.on = true ∧
      (bitsOf 12 m.toNat).all (fun g => s.ownsGroup t g) = true) = true) ∧
    (let s : State := press
    let rnd : Nat := 9
    let g : Fin 12 := 2
    let s : State := s.up
    let s : State := { s with str := { s.str with groups := (s.str.groups.map (fun x => if x.springs.contains 9 || x.springs.contains 4 then {} else x)).set g.val { s.group g with springs := [9, 4], inline := g.val == 0 }, bare := false, stalls := s.str.stalls.map (fun x => { x with springs := [9, 4] }) } }
    let t : Fin 8 := 0
    let s : State := { s with str := { s.str with streams := s.str.streams.mapIdx (fun i x => if i < 4 then { x with exists_ := true, group := g.val, tap := i + rnd % 3 } else x) } }
    let s : State := (List.range 4).foldl (fun s i => s.setB (A.outCtl i) 0 true) s
    let s : State := ((s.onGrp g (fun x => { x with begun := rnd % 7 != 0, lines := rnd % 50, count := 1000 + rnd % 50, infos := [{ frame := 3, gen := 0, sgens := [], late := false, first := { frame := 3, count := 990 } }], cuts := if rnd % 3 = 0 then [{ frame := 3, l := 5, spring := 9, at_ := 0, count := 995, active := true }] else [] })).wr (A.frmFrame g) 3#32).onTally g (fun x => { x with accs := [] })
    let s : State := s.onEng g (fun e => { e with region := if rnd % 4 = 0 then [{ tag := { frame := 3, line := 4, count := 994 } }] else [], served := 0, copying := [], full := none })
    let s : State := (s.onSpr 9 (fun x => { x with cur := none, queue := [], pond := if rnd % 5 = 0 then [{ tag := { frame := 3, line := 6, count := 996 } }, { tag := { frame := 2, line := 6, count := 980 } }] else [] })).onSpr 4 (fun x => { x with cur := none, queue := [], pond := [] })
    let s : State := { s with out := s.out.map (fun x => { x with pend := if rnd % 4 = 0 then x.pend else none }) }
    let c : LineTag := (s.resetCut g).getD {}
    decide (s.on = true ∧
      s.ownsGroup t g = true ∧
      s.defined g = true ∧
      s.resetCut g = some c) = true) ∧
    (let s : State := press
    let rnd : Nat := 7
    let t : Fin 8 := 3
    let m : BitVec 12 := 0x0d3#12
    let s : State := s.up
    let m : BitVec 12 := if rnd % 2 = 0 then BitVec.ofNat 12 (2 ^ (rnd / 2 % 12)) else m
    decide (s.on = true ∧
      (bitsOf 12 m.toNat).all (fun g => s.ownsGroup t g) = false) = true) :=
  ⟨by decide +kernel, by decide +kernel, by decide +kernel, by decide +kernel⟩

/-- Clauses of `Obligations.TemporalNoiseStageResetsAndAdapts` have states and operands that meet their hypotheses. -/
theorem witness_TemporalNoiseStageResetsAndAdapts :
    (let s : State := press
    let rnd : Nat := 4
    let b : Fin 4 := 0
    let s : State := s.up
    let s : State := if rnd % 4 = 0 then s else { s with str := { s.str with groups := s.str.groups.set b.val { s.group b with springs := [9] }, lake := [{ kind := 1, owner := b.val, base := 0, size := 10000000 }] } }
    decide (s.on = true ∧
      s.tnrRegion b = true) = true) ∧
    (let s : State := State.reset
    let rnd : Nat := 3
    let b : Fin 4 := 2
    let s : State := s.up
    let s : State := s.onTnr b (fun x => { x with resetPend := true, frame := some 12345, valid := [rnd] })
    let s : State := if ((s.engView (b.castLE (by decide))).readyLine (b.castLE (by decide))).isSome then s else s.onEng (b.castLE (by decide)) (fun e => { e with region := List.replicate 3 { tag := { frame := 7 } }, served := 0, blocked := false })
    let l : GLine := ((s.engView (b.castLE (by decide))).readyLine (b.castLE (by decide))).getD { tag := {} }
    decide (s.on = true ∧
      (s.engView (b.castLE (by decide))).readyLine (b.castLE (by decide)) = some l ∧
      (s.tnr[b]).frame ≠ some l.tag.frame ∧
      (s.tnr[b]).resetPend = true) = true) ∧
    (let s : State := State.reset
    let rnd : Nat := 9
    let b : Fin 4 := 1
    let s : State := s.up
    let s : State := s.onTnr b (fun x => { x with ended := [{ frame := rnd % 9, i := rnd % 40, bins := (List.range 64).map (fun i => { n := (if i % 16 < rnd % 5 then 1024 + (i * 77 + rnd) % 3000 else rnd % 1024), a := (if rnd % 7 = 0 then 0 else (i % 16 * 4096 + rnd % 4096) * 1500), d2 := (i % 16 * 91 + rnd % 777) * 1300 }), sums := [(0, rnd % 5), (1, rnd / 5 % 5), (-1, 2)], lines := rnd % 200, own := { kw := 1 + rnd % 6, conv := rnd % 5, n1 := [1, 2, rnd % 999, 4], shift := 0, noiseTrk := rnd % 4 != 0, shiftTrk := rnd % 3 != 0 }, drop := if rnd % 5 = 0 then [(0, 0), (1, 2)] else [] }], wantN0 := [1, 2, 3, 4], wantN1 := [5, 6, 7, 8] })
    let e : TnrEnded := ((s.tnr[b]).ended.head?).getD { frame := 0, i := 0, bins := [], sums := [], lines := 0 }
    let rest : List TnrEnded := (s.tnr[b]).ended.drop 1
    decide (let held := fun (x : TnrQty) (v : Int) => heldIn (tnrWindow s.rd b x).2.2.2 (tnrWindow s.rd b x).1 (tnrWindow s.rd b x).2.1 (tnrWindow s.rd b x).2.2.1 v
      let vals := (tnrQtys.filter (fun x => (x.q, x.c) ∉ e.drop)).filterMap (fun x => (tnrWant e x).map (fun v => (x.q, x.c, if (tnrWindow s.rd b x).2.2.2 = true then none else some (held x v).1, (held x v).2)))
      s.on = true ∧
      (s.tnr[b]).ended = e :: rest) = true) ∧
    (let s : State := State.reset
    let rnd : Nat := 0
    let b : Fin 4 := 0
    let s : State := s.up
    let s : State := s.onTnr b (fun x => { x with frame := some 12345, updates := [{ frame := rnd % 4, vals := [(0, 0, some (Int.ofNat (rnd % 200) - 100), rnd % 2 == 0)] }, { frame := 1, vals := [(0, 0, some 3, false), (1, rnd % 4, none, rnd % 3 == 0), (2, rnd % 3, some 77, true)] }, { frame := 2 ^ 31 - 1 + rnd % 9, vals := [(2, rnd % 4, some 5, rnd % 5 == 0)] }] })
    let s : State := if ((s.engView (b.castLE (by decide))).readyLine (b.castLE (by decide))).isSome then s else s.onEng (b.castLE (by decide)) (fun e => { e with region := List.replicate 3 { tag := { frame := 7 } }, served := 0, blocked := false })
    let l : GLine := ((s.engView (b.castLE (by decide))).readyLine (b.castLE (by decide))).getD { tag := {} }
    decide (let due := ((s.tnr[b]).updates.filter (fun x => !isLater 32 x.frame l.tag.frame)).flatMap (·.vals)
      let mine := fun (x : TnrQty) => due.filter (fun v => v.1 == x.q && v.2.1 == x.c)
      s.on = true ∧
      (s.engView (b.castLE (by decide))).readyLine (b.castLE (by decide)) = some l ∧
      (s.tnr[b]).frame ≠ some l.tag.frame ∧
      ((due).all (fun v => decide ((⟨v.1, v.2.1⟩ : TnrQty) ∈ tnrQtys ∧ ∀ w ∈ v.2.2.1, if v.1 = 0 then -128 ≤ w ∧ w < 128 else 0 ≤ w ∧ w < 2 ^ 24)) = true)) = true) ∧
    (let s : State := State.reset
    let b : Fin 4 := 1
    let s : State := s.up
    decide (s.tnrRegion b = false) = true) ∧
    (let s : State := State.reset
    let b : Fin 4 := 2
    let s : State := s.up
    decide (((s.engView (b.castLE (by decide))).readyLine (b.castLE (by decide))).all (fun l => decide ((s.tnr[b]).frame = some l.tag.frame)) = true) = true) ∧
    (let s : State := State.reset
    let b : Fin 4 := 2
    let s : State := s.up
    decide ((s.tnr[b]).resetPend = false) = true) ∧
    (let s : State := State.reset
    let b : Fin 4 := 2
    let s : State := s.up
    decide ((s.tnr[b]).ended = []) = true) :=
  ⟨by decide +kernel, by decide +kernel, by decide +kernel, by decide +kernel, by decide +kernel, by decide +kernel, by decide +kernel, by decide +kernel⟩

/-- Clauses of `Obligations.CorrectionTablesLoad` have states and operands that meet their hypotheses. -/
theorem witness_CorrectionTablesLoad :
    (let s : State := State.reset
    let s : State := s.up
    decide (s.on = true) = true) ∧
    (let s : State := press
    let rnd : Nat := 7
    let g : Fin 12 := 2
    let s : State := s.up
    let s : State := (((s.onLoad g (fun p => { p with active := false })).wr (A.corTldCtl g) (wd ((rnd % 3) * 65536 + (rnd % 2) * 4096 + (rnd / 2 % 3) * 256 + rnd / 6 % 2 * 16))).wr (A.corTldCount g) (wd (1 + rnd % 9))).wr (A.corTldDst g) (wd (rnd % 5))
    let s : State := { s with str := { s.str with groups := s.str.groups.set g.val { s.group g with springs := [0] } } }
    decide (s.on = true ∧
      s.defined g = true ∧
      (s.load[g]).active = false ∧
      s.loadInside g (loadNames s g).1 (loadNames s g).2.2 (s.f (A.corTldCount g) 20 0) = true ∧
      ((loadMode (s.rd (A.corTldCtl g)) = 2 ∨ s.bankLocked g (loadNames s g).1 (loadNames s g).2.1 = false))) = true) ∧
    (let s : State := press
    let rnd : Nat := 8
    let g : Fin 12 := 1
    let v : Word := 0x2286ef81#32
    let s : State := s.up
    let s : State := (((s.onLoad g (fun p => { p with active := false })).wr (A.corTldCtl g) (wd ((rnd % 4) * 65536 + (rnd % 2) * 4096 + (rnd / 2 % 3) * 256))).wr (A.corTldCount g) (wd (rnd % 20000))).wr (A.corTldDst g) v
    let s : State := { s with str := { s.str with groups := s.str.groups.set g.val { s.group g with springs := [0] } } }
    decide (s.on = true ∧
      s.defined g = true ∧
      s.rd (A.corTldDst g) = v ∧
      (s.load[g]).active = false ∧
      s.loadInside g (loadNames s g).1 (loadNames s g).2.2 (s.f (A.corTldCount g) 20 0) = false) = true) ∧
    (let s : State := State.reset
    let rnd : Nat := 7
    let g : Fin 12 := 9
    let s : State := s.up
    let s : State := s.onLoad g (fun p => { p with active := true, ctl := wd ((rnd % 3) * 65536 + (rnd % 2) * 4096), dst := wd (rnd % 100), count := 1 + rnd % 4, moved := rnd % (1 + rnd % 4), slot := rnd % 7 == 0 })
    decide (s.on = true ∧
      (s.load[g]).active = true ∧
      loadMode (s.load[g]).ctl = 0) = true) ∧
    (let s : State := State.reset
    let rnd : Nat := 1
    let g : Fin 12 := 7
    let s : State := if rnd % 2 = 0 then s.onLoad g (fun p => { p with active := true, ctl := wd (rnd % 4 * 256) }) else s
    decide (((s.load[g]).active = false ∨ loadMode (s.load[g]).ctl ≠ 0)) = true) ∧
    (let s : State := State.reset
    let rnd : Nat := 3
    let g : Fin 12 := 2
    let s : State := if rnd % 2 = 0 then s.onLoad g (fun p => { p with active := true, ctl := wd (rnd % 4 * 256) }) else s
    decide (((s.load[g]).active = false ∨ loadMode (s.load[g]).ctl ≠ 1)) = true) ∧
    (let s : State := State.reset
    let rnd : Nat := 0
    let g : Fin 12 := 3
    let s : State := if rnd % 2 = 0 then s.onLoad g (fun p => { p with active := true, ctl := wd (rnd % 4 * 256) }) else s
    decide (s.on = true ∧
      (((s.load[g]).active = false ∨ loadMode (s.load[g]).ctl ≠ 2))) = true) ∧
    (let s : State := State.reset
    let rnd : Nat := 5
    let g : Fin 12 := 8
    let s : State := if rnd % 2 = 0 then s.onLoad g (fun p => { p with active := true, ctl := wd (rnd % 4 * 256) }) else s
    decide (s.defined g = false) = true) :=
  ⟨by decide +kernel, by decide +kernel, by decide +kernel, by decide +kernel, by decide +kernel, by decide +kernel, by decide +kernel, by decide +kernel⟩

/-- Clauses of `Obligations.CorrectionTablesLoad` have states and operands that meet their hypotheses. -/
theorem witness_CorrectionTablesLoad_2 :
    (let s : State := press
    let rnd : Nat := 9
    let g : Fin 12 := 4
    let s : State := s.up
    let s : State := (((s.onLoad g (fun p => { p with active := rnd % 3 = 0 })).wr (A.corTldCtl g) (wd ((rnd % 3) * 65536 + (rnd % 2) * 4096 + (rnd / 2 % 2) * 256))).wr (A.corTldCount g) (wd (1 + rnd % 9))).wr (A.corTldDst g) (wd (rnd % 5))
    let s : State := { s with str := { s.str with groups := s.str.groups.set g.val { s.group g with springs := [0] } } }
    decide (s.on = true ∧
      s.defined g = true ∧
      (s.load[g]).active = true) = true) ∧
    (let s : State := press
    let rnd : Nat := 4
    let g : Fin 12 := 6
    let s : State := s.up
    let s : State := (((s.onLoad g (fun p => { p with active := rnd % 3 = 0 })).wr (A.corTldCtl g) (wd ((rnd % 3) * 65536 + (rnd % 2) * 4096 + (rnd / 2 % 2) * 256))).wr (A.corTldCount g) (wd (1 + rnd % 9))).wr (A.corTldDst g) (wd (rnd % 5))
    let s : State := { s with str := { s.str with groups := s.str.groups.set g.val { s.group g with springs := [0] } } }
    decide (s.on = true ∧
      s.defined g = true ∧
      (s.load[g]).active = false ∧
      s.loadInside g (loadNames s g).1 (loadNames s g).2.2 (s.f (A.corTldCount g) 20 0) = true ∧
      loadMode (s.rd (A.corTldCtl g)) ≠ 2 ∧
      s.bankLocked g (loadNames s g).1 (loadNames s g).2.1 = true) = true) ∧
    (let s : State := State.reset
    let rnd : Nat := 1
    let g : Fin 12 := 5
    let s : State := s.up
    let s : State := s.onLoad g (fun p => { p with active := true, ctl := wd ((rnd % 3) * 65536 + (rnd % 2) * 4096 + 512), dst := wd (rnd % 100), count := 2 + rnd % 4, moved := rnd % (1 + rnd % 4) })
    decide (s.on = true ∧
      (s.load[g]).active = true ∧
      loadMode (s.load[g]).ctl = 2) = true) ∧
    (let s : State := State.reset
    let rnd : Nat := 6
    let g : Fin 12 := 5
    let s : State := s.up
    let s : State := s.onLoad g (fun p => { p with active := true, ctl := wd ((rnd % 3) * 65536 + (rnd % 2) * 4096 + 256), dst := wd (rnd % 100), count := 2 + rnd % 4, moved := 0 })
    let s : State := if rnd % 3 == 0 then s else { s with str := { s.str with lake := [{ kind := 5, owner := 0, base := 0, size := 100000 }], groups := s.str.groups.set g.val { s.group g with springs := [0] }, stalls := (s.str.stalls.map (fun (r : StallRec) => { r with springs := [] })).set 0 { s.stallRec 0 with springs := [0, 1, 2] } } }.onLoad g (fun p => { p with src := 64 * (rnd % 9) })
    let ecc : List (Nat × Ecc) := if rnd % 3 = 0 then [] else if rnd % 3 = 1 then [(0, .corrected 3)] else [(rnd % 2, .bad)]
    let room : Nat := s.copyInside g (s.load[g]).src (s.load[g]).count
    let k : Nat := (s.fetchLake (s.load[g]).src (4 * min room (s.load[g]).count) ecc).1 / 4
    decide (s.on = true ∧
      (s.load[g]).active = true ∧
      loadMode (s.load[g]).ctl = 1 ∧
      (s.load[g]).moved = 0 ∧
      (s.load[g]).count < 2 ^ 21 ∧
      room = s.copyInside g (s.load[g]).src (s.load[g]).count ∧
      k = (s.fetchLake (s.load[g]).src (4 * min room (s.load[g]).count) ecc).1 / 4) = true) :=
  ⟨by decide +kernel, by decide +kernel, by decide +kernel, by decide +kernel⟩

/-- Clauses of `Obligations.GpioEdgesAreCaptured` have states and operands that meet their hypotheses. -/
theorem witness_GpioEdgesAreCaptured :
    (let s : State := State.reset
    let rnd : Nat := 2
    let i : Fin 16 := 5
    let falling : Bool := true
    let held : Nat := 2
    let s : State := s.up
    let s : State := (s.setF (A.gpioCtl i) 1 0 1).setF (A.gpioCtl i) 5 4 (if rnd % 2 = 0 then 2 else (if falling then 1 else 0))
    let held : Nat := if rnd % 5 = 0 then held else 300
    decide (s.on = true ∧
      s.f (A.gpioCtl i) 23 16 ≤ held ∧
      s.f (A.gpioCtl i) 1 0 = 1 ∧
      ((s.f (A.gpioCtl i) 5 4 ≥ 2 ∨ (s.f (A.gpioCtl i) 5 4 = 1) = (falling = true)))) = true) ∧
    (let s : State := State.reset
    let rnd : Nat := 2
    let i : Fin 16 := 3
    let held : Nat := 1
    let s : State := s.up
    let held : Nat := if rnd % 5 = 0 then held else 300
    decide (s.on = true ∧
      s.f (A.gpioCtl i) 23 16 ≤ held) = true) ∧
    (let s : State := State.reset
    let rnd : Nat := 6
    let i : Fin 16 := 7
    let falling : Bool := true
    let s : State := s.up
    let s : State := { (s.setF (A.gpioCtl i) 1 0 0) with str := { s.str with groups := if rnd % 2 = 0 then [] else s.str.groups } }
    let held : Nat := if rnd % 2 = 0 then 300 else rnd % 100
    decide (((held < s.f (A.gpioCtl i) 23 16 ∨ (s.f (A.gpioCtl i) 1 0 ≠ 1 ∨ s.f (A.gpioCtl i) 5 4 < 2 ∧ (s.f (A.gpioCtl i) 5 4 = 1) ≠ (falling = true)) ∧ ∀ g : Fin 12, (s.group g).mark ≠ .sensor i.val falling))) = true) ∧
    (let s : State := State.reset
    let rnd : Nat := 3
    let i : Fin 16 := 0
    let s : State := s.up
    let s : State := s.onGpio i (fun x => { x with fifo := if rnd % 2 = 0 then x.fifo else [{ time := rnd, timex := 1, epoch := 2, falling := rnd % 3 == 0, pos := 5 }] })
    let c : Capture := ((s.gpio[i]).fifo.head?).getD { time := 0, timex := 0, epoch := 0, falling := false, pos := 0 }
    let rest : List Capture := (s.gpio[i]).fifo.drop 1
    decide (s.on = true ∧
      (s.gpio[i]).fifo = c :: rest) = true) ∧
    (let s : State := State.reset
    let i : Fin 16 := 6
    let s : State := s.up
    decide (s.on = true ∧
      (s.gpio[i]).fifo = []) = true) :=
  ⟨by decide +kernel, by decide +kernel, by decide +kernel, by decide +kernel, by decide +kernel⟩

/-- Clauses of `Obligations.StatisticsRecordsClose` have states and operands that meet their hypotheses. -/
theorem witness_StatisticsRecordsClose :
    (let s : State := State.reset
    let rnd : Nat := 3
    let g : Fin 12 := 4
    let s : State := s.up
    let s : State := if (s.tally[g]).accs.isEmpty then s.onTally g (fun x => { x with accs := [{ info := { frame := 0, first := {}, gen := 0, late := false, sgens := [] }, ctl := 0, hx0 := 0, hx1 := 0, rois := [], changed := false }] }) else s
    let s : State := { (s.onTally g (fun x => { x with closed := [], accs := x.accs.map (fun a => { a with endPre := true, endPost := true, dropped := some (rnd % 9) }) })) with releases := [], seam := s.seam.map (fun x => { x with meas := none, done_ := [] }), str := { s.str with sram := [(52 + g.val, 500000)] } }
    let a : TallyAcc := ((s.tally[g]).accs.head?).getD { info := { frame := 0, first := {}, gen := 0, late := false, sgens := [] }, ctl := 0, hx0 := 0, hx1 := 0, rois := [], changed := false }
    let rest : List TallyAcc := (s.tally[g]).accs.drop 1
    let d : Nat := (s.accDropped g a).getD 0
    decide (s.on = true ∧
      (s.tally[g]).accs = a :: rest ∧
      a.ended = true ∧
      s.seamDone g a.info.frame = true ∧
      s.accDropped g a = some d ∧
      (a.payload g (s.group g).channels (s.group g).springs d (s.seamWords g a.info.frame)).length + 64 ≤ s.sramSize (52 + g) ∧
      statFill (s.tally[g]).closed + s.unseen (52 + g) + up64 (a.payload g (s.group g).channels (s.group g).springs d (s.seamWords g a.info.frame)).length ≤ s.sramSize (52 + g)) = true) ∧
    (let s : State := State.reset
    let rnd : Nat := 9
    let g : Fin 12 := 2
    let s : State := s.up
    let s : State := { (s.onTally g (fun x => { x with accs := [{ info := { frame := rnd % 9, first := {}, gen := 0, late := false, sgens := [] }, ctl := 0, hx0 := 0, hx1 := 0, rois := [], changed := false, endPre := true, endPost := true }] })) with seam := s.seam.map (fun x => { x with meas := none, done_ := [] }), str := { s.str with sram := [(52 + g.val, 64)] } }
    let a : TallyAcc := ((s.tally[g]).accs.head?).getD { info := { frame := 0, first := {}, gen := 0, late := false, sgens := [] }, ctl := 0, hx0 := 0, hx1 := 0, rois := [], changed := false }
    let rest : List TallyAcc := (s.tally[g]).accs.drop 1
    let d : Nat := (s.accDropped g a).getD 0
    decide (s.on = true ∧
      (s.tally[g]).accs = a :: rest ∧
      a.ended = true ∧
      s.seamDone g a.info.frame = true ∧
      s.accDropped g a = some d ∧
      s.sramSize (52 + g) < (a.payload g (s.group g).channels (s.group g).springs d (s.seamWords g a.info.frame)).length + 64) = true) ∧
    (let s : State := State.reset
    let rnd : Nat := 1
    let g : Fin 12 := 1
    let s : State := s.up
    let s : State := { (s.onTally g (fun x => { x with accs := [{ info := { frame := rnd % 9, first := {}, gen := 0, late := false, sgens := [] }, ctl := 0, hx0 := 0, hx1 := 0, rois := [], changed := false, endPre := true, endPost := true }], closed := [{ frame := 1, bytes := List.replicate 128 7#8, at_ := s.now, seen := s.now, todo := [], tag := {}, flags := 0 }] })) with seam := s.seam.map (fun x => { x with meas := none, done_ := [] }), str := { s.str with sram := [(52 + g.val, 300000)] } }
    let s : State := { s with str := { s.str with sram := [(52 + g.val, up64 (((s.tally[g]).accs.map (fun a => (a.payload g (s.group g).channels (s.group g).springs ((s.accDropped g a).getD 0) (s.seamWords g a.info.frame)).length)).headD 0) + 64)] } }
    let a : TallyAcc := ((s.tally[g]).accs.head?).getD { info := { frame := 0, first := {}, gen := 0, late := false, sgens := [] }, ctl := 0, hx0 := 0, hx1 := 0, rois := [], changed := false }
    let rest : List TallyAcc := (s.tally[g]).accs.drop 1
    let d : Nat := (s.accDropped g a).getD 0
    decide ((s.tally[g]).accs = a :: rest ∧
      s.accDropped g a = some d ∧
      (a.payload g (s.group g).channels (s.group g).springs d (s.seamWords g a.info.frame)).length + 64 ≤ s.sramSize (52 + g) ∧
      s.sramSize (52 + g) < statFill (s.tally[g]).closed + s.unseen (52 + g) + up64 (a.payload g (s.group g).channels (s.group g).springs d (s.seamWords g a.info.frame)).length) = true) ∧
    (let s : State := State.reset
    let rnd : Nat := 0
    let g : Fin 12 := 6
    let s : State := s.up
    let s : State := s.onTally g (fun x => { x with accs := if rnd % 2 = 0 then [] else x.accs, closed := if rnd % 3 = 0 then [] else x.closed })
    decide (((s.tally[g]).accs.head?).all (fun a => decide (a.ended = false)) = true) = true) ∧
    (let s : State := State.reset
    let rnd : Nat := 2
    let g : Fin 12 := 4
    let s : State := s.up
    let s : State := s.onTally g (fun x => { x with accs := if rnd % 2 = 0 then [] else x.accs, closed := if rnd % 3 = 0 then [] else x.closed })
    decide ((s.tally[g]).closed = []) = true) ∧
    (let s : State := State.reset
    let rnd : Nat := 7
    let g : Fin 12 := 0
    let n : Fin 16 := 5
    let s : State := s.up
    let s : State := s.onTally g (fun x => { x with accs := if rnd % 2 = 0 then [] else x.accs, closed := if rnd % 3 = 0 then [] else x.closed })
    decide ((s.tally[g]).closed = [] ∧
      (s.stream n).group = g.val) = true) ∧
    (let s : State := State.reset
    let rnd : Nat := 2
    let g : Fin 12 := 0
    let n : Fin 16 := 9
    let s : State := s.up
    let s : State := s.onTally g (fun x => { x with accs := if rnd % 2 = 0 then [] else x.accs, closed := if rnd % 3 = 0 then [] else x.closed })
    decide ((s.stream n).group = g.val ∧
      ((s.tally[g]).closed.head?).all (fun r => decide (s.now < r.at_ + roundNs)) = true) = true) ∧
    (let s : State := State.reset
    let rnd : Nat := 3
    let g : Fin 12 := 2
    let s : State := s.up
    let s : State := s.onTally g (fun x => { x with closed := if rnd % 2 = 0 then x.closed else [{ frame := rnd % 9, bytes := [], at_ := 0, todo := [], tag := {}, flags := 0 }] })
    let r : StatRec := ((s.tally[g]).closed.head?).getD { frame := 0, bytes := [], at_ := 0, todo := [], tag := {}, flags := 0 }
    let rest : List StatRec := (s.tally[g]).closed.drop 1
    decide (s.on = true ∧
      (s.tally[g]).closed = r :: rest ∧
      r.todo = []) = true) :=
  ⟨by decide +kernel, by decide +kernel, by decide +kernel, by decide +kernel, by decide +kernel, by decide +kernel, by decide +kernel, by decide +kernel⟩

/-- Clauses of `Obligations.StatisticsRecordsClose` have states and operands that meet their hypotheses. -/
theorem witness_StatisticsRecordsClose_2 :
    (let s : State := press
    let rnd : Nat := 4
    let g : Fin 12 := 6
    let n : Fin 16 := 1
    let s : State := s.up
    let s : State := s.onTally g (fun x => { x with closed := if rnd % 5 = 0 then x.closed else [{ frame := rnd % 9, bytes := List.replicate 64 7, at_ := 0, todo := [n.val], tag := {}, flags := rnd % 16 }] })
    let s : State := if rnd % 3 = 0 then s else ({ s with str := { s.str with streams := s.str.streams.set n.val { s.stream n with exists_ := true, group := g.val, pond := 40 }, sram := [(40, 4096)] } }.setB (A.outCtl n) 0 true).onOut n (fun x => { x with pend := none, pond := [], tel := [] })
    let r : StatRec := ((s.tally[g]).closed.head?).getD { frame := 0, bytes := [], at_ := 0, todo := [], tag := {}, flags := 0 }
    let rest : List StatRec := (s.tally[g]).closed.drop 1
    decide (s.on = true ∧
      (s.tally[g]).closed = r :: rest ∧
      r.todo = [n.val] ∧
      s.outOn n = true ∧
      (s.out[n]).pend = none ∧
      (s.out[n]).tel = [] ∧
      s.outRoom n (headBytes (s.recFmt n) + r.bytes.length + 4) = true ∧
      (((s.out[n]).aliveRestart = false ∨ s.oldFrame (s.stream n).group r.tag.frame = true))) = true) ∧
    (let s : State := press
    let rnd : Nat := 7
    let n : Fin 16 := 1
    let g : Fin 12 := 3
    let s : State := s.up
    let g : Fin 12 := Fin.ofNat 12 (s.stream n).group
    let s : State := { s with str := { s.str with streams := s.str.streams.set n.val { s.stream n with group := g.val, exists_ := true } } }
    let s : State := (s.onTally g (fun x => { x with closed := [{ frame := rnd % 9, bytes := [], at_ := s.now - 40000 + rnd % 15000, todo := n.val :: (if rnd % 2 = 0 then [] else [(n + 1).val]), tag := {}, flags := 0 }] })).setB (A.outCtl n) 0 true
    let r : StatRec := ((s.tally[g]).closed.head?).getD { frame := 0, bytes := [], at_ := 0, todo := [], tag := {}, flags := 0 }
    let rest : List StatRec := (s.tally[g]).closed.drop 1
    decide (s.on = true ∧
      (s.stream n).group = g.val ∧
      s.outOn n = true ∧
      (s.tally[g]).closed = r :: rest ∧
      r.todo.contains n.val = true ∧
      r.at_ + roundNs ≤ s.now) = true) :=
  ⟨by decide +kernel, by decide +kernel⟩

/-- Clauses of `Obligations.OutputRecordsFormAndTruncate` have states and operands that meet their hypotheses. -/
theorem witness_OutputRecordsFormAndTruncate :
    (let l : TapLine := { tag := {}, flags := 0, chans := [[1, 2, 3], [4, 5, 6]] }
    decide (∀ x ∈ l.chans, x.length = (l.chans.headD []).length) = true) ∧
    (let s : State := State.reset
    let rnd : Nat := 4
    let n : Fin 16 := 5
    let s : State := s.up
    let s : State := s.wr (A.outVstep n) (wd (65536 * (1 + rnd % 4) + rnd % 65536))
    let s : State := s.wr (A.outCropY n) (wd (rnd % 5))
    let s : State := s.setF (A.outCtl n) 6 4 (rnd / 5 % 7)
    let s : State := s.onOut n (fun x => { x with tapFrame := some 5, tapTag := some { frame := 5, line := 90 }, tapY := 12 + rnd % 5, m := rnd / 3 % 4, lines := (List.range 12).map (fun i => { tag := { frame := 5, line := i, gen := (rnd + i / 5) % 2 }, flags := 2 ^ (i % 6), cols := [0, 1].map (fun c => [i * 1000 + c, 65535 - i, rnd % 65536]), x0 := 0, hpos0 := 0, hstep := 65536, chsel := 0, y := rnd % 5 + i }), endedFrame := if rnd % 3 = 0 then some 5 else none })
    let v : State := ofFrame s n ((s.out[n]).tapFrame.getD 0)
    v = ofFrame s n ((s.out[n]).tapFrame.getD 0) ∧
    decide (let x := s.out[n]
      let o := v.outNow n
      let ylast := (x.lines.getLast?.map (·.y)).getD 0
      let q := (o.y0 : Rat) + ((x.m : Rat) + 1 / 2) * ((o.vstep : Rat) / 65536) - 1 / 2
      let anchor := x.lines.find? (fun l => l.y == max o.y0 (min ylast (nearest q)))
      let taps := (List.range 4).map (fun t => x.lines.find? (fun l => l.y == (clampI o.y0 ylast ((phased q).1 - 1 + Int.ofNat t)).toNat))
      s.on = true ∧
      x.formable o = true ∧
      (taps).all (fun t => decide (t.isSome = true)) = true ∧
      ((x.lines).all (fun l => decide (l.cols.length = ((x.lines.headD { tag := {}, y := 0, flags := 0, cols := [], x0 := 0, hpos0 := 0, hstep := 0, chsel := 0 }).cols).length ∧ ∀ c ∈ l.cols, c.length = (l.cols.headD []).length)) = true) ∧
      (x.lines).all (fun l => decide ((x.lines).all (fun k => decide (l.cols.map List.length = k.cols.map List.length)) = true)) = true) = true) ∧
    (let s : State := press
    let rnd : Nat := 8
    let n : Fin 16 := 1
    let s : State := s.up
    let s : State := s.onOut n (fun x => { x with formed := [{ line := { tag := { frame := rnd % 9, line := rnd % 99 }, flags := 0, cols := [[1,2,3,4]], x0 := 0, hpos0 := 0, hstep := 65536, chsel := 0, y := 0 }, flags := 0, m := 0, vpos := 0, vstep := 0, fmt := 0, recfmt := 1 }], pend := none })
    let s : State := if rnd % 5 = 0 then s else ({ s with str := { s.str with streams := s.str.streams.set n.val { s.stream n with exists_ := true, pond := 40 }, sram := [(40, 4096)] } }.setB (A.outCtl n) 0 true).onOut n (fun x => { x with pond := [] })
    let o : OLine := ((s.out[n]).formed.head?).getD { line := { tag := {}, flags := 0, cols := [], x0 := 0, hpos0 := 0, hstep := 0, chsel := 0, y := 0 }, flags := 0, m := 0, vpos := 0, vstep := 0, fmt := 0, recfmt := 1 }
    let rest : List OLine := (s.out[n]).formed.drop 1
    let v : State := ofFrame s n o.line.tag.frame
    v = ofFrame s n o.line.tag.frame ∧
    decide (s.on = true ∧
      (s.out[n]).formed = o :: rest ∧
      (s.out[n]).discard ≠ some o.line.tag.frame ∧
      (s.out[n]).pend = none ∧
      v.outHeld n = false ∧
      (s.out[n]).aliveRestart = false ∧
      v.outRoom n (headBytes o.recfmt + (v.lineRecord n o).2.length + 4) = true) = true) ∧
    (let s : State := State.reset
    let rnd : Nat := 8
    let n : Fin 16 := 1
    let s : State := s.up
    let s : State := s.onOut n (fun x => { x with formed := [{ line := { tag := { frame := rnd % 9, line := rnd % 99 }, flags := 0, cols := [[1,2,3,4]], x0 := 0, hpos0 := 0, hstep := 65536, chsel := 0, y := 0 }, flags := 0, m := 0, vpos := 0, vstep := 0, fmt := 0, recfmt := 1 }], discard := some (rnd % 9) })
    let o : OLine := ((s.out[n]).formed.head?).getD { line := { tag := {}, flags := 0, cols := [], x0 := 0, hpos0 := 0, hstep := 0, chsel := 0, y := 0 }, flags := 0, m := 0, vpos := 0, vstep := 0, fmt := 0, recfmt := 1 }
    let rest : List OLine := (s.out[n]).formed.drop 1
    decide (s.on = true ∧
      (s.out[n]).formed = o :: rest ∧
      (s.out[n]).discard = some o.line.tag.frame) = true) ∧
    (let s : State := press
    let rnd : Nat := 6
    let n : Fin 16 := 8
    let s : State := s.up
    let s : State := (({ s with str := { s.str with streams := s.str.streams.set n.val { s.stream n with exists_ := true, pond := 40 }, sram := [(40, 4096)] } }.setB (A.outCtl n) 0 true).onOut n (fun x => { x with pond := [], pend := some { frame := rnd % 9, line := rnd % 99, last := rnd % 9, cause := 1 + rnd % 6, count := some 7, tag := none, dropped := some rnd } }))
    let p : PendTrunc := ((s.out[n]).pend).getD { frame := 0, line := 0, last := 0, cause := 0, count := none, tag := none }
    let d : Nat := p.dropped.getD 0
    decide (s.on = true ∧
      (s.out[n]).pend = some p ∧
      p.dropped = some d ∧
      (s.out[n]).formed.all (fun o => isLater 32 o.line.tag.frame p.frame) = true ∧
      s.isStats n = false ∧
      s.outRoom n (truncLen p.fmt) = true ∧
      (s.out[n]).aliveRestart = false) = true) ∧
    (let s : State := State.reset
    let n : Fin 16 := 3
    decide ((s.out[n]).lines = []) = true) ∧
    (let s : State := State.reset
    let n : Fin 16 := 3
    decide ((s.out[n]).formed = []) = true) ∧
    (let s : State := State.reset
    let n : Fin 16 := 3
    decide ((s.out[n]).pend = none) = true) :=
  ⟨by decide +kernel, ⟨rfl, by decide +kernel⟩, ⟨rfl, by decide +kernel⟩, by decide +kernel, by decide +kernel, by decide +kernel, by decide +kernel, by decide +kernel⟩

/-- Clauses of `Obligations.OutputRecordsFormAndTruncate` have states and operands that meet their hypotheses. -/
theorem witness_OutputRecordsFormAndTruncate_2 :
    (let s : State := press
    let rnd : Nat := 8
    let n : Fin 16 := 1
    let s : State := s.up
    let s : State := s.onOut n (fun x => { x with formed := [{ line := { tag := { frame := rnd % 9, line := rnd % 99 }, flags := 0, cols := [[1,2,3,4]], x0 := 0, hpos0 := 0, hstep := 65536, chsel := 0, y := 0 }, flags := 0, m := 0, vpos := 0, vstep := 0, fmt := 0, recfmt := 1 }], pend := none, discard := none })
    let s : State := { s with str := { s.str with streams := s.str.streams.set n.val { s.stream n with exists_ := true, pond := 40, group := rnd % 5 }, sram := [(40, 64)], groups := if rnd % 3 = 0 then [] else s.str.groups.set (rnd % 5) { s.group (rnd % 5) with springs := [0, 1], inline := rnd % 2 = 0 } } }
    let o : OLine := ((s.out[n]).formed.head?).getD { line := { tag := {}, flags := 0, cols := [], x0 := 0, hpos0 := 0, hstep := 0, chsel := 0, y := 0 }, flags := 0, m := 0, vpos := 0, vstep := 0, fmt := 0, recfmt := 1 }
    let rest : List OLine := (s.out[n]).formed.drop 1
    decide (s.on = true ∧
      s.passing = false ∧
      (s.out[n]).formed = o :: rest ∧
      (s.out[n]).discard = none ∧
      (s.out[n]).pend = none ∧
      s.outHeld n = false ∧
      s.outRoom n (headBytes o.recfmt + (s.lineRecord n o).2.length + 4) = false ∧
      s.isInline (s.stream n).group = true) = true) ∧
    (let s : State := State.reset
    let rnd : Nat := 4
    let n : Fin 16 := 0
    let s : State := s.up
    let s : State := s.onOut n (fun x => { x with formed := [{ line := { tag := { frame := rnd % 9, line := rnd % 99 }, flags := 0, cols := [[1,2,3,4]], x0 := 0, hpos0 := 0, hstep := 65536, chsel := 0, y := 0 }, flags := 0, m := 0, vpos := 0, vstep := 0, fmt := 0, recfmt := 1 }], pend := none, discard := none })
    let s : State := { s with str := { s.str with streams := s.str.streams.set n.val { s.stream n with exists_ := true, pond := 40, group := rnd % 5 }, sram := [(40, 64)], groups := if rnd % 3 = 0 then [] else s.str.groups.set (rnd % 5) { s.group (rnd % 5) with springs := [0, 1], inline := rnd % 2 = 0 } } }
    let o : OLine := ((s.out[n]).formed.head?).getD { line := { tag := {}, flags := 0, cols := [], x0 := 0, hpos0 := 0, hstep := 0, chsel := 0, y := 0 }, flags := 0, m := 0, vpos := 0, vstep := 0, fmt := 0, recfmt := 1 }
    let rest : List OLine := (s.out[n]).formed.drop 1
    decide (s.on = true ∧
      s.passing = false ∧
      (s.out[n]).formed = o :: rest ∧
      (s.out[n]).discard = none ∧
      (s.out[n]).pend = none ∧
      s.outHeld n = false ∧
      s.outRoom n (headBytes o.recfmt + (s.lineRecord n o).2.length + 4) = false ∧
      s.isInline (s.stream n).group = false) = true) ∧
    (let s : State := State.reset
    let rnd : Nat := 0
    let n : Fin 16 := 0
    let s : State := s.up
    let s : State := s.onOut n (fun x => { x with pend := some { frame := rnd % 9, line := rnd % 99, last := rnd % 9, cause := 1 + rnd % 6, count := some 7, tag := none } })
    let p : PendTrunc := ((s.out[n]).pend).getD { frame := 0, line := 0, last := 0, cause := 0, count := none, tag := none }
    decide ((s.out[n]).pend = some p ∧
      p.dropped = none) = true) ∧
    (let s : State := State.reset
    let k : Fin 768 := 7
    let s : State := s.up
    decide (s.on = true ∧
      (if k.val < 512 then s.hSetUsed (k / 64) else s.vSetUsed ((k - 512 : Nat) / 32)) = false) = true) ∧
    (let s : State := press
    let rnd : Nat := 1
    let k : Fin 768 := 3
    let s : State := s.up
    let k : Fin 768 := if rnd % 2 = 0 then k else 0
    decide (s.on = true ∧
      (if k.val < 512 then s.hSetUsed (k / 64) else s.vSetUsed ((k - 512 : Nat) / 32)) = true) = true) :=
  ⟨by decide +kernel, by decide +kernel, by decide +kernel, by decide +kernel, by decide +kernel⟩

/-- Clauses of `Obligations.EthernetPortsAndLinksComeAndGo` have states and operands that meet their hypotheses. -/
theorem witness_EthernetPortsAndLinksComeAndGo :
    (let s : State := State.reset
    let rnd : Nat := 2
    let p : Fin 4 := 0
    let v : Word := 0xa62f1ba4#32
    let s : State := s.up
    let v : Word := if rnd % 2 = 0 then v else wd (rnd % 64)
    let s : State := if rnd % 3 = 0 then s else { (s.setB (A.ethCtl p) 0 false) with links := s.links.map (fun x => { x with aligned := rnd % 5 != 0, lfault := rnd % 7 == 0, rfault := rnd % 11 == 0 }) }
    decide (let mode := if fld v 2 1 = 3 then 0 else fld v 2 1
      let has := fun (l : Fin 8) => l.val % 4 < (if mode = 0 then 1 else if mode = 1 then 2 else 4)
      s.on = true ∧
      s.b (A.ethCtl p) 0 = false ∧
      p.val < 2) = true) ∧
    (let s : State := State.reset
    let rnd : Nat := 8
    let s : State := s.up
    let p : Fin 4 := Fin.ofNat 4 (2 + rnd % 2)
    decide (s.on = true ∧
      s.b (A.ethCtl p) 0 = false ∧
      2 ≤ p.val) = true) ∧
    (let s : State := State.reset
    let rnd : Nat := 2
    let p : Fin 4 := 2
    let s : State := s.up
    let s : State := s.setB (A.ethCtl p) 0 true
    let p : Fin 4 := if rnd % 3 = 0 then Fin.ofNat 4 (rnd % 2) else Fin.ofNat 4 (2 + rnd % 2)
    decide (s.on = true ∧
      s.b (A.ethCtl p) 0 = true) = true) ∧
    (let s : State := State.reset
    let rnd : Nat := 1
    let p : Fin 4 := 3
    let s : State := s.up
    let s : State := s.setB (A.ethCtl p) 0 true
    let p : Fin 4 := if rnd % 3 = 0 then Fin.ofNat 4 (rnd % 2) else Fin.ofNat 4 (2 + rnd % 2)
    decide (s.on = true ∧
      s.b (A.ethCtl p) 0 = true ∧
      2 ≤ p.val) = true) ∧
    (let s : State := State.reset
    let rnd : Nat := 3
    let s : State := s.up
    let s : State := (s.setB (A.ethCtl 0) 0 true).onLink 0 (fun x => { x with up := true, aligned := true })
    let p : Fin 4 := Fin.ofNat 4 (rnd % 2)
    decide (s.on = true ∧
      p.val < 2 ∧
      ((∀ l : Fin 8, l.val / 4 = p.val → (s.links[l]).up = true ∨ s.linkOk l = false))) = true) ∧
    (let s : State := State.reset
    let rnd : Nat := 7
    let l : Fin 8 := 4
    let s : State := s.up
    let s : State := (s.setB (A.ethCtl (l / 4)) 0 true).onLink l (fun x => { x with aligned := rnd % 2 = 0, up := rnd % 3 ≠ 0, lfault := rnd % 5 = 0, rfault := false })
    decide (s.on = true ∧
      s.linkExists l = true) = true) ∧
    (let s : State := press
    let rnd : Nat := 3
    let l : Fin 8 := 4
    let s : State := s.up
    let s : State := s.onLink l (fun x => { x with badFrom := some (s.now - 10000 * (rnd % 30)) })
    let t : Nat := (s.links[l]).badFrom.getD 0
    decide (s.on = true ∧
      (s.links[l]).badFrom = some t ∧
      t + us (atLeast1 (s.f A.mktLinkHold 7 0)) ≤ s.now) = true) ∧
    (let s : State := State.reset
    let rnd : Nat := 3
    let l : Fin 8 := 6
    let s : State := s.up
    let s : State := s.onLink l (fun x => { x with aligned := true, lfault := false, rfault := false, up := rnd % 2 = 0 })
    decide (s.on = true ∧
      s.linkExists l = false ∧
      (s.links[l]).up = false) = true) :=
  ⟨by decide +kernel, by decide +kernel, by decide +kernel, by decide +kernel, by decide +kernel, by decide +kernel, by decide +kernel, by decide +kernel⟩

/-- Clauses of `Obligations.EthernetPortsAndLinksComeAndGo` have states and operands that meet their hypotheses. -/
theorem witness_EthernetPortsAndLinksComeAndGo_2 :
    (let s : State := press
    let rnd : Nat := 5
    let l : Fin 8 := 0
    let s : State := s.up
    let s : State := s.onLink l (fun x => { x with aligned := true, lfault := false, rfault := false, up := rnd % 2 = 0 })
    decide (s.on = true ∧
      s.linkOk l = true) = true) ∧
    (let s : State := State.reset
    let l : Fin 8 := 3
    decide ((s.links[l]).badFrom.all (fun t => decide (s.now < t + us (atLeast1 (s.f A.mktLinkHold 7 0)))) = true) = true) ∧
    (let s : State := State.reset
    let rnd : Nat := 0
    let l : Fin 8 := 4
    let s : State := s.up
    let s : State := (s.setB (A.ethCtl (l / 4)) 0 true).onLink l (fun x => { x with aligned := rnd % 3 ≠ 0, up := rnd % 2 = 0, lfault := rnd % 5 = 0 })
    decide (s.on = true ∧
      s.linkExists l = true ∧
      s.linkOk l = false) = true) :=
  ⟨by decide +kernel, by decide +kernel, by decide +kernel⟩

/-- Clauses of `Obligations.WindowsTakeRecordsAndSegmentsLeave` have states and operands that meet their hypotheses. -/
theorem witness_WindowsTakeRecordsAndSegmentsLeave :
    (let s : State := press
    let rnd : Nat := 4
    let n : Fin 16 := 8
    let l : Fin 8 := 6
    let s : State := s.up
    let s : State := marketFix s l n.val rnd
    let s : State := s.onXpt n (fun x => { x with tx := none, resendQ := [], newQ := [], deficits := [(l.val, 9000)] })
    let s : State := s.onOut n (fun x => { x with pond := [{ bytes := List.replicate (64 + rnd / 3 % 900) 1 }] })
    let s : State := s.onLink l (fun x => { x with deficits := (List.range 8).map (fun t => (t, if (s.stream n).stall = t then 90000 else rnd % 3000)) })
    let h : Rec := ((s.out[n]).pond.head?).getD { bytes := [] }
    let rest : List Rec := (s.out[n]).pond.drop 1
    decide (s.on = true ∧
      (s.out[n]).pond = h :: rest ∧
      s.canTake n = true ∧
      (s.stream n).mode ≠ .lossy ∧
      usedLink (s.stream n) (s.xpt[n]) = l.val ∧
      (s.xpt[n]).gap = none ∧
      (s.xpt[n]).failbackDue = false ∧
      sendsNext s n (s.stream n) (s.xpt[n]) = none ∧
      (marketLaw s l).map (·.2) = some n.val ∧
      s.packRoom (l.castLE (by decide)) (segFrame s l n (s.stream n) (s.xpt[n]) (newTx s n h)).length = true) = true) ∧
    (let s : State := press
    let rnd : Nat := 7
    let n : Fin 16 := 2
    let l : Fin 8 := 7
    let s : State := s.up
    let s : State := marketFix s l n.val rnd
    decide (s.on = true ∧
      s.canTake n = true ∧
      (s.stream n).mode = .reliable ∧
      (s.xpt[n]).winFull = false ∧
      usedLink (s.stream n) (s.xpt[n]) = l.val ∧
      ((sendsNext s n (s.stream n) (s.xpt[n]) ≠ none ∨ (marketLaw s l).map (·.2) ≠ some n.val))) = true) ∧
    (let s : State := press
    let rnd : Nat := 0
    let n : Fin 16 := 3
    let s : State := s.up
    let s : State := { s with str := { s.str with streams := s.str.streams.set n.val { s.stream n with exists_ := true, mode := .reliable, window := rnd % 3 }, lake := [{ kind := 3, owner := n.val, base := 0, size := 1000000 }] } }
    let s : State := s.onXpt n (fun x => { x with held := List.replicate 3 { seq := 1, record := { bytes := [] } } })
    let s : State := s.onOut n (fun x => { x with pond := [{ bytes := List.replicate (64 + rnd % 100) 1 }] })
    let h : Rec := ((s.out[n]).pond.head?).getD { bytes := [] }
    let rest : List Rec := (s.out[n]).pond.drop 1
    decide (s.on = true ∧
      (s.out[n]).pond = h :: rest ∧
      (s.stream n).exists_ = true ∧
      (s.stream n).mode = .reliable ∧
      (s.xpt[n]).fits (s.stream n).window (s.windowBytes n) (winBytes h) = false) = true) :=
  ⟨by decide +kernel, by decide +kernel, by decide +kernel⟩

/-- Clauses of `Obligations.WindowsTakeRecordsAndSegmentsLeave` have states and operands that meet their hypotheses. -/
theorem witness_WindowsTakeRecordsAndSegmentsLeave_2 :
    (let s : State := State.reset
    let rnd : Nat := 0
    let n : Fin 16 := 3
    let s : State := s.up
    let s : State := { s with str := { s.str with streams := s.str.streams.set n.val { s.stream n with exists_ := rnd % 3 ≠ 0, mode := .lossy } } }
    decide ((s.out[n]).pond = []) = true) ∧
    (let s : State := State.reset
    let rnd : Nat := 2
    let n : Fin 16 := 6
    let s : State := s.up
    let s : State := { s with str := { s.str with streams := s.str.streams.set n.val { s.stream n with exists_ := rnd % 3 ≠ 0, mode := .lossy } } }
    decide ((s.stream n).exists_ = false) = true) ∧
    (let s : State := press
    let n : Fin 16 := 1
    let s : State := { (linkState s.up 1) with portMode := s.portMode.map (fun _ => 2) }
    let s : State := s.onXpt n (fun x => { x with session := some 3 })
    decide ((s.stream n).mode = .lossy ∧
      (s.sessionOf n (s.xpt[n])).isSome = true ∧
      s.noLink (s.stream n) = false ∧
      s.canTake n = false) = true) :=
  ⟨by decide +kernel, by decide +kernel, by decide +kernel⟩

/-- Clauses of `Obligations.WindowsTakeRecordsAndSegmentsLeave` have states and operands that meet their hypotheses. -/
theorem witness_WindowsTakeRecordsAndSegmentsLeave_3 :
    (let s : State := press
    let rnd : Nat := 0
    let n : Fin 16 := 5
    let s : State := s.up
    let s : State := { s with str := { s.str with streams := s.str.streams.set n.val { s.stream n with exists_ := true, mode := .lossy } } }
    let s : State := (s.onXpt n (fun x => { x with session := none })).setB (A.xptCtl n) 5 false
    let s : State := s.onOut n (fun x => { x with pond := [{ bytes := List.replicate (64 + rnd % 100) 1 }] })
    let h : Rec := ((s.out[n]).pond.head?).getD { bytes := [] }
    let rest := (s.out[n]).pond.drop 1
    decide (s.on = true ∧
      (s.out[n]).pond = [h] ∧
      (s.stream n).exists_ = true ∧
      (s.stream n).mode = .lossy ∧
      (((s.sessionOf n (s.xpt[n])).isNone = true ∨ s.noLink (s.stream n) = true))) = true) ∧
    (let s : State := State.reset
    decide (s.on = true ∧ (s.drains.map (·.key)).Nodup) = true) ∧
    (let s : State := State.reset
    let rnd : Nat := 0
    let l : Fin 8 := 5
    let s : State := s.up
    let s : State := marketFix s l (rnd % 16) rnd
    headsSettled s ∧
    decide (s.on = true ∧
      (s.drains.map (·.key)).Nodup ∧
      s.linkOk l = true ∧
      marketLaw s l = none) = true) :=
  ⟨by decide +kernel, by decide +kernel, ⟨by unfold headsSettled; decide +kernel, by decide +kernel⟩⟩

/-- Clauses of `Obligations.WindowsTakeRecordsAndSegmentsLeave` have states and operands that meet their hypotheses. -/
theorem witness_WindowsTakeRecordsAndSegmentsLeave_4 :
    (let s : State := press
    let rnd : Nat := 6
    let l : Fin 8 := 1
    let n : Fin 16 := 4
    let s : State := s.up
    let s : State := marketFix s l n.val rnd
    let s : State := s.onXpt n (fun x => { x with tx := none, resendQ := [], newQ := [], deficits := [(l.val, 9000)] })
    let s : State := s.onOut n (fun x => { x with pond := [{ bytes := List.replicate (64 + rnd / 3 % 900) 1 }] })
    let s : State := s.onLink l (fun x => { x with deficits := (List.range 8).map (fun t => (t, if (s.stream n).stall = t then 90000 else rnd % 3000)) })
    let h : Rec := ((s.out[n]).pond.head?).getD { bytes := [] }
    let rest : List Rec := (s.out[n]).pond.drop 1
    let l : Fin 8 := Fin.ofNat 8 (usedLink (s.stream n) (s.xpt[n]))
    headsSettled s ∧
    decide (s.on = true ∧
      s.linkOk l = true ∧
      (marketLaw s l).map (·.2) = some n.val ∧
      (s.stream n).mode ≠ .lossy ∧
      usedLink (s.stream n) (s.xpt[n]) = l.val ∧
      (s.xpt[n]).gap = none ∧
      (s.xpt[n]).failbackDue = false ∧
      (s.out[n]).pond = h :: rest ∧
      sendsNext s n (s.stream n) (s.xpt[n]) = none ∧
      s.packRoom (l.castLE (by decide)) (segFrame s l n (s.stream n) (s.xpt[n]) (newTx s n h)).length = true) = true) ∧
    (let s : State := press
    let rnd : Nat := 8
    let l : Fin 8 := 2
    let s : State := s.up
    let s : State := marketFix s l (rnd % 16) rnd
    let k : Nat := ((marketLaw s l).map (·.2)).getD 99
    let t : Tx := ((s.carrier k).bind (fun c => sendsNext s k c.1 c.2)).getD { gap := false, seq := 0, bytes := [], resend := false, offset := 0, link := 0 }
    let r : StreamRec := ((s.carrier k).map (·.1)).getD {}
    let x : Xpt := ((s.carrier k).map (·.2)).getD {}
    headsSettled s ∧
    decide (s.on = true ∧
      s.linkOk l = true ∧
      (marketLaw s l).map (·.2) = some k ∧
      s.carrier k = some (r, x) ∧
      sendsNext s k r x = some t ∧
      (s.drains.map (·.key)).Nodup ∧
      s.packRoom (l.castLE (by decide)) (segFrame s l k r x t).length = true) = true) ∧
    (let s : State := State.reset
    let l : Fin 8 := 4
    decide (s.linkOk l = false) = true) :=
  ⟨⟨by unfold headsSettled; decide +kernel, by decide +kernel⟩, ⟨by unfold headsSettled; decide +kernel, by decide +kernel⟩, by decide +kernel⟩

/-- Clauses of `Obligations.WindowsTakeRecordsAndSegmentsLeave` have states and operands that meet their hypotheses. -/
theorem witness_WindowsTakeRecordsAndSegmentsLeave_5 :
    (let s : State := State.reset
    let rnd : Nat := 3
    let n : Fin 16 := 1
    let s : State := s.up
    let s : State := { s with now := s.now + 200000000000, drains := s.drains.filter (fun d => d.stream != n.val) ++ (List.range (1 + rnd % 2)).map (fun j => { stream := n, key := n.val + 16 * (1 + j), xpt := s.xpt[n], rec_ := {}, from_ := 0, ended := true, gapSent := some (3 + j) }) }
    let d : Drain := ((s.drains.find? (fun d => d.stream == n.val && d.ended && d.gapSent.any (fun t => decide (t + s.drainTmo ≤ s.now)))).getD { stream := 99, key := 0, xpt := {}, rec_ := {}, from_ := 0 })
    decide (s.on = true ∧
      s.drains.find? (fun d => d.stream == n.val && d.ended && d.gapSent.any (fun t => decide (t + s.drainTmo ≤ s.now))) = some d) = true) :=
  by decide +kernel

/-- Clauses of `Obligations.TransportMessagesMoveTheWindow` have states and operands that meet their hypotheses. -/
theorem witness_TransportMessagesMoveTheWindow :
    (let s : State := press
    let rnd : Nat := 7
    let l : Fin 8 := 5
    let h : MsgHead := { magic := 0x464c#16, xver := 0x01#8, stream := 5, session := 0x91c7e575#32 }
    let s : State := (linkState s.up l)
    let s : State := { s with portMode := s.portMode.map (fun _ => 2), str := { s.str with streams := s.str.streams.set h.stream.val { s.stream h.stream with exists_ := true, format := 1 + rnd % 2 } } }
    let s : State := (((s.wr (A.xptCtl h.stream) (wd (rnd % 2 * 16))).wr (A.xptDstPMacHi h.stream) 0#32).wr (A.xptDstPMacLo h.stream) (wd 77))
    let h : MsgHead := { h with magic := 0x464C#16, xver := 1#8 }
    let src : NetSrc := { enc := 0, mac := 77#48, dmac := BitVec.ofNat 48 (s.linkMac l), etype := BitVec.ofNat 16 (s.f A.mktEtype 15 0) }
    let xmin : BitVec 8 := BitVec.ofNat 8 (rnd % 2)
    let rmin : BitVec 8 := BitVec.ofNat 8 (rnd % 3)
    let rmax : BitVec 8 := BitVec.ofNat 8 (rnd % 4)
    decide (s.on = true ∧
      s.linkOk l = true ∧
      s.takesMsg l src = true ∧
      s.headOk src h true = true ∧
      (s.stream h.stream).exists_ = true ∧
      xmin.toNat ≤ 1 ∧
      rmin.toNat ≤ min rmax.toNat (s.stream h.stream).format) = true) ∧
    (let s : State := State.reset
    let rnd : Nat := 1
    let l : Fin 8 := 2
    let h : MsgHead := { magic := 0x464c#16, xver := 0x01#8, stream := 9, session := 0xf1880332#32 }
    let xmin : BitVec 8 := 0x46#8
    let rmin : BitVec 8 := 0x5a#8
    let rmax : BitVec 8 := 0xef#8
    let s : State := (linkState s.up l)
    let s : State := { s with portMode := s.portMode.map (fun _ => 2), str := { s.str with streams := s.str.streams.set h.stream.val { s.stream h.stream with exists_ := rnd % 2 = 0, format := 1 + rnd % 2 } } }
    let s : State := (((s.wr (A.xptCtl h.stream) (wd (rnd % 2 * 16))).wr (A.xptDstPMacHi h.stream) 0#32).wr (A.xptDstPMacLo h.stream) (wd 77))
    let h : MsgHead := { h with magic := 0x464C#16, xver := 1#8 }
    let src : NetSrc := { enc := 0, mac := 77#48, dmac := BitVec.ofNat 48 (s.linkMac l), etype := BitVec.ofNat 16 (s.f A.mktEtype 15 0) }
    decide (s.on = true ∧
      s.linkOk l = true ∧
      s.takesMsg l src = true ∧
      s.headOk src h true = true ∧
      (((s.stream h.stream).exists_ = false ∨ 1 < xmin.toNat ∨ min rmax.toNat (s.stream h.stream).format < rmin.toNat))) = true) ∧
    (let s : State := State.reset
    let l : Fin 8 := 3
    let src : NetSrc := { enc := 1, mac := 0x0000000000cb#48, ip := 6, udp := 4, dmac := 0x000000000000#48, dip := 0, dport := 65536, etype := 0x0000#16 }
    let h : MsgHead := { magic := 0x464c#16, xver := 0x01#8, stream := 9, session := 0xfc4d66b0#32 }
    let s : State := (linkState s.up l)
    let s : State := { s with portMode := s.portMode.map (fun _ => 2) }
    let src : NetSrc := { src with enc := 0, dmac := BitVec.ofNat 48 (s.linkMac l), etype := BitVec.ofNat 16 (s.f A.mktEtype 15 0) }
    decide (s.on = true ∧
      s.linkOk l = true ∧
      s.takesMsg l src = true ∧
      s.headOk src h false = false) = true) ∧
    (let s : State := State.reset
    let l : Fin 8 := 6
    let src : NetSrc := { enc := 2, mac := 0x0000fe7017d7#48, ip := 4, udp := 5, dmac := 0x000000000000#48, dip := 0, dport := 65536, etype := 0x0000#16 }
    let h : MsgHead := { magic := 0x0001#16, xver := 0x01#8, stream := 0, session := 0x370798ae#32 }
    let s : State := (linkState s.up l)
    let s : State := { s with portMode := s.portMode.map (fun _ => 2) }
    let src : NetSrc := { src with enc := 0, dmac := BitVec.ofNat 48 (s.linkMac l), etype := BitVec.ofNat 16 (s.f A.mktEtype 15 0) }
    decide (s.on = true ∧
      s.linkOk l = true ∧
      s.takesMsg l src = true ∧
      s.headOk src h true = false) = true) ∧
    (let s : State := State.reset
    let l : Fin 8 := 6
    let src : NetSrc := { enc := 2, mac := 0x9964c2ff7494#48, ip := 1, udp := 1, dmac := 0x000000000000#48, dip := 0, dport := 65536, etype := 0x0000#16 }
    let h : MsgHead := { magic := 0x464c#16, xver := 0x01#8, stream := 5, session := 0xb1a1a5e4#32 }
    let s : State := (linkState s.up l)
    let s : State := { s with portMode := s.portMode.map (fun _ => 2) }
    let src : NetSrc := { src with enc := 0, dmac := BitVec.ofNat 48 (s.linkMac l), etype := BitVec.ofNat 16 (s.f A.mktEtype 15 0) }
    decide (s.on = true ∧
      s.linkOk l = true ∧
      s.takesMsg l src = true ∧
      s.headOk src h false = false) = true) ∧
    (let s : State := State.reset
    let rnd : Nat := 3
    let l : Fin 8 := 4
    let src : NetSrc := { enc := 0, mac := 0x000000000020#48, ip := 4, udp := 5, dmac := 0x000000000000#48, dip := 0, dport := 65536, etype := 0x0000#16 }
    let h : MsgHead := { magic := 0x464c#16, xver := 0x01#8, stream := 1, session := 0x00000000#32 }
    let xmin : BitVec 8 := 0x1b#8
    let xmax : BitVec 8 := 0x00#8
    let rmin : BitVec 8 := 0x00#8
    let rmax : BitVec 8 := 0x7a#8
    let credit : BitVec 64 := 0x0000000000010fc9#64
    let cum : BitVec 32 := 0x00000000#32
    let bitmap : BitVec 64 := 0x5677d30351d63362#64
    let limit : BitVec 64 := 0xb902fec80d033ed4#64
    let flags : BitVec 32 := 0x00000000#32
    let s : State := if rnd % 3 = 0 then s.up else { (linkState s.up l) with portMode := s.portMode.map (fun _ => 2) }
    let c : Instr := if rnd % 5 = 0 then .openMessage l src h xmin xmax rmin rmax credit else if rnd % 5 = 1 then .closeMessage l src h else .ackMessage l src h cum bitmap limit flags
    decide (c ∈ [.openMessage l src h xmin xmax rmin rmax credit, .closeMessage l src h, .ackMessage l src h cum bitmap limit flags] ∧
      s.linkOk l = false) = true) ∧
    (let s : State := State.reset
    let rnd : Nat := 5
    let l : Fin 8 := 6
    let src : NetSrc := { enc := 2, mac := 0x6ded532e8589#48, ip := 3, udp := 4, dmac := 0x000000000000#48, dip := 0, dport := 65536, etype := 0x0000#16 }
    let h : MsgHead := { magic := 0x464c#16, xver := 0x01#8, stream := 0, session := 0x00012b42#32 }
    let xmin : BitVec 8 := 0xa0#8
    let xmax : BitVec 8 := 0xdd#8
    let rmin : BitVec 8 := 0x44#8
    let rmax : BitVec 8 := 0xc5#8
    let credit : BitVec 64 := 0xb7802d308083c85b#64
    let cum : BitVec 32 := 0xb360b1b2#32
    let bitmap : BitVec 64 := 0xe8ac113c4ee65c05#64
    let limit : BitVec 64 := 0xe1232cd91f905c23#64
    let flags : BitVec 32 := 0xaf284ad4#32
    let s : State := if rnd % 3 = 0 then s.up else { (linkState s.up l) with portMode := s.portMode.map (fun _ => 2) }
    let c : Instr := if rnd % 5 = 0 then .openMessage l src h xmin xmax rmin rmax credit else if rnd % 5 = 1 then .closeMessage l src h else .ackMessage l src h cum bitmap limit flags
    decide (c ∈ [.openMessage l src h xmin xmax rmin rmax credit, .closeMessage l src h, .ackMessage l src h cum bitmap limit flags] ∧
      s.on = true ∧
      s.linkOk l = true ∧
      s.takesMsg l src = false) = true) ∧
    (let s : State := press
    let rnd : Nat := 0
    let l : Fin 8 := 6
    let h : MsgHead := { magic := 0x464c#16, xver := 0x01#8, stream := 3, session := 0x78712ed3#32 }
    let s : State := (linkState s.up l)
    let s : State := { s with portMode := s.portMode.map (fun _ => 2), str := { s.str with streams := s.str.streams.set h.stream.val { s.stream h.stream with exists_ := true } } }
    let s : State := ((((s.wr (A.xptCtl h.stream) (wd (rnd % 2 * 16))).wr (A.xptDstPMacHi h.stream) 0#32).wr (A.xptDstPMacLo h.stream) (wd 77))).onXpt h.stream (fun x => { x with session := some h.session.toNat })
    let h : MsgHead := { h with magic := 0x464C#16, xver := 1#8 }
    let src : NetSrc := { enc := 0, mac := 77#48, dmac := BitVec.ofNat 48 (s.linkMac l), etype := BitVec.ofNat 16 (s.f A.mktEtype 15 0) }
    decide (s.on = true ∧
      s.linkOk l = true ∧
      s.takesMsg l src = true ∧
      s.headOk src h false = true ∧
      (s.xpt[h.stream]).session = some h.session.toNat) = true) :=
  ⟨by decide +kernel, by decide +kernel, by decide +kernel, by decide +kernel, by decide +kernel, by decide +kernel, by decide +kernel, by decide +kernel⟩

/-- Clauses of `Obligations.TransportMessagesMoveTheWindow` have states and operands that meet their hypotheses. -/
theorem witness_TransportMessagesMoveTheWindow_2 :
    (let s : State := press
    let rnd : Nat := 0
    let l : Fin 8 := 3
    let h : MsgHead := { magic := 0x464c#16, xver := 0x01#8, stream := 4, session := 0x1c1b1e31#32 }
    let s : State := (linkState s.up l)
    let s : State := { s with portMode := s.portMode.map (fun _ => 2), str := { s.str with streams := s.str.streams.set h.stream.val { s.stream h.stream with exists_ := true } } }
    let s : State := (((s.wr (A.xptCtl h.stream) (wd (rnd % 2 * 16))).wr (A.xptDstPMacHi h.stream) 0#32).wr (A.xptDstPMacLo h.stream) (wd 77))
    let h : MsgHead := { h with magic := 0x464C#16, xver := 1#8 }
    let src : NetSrc := { enc := 0, mac := 77#48, dmac := BitVec.ofNat 48 (s.linkMac l), etype := BitVec.ofNat 16 (s.f A.mktEtype 15 0) }
    decide (s.on = true ∧
      s.linkOk l = true ∧
      s.takesMsg l src = true ∧
      s.headOk src h false = true ∧
      (s.xpt[h.stream]).session ≠ some h.session.toNat) = true) ∧
    (let s : State := press
    let rnd : Nat := 8
    let l : Fin 8 := 5
    let h : MsgHead := { magic := 0x464c#16, xver := 0x01#8, stream := 2, session := 0x1f10530a#32 }
    let limit : BitVec 64 := 0x0000000100000000#64
    let s : State := (linkState s.up l)
    let s : State := { s with drains := [], portMode := s.portMode.map (fun _ => 2), str := { s.str with streams := s.str.streams.set h.stream.val { s.stream h.stream with exists_ := true, mode := .reliable } } }
    let s : State := ((((s.wr (A.xptCtl h.stream) (wd (rnd % 2 * 16))).wr (A.xptDstPMacHi h.stream) 0#32).wr (A.xptDstPMacLo h.stream) (wd 77))).onXpt h.stream (fun x => { x with session := some h.session.toNat, seq := 9, held := (List.range 5).map (fun i => { seq := 4 + i, record := { bytes := [] }, acked := rnd % 3 = i, sentAt := if rnd % 4 = 0 then none else some 3 }), limit := rnd })
    let h : MsgHead := { h with magic := 0x464C#16, xver := 1#8 }
    let src : NetSrc := { enc := 0, mac := 77#48, dmac := BitVec.ofNat 48 (s.linkMac l), etype := BitVec.ofNat 16 (s.f A.mktEtype 15 0) }
    let cum : BitVec 32 := BitVec.ofNat 32 (rnd % 10)
    decide (s.on = true ∧
      s.linkOk l = true ∧
      s.takesMsg l src = true ∧
      s.headOk src h false = true ∧
      (s.stream h.stream).exists_ = true ∧
      (s.stream h.stream).mode ≠ .lossy ∧
      (s.drains.any (fun d => d.stream == h.stream.val)) = false ∧
      s.sessionOf h.stream (s.xpt[h.stream]) = some h.session.toNat ∧
      isLater 32 cum.toNat (s.xpt[h.stream]).seq = false) = true) ∧
    (let s : State := press
    let rnd : Nat := 1
    let l : Fin 8 := 7
    let h : MsgHead := { magic := 0x464c#16, xver := 0x01#8, stream := 0, session := 0x00000200#32 }
    let cum : BitVec 32 := 0xb59d7b38#32
    let s : State := (linkState s.up l)
    let s : State := { s with drains := [], portMode := s.portMode.map (fun _ => 2), str := { s.str with streams := s.str.streams.set h.stream.val { s.stream h.stream with exists_ := true, mode := .reliable } } }
    let s : State := ((((s.wr (A.xptCtl h.stream) (wd (rnd % 2 * 16))).wr (A.xptDstPMacHi h.stream) 0#32).wr (A.xptDstPMacLo h.stream) (wd 77))).onXpt h.stream (fun x => { x with session := some (rnd % 3), seq := 9 })
    let h : MsgHead := { h with magic := 0x464C#16, xver := 1#8 }
    let src : NetSrc := { enc := 0, mac := 77#48, dmac := BitVec.ofNat 48 (s.linkMac l), etype := BitVec.ofNat 16 (s.f A.mktEtype 15 0) }
    decide (s.on = true ∧
      s.linkOk l = true ∧
      s.takesMsg l src = true ∧
      s.headOk src h false = true ∧
      (s.stream h.stream).exists_ = true ∧
      (s.stream h.stream).mode ≠ .lossy ∧
      (s.drains.any (fun d => d.stream == h.stream.val)) = false ∧
      ((s.sessionOf h.stream (s.xpt[h.stream]) ≠ some h.session.toNat ∨ isLater 32 cum.toNat (s.xpt[h.stream]).seq = true))) = true) :=
  ⟨by decide +kernel, by decide +kernel, by decide +kernel⟩

/-- Clauses of `Obligations.StreamsResendAndFailOver` have states and operands that meet their hypotheses. -/
theorem witness_StreamsResendAndFailOver :
    (let s : State := press
    let rnd : Nat := 3
    let n : Fin 16 := 8
    let s : State := s.up
    let s : State := (s.onXpt n (fun x => { x with gap := none, tx := none, held := (List.range 4).map (fun i => { seq := 7 + i, record := { bytes := [] }, acked := i == rnd % 5, sentAt := if i = 3 then none else some 0 }), resendQ := [] }))
    let s : State := { s with now := s.now + 10 ^ 9, str := { s.str with streams := s.str.streams.set n.val { s.stream n with exists_ := true } } }
    decide (s.on = true ∧
      (s.stream n).exists_ = true ∧
      s.rtoDue n (s.xpt[n]) = true ∧
      (s.xpt[n]).tx = none) = true) ∧
    (let s : State := State.reset
    let n : Fin 16 := 2
    decide ((s.stream n).exists_ = false) = true) ∧
    (let s : State := State.reset
    let n : Fin 16 := 0
    decide (s.rtoDue n (s.xpt[n]) = false) = true) ∧
    (let s : State := State.reset
    let n : Fin 16 := 2
    decide (((s.xpt[n]).standby = false ∨ s.b (A.xptCtl n) 6 = false)) = true) ∧
    (let s : State := State.reset
    let n : Fin 16 := 9
    decide (((s.xpt[n]).silent = true ∨ (s.xpt[n]).held = [] ∧ (s.xpt[n]).gap = none ∨ s.now < (s.xpt[n]).lastAck + ms (s.f (A.xptSilent n) 15 0))) = true) ∧
    (let s : State := State.reset
    let n : Fin 16 := 3
    decide (((s.xpt[n]).standby = false ∨ s.linkOk (s.stream n).primary = false)) = true) ∧
    (let s : State := State.reset
    let n : Fin 16 := 7
    decide (((s.xpt[n]).standby = true ∨ (s.stream n).standby.all (fun l => !s.linkOk l) = true)) = true) ∧
    (let s : State := State.reset
    let n : Fin 16 := 4
    let s : State := s.up
    let s : State := { s with now := s.now + 10 ^ 9, drains := [{ stream := n.val, key := n.val + 16, xpt := { s.xpt[n] with gap := none, tx := none, held := (List.range 4).map (fun i => { seq := 7 + i, record := { bytes := [] }, acked := false, sentAt := if i = 3 then none else some 0 }), resendQ := [] }, rec_ := { exists_ := true }, from_ := 0 }] }
    let d : Drain := (s.drains.find? (fun d => d.stream == n.val)).getD { stream := 99, key := 0, xpt := {}, rec_ := {}, from_ := 0 }
    decide (s.on = true ∧
      s.drains = [d] ∧
      d.stream = n.val ∧
      s.rtoDue n d.xpt = true) = true) :=
  ⟨by decide +kernel, by decide +kernel, by decide +kernel, by decide +kernel, by decide +kernel, by decide +kernel, by decide +kernel, by decide +kernel⟩

/-- Clauses of `Obligations.StreamsResendAndFailOver` have states and operands that meet their hypotheses. -/
theorem witness_StreamsResendAndFailOver_2 :
    (let s : State := press
    let n : Fin 16 := 3
    let s : State := s.up
    let s : State := { s with str := { s.str with streams := s.str.streams.set n.val { s.stream n with exists_ := true } } }
    decide (s.on = true ∧
      (s.stream n).exists_ = true) = true) ∧
    (let s : State := press
    let n : Fin 16 := 3
    let s : State := s.up
    let s : State := { s with str := { s.str with streams := s.str.streams.set n.val { s.stream n with exists_ := true } } }
    decide (s.on = true ∧
      (s.stream n).exists_ = true) = true) ∧
    (let s : State := press
    let rnd : Nat := 4
    let n : Fin 16 := 1
    let s : State := (linkState s.up 0)
    let s : State := { s with str := { s.str with streams := s.str.streams.set n.val { s.stream n with exists_ := true, primary := 0, standby := some 4, mode := if rnd % 2 = 0 then .reliable else .lossy } } }.onXpt n (fun x => { x with standby := true })
    decide (s.on = true ∧
      (s.stream n).exists_ = true ∧
      (s.xpt[n]).standby = true ∧
      s.linkOk (s.stream n).primary = true ∧
      (s.stream n).standby ≠ some (s.stream n).primary ∧
      (s.stream n).standby ≠ none) = true) ∧
    (let s : State := press
    let n : Fin 16 := 7
    let s : State := (linkState s.up 4)
    let s : State := { s with str := { s.str with streams := s.str.streams.set n.val { s.stream n with exists_ := true, primary := 0, standby := some 4 } } }.onXpt n (fun x => { x with standby := false })
    let l : Nat := 4
    decide (s.on = true ∧
      (s.stream n).exists_ = true ∧
      (s.xpt[n]).standby = false ∧
      (s.stream n).standby = some l ∧
      s.linkOk l = true ∧
      l ≠ (s.stream n).primary) = true) ∧
    (let s : State := press
    let rnd : Nat := 4
    let n : Fin 16 := 4
    let l : Fin 8 := 1
    let s : State := s.up
    let l : Fin 8 := Fin.ofNat 8 (rnd % 8)
    let s : State := { s with str := { s.str with streams := s.str.streams.set n.val { s.stream n with exists_ := true, primary := l.val, standby := some ((l + 4).val) } } }
    let s : State := (((((s.setB (A.ethCtl 0) 0 true).setB (A.ethCtl 1) 0 true).setB (A.xptCtl n) 6 true).onLink l (fun x => { x with aligned := true, lfault := false, rfault := false, upFrom := 0, up := true })).onXpt n (fun x => { x with standby := true, tx := if rnd % 2 = 0 then none else x.tx })).setF A.mktFailback 15 0 0
    decide (s.on = true ∧
      (s.stream n).exists_ = true ∧
      (s.stream n).primary = l.val ∧
      (s.xpt[n]).standby = true ∧
      s.b (A.xptCtl n) 6 = true ∧
      s.linkOk l = true ∧
      (s.links[l]).upFrom + ms (s.f A.mktFailback 15 0) ≤ s.now) = true) ∧
    (let s : State := press
    let rnd : Nat := 8
    let n : Fin 16 := 4
    let s : State := s.up
    let s : State := { s with str := { s.str with streams := s.str.streams.set n.val { s.stream n with exists_ := true } } }
    let s : State := (s.onXpt n (fun x => { x with silent := false, standby := rnd % 2 = 0, lastAck := 0, held := [{ seq := 1, record := { bytes := [] } }] })).setF (A.xptSilent n) 15 0 0
    decide (s.on = true ∧
      (s.stream n).exists_ = true ∧
      (s.xpt[n]).silent = false ∧
      (((s.xpt[n]).held ≠ [] ∨ (s.xpt[n]).gap.isSome = true)) ∧
      (s.xpt[n]).lastAck + ms (s.f (A.xptSilent n) 15 0) ≤ s.now) = true) :=
  ⟨by decide +kernel, by decide +kernel, by decide +kernel, by decide +kernel, by decide +kernel, by decide +kernel⟩

/-- Clauses of `Obligations.PausedPrioritiesAreWatched` have states and operands that meet their hypotheses. -/
theorem witness_PausedPrioritiesAreWatched :
    (let s : State := State.reset
    let rnd : Nat := 2
    let l : Fin 8 := 4
    let q : Fin 8 := 1
    let k : BitVec 16 := 0x99b3#16
    let s : State := (linkState s.up l)
    let s : State := ({ s with portMode := s.portMode.map (fun _ => 2) }.wr (A.ethPfc (l / 4)) (wd (rnd % 256))).onLink l (fun x => { x with ignore := if rnd % 3 = 0 then [(q.val, s.now + 5)] else [] })
    decide (s.on = true ∧
      s.linkOk l = true ∧
      s.b (A.ethPfc (l.val / 4)) q = true ∧
      (s.links[l]).ignore.lookup q.val = none ∧
      k ≠ 0) = true) ∧
    (let s : State := State.reset
    let rnd : Nat := 6
    let l : Fin 8 := 6
    let q : Fin 8 := 1
    let s : State := if rnd % 5 = 0 then s else (linkState s.up l)
    let s : State := ({ s with portMode := s.portMode.map (fun _ => 2) }.wr (A.ethPfc (l / 4)) (wd (rnd % 256))).onLink l (fun x => { x with ignore := [] })
    decide (s.on = true ∧
      s.linkOk l = true ∧
      s.b (A.ethPfc (l.val / 4)) q = true ∧
      (s.links[l]).ignore.lookup q.val = none) = true) ∧
    (let s : State := State.reset
    let rnd : Nat := 9
    let l : Fin 8 := 7
    let q : Fin 8 := 7
    let s : State := if rnd % 5 = 0 then s else (linkState s.up l)
    let s : State := ({ s with portMode := s.portMode.map (fun _ => 2) }.wr (A.ethPfc (l / 4)) (wd (rnd % 256))).onLink l (fun x => { x with ignore := [] })
    decide (s.on = true ∧
      s.linkOk l = true ∧
      s.b (A.ethPfc (l.val / 4)) q = false) = true) ∧
    (let s : State := State.reset
    let rnd : Nat := 5
    let l : Fin 8 := 2
    let s : State := if rnd % 5 = 0 then s else (linkState s.up l)
    let s : State := ({ s with portMode := s.portMode.map (fun _ => 2) }.wr (A.ethPfc (l / 4)) (wd (rnd % 256))).onLink l (fun x => { x with ignore := [] })
    decide (s.linkOk l = false) = true) ∧
    (let s : State := State.reset
    let rnd : Nat := 3
    let l : Fin 8 := 7
    let q : Fin 8 := 7
    let s : State := s.up
    let s : State := s.onLink l (fun x => { x with pauses := if rnd % 3 = 0 then [] else [(q.val, { from_ := s.now, until_ := s.now + 9 })], ignore := if rnd % 2 = 0 then [] else [(q.val, s.now + 5)] })
    decide ((s.links[l]).pauses.lookup q.val = none) = true) ∧
    (let s : State := State.reset
    let rnd : Nat := 8
    let l : Fin 8 := 1
    let q : Fin 8 := 2
    let s : State := s.up
    let s : State := s.onLink l (fun x => { x with pauses := if rnd % 3 = 0 then [] else [(q.val, { from_ := s.now, until_ := s.now + 9 })], ignore := if rnd % 2 = 0 then [] else [(q.val, s.now + 5)] })
    decide (((s.links[l]).pauses.lookup q.val).any (fun p => decide ((s.now < p.until_))) = true) = true) ∧
    (let s : State := State.reset
    let rnd : Nat := 4
    let l : Fin 8 := 2
    let q : Fin 8 := 3
    let s : State := s.up
    let s : State := s.onLink l (fun x => { x with pauses := if rnd % 3 = 0 then [] else [(q.val, { from_ := s.now, until_ := s.now + 9 })], ignore := if rnd % 2 = 0 then [] else [(q.val, s.now + 5)] })
    decide ((((s.links[l]).pauses.lookup q.val).any (fun p => decide ((s.now < p.from_ + us (atLeast1 (s.f A.mktPfcWd 15 0)) ∨ p.until_ ≤ s.now))) = true)) = true) ∧
    (let s : State := State.reset
    let rnd : Nat := 2
    let l : Fin 8 := 1
    let q : Fin 8 := 5
    let s : State := s.up
    let s : State := s.onLink l (fun x => { x with pauses := if rnd % 3 = 0 then [] else [(q.val, { from_ := s.now, until_ := s.now + 9 })], ignore := if rnd % 2 = 0 then [] else [(q.val, s.now + 5)] })
    decide ((s.links[l]).ignore.lookup q.val = none) = true) :=
  ⟨by decide +kernel, by decide +kernel, by decide +kernel, by decide +kernel, by decide +kernel, by decide +kernel, by decide +kernel, by decide +kernel⟩

/-- Clauses of `Obligations.PausedPrioritiesAreWatched` have states and operands that meet their hypotheses. -/
theorem witness_PausedPrioritiesAreWatched_2 :
    (let s : State := State.reset
    let rnd : Nat := 7
    let l : Fin 8 := 3
    let q : Fin 8 := 5
    let s : State := s.up
    let s : State := s.onLink l (fun x => { x with pauses := if rnd % 3 = 0 then [] else [(q.val, { from_ := s.now, until_ := s.now + 9 })], ignore := if rnd % 2 = 0 then [] else [(q.val, s.now + 5)] })
    decide (((s.links[l]).ignore.lookup q.val).any (fun t => decide ((s.now < t))) = true) = true) ∧
    (let s : State := State.reset
    let l : Fin 8 := 5
    let q : Fin 8 := 4
    let s : State := (linkState s.up l)
    let s : State := ({ s with portMode := s.portMode.map (fun _ => 2) }.wr (A.ethPfc (l / 4)) (wd 255)).onLink l (fun x => { x with ignore := [(q.val, s.now + 5)] })
    let t : Nat := s.now + 5
    decide (s.on = true ∧
      s.linkOk l = true ∧
      s.b (A.ethPfc (l.val / 4)) q = true ∧
      (s.links[l]).ignore.lookup q.val = some t ∧
      s.now < t) = true) ∧
    (let s : State := State.reset
    let rnd : Nat := 7
    let l : Fin 8 := 0
    let q : Fin 8 := 2
    let s : State := s.up
    let s : State := s.onLink l (fun x => { x with pauses := [(q.val, { from_ := 0, until_ := s.now - rnd % 9 })] })
    let p : Pause := ((s.links[l]).pauses.lookup q.val).getD { from_ := 0, until_ := 0 }
    decide (s.on = true ∧
      (s.links[l]).pauses.lookup q.val = some p ∧
      p.until_ ≤ s.now) = true) ∧
    (let s : State := State.reset
    let l : Fin 8 := 0
    let s : State := (linkState s.up l)
    let s : State := { s with portMode := s.portMode.map (fun _ => 2) }
    decide (s.on = true ∧
      s.linkOk l = true) = true) ∧
    (let s : State := State.reset
    let rnd : Nat := 7
    let l : Fin 8 := 4
    let q : Fin 8 := 0
    let s : State := s.up
    let s : State := s.onLink l (fun x => { x with pauses := [(q.val, { from_ := 0, until_ := s.now + 1 + rnd % 9 })] })
    let s : State := { s with now := s.now + 10 ^ 9 }.onLink l (fun x => { x with pauses := [(q.val, { from_ := 0, until_ := s.now + 10 ^ 9 + 1 + rnd % 9 })] })
    let p : Pause := ((s.links[l]).pauses.lookup q.val).getD { from_ := 0, until_ := 0 }
    decide (s.on = true ∧
      (s.links[l]).pauses.lookup q.val = some p ∧
      p.from_ + us (atLeast1 (s.f A.mktPfcWd 15 0)) ≤ s.now ∧
      s.now < p.until_) = true) ∧
    (let s : State := State.reset
    let rnd : Nat := 0
    let l : Fin 8 := 2
    let q : Fin 8 := 2
    let s : State := s.up
    let s : State := s.onLink l (fun x => { x with ignore := [(q.val, s.now - rnd % 5)] })
    let t : Nat := ((s.links[l]).ignore.lookup q.val).getD 0
    decide (s.on = true ∧
      (s.links[l]).ignore.lookup q.val = some t ∧
      t ≤ s.now) = true) :=
  ⟨by decide +kernel, by decide +kernel, by decide +kernel, by decide +kernel, by decide +kernel, by decide +kernel⟩

/-- Clauses of `Obligations.NetworkRequestsAreAnswered` have states and operands that meet their hypotheses. -/
theorem witness_NetworkRequestsAreAnswered :
    (let s : State := State.reset
    let l : Fin 10 := 8
    let src : NetSrc := { enc := 2, mac := 0x00000000002f#48, ip := 4, udp := 4, dmac := 0x000000000000#48, dip := 0, dport := 65536, etype := 0x0000#16 }
    let s : State := (linkState (linkState s.up 0) 4)
    let s : State := ({ s with portMode := s.portMode.map (fun _ => 2) }.setB (A.ethCtl 2) 0 true).setB (A.ethCtl 3) 0 true
    let t : BitVec 128 := if src.enc = 2 then BitVec.ofNat 128 (s.linkIp6 l) else BitVec.ofNat 128 (s.linkIp4 l)
    decide (s.on = true ∧
      s.canRx l = true ∧
      (if src.enc = 2 then t.toNat = s.linkIp6 l else t.toNat = s.linkIp4 l)) = true) ∧
    (let s : State := State.reset
    let l : Fin 10 := 8
    let src : NetSrc := { enc := 1, mac := 0x00000000001b#48, ip := 7, udp := 2, dmac := 0x000000000000#48, dip := 0, dport := 65536, etype := 0x0000#16 }
    let t : BitVec 128 := 0xeb9761305bcf8cc88d9e0a5009c7f74e#128
    let s : State := (linkState (linkState s.up 0) 4)
    let s : State := ({ s with portMode := s.portMode.map (fun _ => 2) }.setB (A.ethCtl 2) 0 true).setB (A.ethCtl 3) 0 true
    decide (s.on = true ∧
      s.canRx l = true ∧
      (if src.enc = 2 then t.toNat ≠ s.linkIp6 l else t.toNat ≠ s.linkIp4 l)) = true) ∧
    (let s : State := State.reset
    let rnd : Nat := 9
    let l : Fin 10 := 8
    let src : NetSrc := { enc := 2, mac := 0xdef3d9c32b23#48, ip := 2, udp := 0, dmac := 0x000000000000#48, dip := 0, dport := 65536, etype := 0x0000#16 }
    let s : State := (linkState (linkState s.up 0) 4)
    let s : State := ({ s with portMode := s.portMode.map (fun _ => 2) }.setB (A.ethCtl 2) 0 true).setB (A.ethCtl 3) 0 true
    let p : Bytes := List.replicate (rnd % 1600) 1#8
    let src : NetSrc := if rnd % 4 = 0 then src else { src with dmac := BitVec.ofNat 48 (s.linkMac l), dip := if src.enc = 2 then s.linkIp6 l else s.linkIp4 l }
    decide (s.on = true ∧
      s.canRx l = true) = true) ∧
    (let s : State := State.reset
    let l : Fin 10 := 4
    let s : State := (linkState (linkState s.up 0) 4)
    let s : State := ({ s with portMode := s.portMode.map (fun _ => 2) }.setB (A.ethCtl 2) 0 true).setB (A.ethCtl 3) 0 true
    let d := beBytes 6 (s.linkMac l) ++ List.replicate 6 7#8 ++ beBytes 2 0x88B6 ++ List.replicate 46 0#8
    let f : Bytes := d ++ leBytes 4 (crc32 d)
    decide (s.on = true ∧
      s.canRx l = true ∧
      (s.fate l f = .badFcs ∨ s.fate l f = .dropped)) = true) ∧
    (let s : State := State.reset
    let rnd : Nat := 3
    let l : Fin 10 := 0
    let s : State := (linkState (linkState s.up 0) 4)
    let s : State := ({ s with portMode := s.portMode.map (fun _ => 2) }.setB (A.ethCtl 2) 0 true).setB (A.ethCtl 3) 0 true
    let d := beBytes 6 (s.linkMac l) ++ List.replicate 6 7#8 ++ beBytes 2 (if rnd % 3 = 0 then s.f A.mktEtype 15 0 else 0x88B6) ++ (if rnd % 2 = 0 then beBytes 2 0x464C ++ [1#8, 2#8] else []) ++ List.replicate (rnd % 70) 0#8
    let f : Bytes := d ++ leBytes 4 (crc32 d + (if rnd % 4 = 0 then 1 else 0))
    decide (s.on = true ∧
      s.canRx l = true ∧
      s.fate l f = .badMsg) = true) ∧
    (let s : State := State.reset
    let rnd : Nat := 30
    let l : Fin 10 := 4
    let s : State := (linkState (linkState s.up 0) 4)
    let s : State := ({ s with portMode := s.portMode.map (fun _ => 2) }.setB (A.ethCtl 2) 0 true).setB (A.ethCtl 3) 0 true
    let d := beBytes 6 (s.linkMac l) ++ List.replicate 6 7#8 ++ beBytes 2 (if rnd % 3 = 0 then s.f A.mktEtype 15 0 else 0x88B6) ++ (if rnd % 2 = 0 then beBytes 2 0x464C ++ [1#8, 2#8] else []) ++ List.replicate (rnd % 70) 0#8
    let f : Bytes := d ++ leBytes 4 (crc32 d + (if rnd % 4 = 0 then 1 else 0))
    decide (s.on = true ∧
      s.canRx l = true ∧
      s.fate l f = .taken) = true) ∧
    (let s : State := State.reset
    let rnd : Nat := 9
    let l : Fin 10 := 2
    let s : State := (linkState (linkState s.up 0) 4)
    let s : State := ({ s with portMode := s.portMode.map (fun _ => 2) }.setB (A.ethCtl 2) 0 true).setB (A.ethCtl 3) 0 true
    let d := beBytes 6 (s.linkMac l) ++ List.replicate 6 7#8 ++ beBytes 2 (if rnd % 3 = 0 then s.f A.mktEtype 15 0 else 0x88B6) ++ (if rnd % 2 = 0 then beBytes 2 0x464C ++ [1#8, 2#8] else []) ++ List.replicate (rnd % 70) 0#8
    let f : Bytes := d ++ leBytes 4 (crc32 d + (if rnd % 4 = 0 then 1 else 0))
    decide (s.canRx l = false) = true) ∧
    (let s : State := State.reset
    let l : Fin 10 := 8
    let s : State := s.up
    decide (s.canRx l = false) = true) :=
  ⟨by decide +kernel, by decide +kernel, by decide +kernel, by decide +kernel, by decide +kernel, by decide +kernel, by decide +kernel, by decide +kernel⟩

/-- Clauses of `Obligations.NetworkRequestsAreAnswered` have states and operands that meet their hypotheses. -/
theorem witness_NetworkRequestsAreAnswered_2 :
    (let d : Bytes := List.replicate 14 0#8
    decide (14 ≤ d.length ∧ crc32 d < 2 ^ 32) = true) :=
  by decide +kernel

/-- Clauses of `Obligations.LakeTrainsTrimsAndScrubs` have states and operands that meet their hypotheses. -/
theorem witness_LakeTrainsTrimsAndScrubs :
    (let s : State := State.reset
    let rnd : Nat := 29
    let s : State := s.up
    let s : State := { s with lakeCtl := { s.lakeCtl with training := 1 + rnd % 4095, set_ := (if rnd % 2 = 0 then s.lakeCtl.set_ else rnd % 7) } }
    decide (s.on = true ∧
      s.lakeCtl.training ≠ 0) = true) ∧
    (let s : State := State.reset
    decide (s.lakeCtl.training = 0) = true) ∧
    (let s : State := State.reset
    let c : Fin 12 := 1
    let hot : Bool := false
    decide (((s.lakeCtl.chans[c]).st ≠ 2 ∨ s.now < (s.lakeCtl.chans[c]).refAt + (if (s.lakeCtl.chans[c]).hot then 1950 else 3900))) = true) ∧
    (let s : State := State.reset
    decide ((s.b A.lakeCtl 0 = false ∨ s.lakeCtl.training ≠ 0 ∨ (s.now - s.lakeCtl.scrubAt) * (s.lakeCap / 64) < atLeast1 (s.f A.lakeScrubPeriod 7 0) * 3600 * 10 ^ 9)) = true) ∧
    (let s : State := State.reset
    let s : State := s.up
    let s : State := { s with grp := s.grp.map (fun x => { x with active := false }), load := s.load.map (fun x => { x with active := false }), lakeCtl := { s.lakeCtl with training := 0 }, sic := { s.sic with busy := .none }, ctl := { s.ctl with split := [] } }
    decide (s.on = true ∧
      s.running = false ∧
      s.sic.busy ≠ .copy false ∧
      s.sic.busy ≠ .copy true ∧
      s.load.toList.any (·.active) = false ∧
      s.ctl.split = [] ∧
      s.lakeCtl.training = 0) = true) ∧
    (let s : State := running
    let s : State := s.up
    decide (s.on = true ∧
      ((s.running = true ∨ s.load.toList.any (·.active) = true ∨ s.sic.busy = .copy false ∨ s.sic.busy = .copy true ∨ s.ctl.split ≠ [] ∨ s.lakeCtl.training ≠ 0))) = true) ∧
    (let s : State := State.reset
    let rnd : Nat := 0
    let c : Fin 12 := 0
    let wr : Int := 3
    let s : State := s.up
    let s : State := { s.setB A.lakeCtl 1 true with now := s.now + 10 ^ 15, lakeCtl := { s.lakeCtl with chans := s.lakeCtl.chans.map (fun x => { x with st := 2, wakeStep := rnd % 5 = 0, stepAt := if rnd % 3 = 0 then s.now + 10 ^ 15 - 200000 else x.stepAt }) } }
    let s : State := if rnd % 2 = 0 then s else s.wr (A.lakeChTrimWin c) (wd (rnd * 7 % 0x40000000))
    decide (s.on = true ∧
      s.b A.lakeCtl 1 = true ∧
      (s.lakeCtl.chans[c]).st = 2 ∧
      (((s.lakeCtl.chans[c]).stepAt + atLeast1 (s.f A.lakeRetrain 31 16) * 60 * 10 ^ 9 ≤ s.now ∨ (s.lakeCtl.chans[c]).wakeStep = true ∨ 16 * atLeast1 (s.f A.lakeRetrain 7 0) ≤ (sx 16 (s.f (A.telT (phySensor c)) 15 0) - (s.lakeCtl.chans[c]).stepTemp).natAbs)) ∧
      (s.lakeCtl.chans[c]).stepAt + 100000 ≤ s.now) = true) ∧
    (let s : State := State.reset
    let rnd : Nat := 0
    let c : Fin 12 := 5
    let s : State := s.up.setB A.lakeCtl 1 (rnd % 3 = 0)
    decide (((s.b A.lakeCtl 1 = false ∨ (s.lakeCtl.chans[c]).st ≠ 2 ∨ s.now < (s.lakeCtl.chans[c]).stepAt + 100000))) = true) :=
  ⟨by decide +kernel, by decide +kernel, by decide +kernel, by decide +kernel, by decide +kernel, by decide +kernel, by decide +kernel, by decide +kernel⟩

/-- Clauses of `Obligations.LakeTrainsTrimsAndScrubs` have states and operands that meet their hypotheses. -/
theorem witness_LakeTrainsTrimsAndScrubs_2 :
    (let s : State := State.reset
    let rnd : Nat := 3
    let c : Fin 12 := 0
    let wr : Fin 256 := 5
    let s : State := s.up
    let s : State := if rnd % 2 = 0 then s else s.wr (A.lakeChTrimWin c) (wd (rnd * 7 % 0x40000000))
    decide (s.on = true ∧
      (s.trimWin c).1 ≤ (s.trimWin c).2) = true) ∧
    (let s : State := State.reset
    let rnd : Nat := 3
    let s : State := s.up
    let s : State := { s.setB A.lakeCtl 0 true with lakeCtl := { s.lakeCtl with training := 0, set_ := if rnd % 3 = 0 then s.lakeCtl.set_ else 1, scrubAt := 0, scrubPos := if rnd % 4 = 0 then 32 * 12 * 2 ^ 24 - 1 else rnd }, now := 10 ^ 18 }
    decide (s.on = true ∧
      s.b A.lakeCtl 0 = true ∧
      s.lakeCtl.training = 0 ∧
      s.lakeCap / 64 ≠ 0 ∧
      atLeast1 (s.f A.lakeScrubPeriod 7 0) * 3600 * 10 ^ 9 ≤ (s.now - s.lakeCtl.scrubAt) * (s.lakeCap / 64)) = true) ∧
    (let s : State := State.reset
    let c : Fin 12 := 3
    let hot : Bool := true
    let s : State := s.up
    let s : State := { s with now := s.now + 4000, lakeCtl := { s.lakeCtl with chans := s.lakeCtl.chans.map (fun x => { x with st := 2 }) } }
    decide (s.on = true ∧
      (s.lakeCtl.chans[c]).st = 2 ∧
      (s.lakeCtl.chans[c]).refAt + (if (s.lakeCtl.chans[c]).hot then 1950 else 3900) ≤ s.now) = true) :=
  ⟨by decide +kernel, by decide +kernel, by decide +kernel⟩

/-- Clauses of `Obligations.LakeRequestsStayInside` have states and operands that meet their hypotheses. -/
theorem witness_LakeRequestsStayInside :
    (let s : State := State.reset
    let rnd : Nat := 0
    let a : Nat := 0
    let s : State := s.up
    let q : LakeReq := if rnd % 2 = 0 then .aperture 3 else .market 2
    let s : State := { s with str := { s.str with lake := [{ kind := 5, owner := 3, base := 0, size := 2 ^ 20 }, { kind := 3, owner := 2, base := 0, size := 2 ^ 20 }] } }
    let a : Nat := a % 4096
    let bs : Bytes := List.replicate (rnd % 200) (BitVec.ofNat 8 rnd)
    let ecc : List (Nat × Ecc) := if rnd % 2 = 0 then [] else [(1, Ecc.bad)]
    decide (s.on = true ∧
      s.lakeAllowed q true a bs.length = true ∧
      ecc.all (fun e => decide (a ≤ 64 * (a / 64 + e.1)) && decide (64 * (a / 64 + e.1) + 64 ≤ a + bs.length)) = true) = true) ∧
    (let s : State := State.reset
    let q : LakeReq := LakeReq.tnr 0
    let a : Nat := 2
    let len : Nat := 103
    let w : Option (Bytes × Issuer) := none
    let s : State := s.up
    decide (s.on = true ∧
      s.lakeAllowed q w.isSome a ((w.map (·.1.length)).getD len) = false) = true) ∧
    (let s : State := State.reset
    let rnd : Nat := 1
    let a : Nat := 3
    let len : Nat := 1
    let j : Nat := 26
    let s : State := s.up
    let s : State := { s with str := { s.str with lake := [{ kind := 5, owner := 3, base := 0, size := 2 ^ 20 }, { kind := 2, owner := 1, base := 0, size := 2 ^ 20 }, { kind := 1, owner := 1, base := 0, size := 2 ^ 20 }] } }
    let q : LakeReq := if rnd % 3 = 0 then .aperture 3 else if rnd % 3 = 1 then .raw 1 else .tnr 1
    let a : Nat := a % 4096
    let len : Nat := len % 300 + 65
    let j : Nat := j % 2
    decide (s.on = true ∧
      s.lakeAllowed q false a len = true ∧
      64 * (a / 64 + j) < a + len) = true) ∧
    (let s : State := State.reset
    let rnd : Nat := 8
    let a : Nat := 2
    let len : Nat := 0
    let j : Nat := 5
    let s : State := s.up
    let s : State := { s with str := { s.str with lake := [{ kind := 5, owner := 3, base := 0, size := 2 ^ 20 }, { kind := 2, owner := 1, base := 0, size := 2 ^ 20 }, { kind := 1, owner := 1, base := 0, size := 2 ^ 20 }] } }
    let q : LakeReq := if rnd % 3 = 0 then .aperture 3 else if rnd % 3 = 1 then .raw 1 else .tnr 1
    let a : Nat := a % 4096
    let len : Nat := len % 300 + 65
    let j : Nat := j % 2
    decide (s.on = true ∧
      s.lakeAllowed q false a len = true ∧
      64 * (a / 64 + j) < a + len ∧
      (match q with | .tnr _ => true | _ => false) = true ∧
      64 * (a / 64) + 64 < a + len) = true) ∧
    (let s : State := State.reset
    let rnd : Nat := 3
    let a : Nat := 2
    let s : State := s.up
    let s : State := { s with str := { s.str with lake := [{ kind := 5, owner := 3, base := 0, size := 2 ^ 20 }] } }
    let t : Fin 8 := 3
    let a : Nat := a % 4096 / 64 * 64
    let bs : Bytes := List.replicate (65 + rnd % 63) (BitVec.ofNat 8 rnd)
    decide (s.on = true ∧
      s.lakeAllowed (.aperture t) true a bs.length = true ∧
      a % 64 = 0 ∧
      64 < bs.length ∧
      bs.length < 128) = true) :=
  ⟨by decide +kernel, by decide +kernel, by decide +kernel, by decide +kernel, by decide +kernel⟩

/-- Clauses of `Obligations.AperturesReadAndWriteTheLake` have states and operands that meet their hypotheses. -/
theorem witness_AperturesReadAndWriteTheLake :
    (let s : State := State.reset
    let rnd : Nat := 0
    let t : Fin 8 := 0
    let wide : Bool := true
    let s : State := (openAperture s.up t)
    let s : State := s.lakeWrite 0x8000 (List.replicate 40 (BitVec.ofNat 8 rnd))
    let s : State := { s with ctl := { s.ctl with split := List.replicate (rnd % 34) { stall := 7, ofs := 3, wide := true, at_ := 0 } } }
    let o : Fin 0x4000 := Fin.ofNat 0x4000 (if rnd % 5 = 0 then rnd / 7 else 8 * (rnd / 7 % 2048))
    decide (s.on = true ∧
      o.val % (if wide then 8 else 4) = 0 ∧
      s.apValid t false = true ∧
      apFree s t o wide = true) = true) ∧
    (let s : State := State.reset
    let rnd : Nat := 5
    let t : Fin 8 := 0
    let o : Fin 0x4000 := 9805
    let wide : Bool := true
    let n : Nat := 0
    let at_ : Nat := 0
    let s : State := (openAperture s.up t)
    let s : State := s.lakeWrite 0x8000 (List.replicate 40 (BitVec.ofNat 8 rnd))
    let o : Fin 0x4000 := Fin.ofNat 0x4000 (8 * (rnd / 7 % 2048))
    let n : Nat := n % 34
    let held : List Split := List.replicate n { stall := 7, ofs := 3, wide := true, at_ := rnd }
    let s : State := { s with ctl := { s.ctl with split := held ++ [{ stall := t, ofs := o, wide := wide, at_ := rnd }] ++ List.replicate (rnd % 35) { stall := 6, ofs := 3, wide := true, at_ := rnd } } }
    let rest : List Split := List.replicate (s.ctl.split.length - n - 1) { stall := 6, ofs := 3, wide := true, at_ := rnd }
    let at_ : Nat := rnd
    decide (s.on = true ∧
      o.val % (if wide then 8 else 4) = 0 ∧
      s.apValid t false = true ∧
      s.ctl.split = held ++ [{ stall := t, ofs := o, wide := wide, at_ := at_ }] ++ rest ∧
      held.length < 32 ∧
      held.all (fun e => e.stall != t || e.ofs != o.val || e.wide != wide) = true) = true) ∧
    (let s : State := State.reset
    let rnd : Nat := 0
    let t : Fin 8 := 1
    let wide : Bool := true
    let s : State := if rnd % 2 = 0 then s.up else openAperture s.up t
    let o : Fin 0x4000 := Fin.ofNat 0x4000 (if rnd % 5 = 0 then rnd / 7 else 8 * (rnd / 7 % 2048))
    decide (s.on = true ∧
      ((o.val % (if wide then 8 else 4) ≠ 0 ∨ s.apValid t false = false))) = true) ∧
    (let s : State := State.reset
    let rnd : Nat := 5
    let t : Fin 8 := 6
    let wide : Bool := true
    let s : State := (openAperture s.up t)
    let o : Fin 0x4000 := Fin.ofNat 0x4000 (8 * (rnd / 7 % 2048))
    decide (s.on = true ∧
      o.val % (if wide then 8 else 4) = 0 ∧
      s.apValid t false = true ∧
      apFree s t o wide = true) = true) ∧
    (let s : State := State.reset
    let rnd : Nat := 5
    let t : Fin 8 := 1
    let wide : Bool := true
    let s : State := (openAperture s.up t)
    let s : State := { s with ctl := { s.ctl with split := List.replicate (rnd % 34) { stall := 7, ofs := 3, wide := true, at_ := 0 } } }
    let o : Fin 0x4000 := Fin.ofNat 0x4000 (8 * (rnd / 7 % 2048))
    decide (s.on = true ∧
      o.val % (if wide then 8 else 4) = 0 ∧
      s.apValid t false = true) = true) ∧
    (let s : State := State.reset
    let t : Fin 8 := 2
    let o : Fin 0x4000 := 8
    let wide : Bool := false
    let s : State := openAperture s.up t
    let s : State := { s with ctl := { s.ctl with split := List.replicate 33 { stall := 7, ofs := 3, wide := true, at_ := 0 } } }
    decide (s.on = true ∧
      o.val % (if wide then 8 else 4) = 0 ∧
      s.apValid t false = true ∧
      32 ≤ s.ctl.split.length ∧
      s.ctl.split.all (fun e => e.stall != t || e.ofs != o.val || e.wide != wide) = true) = true) ∧
    (let s : State := State.reset
    let rnd : Nat := 1
    let t : Fin 8 := 0
    let wide : Bool := true
    let s : State := openAperture s.up t
    let o : Fin 0x4000 := Fin.ofNat 0x4000 (if rnd % 5 = 0 then rnd / 7 else 8 * (rnd / 7 % 2048))
    decide (s.on = true ∧
      o.val % (if wide then 8 else 4) = 0 ∧
      s.apValid t true = true) = true) ∧
    (let s : State := State.reset
    let rnd : Nat := 0
    let t : Fin 8 := 6
    let o : Fin 0x4000 := 903
    let wide : Bool := true
    let s : State := if rnd % 2 = 0 then s.up else openAperture s.up t
    decide (s.on = true ∧
      ((o.val % (if wide then 8 else 4) ≠ 0 ∨ s.apValid t true = false))) = true) :=
  ⟨by decide +kernel, by decide +kernel, by decide +kernel, by decide +kernel, by decide +kernel, by decide +kernel, by decide +kernel, by decide +kernel⟩

/-- Clauses of `Obligations.AperturesReadAndWriteTheLake` have states and operands that meet their hypotheses. -/
theorem witness_AperturesReadAndWriteTheLake_2 :
    (let s : State := State.reset
    let rnd : Nat := 4
    let t : Fin 8 := 0
    let wide : Bool := true
    let s : State := openAperture s.up t
    let o : Fin 0x4000 := Fin.ofNat 0x4000 (8 * (rnd / 7 % 2048))
    decide (s.on = true ∧
      o.val % (if wide then 8 else 4) = 0 ∧
      s.apValid t true = true) = true) :=
  by decide +kernel

/-- Clauses of `Obligations.TimeBasesAreSetSteppedAndSlewed` have states and operands that meet their hypotheses. -/
theorem witness_TimeBasesAreSetSteppedAndSlewed :
    (let s : State := State.reset
    let rnd : Nat := 0
    let n : Fin 4 := 0
    let s : State := s.up
    let s : State := s.setF (A.tbCtl n) 5 4 (rnd % 4)
    decide (s.on = true ∧
      s.tbSrc n ≠ 1) = true) ∧
    (let s : State := State.reset
    let n : Fin 4 := 3
    let s : State := s.up
    let s : State := s.setF (A.tbCtl n) 5 4 1
    decide (s.on = true ∧
      s.tbSrc n = 1) = true) ∧
    (let s : State := State.reset
    let rnd : Nat := 7
    let n : Fin 4 := 0
    let s : State := s.up
    let s : State := s.setF (A.tbCtl n) 5 4 (rnd % 4)
    decide (s.on = true ∧
      s.tbSrc n ≠ 1) = true) ∧
    (let s : State := press
    let rnd : Nat := 2
    let n : Fin 4 := 2
    let bar : Fin 4 := 1
    let s : State := s.up
    let s : State := { s with str := { s.str with groups := s.str.groups.set bar.val { s.group bar with springs := [1] } } }.setF (A.tbCtl n) 5 4 (rnd % 4)
    decide (s.on = true ∧
      s.tbSrc n ≠ 1 ∧
      s.defined bar = true) = true) ∧
    (let s : State := State.reset
    let rnd : Nat := 7
    let n : Fin 4 := 2
    let s : State := s.up
    let s : State := s.setF (A.tbCtl n) 5 4 1 |>.onTb n (fun t => { t with st := if rnd % 3 = 0 then .unlocked else .locked, lastAt := if rnd % 5 = 0 then none else some (s.now - rnd % 5000000000), pend := none })
    let s : State := { s with str := { s.str with groups := if rnd % 2 = 0 then [] else s.str.groups } }
    decide (s.on = true ∧
      s.tbSrc n = 1 ∧
      (s.tb[n]).pend = none) = true) ∧
    (let s : State := State.reset
    let rnd : Nat := 2
    let n : Fin 4 := 1
    let s : State := s.up
    let s : State := s.setF (A.tbCtl n) 5 4 1 |>.onTb n (fun t => { t with st := if rnd % 3 = 0 then .unlocked else .locked, lastAt := if rnd % 5 = 0 then none else some (s.now - rnd % 5000000000), pend := none })
    let s : State := { s with str := { s.str with groups := if rnd % 2 = 0 then [] else s.str.groups } }
    decide (s.on = true ∧
      s.tbSrc n = 1 ∧
      (s.tb[n]).pend = none ∧
      (s.tb[n]).st = .locked ∧
      (s.tb[n]).lastAt.any (fun a => decide (s.now - a ≤ 4 * pow2s (sx 8 (s.f (A.piIntv n) 7 0)))) = true) = true) ∧
    (let s : State := State.reset
    let rnd : Nat := 0
    let n : Fin 4 := 2
    let s : State := s.up
    let s : State := s.setF (A.tbCtl n) 5 4 1 |>.onTb n (fun t => { t with st := if rnd % 3 = 0 then .unlocked else .locked, lastAt := if rnd % 5 = 0 then none else some (s.now - rnd % 5000000000), pend := none })
    let s : State := { s with str := { s.str with groups := if rnd % 2 = 0 then [] else s.str.groups } }
    decide (s.on = true ∧
      s.tbSrc n = 1 ∧
      (s.tb[n]).pend = none ∧
      (s.tb[n]).st ≠ .locked) = true) ∧
    (let s : State := State.reset
    let rnd : Nat := 5
    let n : Fin 4 := 2
    let s : State := s.up
    let s : State := s.setF (A.tbCtl n) 5 4 1 |>.onTb n (fun t => { t with st := if rnd % 3 = 0 then .unlocked else .locked, lastAt := if rnd % 5 = 0 then none else some (s.now - rnd % 5000000000), pend := none })
    let s : State := { s with str := { s.str with groups := if rnd % 2 = 0 then [] else s.str.groups } }
    decide (s.on = true ∧
      s.tbSrc n = 1 ∧
      (s.tb[n]).pend = none ∧
      (s.tb[n]).st = .locked ∧
      (s.tb[n]).lastAt.any (fun a => decide (s.now - a ≤ 4 * pow2s (sx 8 (s.f (A.piIntv n) 7 0)))) = false) = true) :=
  ⟨by decide +kernel, by decide +kernel, by decide +kernel, by decide +kernel, by decide +kernel, by decide +kernel, by decide +kernel, by decide +kernel⟩

/-- Clauses of `Obligations.TimeBasesAreSetSteppedAndSlewed` have states and operands that meet their hypotheses. -/
theorem witness_TimeBasesAreSetSteppedAndSlewed_2 :
    (let s : State := State.reset
    let rnd : Nat := 1
    let n : Fin 4 := 1
    let bar : Fin 4 := 2
    let s : State := s.up
    let s : State := s.setF (A.tbCtl n) 5 4 1 |>.onTb n (fun t => { t with st := if rnd % 3 = 0 then .unlocked else .locked, lastAt := if rnd % 5 = 0 then none else some (s.now - rnd % 5000000000), pend := none })
    let s : State := { s with str := { s.str with groups := if rnd % 2 = 0 then [] else s.str.groups } }
    decide (s.on = true ∧
      s.tbSrc n = 1 ∧
      (s.tb[n]).pend = none ∧
      s.defined bar = false) = true) ∧
    (let s : State := State.reset
    let rnd : Nat := 9
    let n : Fin 4 := 1
    let s : State := s.up
    let s : State := s.setF (A.tbCtl n) 5 4 (rnd % 4)
    decide (s.tbSrc n ≠ 2) = true) ∧
    (let s : State := State.reset
    let n : Fin 4 := 2
    let s : State := s.onTb n (fun t => { t with slew := 1000000, at_ := s.now })
    decide (s.slewing n = true) = true) ∧
    (let s : State := State.reset
    let rnd : Nat := 2
    let n : Fin 4 := 1
    let s : State := s.up
    let s : State := s.setF (A.tbCtl n) 5 4 (rnd % 4)
    decide (s.tbSrc n ≠ 1) = true) ∧
    (let s : State := State.reset
    let rnd : Nat := 2
    let n : Fin 4 := 1
    let s : State := s.up
    let s : State := s.setF (A.tbCtl n) 5 4 (rnd % 4)
    decide (((s.wp[n]).stopped = true ∨ s.now - (s.wp[n]).te < us (atLeast1 (s.f (A.wpStall n) 15 0)))) = true) ∧
    (let s : State := State.reset
    let rnd : Nat := 6
    let n : Fin 4 := 3
    let i : Fin 16 := 6
    let s : State := s.up
    let s : State := s.setF (A.tbCtl n) 5 4 (rnd % 4)
    decide ((s.f (A.gpioCtl i) 1 0 ≠ 2 ∨ s.wholeSec (two (s.f (A.gpioCtl i) 7 6)) = (s.gpio[i]).lastSec)) = true) ∧
    (let s : State := State.reset
    let rnd : Nat := 7
    let n : Fin 4 := 3
    let i : Fin 16 := 7
    let s : State := s.up
    let s : State := s.setF (A.tbCtl n) 5 4 (rnd % 4)
    decide ((s.gpio[i]).pulse.all (fun t => decide (s.now - t < us (atLeast1 (s.f (A.gpioCtl i) 31 24)))) = true) = true) ∧
    (let s : State := State.reset
    let n : Fin 4 := 3
    let s : State := s.up
    let s : State := s.setF (A.tbCtl n) 5 4 2
    decide (s.on = true ∧
      s.tbSrc n = 2) = true) :=
  ⟨by decide +kernel, by decide +kernel, by decide +kernel, by decide +kernel, by decide +kernel, by decide +kernel, by decide +kernel, by decide +kernel⟩

/-- Clauses of `Obligations.TimeBasesAreSetSteppedAndSlewed` have states and operands that meet their hypotheses. -/
theorem witness_TimeBasesAreSetSteppedAndSlewed_3 :
    (let s : State := State.reset
    let rnd : Nat := 6
    let n : Fin 4 := 0
    let s : State := s.up
    let s : State := if rnd % 2 = 0 then s else s.onTb n (fun t => { t with at_ := s.now - rnd % 1000, slew := (rnd % 9000000 : Nat) - 4000000 })
    decide (s.on = true ∧
      s.slewing n = false ∧
      (s.tb[n]).at_ ≤ s.now) = true) ∧
    (let s : State := State.reset
    let rnd : Nat := 4
    let n : Fin 4 := 2
    let s : State := s.up
    let s : State := s.onTb n (fun t => { t with pend := if rnd % 3 = 0 then none else some { amount := none, bar := 0 } })
    decide (s.on = true) = true) ∧
    (let s : State := State.reset
    let n : Fin 4 := 3
    let s : State := s.up
    let s : State := s.setF (A.tbCtl n) 5 4 1
    decide (s.on = true ∧
      s.tbSrc n = 1) = true) ∧
    (let s : State := State.reset
    let n : Fin 4 := 1
    let bin : Bool := true
    let s : State := s.up
    decide (s.on = true ∧
      s.tbBinary n ≠ bin) = true) ∧
    (let s : State := State.reset
    let s : State := s.up
    decide (s.on = true) = true) :=
  ⟨by decide +kernel, by decide +kernel, by decide +kernel, by decide +kernel, by decide +kernel⟩

/-- Clauses of `Obligations.EncodersCountQuadrature` have states and operands that meet their hypotheses. -/
theorem witness_EncodersCountQuadrature :
    (let s : State := State.reset
    let rnd : Nat := 6
    let n : Fin 4 := 1
    let a : Bool := true
    let b : Bool := true
    let s : State := s.up
    let s : State := s.setB (A.wpCtl n) 4 false |>.setB (A.wpCtl n) 0 true |>.onWp n (fun w => { w with a := if rnd % 2 = 0 then a else !a, b := if rnd % 2 = 0 then !b else b })
    let held : Nat := rnd % 40
    decide (s.on = true ∧
      s.wpFilt n ≤ held ∧
      s.wpSimulated n = false ∧
      s.b (A.wpCtl n) 0 = true ∧
      encCounts s n a b = true) = true) ∧
    (let s : State := State.reset
    let rnd : Nat := 3
    let n : Fin 4 := 1
    let s : State := s.up
    let s : State := s.setB (A.wpCtl n) 4 (rnd % 3 = 0) |>.setB (A.wpCtl n) 0 (rnd % 2 = 0)
    let held : Nat := rnd % 40
    decide (s.on = true ∧
      held < s.wpFilt n) = true) ∧
    (let s : State := State.reset
    let rnd : Nat := 6
    let n : Fin 4 := 0
    let a : Bool := true
    let b : Bool := true
    let s : State := s.up
    let s : State := s.setB (A.wpCtl n) 4 (rnd % 3 = 0) |>.setB (A.wpCtl n) 0 (rnd % 2 = 0)
    let held : Nat := rnd % 40
    decide (s.on = true ∧
      s.wpFilt n ≤ held ∧
      ((s.wpSimulated n = true ∨ ((s.wp[n]).a = a ∨ (s.wp[n]).b = b) ∧ (s.b (A.wpCtl n) 0 = false ∨ encCounts s n a b = false)))) = true) ∧
    (let s : State := State.reset
    let s : State := s.pow1 (fun p => { p with st := .doze })
    decide (s.power.st = .doze) = true) ∧
    (let s : State := State.reset
    let rnd : Nat := 9
    let n : Fin 4 := 0
    let a : Bool := true
    let b : Bool := true
    let s : State := s.up
    let s : State := s.setB (A.wpCtl n) 4 false |>.onWp n (fun w => { w with a := !a, b := !b })
    let held : Nat := rnd % 40
    decide (s.on = true ∧
      s.wpFilt n ≤ held ∧
      s.wpSimulated n = false ∧
      (s.wp[n]).a ≠ a ∧
      (s.wp[n]).b ≠ b) = true) ∧
    (let s : State := State.reset
    let rnd : Nat := 7
    let n : Fin 4 := 0
    let r : Bool := true
    let delay : Nat := 9
    let s : State := s.up
    let s : State := s.setB (A.wpCtl n) 4 false |>.setF (A.wpCtl n) 13 12 (if r then 1 else 2)
    let held : Nat := rnd % 40
    let p : Nat := s.wpAt n (s.now - (min delay 5 + s.f (A.wpCtl n) 11 8))
    decide (s.on = true ∧
      s.wpSimulated n = false ∧
      s.wpFilt n ≤ held ∧
      p = s.wpAt n (s.now - (min delay 5 + s.f (A.wpCtl n) 11 8)) ∧
      s.f (A.wpCtl n) 13 12 = (if r then 1 else 2)) = true) ∧
    (let s : State := State.reset
    let rnd : Nat := 5
    let n : Fin 4 := 2
    let r : Bool := true
    let s : State := s.up
    let s : State := s.setB (A.wpCtl n) 4 (rnd % 3 = 0)
    let held : Nat := rnd % 40
    decide (((s.wpSimulated n = true ∨ held < s.wpFilt n ∨ s.f (A.wpCtl n) 13 12 ≠ (if r then 1 else 2)))) = true) ∧
    (let s : State := press
    let rnd : Nat := 5
    let n : Fin 4 := 3
    let s : State := s.up
    let s : State := { s.setB (A.wpCtl n) 4 false with now := s.now + rnd % 1000000000 }.onWp n (fun w => { w with stopped := false })
    decide (s.on = true ∧
      s.wpSimulated n = false ∧
      (s.wp[n]).stopped = false ∧
      us (atLeast1 (s.f (A.wpStall n) 15 0)) ≤ s.now - (s.wp[n]).te) = true) :=
  ⟨by decide +kernel, by decide +kernel, by decide +kernel, by decide +kernel, by decide +kernel, by decide +kernel, by decide +kernel, by decide +kernel⟩

/-- Clauses of `Obligations.EncodersCountQuadrature` have states and operands that meet their hypotheses. -/
theorem witness_EncodersCountQuadrature_2 :
    (let s : State := State.reset
    let rnd : Nat := 7
    let i : Fin 16 := 9
    let s : State := s.up
    let s : State := s.setF (A.gpioCtl i) 1 0 2
    let s : State := s.onGpio i (fun g => { g with lastSec := if rnd % 3 = 0 then s.wholeSec (two (s.f (A.gpioCtl i) 7 6)) else rnd })
    decide (s.on = true ∧
      s.f (A.gpioCtl i) 1 0 = 2 ∧
      s.wholeSec (two (s.f (A.gpioCtl i) 7 6)) ≠ (s.gpio[i]).lastSec) = true) ∧
    (let s : State := State.reset
    let rnd : Nat := 7
    let n : Fin 4 := 2
    let i : Fin 16 := 8
    let s : State := s.up
    let s : State := s.setF (A.tbCtl n) 5 4 (rnd % 4)
    let s : State := (s.setF (A.gpioCtl i) 7 6 n).setF (A.gpioCtl i) 1 0 2
    let s : State := s.onGpio i (fun g => { g with lastSec := s.wholeSec n })
    decide (s.on = true ∧
      s.tbSrc n ≠ 1 ∧
      s.f (A.gpioCtl i) 1 0 = 2 ∧
      two (s.f (A.gpioCtl i) 7 6) = n ∧
      s.wholeSec n = (s.gpio[i]).lastSec) = true) ∧
    (let s : State := State.reset
    let rnd : Nat := 7
    let i : Fin 16 := 1
    let s : State := { s.up with now := s.now + 10 ^ 7 }
    let s : State := s.onGpio i (fun g => { g with pulse := some (s.now - 255000 - rnd % 1000000) })
    let t : Nat := (s.gpio[i]).pulse.getD 0
    decide (s.on = true ∧
      (s.gpio[i]).pulse = some t ∧
      us (atLeast1 (s.f (A.gpioCtl i) 31 24)) ≤ s.now - t) = true) :=
  ⟨by decide +kernel, by decide +kernel, by decide +kernel⟩

/-- Clauses of `Obligations.PtpPortsExchangeMessages` have states and operands that meet their hypotheses. -/
theorem witness_PtpPortsExchangeMessages :
    (let s : State := State.reset
    let rnd : Nat := 4
    let p : Fin 4 := 0
    let m : PtpMsg := { seq := 2, sender := 3, domain := 1, transport := 2, time := 40, corr := 3, twoStep := true }
    let s : State := ptpReady s.up p
    let s : State := s.onPtp p (fun x => { x with state := psSlave, dm := rnd, suspect := rnd % 4 = 0 })
    let s : State := s.setF (A.tbCtl (s.ptpInst p)) 5 4 1
    let s : State := s.onTb (s.ptpInst p) (fun t => { t with st := if rnd % 3 = 0 then .locked else if rnd % 3 = 1 then .unlocked else .holdover, first := if rnd % 2 = 0 then none else some (3, 4) })
    let m : PtpMsg := { ptpFor s p m with twoStep := false }
    decide (s.on = true ∧
      s.ptpAccepts p m = true ∧
      (s.ptp[p]).state = psSlave ∧
      m.twoStep = false) = true) ∧
    (let s : State := State.reset
    let p : Fin 4 := 1
    let m : PtpMsg := { seq := 3, sender := 3, domain := 1, transport := 2, time := 60, corr := 1, twoStep := true }
    let s : State := ptpReady s.up p
    let s : State := s.onPtp p (fun x => { x with state := psSlave })
    let m : PtpMsg := { ptpFor s p m with twoStep := true }
    decide (s.on = true ∧
      s.ptpAccepts p m = true ∧
      (s.ptp[p]).state = psSlave ∧
      m.twoStep = true) = true) ∧
    (let s : State := State.reset
    let p : Fin 4 := 2
    let m : PtpMsg := { seq := 4, sender := 2, domain := 0, transport := 0, time := 19, corr := -2, twoStep := true }
    let d : AnnounceDs := { gm := 3, prio1 := 88, clockClass := 70, accuracy := 254, variance := 65535, prio2 := 255, steps := 0, sender := 0, utc := 0 }
    let t3 : Int := -3
    let k : Fin 7 := 1
    let s : State := s.up
    let c : Instr := ptpKinds p m d t3 k
    decide (s.on = true ∧
      s.ptpAccepts p m = false ∧
      ptpKinds p m d t3 k = c) = true) ∧
    (let s : State := State.reset
    let rnd : Nat := 6
    let p : Fin 4 := 0
    let m : PtpMsg := { seq := 11, sender := 1, domain := 1, transport := 1, time := 1, corr := 0, twoStep := false }
    let t3 : Int := 0
    let k : Fin 6 := 2
    let s : State := if rnd % 4 = 0 then s.up else ptpReady s.up p
    let m : PtpMsg := if rnd % 5 = 0 then m else ptpFor s p m
    let c : Instr := ptpKinds p m {} t3 ⟨k.val, by omega⟩
    decide (s.on = true ∧
      s.ptpAccepts p m = true ∧
      ptpUnheeds s p m k = true ∧
      ptpKinds p m {} t3 ⟨k.val, by omega⟩ = c) = true) ∧
    (let s : State := State.reset
    let rnd : Nat := 2
    let p : Fin 4 := 3
    let m : PtpMsg := { seq := 23, sender := 1, domain := 0, transport := 1, time := 3, corr := 1, twoStep := false }
    let s : State := ptpReady s.up p
    let s : State := s.onPtp p (fun x => { x with state := psSlave, dm := rnd, suspect := rnd % 4 = 0, sync := some (m.seq, 77 * rnd, rnd % 1000) })
    let s : State := s.setF (A.tbCtl (s.ptpInst p)) 5 4 1
    let s : State := s.onTb (s.ptpInst p) (fun t => { t with st := if rnd % 3 = 0 then .locked else if rnd % 3 = 1 then .unlocked else .holdover, first := if rnd % 2 = 0 then none else some (3, 4) })
    let m : PtpMsg := ptpFor s p m
    let t2 : Int := (((s.ptp[p]).sync).getD (0, 0, 0)).2.1
    let c : Int := (((s.ptp[p]).sync).getD (0, 0, 0)).2.2
    decide (s.on = true ∧
      s.ptpAccepts p m = true ∧
      (s.ptp[p]).sync = some (m.seq, t2, c)) = true) ∧
    (let s : State := State.reset
    let p : Fin 4 := 2
    let m : PtpMsg := { seq := 1, sender := 0, domain := 1, transport := 0, time := 0, corr := 6, twoStep := true }
    let s : State := ptpReady s.up p
    let s : State := (s.setF (A.piCtl (s.ptpInst p)) 2 1 0).onPtp p (fun x => { x with state := psMaster })
    let m : PtpMsg := ptpFor s p m
    decide (s.on = true ∧
      s.ptpAccepts p m = true ∧
      (s.ptp[p]).state = psMaster ∧
      s.ptpP2p p = false) = true) ∧
    (let s : State := State.reset
    let rnd : Nat := 5
    let p : Fin 4 := 0
    let m : PtpMsg := { seq := 0, sender := 1, domain := 1, transport := 1, time := 0, corr := -9, twoStep := true }
    let s : State := ptpReady s.up p
    let s : State := (s.setF (A.piCtl (s.ptpInst p)) 2 1 0).onPtp p (fun x => { x with state := psSlave, req := some (m.seq, 5 * rnd), dmValid := rnd % 3 = 0, dm := if rnd % 2 = 0 then rnd else x.dm, t1 := rnd, t2 := 2 * rnd, synced := true })
    let m : PtpMsg := ptpFor s p m
    let t3 : Int := (((s.ptp[p]).req).getD (0, 0)).2
    decide (s.on = true ∧
      s.ptpAccepts p m = true ∧
      (s.ptp[p]).state = psSlave ∧
      s.ptpP2p p = false ∧
      (s.ptp[p]).synced = true ∧
      (s.ptp[p]).req = some (m.seq, t3)) = true) ∧
    (let s : State := State.reset
    let rnd : Nat := 18
    let p : Fin 4 := 0
    let m : PtpMsg := { seq := 1, sender := 3, domain := 0, transport := 1, time := 5, corr := 2, twoStep := true }
    let t3 : Int := 0
    let s : State := (ptpReady s.up p).setF (A.piCtl (s.ptpInst p)) 2 1 0
    let s : State := (s.setF (A.ptpDs p) 15 0 20000).onPtp p (fun x => { x with state := psSlave, dmValid := true, req := some (m.seq, 0), suspect := false, dm := 2 ^ 50, t1 := 0, t2 := 0, synced := true })
    let m : PtpMsg := { ptpFor s p m with time := rnd, corr := 0 }
    let r : Int := rdiv (up32 m.time) 2
    decide (s.on = true ∧
      s.ptpAccepts p m = true ∧
      (s.ptp[p]).state = psSlave ∧
      s.ptpP2p p = false ∧
      (s.ptp[p]).synced = true ∧
      (s.ptp[p]).req = some (m.seq, t3) ∧
      (s.ptp[p]).dmValid = true ∧
      (s.ptp[p]).suspect = false ∧
      rdiv (((s.ptp[p]).t2 - (s.ptp[p]).t1) + (up32 (m.time - m.corr) - t3)) 2 = r ∧
      r - (s.ptp[p]).dm ≤ (atLeast1 (s.f (A.ptpDs p) 15 0) : Int) * oneNs ∧
      (s.ptp[p]).dm - r ≤ (atLeast1 (s.f (A.ptpDs p) 15 0) : Int) * oneNs) = true) :=
  ⟨by decide +kernel, by decide +kernel, by decide +kernel, by decide +kernel, by decide +kernel, by decide +kernel, by decide +kernel, by decide +kernel⟩

/-- Clauses of `Obligations.PtpPortsExchangeMessages` have states and operands that meet their hypotheses. -/
theorem witness_PtpPortsExchangeMessages_2 :
    (let s : State := State.reset
    let rnd : Nat := 7
    let p : Fin 4 := 2
    let m : PtpMsg := { seq := 3, sender := 0, domain := 0, transport := 0, time := 3, corr := 0, twoStep := true }
    let s : State := ptpReady s.up p
    let s : State := (s.setF (A.piCtl (s.ptpInst p)) 2 1 0).setF (A.ptpDs p) 15 0 1 |>.onPtp p (fun x => { x with state := psSlave, req := some (m.seq, 3 * rnd), dmValid := true, suspect := false, dm := if rnd % 2 = 0 then 2 ^ 70 else 0, t1 := rnd, t2 := 5 * rnd, synced := true })
    let s : State := (s.setF (A.tbCtl (s.ptpInst p)) 5 4 (rnd % 3)).onTb (s.ptpInst p) (fun t => { t with st := if rnd % 4 = 0 then t.st else .locked })
    let m : PtpMsg := ptpFor s p { m with time := rnd * 2 ^ 20, corr := rnd % 999 }
    let t3 : Int := 3 * rnd
    let r : Int := rdiv (((s.ptp[p]).t2 - (s.ptp[p]).t1) + (up32 (m.time - m.corr) - t3)) 2
    decide (s.on = true ∧
      s.ptpAccepts p m = true ∧
      (s.ptp[p]).state = psSlave ∧
      s.ptpP2p p = false ∧
      (s.ptp[p]).synced = true ∧
      (s.ptp[p]).req = some (m.seq, t3) ∧
      (s.ptp[p]).dmValid = true ∧
      (s.ptp[p]).suspect = false ∧
      rdiv (((s.ptp[p]).t2 - (s.ptp[p]).t1) + (up32 (m.time - m.corr) - t3)) 2 = r ∧
      (((atLeast1 (s.f (A.ptpDs p) 15 0) : Int) * oneNs < r - (s.ptp[p]).dm ∨ (atLeast1 (s.f (A.ptpDs p) 15 0) : Int) * oneNs < (s.ptp[p]).dm - r))) = true) ∧
    (let s : State := State.reset
    let rnd : Nat := 26
    let p : Fin 4 := 1
    let m : PtpMsg := { seq := 16, sender := 2, domain := 0, transport := 1, time := 0, corr := 20, twoStep := true }
    let t3 : Int := 4
    let s : State := ptpReady s.up p
    let s : State := (s.setF (A.piCtl (s.ptpInst p)) 2 1 1).setF (A.ptpDs p) 15 0 1 |>.onPtp p (fun x => { x with state := psSlave, req := some (m.seq, 5 * rnd), dmValid := true, suspect := false, lastPd := none, dm := if rnd % 2 = 0 then 2 ^ 70 else 0 })
    let m : PtpMsg := ptpFor s p m
    let t1 : Int := (((s.ptp[p]).req).getD (0, 0)).2
    let r : Int := rdiv ((s.ptpLocal p 0 - t1) - (up32 (t3 + m.corr) - up32 m.time)) 2
    decide (s.on = true ∧
      s.ptpAccepts p m = true ∧
      s.ptpProfile (s.ptpInst p) = 1 ∧
      (s.ptp[p]).state = psSlave ∧
      (s.ptp[p]).req = some (m.seq, t1) ∧
      (s.ptp[p]).dmValid = true ∧
      (s.ptp[p]).suspect = false ∧
      rdiv ((s.ptpLocal p 0 - t1) - (up32 (t3 + m.corr) - up32 m.time)) 2 = r ∧
      (((atLeast1 (s.f (A.ptpDs p) 15 0) : Int) * oneNs < r - (s.ptp[p]).dm ∨ (atLeast1 (s.f (A.ptpDs p) 15 0) : Int) * oneNs < (s.ptp[p]).dm - r))) = true) ∧
    (let s : State := State.reset
    let p : Fin 4 := 2
    let m : PtpMsg := { seq := 0, sender := 1, domain := 0, transport := 2, time := 2, corr := 2, twoStep := true }
    let s : State := ptpReady s.up p
    let s : State := (s.setF (A.piCtl (s.ptpInst p)) 2 1 1)
    let m : PtpMsg := ptpFor s p m
    decide (s.on = true ∧
      s.ptpAccepts p m = true ∧
      s.ptpP2p p = true) = true) ∧
    (let s : State := State.reset
    let rnd : Nat := 16
    let p : Fin 4 := 1
    let m : PtpMsg := { seq := 2, sender := 2, domain := 0, transport := 1, time := -8, corr := 0, twoStep := false }
    let s : State := ptpReady s.up p
    let s : State := (s.setF (A.piCtl (s.ptpInst p)) 2 1 1).onPtp p (fun x => { x with state := if rnd % 3 = 0 then psMaster else psSlave, req := some (m.seq, 5 * rnd), dmValid := rnd % 3 = 0, lastPd := none })
    let m : PtpMsg := ptpFor s p m
    let t1 : Int := (((s.ptp[p]).req).getD (0, 0)).2
    decide (s.on = true ∧
      s.ptpAccepts p m = true ∧
      s.ptpProfile (s.ptpInst p) = 1 ∧
      (s.ptp[p]).req = some (m.seq, t1)) = true) :=
  ⟨by decide +kernel, by decide +kernel, by decide +kernel, by decide +kernel⟩

/-- Clauses of `Obligations.PtpPortsSelectTheirMaster` have states and operands that meet their hypotheses. -/
theorem witness_PtpPortsSelectTheirMaster :
    (let s : State := State.reset
    let rnd : Nat := 0
    let p : Fin 4 := 1
    let s : State := { s.up with now := s.now + 60000000000 }.onPtp p (fun x => { x with suspect := true, dsLong := false, runStart := rnd % 9 })
    decide (s.on = true ∧
      (s.ptp[p]).suspect = true ∧
      (s.ptp[p]).dsLong = false ∧
      ms 60000 ≤ s.now - (s.ptp[p]).runStart) = true) ∧
    (let s : State := State.reset
    let rnd : Nat := 0
    let p : Fin 4 := 2
    let s : State := s.up
    let s : State := if rnd % 2 = 0 then s else s.onPtp p (fun x => { x with suspect := true, dsLong := rnd % 3 = 0, runStart := s.now })
    decide (((s.ptp[p]).suspect = false ∨ (s.ptp[p]).dsLong = true ∨ s.now - (s.ptp[p]).runStart < ms 60000)) = true) ∧
    (let s : State := State.reset
    let rnd : Nat := 8
    let p : Fin 4 := 3
    let m : PtpMsg := { seq := 0, sender := 0, domain := 0, transport := 0, time := 2, corr := 40, twoStep := true }
    let s : State := ptpReady s.up p
    let s : State := s.setF (A.piCtl (s.ptpInst p)) 5 4 (rnd % 2)
    let s : State := { s with ptp := s.ptp.map (fun x => { x with best := none }) }
    let m : PtpMsg := ptpFor s p m
    decide (s.on = true ∧
      s.ptpAccepts p m = true ∧
      (∀ q : Fin 4, (s.ptp[q]).best = none) ∧
      s.f (A.piCtl (s.ptpInst p)) 5 4 = 0) = true) ∧
    (let s : State := State.reset
    let rnd : Nat := 3
    let p : Fin 4 := 1
    let s : State := if rnd % 3 = 0 then s.up else ptpReady s.up p
    let a : Nat := if s.ptpOn p then A.piCntMgmt (s.ptpInst p) else A.ptpCntTx p 2
    decide (s.on = true ∧
      (if s.ptpOn p then A.piCntMgmt (s.ptpInst p) else A.ptpCntTx p 2) = a) = true) ∧
    (let s : State := State.reset
    let rnd : Nat := 4
    let k : Fin 4 := 3
    let s : State := (s.up.setF (A.tbCtl k) 5 4 1).onTb k (fun t => { t with st := if rnd % 2 = 0 then .locked else .delaySuspect })
    let s : State := { s with ptp := s.ptp.map (fun x => { x with state := if rnd % 3 = 0 then 4 else x.state }), now := s.now + 10 ^ 13 }
    decide (s.on = true ∧
      s.tbSrc k = 1 ∧
      (((s.tb[k]).st = .locked ∨ (s.tb[k]).st = .delaySuspect)) ∧
      (∀ p : Fin 4, s.ptpInst p = k → (s.ptp[p]).state = psSlave → s.annTimeout k * s.ptpInterval k 0 ≤ s.now - (s.ptp[p]).syncAt)) = true) ∧
    (let s : State := State.reset
    let rnd : Nat := 2
    let k : Fin 4 := 2
    let p : Fin 4 := 2
    let s : State := s.up
    let s : State := if rnd % 2 = 0 then s else s.onTb k (fun t => { t with st := .unlocked })
    decide (((s.tbSrc k ≠ 1 ∨ (s.tb[k]).st = .unlocked ∨ (s.tb[k]).st = .holdover ∨ s.ptpInst p = k ∧ (s.ptp[p]).state = psSlave ∧ s.now - (s.ptp[p]).syncAt < s.annTimeout k * s.ptpInterval k 0))) = true) ∧
    (let s : State := State.reset
    let p : Fin 4 := 3
    let s : State := ptpReady s.up p
    let s : State := s.onPtp p (fun x => { x with state := psMaster })
    decide (s.on = true ∧
      s.ptpOn p = true ∧
      (s.ptp[p]).linkUp = true ∧
      (s.ptp[p]).state = psMaster ∧
      s.ptpDue p 0 = true) = true) ∧
    (let s : State := State.reset
    let p : Fin 4 := 2
    let s : State := ptpReady s.up p
    let s : State := s.onPtp p (fun x => { x with state := psSlave })
    decide (s.on = true ∧
      s.ptpOn p = true ∧
      (s.ptp[p]).linkUp = true ∧
      ((s.ptpP2p p = true ∨ (s.ptp[p]).state = psSlave)) ∧
      s.ptpDue p 2 = true) = true) :=
  ⟨by decide +kernel, by decide +kernel, by decide +kernel, by decide +kernel, by decide +kernel, by decide +kernel, by decide +kernel, by decide +kernel⟩

/-- Clauses of `Obligations.PtpPortsSelectTheirMaster` have states and operands that meet their hypotheses. -/
theorem witness_PtpPortsSelectTheirMaster_2 :
    (let s : State := State.reset
    let p : Fin 4 := 3
    let s : State := ptpReady s.up p
    let s : State := s.onPtp p (fun x => { x with state := psMaster })
    decide (s.on = true ∧
      s.ptpOn p = true ∧
      (s.ptp[p]).linkUp = true ∧
      (s.ptp[p]).state = psMaster ∧
      s.ptpDue p 1 = true) = true) ∧
    (let s : State := State.reset
    let rnd : Nat := 5
    let p : Fin 4 := 3
    let k : Fin 3 := 0
    let s : State := if rnd % 2 = 0 then s.up else ptpReady s.up p
    decide (((s.ptpOn p = false ∨ (s.ptp[p]).linkUp = false ∨ s.ptpDue p k.val = false ∨ k ≠ 2 ∧ (s.ptp[p]).state ≠ psMaster ∨ k = 2 ∧ (s.ptp[p]).state ≠ psSlave ∧ s.ptpP2p p = false))) = true) ∧
    (let s : State := State.reset
    let p : Fin 4 := 2
    let s : State := ptpReady s.up p
    let s : State := { s with now := s.now + 10 ^ 13 }.onPtp p (fun x => { x with best := some { gm := 5, prio1 := 1, clockClass := 6 } })
    decide (s.on = true ∧
      (((s.ptp[p]).best.isSome = true ∨ (s.ptp[p]).state = psListening)) ∧
      s.annTimeout (s.ptpInst p) * s.ptpInterval (s.ptpInst p) 1 ≤ s.now - (s.ptp[p]).annAt) = true) ∧
    (let s : State := State.reset
    let rnd : Nat := 0
    let p : Fin 4 := 0
    let s : State := s.up
    let s : State := if rnd % 2 = 0 then s else ptpReady s p
    decide (((s.ptp[p]).best = none ∧ (s.ptp[p]).state ≠ psListening ∨ s.now - (s.ptp[p]).annAt < s.annTimeout (s.ptpInst p) * s.ptpInterval (s.ptpInst p) 1)) = true) ∧
    (let s : State := State.reset
    let rnd : Nat := 9
    let m : Fin 2 := 0
    let s : State := s.up.setB (A.ethCtl (2 + m)) 0 (rnd % 3 ≠ 0)
    let p : Fin 4 := Fin.ofNat 4 (2 + m)
    decide (s.on = true ∧
      p.val = 2 + m.val) = true) ∧
    (let s : State := State.reset
    let m : Fin 2 := 0
    let s : State := s.up.setB (A.ethCtl (2 + m)) 0 true
    let s : State := s.onPtp (Fin.ofNat 4 (2 + m)) (fun x => { x with state := psFaulty, linkUp := false })
    let p : Fin 4 := Fin.ofNat 4 (2 + m)
    decide (s.on = true ∧
      p.val = 2 + m.val ∧
      s.b (A.ethCtl (2 + m)) 0 = true) = true) ∧
    (let s : State := State.reset
    let m : Fin 2 := 1
    let s : State := s.up
    decide (s.b (A.ethCtl (2 + m)) 0 = false) = true) :=
  ⟨by decide +kernel, by decide +kernel, by decide +kernel, by decide +kernel, by decide +kernel, by decide +kernel, by decide +kernel⟩

/-- Clauses of `Obligations.SessionsOpenOnlyAuthenticated` have states and operands that meet their hypotheses. -/
theorem witness_SessionsOpenOnlyAuthenticated :
    (let s : State := State.reset
    let rnd : Nat := 5
    let h : IcpHead := { port := 0, peer := { addr := [0x01#8, 0x02#8, 0x03#8, 0x04#8], udp := 4 }, dip := 0, dport := 0x5848#16, ver := 0x23#8, stall := 7, flags := 0x02#8, session := 0x00000001#32, seq := 0x00000002#32, mac := 0x00000000000000000000000000000000#128 }
    let chans : BitVec 8 := 0xbe#8
    let hnonce : BitVec 128 := 0x0000000000000000000000000000001e#128
    let s : State := (icpReady s.up h).onStall h.stall (fun x => { x with key := some (List.replicate 32 (BitVec.ofNat 8 rnd)) })
    let h : IcpHead := icpToMe s h
    let s : State := { s with ctl := { s.ctl with sessions := s.ctl.sessions.take (rnd % 3), nextSession := if rnd % 3 = 0 then 2 ^ 32 - 1 else s.ctl.nextSession } }
    let k : Bytes := ((s.stalls[h.stall]).key).getD []
    let vmin : BitVec 8 := 0x10
    let vmax : BitVec 8 := BitVec.ofNat 8 (0x10 + rnd % 0x20)
    let h : IcpHead := { h with mac := BitVec.ofNat 128 (ofBe (icpMac k h.ver.toNat 1 h.stall h.flags.toNat h.session.toNat h.seq.toNat (helloBody vmin vmax chans hnonce))) }
    let v : Nat := (chooseVersion vmin.toNat vmax.toNat (h.peer.addr.length == 16)).getD 0
    decide (s.on = true ∧
      icpComes s h 64 = true ∧
      (s.stalls[h.stall]).key = some k ∧
      beBytes 16 h.mac.toNat = icpMac k h.ver.toNat 1 h.stall h.flags.toNat h.session.toNat h.seq.toNat (helloBody vmin vmax chans hnonce) ∧
      chooseVersion vmin.toNat vmax.toNat (h.peer.addr.length == 16) = some v ∧
      s.ctl.sessions.countP (fun x => x.stall == h.stall.val) < 4) = true) ∧
    (let s : State := State.reset
    let rnd : Nat := 0
    let h : IcpHead := { port := 1, peer := { addr := [0x01#8, 0x02#8, 0x03#8, 0x04#8], udp := 1 }, dip := 0, dport := 0x5848#16, ver := 0x11#8, stall := 7, flags := 0x02#8, session := 0x00000004#32, seq := 0x00000005#32, mac := 0x00000000000000000000000000000000#128 }
    let s : State := (icpReady s.up h).onStall 0 (fun x => { x with key := none })
    let s : State := { s with ctl := { s.ctl with sessions := s.ctl.sessions.take (rnd % 3) } }
    let h : IcpHead := { icpToMe s h with stall := 0, mac := 0, flags := h.flags ||| 0x80 }
    let vmin : BitVec 8 := 0x10
    let vmax : BitVec 8 := BitVec.ofNat 8 (0x10 + rnd % 0x20)
    let v : Nat := (chooseVersion vmin.toNat vmax.toNat (h.peer.addr.length == 16)).getD 0
    decide (s.on = true ∧
      icpComes s h 64 = true ∧
      h.stall = 0 ∧
      (s.stalls[h.stall]).key = none ∧
      bit (wd h.flags.toNat) 7 = true ∧
      h.mac = 0 ∧
      chooseVersion vmin.toNat vmax.toNat (h.peer.addr.length == 16) = some v ∧
      s.ctl.sessions.countP (fun x => x.stall == 0) < 4) = true) ∧
    (let s : State := State.reset
    let rnd : Nat := 2
    let h : IcpHead := { port := 0, peer := { addr := [0x01#8, 0x02#8, 0x03#8, 0x04#8], udp := 2 }, dip := 0, dport := 0x5848#16, ver := 0x23#8, stall := 5, flags := 0x01#8, session := 0x00000001#32, seq := 0x00000001#32, mac := 0x00000000000000000000000000000000#128 }
    let chans : BitVec 8 := 0x5d#8
    let hnonce : BitVec 128 := 0x54bdec16593b1fee478d0fc4660fe8e3#128
    let s : State := (icpReady s.up h).onStall h.stall (fun x => { x with key := some (List.replicate 32 (BitVec.ofNat 8 rnd)) })
    let s : State := { s with ctl := { s.ctl with sessions := if rnd % 3 = 0 then s.ctl.sessions else List.replicate 4 (someSession 9 h.stall) } }
    let h : IcpHead := icpToMe s h
    let k : Bytes := ((s.stalls[h.stall]).key).getD []
    let vmin : BitVec 8 := if rnd % 2 = 0 then 0x10 else 0x30
    let vmax : BitVec 8 := 0x40
    let h : IcpHead := { h with mac := BitVec.ofNat 128 (ofBe (icpMac k h.ver.toNat 1 h.stall h.flags.toNat h.session.toNat h.seq.toNat (helloBody vmin vmax chans hnonce))) }
    decide (s.on = true ∧
      icpComes s h 64 = true ∧
      (s.stalls[h.stall]).key = some k ∧
      beBytes 16 h.mac.toNat = icpMac k h.ver.toNat 1 h.stall h.flags.toNat h.session.toNat h.seq.toNat (helloBody vmin vmax chans hnonce) ∧
      ((chooseVersion vmin.toNat vmax.toNat (h.peer.addr.length == 16) = none ∨ 4 ≤ s.ctl.sessions.countP (fun x => x.stall == h.stall.val)))) = true) ∧
    (let s : State := State.reset
    let h : IcpHead := { port := 1, peer := { addr := [0x01#8, 0x02#8, 0x03#8, 0x04#8], udp := 5 }, dip := 0, dport := 0x5848#16, ver := 0x11#8, stall := 3, flags := 0x03#8, session := 0x00000002#32, seq := 0x00000001#32, mac := 0x00000000000000000000000000000000#128 }
    let vmin : BitVec 8 := 0xb9#8
    let vmax : BitVec 8 := 0x2b#8
    let chans : BitVec 8 := 0xc9#8
    let hnonce : BitVec 128 := 0x6c9e81ab9d2800ae37ab260d8885dcd9#128
    let k : Bytes := []
    let s : State := icpReady s.up h
    let h : IcpHead := icpToMe s h
    decide (s.on = true ∧
      icpComes s h 64 = true ∧
      (((s.stalls[h.stall]).key = some k ∧ beBytes 16 h.mac.toNat ≠ icpMac k h.ver.toNat 1 h.stall h.flags.toNat h.session.toNat h.seq.toNat (helloBody vmin vmax chans hnonce) ∨ (s.stalls[h.stall]).key = none ∧ h.stall ≠ 0))) = true) ∧
    (let s : State := State.reset
    let rnd : Nat := 5
    let h : IcpHead := { port := 1, peer := { addr := [0x01#8, 0x02#8, 0x03#8, 0x04#8], udp := 4 }, dip := 0, dport := 0x5848#16, ver := 0x11#8, stall := 1, flags := 0x03#8, session := 0x00000002#32, seq := 0x00000001#32, mac := 0x00000000000000000000000000000000#128 }
    let magic : BitVec 16 := 0x777b#16
    let blen : BitVec 16 := 0x00a1#16
    let s : State := icpReady s.up h
    let h : IcpHead := icpToMe s h
    let magic : BitVec 16 := if rnd % 3 = 0 then magic else 0x4943
    let body : Bytes := List.replicate (4 * (rnd % 9)) 1#8
    let blen : BitVec 16 := if rnd % 3 = 0 then blen else BitVec.ofNat 16 body.length
    decide (s.on = true ∧
      icpComes s h (32 + body.length) = true) = true) ∧
    (let s : State := State.reset
    let rnd : Nat := 7
    let h : IcpHead := { port := 0, peer := { addr := [0x01#8, 0x02#8, 0x03#8, 0x04#8], udp := 4 }, dip := 0, dport := 0x5848#16, ver := 0x23#8, stall := 4, flags := 0x01#8, session := 0x00000003#32, seq := 0x00000002#32, mac := 0x00000000000000000000000000000000#128 }
    let k : Fin 6 := 1
    let s : State := icpReady s.up h
    let h : IcpHead := icpToMe s h
    let ops : List IcpOp := []
    let data : Bytes := List.replicate (4 * (rnd % 9)) 0
    let k : Fin 6 := ⟨2 + k.val % 4, by omega⟩
    let c : Instr := (icpKinds h ops data k).1
    let n : Nat := (icpKinds h ops data k).2
    decide (s.on = true ∧
      icpKinds h ops data k = (c, n) ∧
      icpComes s h n = true ∧
      ((k = 2 ∧ s.authed h 9 [] = none ∨ k = 3 ∧ s.authed h 10 [] = none ∨ k = 4 ∧ s.authed h 3 (ops.flatMap opBytes) = none ∨ k = 5 ∧ s.authed h 8 (beBytes 4 1 ++ beBytes 4 0 ++ data) = none))) = true) ∧
    (let s : State := State.reset
    let h : IcpHead := { port := 0, peer := { addr := [0x01#8, 0x02#8, 0x03#8, 0x04#8], udp := 4 }, dip := 0, dport := 0x5848#16, ver := 0x23#8, stall := 6, flags := 0x01#8, session := 0x00000000#32, seq := 0x00000000#32, mac := 0x00000000000000000000000000000000#128 }
    let s : State := { (icpReady s.up h) with ctl := { s.ctl with sessions := someSession h.session.toNat h.stall :: s.ctl.sessions } }.onStall h.stall (fun x => { x with key := some [1#8] })
    let h : IcpHead := icpToMe s h
    let h : IcpHead := { h with mac := BitVec.ofNat 128 (ofBe (icpMac [1#8] h.ver.toNat 9 h.stall h.flags.toNat h.session.toNat h.seq.toNat [])) }
    let x : Session := someSession h.session.toNat h.stall
    decide (s.on = true ∧
      icpComes s h 32 = true ∧
      s.authed h 9 [] = some x) = true) ∧
    (let s : State := State.reset
    let h : IcpHead := { port := 1, peer := { addr := [0x01#8, 0x02#8, 0x03#8, 0x04#8], udp := 3 }, dip := 0, dport := 0x5848#16, ver := 0x23#8, stall := 3, flags := 0x02#8, session := 0x00000001#32, seq := 0x00000005#32, mac := 0x00000000000000000000000000000000#128 }
    let s : State := { (icpReady s.up h) with ctl := { s.ctl with sessions := someSession h.session.toNat h.stall :: s.ctl.sessions } }.onStall h.stall (fun x => { x with key := some [1#8] })
    let h : IcpHead := icpToMe s h
    let h : IcpHead := { h with mac := BitVec.ofNat 128 (ofBe (icpMac [1#8] h.ver.toNat 10 h.stall h.flags.toNat h.session.toNat h.seq.toNat [])) }
    let x : Session := someSession h.session.toNat h.stall
    decide (s.on = true ∧
      icpComes s h 32 = true ∧
      s.authed h 10 [] = some x) = true) :=
  ⟨by decide +kernel, by decide +kernel, by decide +kernel, by decide +kernel, by decide +kernel, by decide +kernel, by decide +kernel, by decide +kernel⟩

/-- Clauses of `Obligations.SessionsOpenOnlyAuthenticated` have states and operands that meet their hypotheses. -/
theorem witness_SessionsOpenOnlyAuthenticated_2 :
    (let s : State := State.reset
    let n : BitVec 32 := 0x0000001b#32
    let s : State := { s.up with now := s.now + 10 ^ 14, ctl := { s.ctl with sessions := someSession n.toNat 2 :: s.ctl.sessions } }
    let x : Session := someSession n.toNat 2
    decide (s.on = true ∧
      s.session? n.toNat = some x ∧
      x.lastMsg + ms (atLeast1 (s.f A.ctlSessTmo 15 0)) ≤ s.now) = true) ∧
    (let s : State := State.reset
    let rnd : Nat := 8
    let n : BitVec 32 := 0x04166aa0#32
    let s : State := s.up
    let s : State := { s with ctl := { s.ctl with split := if rnd % 2 = 0 then [] else s.ctl.split.map (fun e => { e with at_ := s.now }), late := if rnd % 2 = 0 then [] else s.ctl.late } }
    decide ((s.session? n.toNat).all (fun x => decide (s.now < x.lastMsg + ms (atLeast1 (s.f A.ctlSessTmo 15 0)))) = true) = true) ∧
    (let s : State := State.reset
    let rnd : Nat := 0
    let s : State := s.up
    let s : State := { s with ctl := { s.ctl with split := if rnd % 2 = 0 then [] else s.ctl.split.map (fun e => { e with at_ := s.now }), late := if rnd % 2 = 0 then [] else s.ctl.late } }
    decide ((s.ctl.split.head?).all (fun e => decide (s.now < e.at_ + us (atLeast1 (s.f A.ctlAccTmo 15 0)))) = true) = true) ∧
    (let s : State := State.reset
    let rnd : Nat := 7
    let s : State := s.up
    let s : State := { s with ctl := { s.ctl with split := if rnd % 2 = 0 then [] else s.ctl.split.map (fun e => { e with at_ := s.now }), late := if rnd % 2 = 0 then [] else s.ctl.late } }
    decide (s.ctl.late = []) = true) ∧
    (let s : State := State.reset
    let rnd : Nat := 3
    let h : IcpHead := { port := 1, peer := { addr := [0x01#8, 0x02#8, 0x03#8, 0x04#8], udp := 5 }, dip := 0, dport := 0x5848#16, ver := 0x23#8, stall := 4, flags := 0x03#8, session := 0x00000004#32, seq := 0x00000003#32, mac := 0x00000000000000000000000000000000#128 }
    let k : Fin 6 := 0
    let s : State := if rnd % 3 = 0 then s.up else icpReady s.up h
    let h : IcpHead := if rnd % 3 = 0 then h else icpToMe s h
    let ops : List IcpOp := []
    let data : Bytes := List.replicate (rnd % 9) 0
    let c : Instr := (icpKinds h ops data k).1
    let n : Nat := (icpKinds h ops data k).2
    decide (icpKinds h ops data k = (c, n) ∧
      s.b (A.ethCtl (2 + h.port)) 0 = false) = true) ∧
    (let s : State := State.reset
    let h : IcpHead := { port := 1, peer := { addr := [1#8, 2#8, 3#8, 4#8], udp := 2 }, dip := 5, dport := 1#16, ver := 0x23#8, stall := 4, flags := 2#8, session := 0#32, seq := 2#32, mac := 0#128 }
    let k : Fin 6 := 5
    let s : State := icpReady s.up h
    let ops : List IcpOp := []
    let data : Bytes := []
    let c : Instr := (icpKinds h ops data k).1
    let n : Nat := (icpKinds h ops data k).2
    decide (icpKinds h ops data k = (c, n) ∧
      s.on = true ∧
      s.b (A.ethCtl (2 + h.port)) 0 = true ∧
      s.icpTakes h = false) = true) ∧
    (let s : State := State.reset
    let rnd : Nat := 7
    let h : IcpHead := { port := 0, peer := { addr := [0x01#8, 0x02#8, 0x03#8, 0x04#8], udp := 3 }, dip := 0, dport := 0x5848#16, ver := 0x23#8, stall := 0, flags := 0x01#8, session := 0x00000003#32, seq := 0x00000001#32, mac := 0x00000000000000000000000000000000#128 }
    let k : Fin 6 := 5
    let s : State := if rnd % 3 = 0 then s.up else icpReady s.up h
    let h : IcpHead := if rnd % 3 = 0 then h else icpToMe s h
    let ops : List IcpOp := []
    let data : Bytes := List.replicate (rnd % 9) 0
    let c : Instr := (icpKinds h ops data k).1
    let n : Nat := (icpKinds h ops data k).2
    decide (icpKinds h ops data k = (c, n) ∧
      s.on = true ∧
      s.b (A.ethCtl (2 + h.port)) 0 = true ∧
      s.icpTakes h = true ∧
      ((s.icpLimit h.port h.peer < n ∨ n % 4 ≠ 0))) = true) :=
  ⟨by decide +kernel, by decide +kernel, by decide +kernel, by decide +kernel, by decide +kernel, by decide +kernel, by decide +kernel⟩

/-- Clauses of `Obligations.SessionOperationsAnswerInOrder` have states and operands that meet their hypotheses. -/
theorem witness_SessionOperationsAnswerInOrder :
    (let s : State := State.reset
    let rnd : Nat := 1
    let n : BitVec 32 := 0x0f2a4399#32
    let size : Fin 4 := 3
    let t : Fin 8 := 6
    let g : Nat := 2
    let t : Fin 8 := if rnd % 3 = 0 then t else 0
    let s : State := { s.up with ctl := { s.ctl with sessions := [{ someSession n.toNat t with provisioning := t = 0 && rnd % 4 = 0 }] } }
    let x : Session := { someSession n.toNat t with provisioning := t = 0 && rnd % 4 = 0 }
    let a : BitVec 32 := BitVec.ofNat 32 (pickReg rnd (fun r => plainReg r.base r && (rnd % 2 == 0 || isPair r.base false)))
    let size : Fin 4 := if rnd % 3 = 0 then size else if rnd % 2 = 0 then 2 else 3
    let g : Nat := ((s.globalAddr t a.toNat).getD 0)
    let r : RegRow := ((rowOf (g / 4 * 4)).getD ({ name := "", base := 0 }))
    decide (s.on = true ∧
      s.session? n.toNat = some x ∧
      0x20 ≤ x.version ∧
      x.stall = t.val ∧
      s.globalAddr t a.toNat = some g ∧
      s.check x.provisioning t g (sizeBytes size) true false = 0 ∧
      rowOf (g / 4 * 4) = some r ∧
      plainReg (g / 4 * 4) r = true ∧
      s.instDefined (g / 4 * 4) = true) = true) ∧
    (let s : State := State.reset
    let rnd : Nat := 7
    let n : BitVec 32 := 0xf936e9b9#32
    let t : Fin 8 := 7
    let t : Fin 8 := if rnd % 3 = 0 then t else 0
    let s : State := { s.up with ctl := { s.ctl with sessions := [{ someSession n.toNat t with provisioning := t = 0 && rnd % 4 = 0 }] } }
    let x : Session := { someSession n.toNat t with provisioning := t = 0 && rnd % 4 = 0 }
    let count : Fin 256 := Fin.ofNat 256 (rnd % 5)
    let a : BitVec 32 := BitVec.ofNat 32 (pickReg rnd (fun r => plainReg r.base r))
    let g : Nat := (s.globalAddr t a.toNat).getD 0
    decide (s.on = true ∧
      s.session? n.toNat = some x ∧
      0x20 ≤ x.version ∧
      x.stall = t.val ∧
      g % 4 = 0 ∧
      plainWords s x.provisioning t a.toNat g count = true) = true) ∧
    (let s : State := State.reset
    let rnd : Nat := 2
    let n : BitVec 32 := 0x00020000#32
    let size : Fin 4 := 3
    let t : Fin 8 := 1
    let st : Nat := 3
    let t : Fin 8 := if rnd % 3 = 0 then t else 0
    let s : State := { s.up with ctl := { s.ctl with sessions := [{ someSession n.toNat t with provisioning := t = 0 && rnd % 4 = 0 }] } }
    let x : Session := { someSession n.toNat t with provisioning := t = 0 && rnd % 4 = 0 }
    let a : BitVec 32 := BitVec.ofNat 32 (if rnd % 3 = 0 then 0x800000 + rnd % 0x800000 else if rnd % 3 = 1 then rnd % 0x700000 else (pickReg rnd (fun _ => true)))
    decide (s.on = true ∧
      s.session? n.toNat = some x ∧
      0x20 ≤ x.version ∧
      x.stall = t.val ∧
      st ≠ 0 ∧
      accessStatus s x.provisioning t a.toNat (sizeBytes size) true false = st) = true) ∧
    (let s : State := State.reset
    let rnd : Nat := 0
    let n : BitVec 32 := 0xb9fde21d#32
    let size : Fin 4 := 1
    let t : Fin 8 := 4
    let st : Nat := 2
    let t : Fin 8 := if rnd % 3 = 0 then t else 0
    let s : State := { s.up with ctl := { s.ctl with sessions := [{ someSession n.toNat t with provisioning := t = 0 && rnd % 4 = 0 }] } }
    let x : Session := { someSession n.toNat t with provisioning := t = 0 && rnd % 4 = 0 }
    let a : BitVec 32 := BitVec.ofNat 32 (if rnd % 3 = 0 then 0x800000 + rnd % 0x800000 else if rnd % 3 = 1 then rnd % 0x700000 else (pickReg rnd (fun _ => true)))
    decide (s.on = true ∧
      s.session? n.toNat = some x ∧
      0x20 ≤ x.version ∧
      x.stall = t.val ∧
      st ≠ 0 ∧
      accessStatus s x.provisioning t a.toNat (sizeBytes size) false true = st) = true) ∧
    (let s : State := State.reset
    let rnd : Nat := 9
    let n : BitVec 32 := 0x0000009f#32
    let size : Fin 4 := 2
    let t : Fin 8 := 3
    let st : Nat := 2
    let t : Fin 8 := if rnd % 3 = 0 then t else 0
    let s : State := { s.up with ctl := { s.ctl with sessions := [{ someSession n.toNat t with provisioning := t = 0 && rnd % 4 = 0 }] } }
    let x : Session := { someSession n.toNat t with provisioning := t = 0 && rnd % 4 = 0 }
    let a : BitVec 32 := BitVec.ofNat 32 (if rnd % 3 = 0 then 0x800000 + rnd % 0x800000 else if rnd % 3 = 1 then rnd % 0x700000 else (pickReg rnd (fun _ => true)))
    decide (s.on = true ∧
      s.session? n.toNat = some x ∧
      0x20 ≤ x.version ∧
      x.stall = t.val ∧
      st ≠ 0 ∧
      accessStatus s x.provisioning t a.toNat (sizeBytes size) true true = st) = true) ∧
    (let s : State := State.reset
    let rnd : Nat := 2
    let n : BitVec 32 := 0x00000000#32
    let s : State := if rnd % 2 = 0 then s.up else { s.up with ctl := { s.ctl with sessions := [{ someSession n.toNat (rnd % 8) with version := 0x10 + rnd % 4 }] } }
    let x : Session := { someSession n.toNat (rnd % 8) with version := 0x10 + rnd % 4 }
    let size : Fin 4 := 3
    decide (s.session? n.toNat = none) = true) ∧
    (let s : State := State.reset
    let rnd : Nat := 3
    let n : BitVec 32 := 0xdb2cb4ee#32
    let s : State := if rnd % 2 = 0 then s.up else { s.up with ctl := { s.ctl with sessions := [{ someSession n.toNat (rnd % 8) with version := 0x10 + rnd % 4 }] } }
    let x : Session := { someSession n.toNat (rnd % 8) with version := 0x10 + rnd % 4 }
    let size : Fin 4 := 3
    decide (s.on = true ∧
      s.session? n.toNat = some x ∧
      x.version < 0x20 ∧
      size = 3) = true) ∧
    (let s : State := State.reset
    let rnd : Nat := 1
    let n : BitVec 32 := 0xd5e490b8#32
    let t : Fin 8 := 4
    let g : Nat := 1
    let t : Fin 8 := if rnd % 3 = 0 then t else 0
    let s : State := { s.up with ctl := { s.ctl with sessions := [{ someSession n.toNat t with provisioning := t = 0 && rnd % 4 = 0 }] } }
    let x : Session := { someSession n.toNat t with provisioning := t = 0 && rnd % 4 = 0 }
    let a : BitVec 32 := BitVec.ofNat 32 (pickReg rnd (fun r => r.rws == 0))
    let g : Nat := ((s.globalAddr t a.toNat).getD 0)
    let r : RegRow := ((rowOf g).getD ({ name := "", base := 0 }))
    decide (s.on = true ∧
      s.session? n.toNat = some x ∧
      0x10 ≤ x.version ∧
      x.stall = t.val ∧
      s.globalAddr t a.toNat = some g ∧
      s.check x.provisioning t g 4 false true = 0 ∧
      rowOf g = some r ∧
      r.rws = 0 ∧
      isCommit g = false ∧
      ownEffect g = false ∧
      isAperture g = false ∧
      s.instDefined g = true ∧
      s.seamBeyond g = false) = true) :=
  ⟨by decide +kernel, by decide +kernel, by decide +kernel, by decide +kernel, by decide +kernel, by decide +kernel, by decide +kernel, by decide +kernel⟩

/-- Clauses of `Obligations.SessionOperationsAnswerInOrder` have states and operands that meet their hypotheses. -/
theorem witness_SessionOperationsAnswerInOrder_2 :
    (let s : State := State.reset
    let rnd : Nat := 2
    let n : BitVec 32 := 0xf2a4b9ba#32
    let t : Fin 8 := 6
    let g : Nat := 3
    let t : Fin 8 := if rnd % 3 = 0 then t else 0
    let s : State := { s.up with ctl := { s.ctl with sessions := [{ someSession n.toNat t with provisioning := t = 0 && rnd % 4 = 0 }] } }
    let x : Session := { someSession n.toNat t with provisioning := t = 0 && rnd % 4 = 0 }
    let a : BitVec 32 := BitVec.ofNat 32 (pickReg rnd (fun r => r.rws != 0))
    let g : Nat := ((s.globalAddr t a.toNat).getD 0)
    let r : RegRow := ((rowOf g).getD ({ name := "", base := 0 }))
    decide (s.on = true ∧
      s.session? n.toNat = some x ∧
      0x10 ≤ x.version ∧
      x.stall = t.val ∧
      s.globalAddr t a.toNat = some g ∧
      s.check x.provisioning t g 4 false true = 0 ∧
      rowOf g = some r ∧
      r.rws ≠ 0 ∧
      isCommit g = false ∧
      isAperture g = false ∧
      s.instDefined g = true ∧
      s.seamBeyond g = false) = true) ∧
    (let s : State := State.reset
    let rnd : Nat := 2
    let n : BitVec 32 := 0x984ed2da#32
    let t : Fin 8 := 2
    let g : Nat := 3
    let t : Fin 8 := if rnd % 3 = 0 then t else 0
    let s : State := { s.up with ctl := { s.ctl with sessions := [{ someSession n.toNat t with provisioning := t = 0 && rnd % 4 = 0 }] } }
    let x : Session := { someSession n.toNat t with provisioning := t = 0 && rnd % 4 = 0 }
    let a : BitVec 32 := BitVec.ofNat 32 (pickReg rnd (fun r => plainReg r.base r && r.rws == 0 && !ownEffect r.base && r.rw != 0))
    let g : Nat := ((s.globalAddr t a.toNat).getD 0)
    let r : RegRow := ((rowOf g).getD ({ name := "", base := 0 }))
    decide (s.on = true ∧
      s.session? n.toNat = some x ∧
      0x10 ≤ x.version ∧
      x.stall = t.val ∧
      s.globalAddr t a.toNat = some g ∧
      s.check x.provisioning t g 4 true true = 0 ∧
      s.check x.provisioning t g 4 false true = 0 ∧
      rowOf g = some r ∧
      plainReg g r = true ∧
      r.rws = 0 ∧
      isCommit g = false ∧
      ownEffect g = false ∧
      s.instDefined g = true ∧
      s.seamBeyond g = false) = true) ∧
    (let s : State := State.reset
    let rnd : Nat := 5
    let n : BitVec 32 := 0xeab8c3b8#32
    let t : Fin 8 := 2
    let g : Nat := 0
    let t : Fin 8 := if rnd % 3 = 0 then t else 0
    let s : State := { s.up with ctl := { s.ctl with sessions := [{ someSession n.toNat t with provisioning := t = 0 && rnd % 4 = 0 }] } }
    let x : Session := { someSession n.toNat t with provisioning := t = 0 && rnd % 4 = 0 }
    let a : BitVec 32 := BitVec.ofNat 32 (pickReg rnd (fun r => r.rws == 0))
    let g : Nat := ((s.globalAddr t a.toNat).getD 0)
    let r : RegRow := ((rowOf g).getD ({ name := "", base := 0 }))
    decide (s.on = true ∧
      s.session? n.toNat = some x ∧
      0x10 ≤ x.version ∧
      x.stall = t.val ∧
      s.globalAddr t a.toNat = some g ∧
      s.check x.provisioning t g 4 false true = 0 ∧
      rowOf g = some r ∧
      r.rws = 0 ∧
      isCommit g = false ∧
      ownEffect g = false ∧
      isAperture g = false ∧
      s.instDefined g = true ∧
      s.seamBeyond g = false) = true) ∧
    (let s : State := State.reset
    let rnd : Nat := 0
    let n : BitVec 32 := 0xc9533bcb#32
    let t : Fin 8 := 3
    let a : BitVec 32 := 0xaba7d5a7#32
    let s : State := { s.up with ctl := { s.ctl with sessions := [{ someSession n.toNat t with provisioning := t = 0 && rnd % 4 = 0 }] } }
    let x : Session := { someSession n.toNat t with provisioning := t = 0 && rnd % 4 = 0 }
    let g : Nat := ((s.globalAddr t a.toNat).getD 0)
    decide (s.on = true ∧
      s.session? n.toNat = some x ∧
      0x10 ≤ x.version ∧
      x.stall = t.val ∧
      s.globalAddr t a.toNat = some g ∧
      s.check x.provisioning t g 4 false true ≠ 0) = true) ∧
    (let s : State := State.reset
    let h : IcpHead := { port := 0, peer := { addr := [0x01#8, 0x02#8, 0x03#8, 0x04#8], udp := 3 }, dip := 0, dport := 0x5848#16, ver := 0x23#8, stall := 5, flags := 0x02#8, session := 0x00000002#32, seq := 0x00000001#32, mac := 0x00000000000000000000000000000000#128 }
    let s : State := { (icpReady s.up h) with ctl := { s.ctl with sessions := someSession h.session.toNat h.stall :: s.ctl.sessions } }.onStall h.stall (fun x => { x with key := some [1#8] })
    let h : IcpHead := icpToMe s h
    let h : IcpHead := { h with flags := 0, mac := BitVec.ofNat 128 (ofBe (icpMac [1#8] h.ver.toNat 3 h.stall 0 h.session.toNat h.seq.toNat [])) }
    let x : Session := someSession h.session.toNat h.stall
    decide (s.on = true ∧
      icpComes s h 32 = true ∧
      36 ≤ s.icpLimit h.port h.peer ∧
      s.authed h 3 [] = some x ∧
      x.isFresh h.seq.toNat = true ∧
      bit (wd h.flags.toNat) 0 = false ∧
      s.session? x.number = some x) = true) ∧
    (let s : State := State.reset
    let rnd : Nat := 5
    let h : IcpHead := { port := 1, peer := { addr := [0x01#8, 0x02#8, 0x03#8, 0x04#8], udp := 3 }, dip := 0, dport := 0x5848#16, ver := 0x23#8, stall := 2, flags := 0x02#8, session := 0x00000001#32, seq := 0x00000000#32, mac := 0x00000000000000000000000000000000#128 }
    let s : State := { (icpReady s.up h) with ctl := { s.ctl with sessions := { someSession h.session.toNat h.stall with lastSeq := some h.seq.toNat, cache := if rnd % 2 = 0 then [] else [(h.seq.toNat, [1#8, 2#8])] } :: s.ctl.sessions } }.onStall h.stall (fun x => { x with key := some [1#8] })
    let h : IcpHead := icpToMe s h
    let h : IcpHead := { h with flags := 0, mac := BitVec.ofNat 128 (ofBe (icpMac [1#8] h.ver.toNat 3 h.stall 0 h.session.toNat h.seq.toNat [])) }
    let x : Session := (s.session? h.session.toNat).getD (someSession 0 0)
    decide (s.on = true ∧
      icpComes s h 32 = true ∧
      36 ≤ s.icpLimit h.port h.peer ∧
      s.authed h 3 [] = some x ∧
      x.isFresh h.seq.toNat = false ∧
      bit (wd h.flags.toNat) 0 = false ∧
      s.session? x.number = some x) = true) ∧
    (let s : State := State.reset
    let rnd : Nat := 6
    let h : IcpHead := { port := 0, peer := { addr := [0x01#8, 0x02#8, 0x03#8, 0x04#8], udp := 1 }, dip := 0, dport := 0x5848#16, ver := 0x23#8, stall := 2, flags := 0x01#8, session := 0x00000004#32, seq := 0x00000003#32, mac := 0x00000000000000000000000000000000#128 }
    let g : Nat := 2
    let s : State := { (icpReady s.up h) with ctl := { s.ctl with sessions := someSession h.session.toNat h.stall :: s.ctl.sessions } }.onStall h.stall (fun x => { x with key := some [1#8] })
    let h : IcpHead := icpToMe s h
    let s : State := { s with ctl := { s.ctl with late := [] } }
    let h : IcpHead := { h with flags := 0, stall := if rnd % 2 = 0 then 0 else h.stall }
    let s : State := { s with ctl := { s.ctl with sessions := someSession h.session.toNat h.stall :: s.ctl.sessions } }.onStall h.stall (fun x => { x with key := some [1#8] })
    let a : BitVec 32 := BitVec.ofNat 32 (pickReg rnd (fun r => plainReg r.base r && companions r.base == []))
    let ops : List IcpOp := [{ op := 1, size := 2, count := 1, addr := a }]
    let h : IcpHead := { h with mac := BitVec.ofNat 128 (ofBe (icpMac [1#8] h.ver.toNat 3 h.stall h.flags.toNat h.session.toNat h.seq.toNat (ops.flatMap opBytes))) }
    let x : Session := someSession h.session.toNat h.stall
    let g : Nat := ((s.globalAddr h.stall a.toNat).getD 0)
    let r : RegRow := ((rowOf g).getD ({ name := "", base := 0 }))
    decide (s.on = true ∧
      ops = [{ op := 1, size := 2, count := 1, addr := a }] ∧
      icpComes s h (32 + (ops.flatMap opBytes).length) = true ∧
      s.authed h 3 (ops.flatMap opBytes) = some x ∧
      s.session? x.number = some x ∧
      44 ≤ s.icpLimit h.port h.peer ∧
      x.isFresh h.seq.toNat = true ∧
      bit (wd h.flags.toNat) 0 = false ∧
      x.stall = h.stall.val ∧
      0x10 ≤ x.version ∧
      (bitsOf 2 x.chans).all (fun i => decide ((fin? 20 (2 * x.stall + i)).all (fun t => decide ((s.targets[t]).asleep = false)) = true)) = true ∧
      s.globalAddr h.stall a.toNat = some g ∧
      s.check x.provisioning h.stall g 4 true false = 0 ∧
      rowOf g = some r ∧
      plainReg g r = true ∧
      companions g = [] ∧
      s.instDefined g = true ∧
      g ≠ A.ethlCntRx (2 + h.port) 0) = true) ∧
    (let s : State := State.reset
    let rnd : Nat := 5
    let h : IcpHead := { port := 1, peer := { addr := [0x01#8, 0x02#8, 0x03#8, 0x04#8], udp := 0 }, dip := 0, dport := 0x5848#16, ver := 0x11#8, stall := 1, flags := 0x03#8, session := 0x00000002#32, seq := 0x00000005#32, mac := 0x00000000000000000000000000000000#128 }
    let s : State := { (icpReady s.up h) with ctl := { s.ctl with sessions := someSession h.session.toNat h.stall :: s.ctl.sessions } }.onStall h.stall (fun x => { x with key := some [1#8] })
    let h : IcpHead := icpToMe s h
    let h : IcpHead := { h with flags := BitVec.ofNat 8 (2 * (rnd % 2)) }
    let a : BitVec 32 := BitVec.ofNat 32 (0x800000 + rnd % 0x700000)
    let ops : List IcpOp := [{ op := 1, size := 2, count := 1, addr := a }, { op := 1, size := 2, count := 1, addr := a }]
    let h : IcpHead := { h with mac := BitVec.ofNat 128 (ofBe (icpMac [1#8] h.ver.toNat 3 h.stall h.flags.toNat h.session.toNat h.seq.toNat (ops.flatMap opBytes))) }
    let x : Session := someSession h.session.toNat h.stall
    decide (s.on = true ∧
      ops = [{ op := 1, size := 2, count := 1, addr := a }, { op := 1, size := 2, count := 1, addr := a }] ∧
      icpComes s h (32 + (ops.flatMap opBytes).length) = true ∧
      s.authed h 3 (ops.flatMap opBytes) = some x ∧
      s.session? x.number = some x ∧
      52 ≤ s.icpLimit h.port h.peer ∧
      x.isFresh h.seq.toNat = true ∧
      bit (wd h.flags.toNat) 0 = false ∧
      x.stall = h.stall.val ∧
      0x20 ≤ x.version ∧
      s.globalAddr h.stall a.toNat = none) = true) :=
  ⟨by decide +kernel, by decide +kernel, by decide +kernel, by decide +kernel, by decide +kernel, by decide +kernel, by decide +kernel, by decide +kernel⟩

/-- Clauses of `Obligations.SessionOperationsAnswerInOrder` have states and operands that meet their hypotheses. -/
theorem witness_SessionOperationsAnswerInOrder_3 :
    (let s : State := State.reset
    let rnd : Nat := 0
    let h : IcpHead := { port := 0, peer := { addr := [0x01#8, 0x02#8, 0x03#8, 0x04#8], udp := 3 }, dip := 0, dport := 0x5848#16, ver := 0x23#8, stall := 0, flags := 0x01#8, session := 0x00000002#32, seq := 0x00000003#32, mac := 0x00000000000000000000000000000000#128 }
    let s : State := { (icpReady s.up h) with ctl := { s.ctl with sessions := someSession h.session.toNat h.stall :: s.ctl.sessions } }.onStall h.stall (fun x => { x with key := some [1#8] })
    let h : IcpHead := icpToMe s h
    let h : IcpHead := { h with flags := 0 }
    let ops : List IcpOp := List.replicate (12 + rnd % 3) { op := 1, size := 2, count := 200, addr := BitVec.ofNat 32 (pickReg rnd (fun _ => true)) }
    let h : IcpHead := { h with mac := BitVec.ofNat 128 (ofBe (icpMac [1#8] h.ver.toNat 3 h.stall h.flags.toNat h.session.toNat h.seq.toNat (ops.flatMap opBytes))) }
    let x : Session := someSession h.session.toNat h.stall
    decide (s.on = true ∧
      ops.all opGood = true ∧
      icpComes s h (32 + (ops.flatMap opBytes).length) = true ∧
      s.authed h 3 (ops.flatMap opBytes) = some x ∧
      s.session? x.number = some x ∧
      s.icpLimit h.port h.peer < 36 + (ops.map resultMax).foldl (· + ·) 0 ∧
      x.isFresh h.seq.toNat = true ∧
      bit (wd h.flags.toNat) 0 = false) = true) ∧
    (let s : State := State.reset
    let rnd : Nat := 1
    let h : IcpHead := { port := 0, peer := { addr := [0x01#8, 0x02#8, 0x03#8, 0x04#8], udp := 4 }, dip := 0, dport := 0x5848#16, ver := 0x23#8, stall := 2, flags := 0x03#8, session := 0x00000000#32, seq := 0x00000004#32, mac := 0x00000000000000000000000000000000#128 }
    let v : BitVec 32 := 0xda630b6b#32
    let g : Nat := 0
    let s : State := { (icpReady s.up h) with ctl := { s.ctl with sessions := someSession h.session.toNat h.stall :: s.ctl.sessions } }.onStall h.stall (fun x => { x with key := some [1#8] })
    let h : IcpHead := icpToMe s h
    let h : IcpHead := { h with flags := 1, stall := 0 }
    let s : State := { s with ctl := { s.ctl with sessions := someSession h.session.toNat 0 :: s.ctl.sessions } }.onStall 0 (fun x => { x with key := some [1#8] })
    let a : BitVec 32 := BitVec.ofNat 32 (pickReg rnd (fun r => r.rws == 0 && !ownEffect r.base && r.rw != 0))
    let ops : List IcpOp := [{ op := 4, size := 2, count := 1, addr := a, payload := beBytes 4 v.toNat }]
    let h : IcpHead := { h with mac := BitVec.ofNat 128 (ofBe (icpMac [1#8] h.ver.toNat 3 h.stall h.flags.toNat h.session.toNat h.seq.toNat (ops.flatMap opBytes))) }
    let x : Session := someSession h.session.toNat h.stall
    let g : Nat := ((s.globalAddr h.stall a.toNat).getD 0)
    let r : RegRow := ((rowOf g).getD ({ name := "", base := 0 }))
    decide (s.on = true ∧
      ops = [{ op := 4, size := 2, count := 1, addr := a, payload := beBytes 4 v.toNat }] ∧
      icpComes s h (32 + (ops.flatMap opBytes).length) = true ∧
      s.authed h 3 (ops.flatMap opBytes) = some x ∧
      s.session? x.number = some x ∧
      x.isFresh h.seq.toNat = true ∧
      bit (wd h.flags.toNat) 0 = true ∧
      x.stall = h.stall.val ∧
      0x10 ≤ x.version ∧
      (bitsOf 2 x.chans).all (fun i => decide ((fin? 20 (2 * x.stall + i)).all (fun t => decide ((s.targets[t]).asleep = false)) = true)) = true ∧
      s.globalAddr h.stall a.toNat = some g ∧
      s.check x.provisioning h.stall g 4 false true = 0 ∧
      rowOf g = some r ∧
      r.rws = 0 ∧
      isCommit g = false ∧
      ownEffect g = false ∧
      isAperture g = false ∧
      s.instDefined g = true ∧
      s.seamBeyond g = false ∧
      g ≠ A.ethlCntRx (2 + h.port) 0) = true) ∧
    (let s : State := State.reset
    let rnd : Nat := 0
    let h : IcpHead := { port := 0, peer := { addr := [0x01#8, 0x02#8, 0x03#8, 0x04#8], udp := 1 }, dip := 0, dport := 0x5848#16, ver := 0x23#8, stall := 2, flags := 0x00#8, session := 0x00000002#32, seq := 0x00000000#32, mac := 0x00000000000000000000000000000000#128 }
    let s : State := { (icpReady s.up h) with ctl := { s.ctl with sessions := someSession h.session.toNat h.stall :: s.ctl.sessions } }.onStall h.stall (fun x => { x with key := some [1#8] })
    let h : IcpHead := icpToMe s h
    let h : IcpHead := { h with flags := BitVec.ofNat 8 (rnd % 2) }
    let ops : List IcpOp := [{ op := if rnd % 3 = 0 then 9 else 1, size := if rnd % 3 = 1 then 5 else 2, count := if rnd % 3 = 2 then 0 else 1, addr := 0 }]
    let h : IcpHead := { h with mac := BitVec.ofNat 128 (ofBe (icpMac [1#8] h.ver.toNat 3 h.stall h.flags.toNat h.session.toNat h.seq.toNat (ops.flatMap opBytes))) }
    let x : Session := someSession h.session.toNat h.stall
    decide (s.on = true ∧
      icpComes s h (32 + (ops.flatMap opBytes).length) = true ∧
      s.authed h 3 (ops.flatMap opBytes) = some x ∧
      s.session? x.number = some x ∧
      ((ops.all opGood = false ∨ bit (wd h.flags.toNat) 0 = true ∧ ops.all (fun o => o.op == 4) = false))) = true) ∧
    (let s : State := State.reset
    let rnd : Nat := 9
    let s : State := { s.up with now := s.now + 10 ^ 9, ctl := { s.ctl with split := { stall := Fin.ofNat 8 rnd, ofs := 8, wide := false, at_ := 3 } :: (s.ctl.split ++ List.replicate (rnd % 40) { stall := 3, ofs := 16, wide := true, at_ := 4 }) } }
    let e : Split := s.ctl.split.headD { stall := 0, ofs := 8, wide := false, at_ := 3 }
    let rest : List Split := s.ctl.split.drop 1
    decide (s.on = true ∧
      s.ctl.split = e :: rest ∧
      e.waits = .read ∧
      e.at_ + us (atLeast1 (s.f A.ctlAccTmo 15 0)) ≤ s.now) = true) ∧
    (let s : State := press
    let rnd : Nat := 1
    let n : BitVec 32 := 0xe204049d#32
    let size : Fin 4 := 3
    let s : State := openAperture { s.up with ctl := { s.ctl with sessions := someSession n.toNat 0 :: s.ctl.sessions } } 0
    let size : Fin 4 := Fin.ofNat 4 (2 + rnd % 2)
    let a : BitVec 32 := BitVec.ofNat 32 (0x5D0000 + 8 * (rnd % 2048))
    let o : IcpOp := { op := 1, size := BitVec.ofNat 8 size.val, count := 1, addr := a }
    let x : Session := someSession n.toNat 0
    decide (s.on = true ∧
      2 ≤ size.val ∧
      s.session? n.toNat = some x ∧
      x.stall = 0 ∧
      0x20 ≤ x.version ∧
      x.provisioning = false ∧
      0x5D0000 ≤ a.toNat ∧
      a.toNat < 0x5D4000 ∧
      a.toNat % 8 = 0 ∧
      s.apValid 0 false = true ∧
      s.check false 0 a.toNat (2 ^ size.val) true false = 0 ∧
      o = { op := 1, size := BitVec.ofNat 8 size.val, count := 1, addr := a }) = true) ∧
    (let s : State := press
    let rnd : Nat := 9
    let n : BitVec 32 := 0xcc063a87#32
    let s : State := openAperture { s.up with now := s.now + 10 ^ 9, ctl := { s.ctl with sessions := someSession n.toNat 0 :: s.ctl.sessions } } 0
    let o : IcpOp := { op := 1, size := BitVec.ofNat 8 (2 + rnd % 2), count := 1, addr := BitVec.ofNat 32 (0x5D0000 + 8 * (rnd % 2048)) }
    let x : Session := someSession n.toNat 0
    let e : Split := { stall := 0, ofs := o.addr.toNat % 0x4000, wide := o.size == 3, at_ := 3, waits := .op n.toNat o }
    let s : State := { s with ctl := { s.ctl with split := e :: s.ctl.split } }
    decide (s.on = true ∧
      o.op = 1 ∧
      o.count = 1 ∧
      ((o.size = 2 ∨ o.size = 3)) ∧
      s.session? n.toNat = some x ∧
      x.stall = 0 ∧
      0x20 ≤ x.version ∧
      x.provisioning = false ∧
      0x5D0000 ≤ o.addr.toNat ∧
      o.addr.toNat < 0x5D4000 ∧
      o.addr.toNat % 8 = 0 ∧
      s.apValid 0 false = true ∧
      s.check false 0 o.addr.toNat (2 ^ o.size.toNat) true false = 0 ∧
      s.ctl.split.head? = some e ∧
      e.waits = .op n.toNat o ∧
      e.at_ + us (atLeast1 (s.f A.ctlAccTmo 15 0)) ≤ s.now) = true) ∧
    (let s : State := State.reset
    let rnd : Nat := 5
    let s : State := { s.up with ctl := { s.ctl with late := rnd % 8 :: s.ctl.late } }
    decide (s.on = true ∧
      s.ctl.late ≠ []) = true) :=
  ⟨by decide +kernel, by decide +kernel, by decide +kernel, by decide +kernel, by decide +kernel, by decide +kernel, by decide +kernel⟩

/-- Clauses of `Obligations.LongOperationsMoveTheLake` have states and operands that meet their hypotheses. -/
theorem witness_LongOperationsMoveTheLake :
    (let s : State := State.reset
    let rnd : Nat := 2
    let n : BitVec 32 := 0x00000006#32
    let lake : BitVec 64 := 0x0000000000000006#64
    let tag : BitVec 32 := 0x920c1f8f#32
    let t : Fin 8 := 2
    let s : State := { s.up with ctl := { s.ctl with sessions := [{ someSession n.toNat t with provisioning := rnd % 4 = 0 }] }, str := { s.str with bare := false, lake := [{ kind := 5, owner := t.val, base := 0, size := 2 ^ 30 }] } }.onStall t (fun x => { x with taken := rnd % 18 })
    let x : Session := { someSession n.toNat t with provisioning := rnd % 4 = 0 }
    let lake : BitVec 64 := BitVec.ofNat 64 (64 * (rnd % 1000))
    let len : BitVec 32 := BitVec.ofNat 32 (64 * (1 + rnd % 1000))
    decide (s.on = true ∧
      s.session? n.toNat = some x ∧
      0x21 ≤ x.version ∧
      x.stall = t.val ∧
      x.provisioning = false ∧
      lake.toNat % 64 = 0 ∧
      len.toNat % 64 = 0 ∧
      64 ≤ len.toNat ∧
      len.toNat ≤ 16777216 ∧
      s.lakeAllowed (.aperture t) false lake.toNat len.toNat = true ∧
      (s.stalls[t]).taken < 16) = true) ∧
    (let s : State := State.reset
    let rnd : Nat := 1
    let n : BitVec 32 := 0xe0e4bde3#32
    let lake : BitVec 64 := 0x00000000000109b7#64
    let tag : BitVec 32 := 0xe0ce060a#32
    let t : Fin 8 := 2
    let s : State := { s.up with ctl := { s.ctl with sessions := [{ someSession n.toNat t with provisioning := rnd % 4 = 0 }] }, str := { s.str with bare := false, lake := [{ kind := 5, owner := t.val, base := 0, size := 2 ^ 30 }] } }.onStall t (fun x => { x with taken := rnd % 18 })
    let x : Session := { someSession n.toNat t with provisioning := rnd % 4 = 0 }
    let lake : BitVec 64 := BitVec.ofNat 64 (64 * (rnd % 1000))
    let len : BitVec 32 := BitVec.ofNat 32 (64 * (1 + rnd % 1000))
    decide (s.on = true ∧
      s.session? n.toNat = some x ∧
      0x21 ≤ x.version ∧
      x.stall = t.val ∧
      x.provisioning = false ∧
      lake.toNat % 64 = 0 ∧
      len.toNat % 64 = 0 ∧
      64 ≤ len.toNat ∧
      len.toNat ≤ 16777216 ∧
      s.lakeAllowed (.aperture t) true lake.toNat len.toNat = true ∧
      (s.stalls[t]).taken < 16) = true) ∧
    (let s : State := State.reset
    let rnd : Nat := 0
    let n : BitVec 32 := 0x315a114c#32
    let lake : BitVec 64 := 0x000000002229893a#64
    let w : Bool := true
    let t : Fin 8 := 1
    let s : State := { s.up with ctl := { s.ctl with sessions := [{ someSession n.toNat t with provisioning := rnd % 3 = 0 }] } }.onStall t (fun x => { x with taken := 14 + rnd % 3 })
    let x : Session := { someSession n.toNat t with provisioning := rnd % 3 = 0 }
    let s : State := { s with str := { s.str with bare := false, lake := if rnd % 2 = 0 then [] else [{ kind := 5, owner := t.val, base := 0, size := 2 ^ 30 }] } }
    let lake : BitVec 64 := BitVec.ofNat 64 (64 * (rnd % 1000))
    let len : BitVec 32 := BitVec.ofNat 32 (64 * (1 + rnd % 1000))
    decide (s.on = true ∧
      s.session? n.toNat = some x ∧
      0x21 ≤ x.version ∧
      x.stall = t.val ∧
      lake.toNat % 64 = 0 ∧
      len.toNat % 64 = 0 ∧
      64 ≤ len.toNat ∧
      len.toNat ≤ 16777216 ∧
      ((x.provisioning = true ∨ s.lakeAllowed (.aperture t) w lake.toNat len.toNat = false ∨ 16 ≤ (s.stalls[t]).taken))) = true) ∧
    (let s : State := State.reset
    let n : BitVec 32 := 0x00000016#32
    let lake : BitVec 64 := 0x0000000000000080#64
    let len : BitVec 32 := 0xa03ea59e#32
    let t : Fin 8 := 5
    let s : State := { s.up with ctl := { s.ctl with sessions := [someSession n.toNat t] } }
    let x : Session := someSession n.toNat t
    decide (s.on = true ∧
      s.session? n.toNat = some x ∧
      0x21 ≤ x.version ∧
      x.stall = t.val ∧
      ((lake.toNat % 64 ≠ 0 ∨ len.toNat < 64 ∨ 16777216 < len.toNat ∨ len.toNat % 64 ≠ 0))) = true) ∧
    (let s : State := State.reset
    let rnd : Nat := 8
    let opid : BitVec 32 := 0xa00621b5#32
    let s : State := { s.up with ctl := { s.ctl with sessions := [{ someSession 7 1 with provisioning := rnd % 5 = 0 }], longOps := [{ someOp opid.toNat 1 false with sent := 64 * (rnd % 313) }] } }
    let x : LongOp := (s.longOp? opid.toNat).getD (someOp 0 0 false)
    let y : Session := (s.session? 7).getD (someSession 7 1)
    let ecc : List (Nat × Ecc) := if rnd % 2 = 0 then [] else [(rnd % 40, .corrected 3)]
    let n : Nat := bulkLen s x y
    let body : Bytes := beBytes 4 x.opid ++ beBytes 4 x.sent ++ s.lakeRead (x.lake + x.sent) n
    decide (s.on = true ∧
      s.longOp? opid.toNat = some x ∧
      x.write = false ∧
      x.sent < x.len ∧
      s.session? x.session = some y ∧
      bulkLen s x y = n ∧
      badWithin (x.lake + x.sent) n ecc = false ∧
      beBytes 4 x.opid ++ beBytes 4 x.sent ++ s.lakeRead (x.lake + x.sent) n = body) = true) ∧
    (let s : State := State.reset
    let rnd : Nat := 2
    let opid : BitVec 32 := 0x00000085#32
    let s : State := { s.up with ctl := { s.ctl with sessions := [someSession 7 1], longOps := [{ someOp opid.toNat 1 false with sent := 64 * (rnd % 313) }] } }
    let x : LongOp := (s.longOp? opid.toNat).getD (someOp 0 0 false)
    let y : Session := (s.session? 7).getD (someSession 7 1)
    let t : Fin 8 := Fin.ofNat 8 x.stall
    let ecc : List (Nat × Ecc) := [(rnd % 20, .bad), (3, .corrected 2)]
    decide (s.on = true ∧
      s.longOp? opid.toNat = some x ∧
      x.write = false ∧
      x.sent < x.len ∧
      x.stall = t.val ∧
      s.session? x.session = some y ∧
      badWithin (x.lake + x.sent) (bulkLen s x y) ecc = true) = true) ∧
    (let s : State := State.reset
    let rnd : Nat := 3
    let opid : BitVec 32 := 0x0000000f#32
    let s : State := s.up
    let s : State := { s with ctl := { s.ctl with longOps := if rnd % 3 = 0 then s.ctl.longOps else if rnd % 2 = 0 then [{ someOp opid.toNat 1 false with sent := 20000 }] else [{ someOp opid.toNat 1 true with lastBulk := s.now }] } }
    decide (s.longOp? opid.toNat = none) = true) ∧
    (let s : State := State.reset
    let rnd : Nat := 2
    let opid : BitVec 32 := 0x2600b76e#32
    let s : State := s.up
    let s : State := { s with ctl := { s.ctl with longOps := if rnd % 3 = 0 then s.ctl.longOps else if rnd % 2 = 0 then [{ someOp opid.toNat 1 false with sent := 20000 }] else [{ someOp opid.toNat 1 true with lastBulk := s.now }] } }
    decide (((s.longOp? opid.toNat).any (fun x => decide ((x.write = true ∨ x.len ≤ x.sent))) = true)) = true) :=
  ⟨by decide +kernel, by decide +kernel, by decide +kernel, by decide +kernel, by decide +kernel, by decide +kernel, by decide +kernel, by decide +kernel⟩

/-- Clauses of `Obligations.LongOperationsMoveTheLake` have states and operands that meet their hypotheses. -/
theorem witness_LongOperationsMoveTheLake_2 :
    (let s : State := State.reset
    let rnd : Nat := 1
    let opid : BitVec 32 := 0x00000090#32
    let s : State := s.up
    let s : State := { s with ctl := { s.ctl with longOps := if rnd % 3 = 0 then s.ctl.longOps else if rnd % 2 = 0 then [{ someOp opid.toNat 1 false with sent := 20000 }] else [{ someOp opid.toNat 1 true with lastBulk := s.now }] } }
    decide ((s.longOp? opid.toNat).any (fun x => decide (((if x.write then x.missing ≠ [] else x.sent < x.len)))) = true) = true) ∧
    (let s : State := State.reset
    let rnd : Nat := 7
    let opid : BitVec 32 := 0x8d05afff#32
    let s : State := s.up
    let s : State := { s with ctl := { s.ctl with longOps := if rnd % 3 = 0 then s.ctl.longOps else if rnd % 2 = 0 then [{ someOp opid.toNat 1 false with sent := 20000 }] else [{ someOp opid.toNat 1 true with lastBulk := s.now }] } }
    decide (((s.longOp? opid.toNat).any (fun x => decide ((x.write = false ∨ x.missing = [] ∨ s.now < x.lastBulk + ms (atLeast1 (s.f A.ctlLongTmo 15 0))))) = true)) = true) ∧
    (let s : State := State.reset
    let rnd : Nat := 6
    let h : IcpHead := { port := 1, peer := { addr := [0x01#8, 0x02#8, 0x03#8, 0x04#8], udp := 5 }, dip := 0, dport := 0x5848#16, ver := 0x11#8, stall := 3, flags := 0x03#8, session := 0x00000001#32, seq := 0x00000000#32, mac := 0x00000000000000000000000000000000#128 }
    let opid : BitVec 32 := 0x451ebb8e#32
    let s : State := { (icpReady s.up h) with ctl := { s.ctl with sessions := [someSession h.session.toNat h.stall], longOps := [someOp opid.toNat h.stall true] } }.onStall h.stall (fun x => { x with key := some [1#8] })
    let h : IcpHead := icpToMe s h
    let data : Bytes := List.replicate (4 * (rnd % 30)) (BitVec.ofNat 8 rnd)
    let offset : BitVec 32 := BitVec.ofNat 32 (rnd % 19000)
    let ecc : List (Nat × Ecc) := if rnd % 2 = 0 then [] else [(0, .corrected 3)]
    let h : IcpHead := { h with mac := BitVec.ofNat 128 (ofBe (icpMac [1#8] h.ver.toNat 8 h.stall h.flags.toNat h.session.toNat h.seq.toNat (beBytes 4 opid.toNat ++ beBytes 4 offset.toNat ++ data))) }
    let x : Session := someSession h.session.toNat h.stall
    let op : LongOp := someOp opid.toNat h.stall true
    decide (s.on = true ∧
      icpComes s h (40 + data.length) = true ∧
      s.authed h 8 (beBytes 4 opid.toNat ++ beBytes 4 offset.toNat ++ data) = some x ∧
      x.provisioning = false ∧
      s.longOp? opid.toNat = some op ∧
      op.write = true ∧
      op.stall = x.stall ∧
      offset.toNat + data.length ≤ op.len ∧
      ecc.all (fun e => e.2 != .bad) = true) = true) ∧
    (let s : State := State.reset
    let rnd : Nat := 6
    let h : IcpHead := { port := 1, peer := { addr := [0x01#8, 0x02#8, 0x03#8, 0x04#8], udp := 4 }, dip := 0, dport := 0x5848#16, ver := 0x23#8, stall := 5, flags := 0x01#8, session := 0x00000000#32, seq := 0x00000000#32, mac := 0x00000000000000000000000000000000#128 }
    let opid : BitVec 32 := 0x00000000#32
    let s : State := { (icpReady s.up h) with ctl := { s.ctl with sessions := [someSession h.session.toNat h.stall], longOps := [someOp opid.toNat h.stall true] } }.onStall h.stall (fun x => { x with key := some [1#8] })
    let h : IcpHead := icpToMe s h
    let data : Bytes := List.replicate (4 * (rnd % 60)) (BitVec.ofNat 8 rnd)
    let offset : BitVec 32 := BitVec.ofNat 32 (rnd % 19000)
    let h : IcpHead := { h with mac := BitVec.ofNat 128 (ofBe (icpMac [1#8] h.ver.toNat 8 h.stall h.flags.toNat h.session.toNat h.seq.toNat (beBytes 4 opid.toNat ++ beBytes 4 offset.toNat ++ data))) }
    let x : Session := someSession h.session.toNat h.stall
    let op : LongOp := someOp opid.toNat h.stall true
    let a : Nat := op.lake + offset.toNat
    let t : Fin 8 := h.stall
    decide (s.on = true ∧
      icpComes s h (40 + data.length) = true ∧
      s.authed h 8 (beBytes 4 opid.toNat ++ beBytes 4 offset.toNat ++ data) = some x ∧
      x.provisioning = false ∧
      s.longOp? opid.toNat = some op ∧
      op.write = true ∧
      op.stall = x.stall ∧
      op.stall = t.val ∧
      offset.toNat + data.length ≤ op.len ∧
      op.lake + offset.toNat = a ∧
      a % 64 ≠ 0 ∧
      data.length ≠ 0) = true) ∧
    (let s : State := State.reset
    let rnd : Nat := 6
    let h : IcpHead := { port := 0, peer := { addr := [0x01#8, 0x02#8, 0x03#8, 0x04#8], udp := 2 }, dip := 0, dport := 0x5848#16, ver := 0x23#8, stall := 0, flags := 0x00#8, session := 0x00000003#32, seq := 0x00000000#32, mac := 0x00000000000000000000000000000000#128 }
    let opid : BitVec 32 := 0x0000ed35#32
    let s : State := { (icpReady s.up h) with ctl := { s.ctl with sessions := [someSession h.session.toNat h.stall], longOps := [if rnd % 3 = 0 then someOp opid.toNat h.stall false else if rnd % 3 = 1 then someOp opid.toNat (h.stall.val + 1) true else someOp opid.toNat h.stall true] } }.onStall h.stall (fun x => { x with key := some [1#8] })
    let h : IcpHead := icpToMe s h
    let data : Bytes := List.replicate (4 * (rnd % 30)) (BitVec.ofNat 8 rnd)
    let offset : BitVec 32 := BitVec.ofNat 32 (19900 + rnd % 1000)
    let h : IcpHead := { h with mac := BitVec.ofNat 128 (ofBe (icpMac [1#8] h.ver.toNat 8 h.stall h.flags.toNat h.session.toNat h.seq.toNat (beBytes 4 opid.toNat ++ beBytes 4 offset.toNat ++ data))) }
    let x : Session := someSession h.session.toNat h.stall
    decide (s.on = true ∧
      icpComes s h (40 + data.length) = true ∧
      s.authed h 8 (beBytes 4 opid.toNat ++ beBytes 4 offset.toNat ++ data) = some x ∧
      (s.longOp? opid.toNat).all (fun op => !op.write || op.stall != x.stall || decide (op.len < offset.toNat + data.length)) = true) = true) ∧
    (let s : State := State.reset
    let rnd : Nat := 5
    let opid : BitVec 32 := 0x88d920a9#32
    let s : State := { s.up with ctl := { s.ctl with longOps := [if rnd % 2 = 0 then { someOp opid.toNat 3 true with missing := [] } else { someOp opid.toNat 3 false with sent := 20000 }] } }
    let x : LongOp := (s.longOp? opid.toNat).getD (someOp 0 0 false)
    let t : Fin 8 := 3
    decide (s.on = true ∧
      s.longOp? opid.toNat = some x ∧
      x.stall = t.val ∧
      (if x.write then x.missing = [] else x.len ≤ x.sent)) = true) ∧
    (let s : State := State.reset
    let opid : BitVec 32 := 0x0000001b#32
    let s : State := { s.up with now := s.now + 10 ^ 14, ctl := { s.ctl with longOps := [someOp opid.toNat 3 true] } }
    let x : LongOp := (s.longOp? opid.toNat).getD (someOp 0 0 false)
    let t : Fin 8 := 3
    decide (s.on = true ∧
      s.longOp? opid.toNat = some x ∧
      x.stall = t.val ∧
      x.write = true ∧
      x.missing ≠ [] ∧
      x.lastBulk + ms (atLeast1 (s.f A.ctlLongTmo 15 0)) ≤ s.now) = true) :=
  ⟨by decide +kernel, by decide +kernel, by decide +kernel, by decide +kernel, by decide +kernel, by decide +kernel, by decide +kernel⟩

/-- Clauses of `Obligations.StallKeysAndResets` have states and operands that meet their hypotheses. -/
theorem witness_StallKeysAndResets :
    (let s : State := State.reset
    let rnd : Nat := 3
    let t : Fin 8 := 1
    let s : State := s.up.onStall t (fun x => { x with keyStage := if rnd % 3 = 0 then [] else List.replicate 8 3#32 })
    decide (s.on = true) = true) ∧
    (let s : State := State.reset
    let t : Fin 8 := 4
    let s : State := s.up.onStall t (fun x => { x with installing := some (List.replicate 32 7#8) })
    let k : Bytes := List.replicate 32 7#8
    decide (s.on = true ∧
      (s.stalls[t]).installing = some k) = true) ∧
    (let s : State := State.reset
    let t : Fin 8 := 1
    let s : State := s.up
    decide ((s.stalls[t]).installing = none) = true) ∧
    (let s : State := State.reset
    let t : Fin 8 := 3
    let s : State := s.up
    decide ((s.stalls[t]).resetSince = none) = true) ∧
    (let s : State := State.reset
    let t : Fin 8 := 6
    let s : State := s.up.onStall t (fun x => { x with key := some [1#8], installing := none })
    decide (s.on = true) = true) ∧
    (let s : State := State.reset
    let t : Fin 8 := 7
    let s : State := { s.up with ctl := { s.ctl with sessions := someSession 5 t :: s.ctl.sessions } }
    decide (s.on = true) = true) ∧
    (let s : State := State.reset
    let t : Fin 8 := 2
    let s : State := s.up.onStall t (fun x => { x with resetSince := some 3 })
    decide (s.on = true ∧
      (s.stalls[t]).resetSince ≠ none) = true) ∧
    (let s : State := State.reset
    let t : Fin 8 := 7
    let s : State := s.up.onStall t (fun x => { x with cpl := { w0 := 0x80000001#32, w1 := 5#32, w2 := 6#32, w3 := 7#32 } :: x.cpl, taken := 1 })
    let i : CplItem := (((s.stalls[t]).cpl.head?).getD { w0 := 0#32, w1 := 0#32, w2 := 0#32, w3 := 0#32 })
    let rest : List CplItem := (s.stalls[t]).cpl.drop 1
    decide (s.on = true ∧
      (s.stalls[t]).cpl = i :: rest) = true) :=
  ⟨by decide +kernel, by decide +kernel, by decide +kernel, by decide +kernel, by decide +kernel, by decide +kernel, by decide +kernel, by decide +kernel⟩

/-- Clauses of `Obligations.StallKeysAndResets` have states and operands that meet their hypotheses. -/
theorem witness_StallKeysAndResets_2 :
    (let s : State := State.reset
    let t : Fin 8 := 2
    let s : State := s.up.onStall t (fun x => { x with cpl := [] })
    decide (s.on = true ∧
      (s.stalls[t]).cpl = []) = true) :=
  by decide +kernel

/-- Clauses of `Obligations.CheckUnitsFollowTheirPolynomial` have states and operands that meet their hypotheses. -/
theorem witness_CheckUnitsFollowTheirPolynomial :
    (let s : State := State.reset
    let k : Fin 16 := 0
    let s : State := (s.up.setB (A.crcCtl k) 12 false).crcOn k (fun x => { x with feed := none })
    decide (s.on = true ∧
      (s.crc[k]).feed = none ∧
      s.b (A.crcCtl k) 12 = false) = true) ∧
    (let s : State := State.reset
    let k : Fin 16 := 3
    let s : State := (s.up.setB (A.crcCtl k) 12 true).crcOn k (fun x => { x with feed := none })
    decide (s.on = true ∧
      (s.crc[k]).feed = none ∧
      s.b (A.crcCtl k) 12 = true) = true) ∧
    (let s : State := State.reset
    let k : Fin 16 := 8
    let o : Fin 4 := 0
    let size : Fin 3 := 0
    let s : State := s.up.crcOn k (fun x => { x with feed := none })
    decide (s.on = true ∧
      (s.crc[k]).feed = none ∧
      o.val % 2 ^ size.val = 0) = true) ∧
    (let s : State := State.reset
    let k : Fin 16 := 3
    let o : Fin 4 := 1
    let size : Fin 3 := 1
    let s : State := s.up.crcOn k (fun x => { x with feed := none })
    decide ((s.crc[k]).feed = none ∧
      o.val % 2 ^ size.val ≠ 0) = true) ∧
    (let s : State := State.reset
    let k : Fin 16 := 0
    let s : State := s.up.crcOn k (fun x => { x with feed := none })
    decide ((s.crc[k]).feed = none) = true) ∧
    (let s : State := State.reset
    let k : Fin 16 := 0
    let s : State := s.up.crcOn k (fun x => { x with feed := none })
    decide (s.on = true ∧
      (s.crc[k]).feed = none) = true) ∧
    (let s : State := State.reset
    let rnd : Nat := 4
    let k : Fin 16 := 5
    let s : State := (s.up.wr (A.crcLakeLen k) (wd (rnd % 3 * 64))).crcOn k (fun x => { x with feed := none })
    let t : Fin 8 := ((fin? 8 ((s.crcOwner k).getD 0)).getD 0)
    decide (s.on = true ∧
      (s.crc[k]).feed = none ∧
      (s.crcOwner k).getD 0 = t.val) = true) ∧
    (let s : State := State.reset
    let rnd : Nat := 3
    let k : Fin 16 := 3
    let s : State := s.up.crcOn k (fun x => { x with feed := some { stall := 0, addr := 64 * (rnd % 1000), len := 1 + rnd % 200 } })
    let x : CrcFeed := (((s.crc[k]).feed).getD { stall := 0, addr := 0, len := 0 })
    let ecc : List (Nat × Ecc) := if rnd % 2 = 0 then [] else [(rnd % 4, .corrected 3)]
    decide (s.on = true ∧
      (s.crc[k]).feed = some x ∧
      badWithin x.addr x.len ecc = false) = true) :=
  ⟨by decide +kernel, by decide +kernel, by decide +kernel, by decide +kernel, by decide +kernel, by decide +kernel, by decide +kernel, by decide +kernel⟩

/-- Clauses of `Obligations.CheckUnitsFollowTheirPolynomial` have states and operands that meet their hypotheses. -/
theorem witness_CheckUnitsFollowTheirPolynomial_2 :
    (let s : State := State.reset
    let rnd : Nat := 6
    let k : Fin 16 := 0
    let s : State := s.up.crcOn k (fun x => { x with feed := some { stall := 0, addr := 16 * (rnd % 1000), len := 65 + rnd % 200 } })
    let x : CrcFeed := (((s.crc[k]).feed).getD { stall := 0, addr := 0, len := 0 })
    let i : Nat := rnd % 3
    decide (s.on = true ∧
      (s.crc[k]).feed = some x ∧
      64 * (x.addr / 64 + i) < x.addr + x.len) = true) ∧
    (let s : State := State.reset
    let rnd : Nat := 7
    let k : Fin 16 := 7
    let s : State := s.up.crcOn k (fun x => { x with feed := some { stall := 0, addr := 64 * (rnd % 1000), len := 65 + rnd % 200 } })
    let x : CrcFeed := (((s.crc[k]).feed).getD { stall := 0, addr := 0, len := 0 })
    decide (s.on = true ∧
      (s.crc[k]).feed = some x) = true) ∧
    (let s : State := State.reset
    let k : Fin 16 := 7
    let s : State := s.up.crcOn k (fun x => { x with feed := some { stall := 0, addr := 64, len := 65 } })
    decide (s.on = true ∧ (s.crc[k]).feed ≠ none) = true) :=
  ⟨by decide +kernel, by decide +kernel, by decide +kernel⟩

/-- Clauses of `Obligations.EventSourcesAreRaisedAndDelivered` have states and operands that meet their hypotheses. -/
theorem witness_EventSourcesAreRaisedAndDelivered :
    (let s : State := State.reset
    let rnd : Nat := 6
    let n : Fin 768 := 57
    let n : Fin 768 := Fin.ofNat 768 ([0, 105, 244, 244, 0, 244, 0][rnd % 7]!)
    let s : State := if rnd % 2 = 0 then ((s.wr (A.sprEvt 0) 1#32).wr (A.sprEvtEn 0) 1#32).setB A.trnReqEvt 0 true else s
    let s : State := s.up.onSrc n (fun x => { x with phase := .idle })
    decide (s.on = true ∧
      isPin n = false ∧
      s.blockAsserted n = true ∧
      (s.sources[n]).phase = .idle) = true) ∧
    (let s : State := State.reset
    let rnd : Nat := 9
    let n : Fin 768 := 0
    let level : Bool := false
    let n : Fin 768 := Fin.ofNat 768 (256 + rnd % 20)
    let s : State := s.up.onSrc n (fun x => { x with phase := if rnd % 3 = 0 then .idle else if rnd % 3 = 1 then .assigned else .pending, level := rnd % 3 = 0, goneAt := if rnd % 5 = 0 then some (s.now - 8, true) else none })
    let held : Nat := 1 + rnd % 300
    decide (s.on = true ∧
      isPin n = true ∧
      atLeast1 (s.f (A.evcsStat n) 7 0) ≤ held ∧
      s.levelSensed n = false ∧
      (s.sources[n]).phase ≠ .active ∧
      ((s.sources[n]).goneAt).all (fun e => decide (e.1 ≠ s.now)) = true) = true) ∧
    (let s : State := State.reset
    let rnd : Nat := 7
    let n : Fin 768 := 44
    let t : Fin 20 := 1
    let n : Fin 768 := Fin.ofNat 768 ([512, 600, 513, 700][rnd % 4]!)
    let t : Fin 20 := Fin.ofNat 20 (rnd / 7)
    let s : State := s.up.onSrc n (fun x => { x with phase := .idle, target := t, goneAt := some (s.now, rnd % 2 = 0) })
    let completed : Bool := ((s.sources[n]).goneAt.getD (0, false)).2
    decide (s.on = true ∧
      isSoft n = true ∧
      (s.sources[n]).phase = .idle ∧
      (s.sources[n]).goneAt = some (s.now, completed) ∧
      (s.sources[n]).target = t.val) = true) ∧
    (let s : State := State.reset
    let rnd : Nat := 3
    let t : Fin 20 := 4
    let n : Fin 768 := 6
    let n : Fin 768 := Fin.ofNat 768 ([512, 600, 513, 700][rnd % 4]!)
    let i : Fin 1024 := Fin.ofNat 1024 n.val
    let s : State := s.up.onSrc n (fun x => { x with phase := .assigned, target := t, edgeAt := some s.now })
    let s : State := s.onTgt t (fun x => { x with stack := if rnd % 2 = 0 then [] else [(700, 0)] })
    decide (s.on = true ∧
      n.val = i.val ∧
      s.levelSensed n = false ∧
      (s.sources[n]).phase = .assigned ∧
      (s.sources[n]).target = t.val ∧
      (s.sources[n]).edgeAt = some s.now) = true) ∧
    (let s : State := State.reset
    let rnd : Nat := 6
    let t : Fin 20 := 18
    let n : Fin 768 := 4
    let n : Fin 768 := Fin.ofNat 768 ([512, 600, 513, 700][rnd % 4]!)
    let i : Fin 1024 := Fin.ofNat 1024 n.val
    let s : State := s.up.onSrc n (fun x => { x with phase := .assigned, target := t, edgeAt := some s.now })
    let s : State := s.onTgt t (fun x => { x with stack := if rnd % 2 = 0 then [] else [(700, 0)] })
    decide (s.on = true ∧
      n.val = i.val ∧
      s.levelSensed n = false ∧
      (s.sources[n]).phase = .assigned ∧
      (s.sources[n]).target = t.val ∧
      (s.sources[n]).edgeAt = some s.now ∧
      above (s.prio n) (s.targets[t]).stack = true ∧
      (s.targets[t]).stack.length < 16) = true) ∧
    (let s : State := State.reset
    let rnd : Nat := 7
    let n : Fin 768 := 7
    let level : Bool := true
    let n : Fin 768 := Fin.ofNat 768 (256 + rnd % 20)
    let s : State := { s.up with str := { s.str with bare := false, events := List.replicate 300 { level := true } } }
    let s : State := s.onSrc n (fun x => { x with phase := if rnd % 3 = 0 then .idle else if rnd % 3 = 1 then .pending else .assigned })
    let held : Nat := 1 + rnd % 300
    decide (s.on = true ∧
      isPin n = true ∧
      atLeast1 (s.f (A.evcsStat n) 7 0) ≤ held ∧
      s.levelSensed n = true) = true) ∧
    (let s : State := State.reset
    let rnd : Nat := 22
    let n : Fin 768 := 86
    let s : State := s.up
    let n : Fin 768 := if rnd % 3 = 0 then n else if rnd % 2 = 0 then Fin.ofNat 768 (256 + rnd % 20) else Fin.ofNat 768 (rnd % 249)
    let held : Nat := rnd % 20
    decide (isPin n = true ∧
      held < atLeast1 (s.f (A.evcsStat n) 7 0)) = true) ∧
    (let s : State := State.reset
    let rnd : Nat := 3
    let n : Fin 768 := 32
    let s : State := s.up
    let n : Fin 768 := if rnd % 3 = 0 then n else if rnd % 2 = 0 then Fin.ofNat 768 (256 + rnd % 20) else Fin.ofNat 768 (rnd % 249)
    let held : Nat := rnd % 20
    decide (isPin n = false ∧
      ((s.blockAsserted n = false ∨ n.val < 249 ∧ (s.sources[n]).phase ≠ .idle))) = true) :=
  ⟨by decide +kernel, by decide +kernel, by decide +kernel, by decide +kernel, by decide +kernel, by decide +kernel, by decide +kernel, by decide +kernel⟩

/-- Clauses of `Obligations.EventSourcesAreRaisedAndDelivered` have states and operands that meet their hypotheses. -/
theorem witness_EventSourcesAreRaisedAndDelivered_2 :
    (let s : State := State.reset
    let rnd : Nat := 4
    let n : Fin 768 := 5
    let n : Fin 768 := Fin.ofNat 768 ([256, 275, 512, 600][rnd % 4]!)
    let s : State := (s.up.onSrc n (fun x => { x with phase := .active, refire := false, target := rnd % 20, level := false })).setB (A.evcsCfg n) 26 true
    let t : Fin 20 := ((fin? 20 (s.sources[n]).target).getD 0)
    let c : Instr := if isPin n then .eventSourceRaise n true 300 else .evcSwSet 0 (Fin.ofNat 1024 n.val)
    decide (s.on = true ∧
      s.levelSensed n = false ∧
      (s.sources[n]).phase = .active ∧
      (s.sources[n]).refire = false ∧
      (s.sources[n]).target = t.val ∧
      (((c = .eventSourceRaise n true 300 ∧ isPin n = true ∧ (s.sources[n]).level = false ∧ (s.b (A.evcsCfg n) 26 || s.pinActive n true) = true) ∨ (c = .evcSwSet 0 (Fin.ofNat 1024 n.val) ∧ isSoft n = true)))) = true) ∧
    (let s : State := State.reset
    let rnd : Nat := 3
    let n : Fin 768 := 81
    let n : Fin 768 := Fin.ofNat 768 ([0, 105, 248, 12][rnd % 4]!)
    let s : State := s.up.onSrc n (fun x => { x with phase := .pending })
    decide (s.on = true ∧
      isPin n = false) = true) ∧
    (let s : State := State.reset
    let rnd : Nat := 6
    let n : Fin 768 := 5
    let n : Fin 768 := Fin.ofNat 768 (256 + rnd % 20)
    let s : State := if rnd % 2 = 0 then { s.up with str := { s.str with bare := false, events := List.replicate 300 { level := true } } } else s.up
    let s : State := s.onSrc n (fun x => { x with phase := if rnd % 3 = 0 then .idle else if rnd % 3 = 1 then .pending else .assigned })
    let held : Nat := rnd % 20
    decide (s.on = true ∧
      isPin n = true ∧
      ((s.levelSensed n = true ∨ s.b (A.evcsCfg n) 26 = false))) = true) ∧
    (let s : State := State.reset
    let rnd : Nat := 8
    let n : Fin 768 := 5
    let t : Fin 20 := 5
    let n : Fin 768 := Fin.ofNat 768 ([512, 600, 256, 13][rnd % 4]!)
    let s : State := (s.up.wr A.evcHold 0#32)
    let s : State := s.onSrc n (fun x => { x with phase := .pending, target := rnd % 20 })
    let s : State := { s with chains := s.chains.map (fun l => if rnd % 3 = 0 then List.replicate 16 5#128 else l) }
    let ready : BitVec 20 := BitVec.ofNat 20 (0xFFFFF - rnd % 16)
    let t : Fin 20 := ((fin? 20 (((searchOrder (s.sources[n]).target (s.enabledSet n)).find? (fun t => s.awake t && s.deliveryRoom ready t)).getD 99)).getD 19)
    decide (s.on = true ∧
      s.held = false ∧
      s.pendingOrder = [n.val] ∧
      ((s.levelSensed n = false ∨ s.asserted n = true)) ∧
      (searchOrder (s.sources[n]).target (s.enabledSet n)).find? (fun t => s.awake t && s.deliveryRoom ready t) = some t.val) = true) ∧
    (let s : State := State.reset
    let n : Fin 768 := 512
    let m : Fin 768 := 513
    let s : State := (s.wr A.evcHold 0#32).onTgt 16 (fun x => { x with asleep := false })
    let s : State := { s with str := { s.str with bare := false, events := List.replicate 768 { targets := 0x10000, level := false } } }
    let s : State := (s.setF (A.evcsCfg m) 23 20 1).setF (A.evcsCfg n) 23 20 2
    let s : State := (s.setB (A.evcsCfg m) 16 false).setB (A.evcsCfg n) 16 false
    let s : State := { s with sources := (s.sources.set 512 { phase := .pending }).set 513 { phase := .pending } }
    let ready : BitVec 20 := 0x10000#20
    decide (s.on = true ∧
      s.held = false ∧
      s.awake 16 = true ∧
      s.deliveryRoom ready 16 = true ∧
      s.levelSensed n = false ∧
      s.levelSensed m = false ∧
      s.enabledSet n = [16] ∧
      s.enabledSet m = [16] ∧
      n ≠ m ∧
      (s.sources[n]).phase = .pending ∧
      (s.sources[m]).phase = .pending ∧
      s.prio n < 16 ∧
      s.prio m < 16 ∧
      ((s.prio m < s.prio n ∨ s.prio m = s.prio n ∧ n.val < m.val))) = true ∧
      ∀ x : Fin 768, (s.sources[x]).phase = .pending → x = n ∨ x = m) ∧
    (let s : State := State.reset
    let rnd : Nat := 6
    let n := Fin.ofNat 768 ([512, 600, 256, 13][rnd % 4]!)
    let s : State := { s.up with sources := (s.sources.map (fun x => if x.phase = .pending then { x with phase := .idle } else x)) }
    let s : State := if rnd % 2 = 0 then (s.onSrc n (fun x => { x with phase := .pending, target := rnd % 20 })) else s.onSrc n (fun x => { x with phase := .pending, target := rnd % 20 }) |>.wr A.evcHold 1#32
    let ready : BitVec 20 := if s.held then BitVec.ofNat 20 rnd else 0#20
    let s : State := if s.held then s else { s with chains := s.chains.map (fun _ => List.replicate 16 5#128) }
    decide (s.on = true ∧
      ((s.held = true ∨ (List.range 20).all (fun t => !s.deliveryRoom ready t) = true))) = true) ∧
    (let s : State := State.reset
    let s : State := s.up
    decide (s.on = true) = true) ∧
    (let s : State := State.reset
    let rnd : Nat := 7
    let i : Fin 20 := 4
    let n : Fin 768 := Fin.ofNat 768 (256 + i.val)
    let s : State := { s with power := { s.power with st := if rnd % 2 = 0 then .doze else if rnd % 3 = 0 then .on else .still } }
    let s : State := if rnd % 3 = 0 then s else s.setB A.trnPowerCfg 1 false
    decide (n.val = 256 + i.val ∧
      ((s.power.st = .doze ∨ s.power.st = .still ∧ s.ioGone = false))) = true) :=
  ⟨by decide +kernel, by decide +kernel, by decide +kernel, by decide +kernel, ⟨by decide +kernel, fun x h => two_pending x h⟩, by decide +kernel, by decide +kernel, by decide +kernel⟩

/-- Clauses of `Obligations.EventSourcesAreRaisedAndDelivered` have states and operands that meet their hypotheses. -/
theorem witness_EventSourcesAreRaisedAndDelivered_3 :
    (let s : State := State.reset
    let rnd : Nat := 3
    let s : State := { s with power := { s.power with st := if rnd % 2 = 0 then .off else if rnd % 3 = 0 then .on else .still } }
    decide (((s.power.st = .on ∨ s.power.st = .off ∨ s.power.st = .still ∧ s.ioGone = true))) = true) :=
  by decide +kernel

/-- Clauses of `Obligations.EventTargetsTakeInService` have states and operands that meet their hypotheses. -/
theorem witness_EventTargetsTakeInService :
    (let s : State := State.reset
    let rnd : Nat := 5
    let t : Fin 20 := 3
    let s : State := (s.up.wr A.evcHold 0#32).onTgt t (fun x => { x with notified := rnd % 2 = 0, unseen := [512, 513], stack := [] })
    let s : State := (s.onSrc 512 (fun x => { x with phase := .assigned, target := t.val })).onSrc 513 (fun x => { x with phase := .assigned, target := t.val })
    let s : State := if t.val < 16 then { s with ctl := { s.ctl with sessions := [{ someSession 9 (t.val / 2) with chans := 3 }] } } else s
    decide (s.on = true ∧
      s.held = false ∧
      s.awake t = true ∧
      s.notifyDue t = true) = true) ∧
    (let s : State := State.reset
    let rnd : Nat := 1
    let t : Fin 20 := 1
    let s : State := (s.up.wr A.evcHold 0#32).onTgt t (fun x => { x with notified := true, lastNotify := s.now - 10 * 10^9, unseen := [], stack := [] })
    let s : State := (s.onSrc 512 (fun x => { x with phase := .assigned, target := t.val })).setF (A.evctRenotify t) 15 0 (1 + rnd % 3)
    let s : State := { s with now := s.now + 10 ^ 10, ctl := { s.ctl with sessions := [{ someSession 9 (t.val / 2) with chans := 3 }] } }
    decide (s.on = true ∧
      s.held = false ∧
      t.val < 16 ∧
      s.awake t = true ∧
      s.f (A.evctRenotify t) 15 0 ≠ 0 ∧
      s.notifiable t ≠ [] ∧
      (s.targets[t]).lastNotify + ms (s.f (A.evctRenotify t) 15 0) ≤ s.now) = true) ∧
    (let s : State := State.reset
    let rnd : Nat := 2
    let t : Fin 20 := 6
    let i : Fin 768 := 6
    let i : Fin 768 := Fin.ofNat 768 ([512, 700, 256, 13][rnd % 4]!)
    let n : Fin 1024 := Fin.ofNat 1024 i.val
    let s : State := (s.up.onSrc i (fun x => { x with phase := .assigned, target := t.val })).onTgt t (fun x => { x with stack := if rnd % 2 = 0 then [] else [(700, 0)], unseen := [i.val] })
    let s : State := s.setF (A.evcsCfg i) 23 20 (rnd % 15 + 1)
    decide (s.on = true ∧
      n.val = i.val ∧
      (s.sources[i]).phase = .assigned ∧
      (s.sources[i]).target = t.val ∧
      s.edgeNow i = false ∧
      above (s.prio i) (s.targets[t]).stack = true ∧
      (s.targets[t]).stack.length < 16) = true) ∧
    (let s : State := State.reset
    let rnd : Nat := 5
    let t : Fin 20 := 0
    let i : Fin 768 := 10
    let i : Fin 768 := Fin.ofNat 768 ([512, 700, 256, 13][rnd % 4]!)
    let n : Fin 1024 := Fin.ofNat 1024 (if rnd % 5 = 0 then 768 + rnd % 256 else i.val)
    let s : State := (s.up.onSrc i (fun x => { x with phase := if rnd % 3 = 0 then .active else .assigned, target := if rnd % 4 = 1 then 5 else t.val }))
    let s : State := s.onTgt t (fun x => { x with stack := if rnd % 2 = 0 then [] else if rnd % 8 = 1 then List.replicate 16 (i.val, 0) else [(701, 15)] })
    let cause : Nat := if 768 ≤ n.val then 1 else if (s.sources[i]).phase = .active then 2 else if !(s.sources[i]).setIn t then 1 else if !above (s.prio i) (s.targets[t]).stack then 3 else 4
    decide (s.on = true ∧
      (((cause = 1 ∧ (768 ≤ n.val ∨ (n.val = i.val ∧ (s.sources[i]).phase ≠ .active ∧ (s.sources[i]).setIn t = false))) ∨ (cause = 2 ∧ n.val = i.val ∧ (s.sources[i]).phase = .active) ∨ (cause = 3 ∧ n.val = i.val ∧ (s.sources[i]).phase ≠ .active ∧ (s.sources[i]).setIn t = true ∧ above (s.prio i) (s.targets[t]).stack = false) ∨ (cause = 4 ∧ n.val = i.val ∧ (s.sources[i]).phase ≠ .active ∧ (s.sources[i]).setIn t = true ∧ above (s.prio i) (s.targets[t]).stack = true ∧ 16 ≤ (s.targets[t]).stack.length)))) = true) ∧
    (let s : State := State.reset
    let rnd : Nat := 1
    let t : Fin 20 := 2
    let n : Fin 768 := 1
    let n : Fin 768 := Fin.ofNat 768 ([512, 700, 256, 13][rnd % 4]!)
    let s : State := s.up.onSrc n (fun x => { x with phase := if rnd % 3 = 0 then .active else .assigned, refire := true, target := t.val })
    decide (s.on = true ∧
      (s.sources[n]).setIn t = true ∧
      ((s.edgeNow n = false ∨ (s.sources[n]).phase = .active))) = true) ∧
    (let s : State := State.reset
    let t : Fin 20 := 1
    let s : State := (s.up.onTgt t (fun x => { x with asleep := false })).setB (A.evctCtl t) 0 false
    decide (s.on = true ∧
      bit (s.rd (A.evctCtl t)) 0 = (s.targets[t]).asleep) = true) ∧
    (let s : State := State.reset
    let t : Fin 20 := 0
    let s : State := s.up
    decide ((s.held = true ∨ s.awake t = false)) = true) ∧
    (let s : State := State.reset
    let t : Fin 20 := 5
    let s : State := s.up
    decide (s.notifyDue t = false) = true) :=
  ⟨by decide +kernel, by decide +kernel, by decide +kernel, by decide +kernel, by decide +kernel, by decide +kernel, by decide +kernel, by decide +kernel⟩

/-- Clauses of `Obligations.EventTargetsTakeInService` have states and operands that meet their hypotheses. -/
theorem witness_EventTargetsTakeInService_2 :
    (let s : State := State.reset
    let t : Fin 20 := 5
    let s : State := s.up
    decide (((16 ≤ t.val ∨ s.f (A.evctRenotify t) 15 0 = 0 ∨ s.notifiable t = [] ∨ s.now < (s.targets[t]).lastNotify + ms (s.f (A.evctRenotify t) 15 0)))) = true) ∧
    (let s : State := State.reset
    let t : Fin 20 := 0
    let n : Fin 768 := 5
    let s : State := s.up
    decide ((s.sources[n]).setIn t = false) = true) :=
  ⟨by decide +kernel, by decide +kernel⟩

/-- Clauses of `Obligations.TargetsSleepAndAreWoken` have states and operands that meet their hypotheses. -/
theorem witness_TargetsSleepAndAreWoken :
    (let s : State := State.reset
    let rnd : Nat := 3
    let t : Fin 20 := 4
    let s : State := s.up.onTgt t (fun x => { x with asleep := rnd % 4 = 0 })
    let s : State := { s with targets := s.targets.map (fun x => { x with notified := rnd % 5 ≠ 0, lastNotify := s.now, unseen := [512, 513, 514], stack := [], refired := false }) }
    let s : State := { s with ctl := { s.ctl with sessions := (List.range 8).map (fun i => { someSession (i + 3) i with chans := 3, devSeq := if rnd % 3 = 0 then 2 ^ 32 - 1 else i }) } }
    let s : State := (((s.onSrc 512 (fun x => { x with phase := .assigned, target := rnd % 20 })).onSrc 513 (fun x => { x with phase := .assigned, target := rnd / 20 % 20 })).onSrc 514 (fun x => { x with phase := .assigned, target := t.val }))
    let s : State := (List.range 20).foldl (fun (s : State) (c : Nat) => s.wr (A.evctMod c) 500#32) s
    decide (s.on = true) = true) ∧
    (let s : State := State.reset
    let rnd : Nat := 3
    let t : Fin 20 := 6
    let s : State := s.up.onTgt t (fun x => { x with asleep := true, waking := rnd % 2 = 0 })
    decide (s.on = true ∧
      (s.targets[t]).asleep = true) = true) ∧
    (let s : State := State.reset
    let t : Fin 20 := 9
    let s : State := s.up.onTgt t (fun x => { x with asleep := false })
    decide (s.on = true ∧
      (s.targets[t]).asleep = false) = true) ∧
    (let s : State := State.reset
    let rnd : Nat := 2
    let h : IcpHead := { port := 0, peer := { addr := [0x01#8, 0x02#8, 0x03#8, 0x04#8], udp := 1 }, dip := 0, dport := 0x5848#16, ver := 0x23#8, stall := 7, flags := 0x00#8, session := 0x00000001#32, seq := 0x00000004#32, mac := 0x00000000000000000000000000000000#128 }
    let chans : BitVec 8 := 0x85#8
    let s : State := { (icpReady s.up h) with ctl := { s.ctl with sessions := [{ someSession h.session.toNat h.stall with lastSeq := none, chans := rnd % 4, devSeq := rnd }] ++ (List.range 8).map (fun i => { someSession (i + 2 ^ 33) i with chans := if i = h.stall.val then 3 - rnd % 4 else 3 }) } }.onStall h.stall (fun x => { x with key := some [1#8] })
    let s : State := { s with targets := s.targets.map (fun x => { x with notified := rnd % 5 ≠ 0, lastNotify := s.now, unseen := [512, 513, 514], stack := [], refired := false, asleep := rnd % 3 = 0 }) }
    let s : State := (((s.onSrc 512 (fun x => { x with phase := .assigned, target := 2 * h.stall })).onSrc 513 (fun x => { x with phase := .assigned, target := rnd / 20 % 20 })).onSrc 514 (fun x => { x with phase := .assigned, target := 2 * h.stall + 1 }))
    let s : State := (List.range 20).foldl (fun (s : State) (c : Nat) => s.wr (A.evctMod c) 500#32) s
    let h : IcpHead := icpToMe s h
    let h : IcpHead := { h with flags := 0, mac := BitVec.ofNat 128 (ofBe (icpMac [1#8] h.ver.toNat 6 h.stall 0 h.session.toNat h.seq.toNat (chans :: List.replicate 3 0#8))) }
    let x : Session := (s.session? h.session.toNat).getD (someSession 0 0)
    let named : List Nat := (bitsOf 2 (chans.toNat &&& x.chans)).map (fun i => 2 * x.stall + i)
    decide (s.on = true ∧
      icpComes s h 36 = true ∧
      s.authed h 6 (chans :: List.replicate 3 0#8) = some x ∧
      s.session? x.number = some x ∧
      x.isFresh h.seq.toNat = true ∧
      (bitsOf 2 (chans.toNat &&& x.chans)).map (fun i => 2 * x.stall + i) = named ∧
      x.stall < 8) = true) ∧
    (let s : State := State.reset
    let rnd : Nat := 3
    let h : IcpHead := { port := 1, peer := { addr := [0x01#8, 0x02#8, 0x03#8, 0x04#8], udp := 1 }, dip := 0, dport := 0x5848#16, ver := 0x23#8, stall := 7, flags := 0x01#8, session := 0x00000000#32, seq := 0x00000004#32, mac := 0x00000000000000000000000000000000#128 }
    let chans : BitVec 8 := 0xb8#8
    let s : State := { (icpReady s.up h) with ctl := { s.ctl with sessions := [{ someSession h.session.toNat h.stall with lastSeq := some h.seq.toNat, cache := if rnd % 2 = 0 then [] else [(h.seq.toNat, [1#8, 2#8])] }] } }.onStall h.stall (fun x => { x with key := some [1#8] })
    let h : IcpHead := icpToMe s h
    let h : IcpHead := { h with flags := 0, mac := BitVec.ofNat 128 (ofBe (icpMac [1#8] h.ver.toNat 6 h.stall 0 h.session.toNat h.seq.toNat (chans :: List.replicate 3 0#8))) }
    let x : Session := (s.session? h.session.toNat).getD (someSession 0 0)
    decide (s.on = true ∧
      icpComes s h 36 = true ∧
      s.authed h 6 (chans :: List.replicate 3 0#8) = some x ∧
      s.session? x.number = some x ∧
      x.isFresh h.seq.toNat = false) = true) ∧
    (let s : State := State.reset
    let rnd : Nat := 9
    let h : IcpHead := { port := 0, peer := { addr := [0x01#8, 0x02#8, 0x03#8, 0x04#8], udp := 4 }, dip := 0, dport := 0x5848#16, ver := 0x23#8, stall := 3, flags := 0x03#8, session := 0x00000002#32, seq := 0x00000004#32, mac := 0x00000000000000000000000000000000#128 }
    let chans : BitVec 8 := 0x83#8
    let s : State := if rnd % 4 = 0 then s.up else icpReady s.up h
    let h : IcpHead := if rnd % 4 = 1 then h else icpToMe s h
    decide (s.on = true ∧
      icpComes s h 36 = true ∧
      s.authed h 6 (chans :: List.replicate 3 0#8) = none) = true) ∧
    (let s : State := State.reset
    let rnd : Nat := 8
    let h : IcpHead := { port := 1, peer := { addr := [0x01#8, 0x02#8, 0x03#8, 0x04#8], udp := 1 }, dip := 0, dport := 0x5848#16, ver := 0x23#8, stall := 6, flags := 0x03#8, session := 0x00000000#32, seq := 0x00000002#32, mac := 0x00000000000000000000000000000000#128 }
    let s : State := if rnd % 4 = 0 then s.up else icpReady s.up h
    let h : IcpHead := if rnd % 4 = 1 then h else icpToMe s h
    decide (s.b (A.ethCtl (2 + h.port)) 0 = false) = true) ∧
    (let s : State := State.reset
    let h : IcpHead := { port := 1, peer := { addr := [1#8, 2#8, 3#8, 4#8], udp := 2 }, dip := 5, dport := 1#16, ver := 0x23#8, stall := 4, flags := 2#8, session := 0#32, seq := 2#32, mac := 0#128 }
    let s : State := icpReady s.up h
    decide (s.on = true ∧
      s.b (A.ethCtl (2 + h.port)) 0 = true ∧
      s.icpTakes h = false) = true) :=
  ⟨by decide +kernel, by decide +kernel, by decide +kernel, by decide +kernel, by decide +kernel, by decide +kernel, by decide +kernel, by decide +kernel⟩

/-- Clauses of `Obligations.TargetsSleepAndAreWoken` have states and operands that meet their hypotheses. -/
theorem witness_TargetsSleepAndAreWoken_2 :
    (let s : State := State.reset
    let rnd : Nat := 0
    let t : Fin 20 := 0
    let s : State := (wakeSetup s.up t (1 + rnd % 2)).onTgt t (fun x => { x with waking := false })
    decide (s.on = true ∧
      s.held = false ∧
      s.wakeWanted t = true ∧
      (s.targets[t]).waking = false) = true) ∧
    (let s : State := State.reset
    let rnd : Nat := 9
    let t : Fin 20 := 3
    let s : State := s.up
    let s : State := if rnd % 2 = 0 then s else wakeSetup s t (rnd % 4)
    decide ((s.held = true ∨ s.wakeWanted t = false ∨ (s.targets[t]).waking = true)) = true) ∧
    (let s : State := State.reset
    let rnd : Nat := 4
    let t : Fin 20 := 5
    let s : State := s.up
    let s : State := if rnd % 2 = 0 then s else wakeSetup s t (rnd % 4)
    decide ((s.held = true ∨ s.wakeWanted t = false ∨ (s.targets[t]).waking = false ∨ (s.targets[t]).wolSent = 0 ∨ 3 ≤ (s.targets[t]).wolSent ∨ s.now < (s.targets[t]).wolLast + ms (atLeast1 (s.f (A.evctWake t) 31 16)))) = true) ∧
    (let s : State := State.reset
    let rnd : Nat := 7
    let t : Fin 20 := 0
    let s : State := (wakeSetup s.up t 1).onTgt t (fun x => { x with waking := true, wolSent := 1 + rnd % 3, wolLast := 0 })
    let s : State := { s with now := s.now + 10 ^ 11 }
    decide (s.on = true ∧
      s.held = false ∧
      s.wakeWanted t = true ∧
      (s.targets[t]).waking = true ∧
      1 ≤ (s.targets[t]).wolSent ∧
      (s.targets[t]).wolLast + ms (atLeast1 (s.f (A.evctWake t) 31 16)) ≤ s.now) = true) :=
  ⟨by decide +kernel, by decide +kernel, by decide +kernel, by decide +kernel⟩

/-- Clauses of `Obligations.LowerStatesAreEnteredAndLeft` have states and operands that meet their hypotheses. -/
theorem witness_LowerStatesAreEnteredAndLeft :
    (let s : State := State.reset
    let rnd : Nat := 4
    let s : State := { s.up with keep := { s.keep with busy := rnd % 5 = 0 } }
    let s : State := if rnd % 2 = 0 then { s with sic := {}, lakeCtl := { s.lakeCtl with training := 0 }, grp := s.grp.map (fun x => { x with active := false }), out := s.out, ctl := { s.ctl with longOps := [] }, load := s.load.map (fun x => { x with active := false }), crc := s.crc.map (fun x => { x with feed := none }), power := { s.power with entering := .none } } else s
    let k : Fin 2 := Fin.ofNat 2 (rnd / 7)
    decide (s.on = true) = true) ∧
    (let s : State := State.reset
    let rnd : Nat := 2
    let s : State := s.up
    let s : State := { s with power := { s.power with entering := if rnd % 2 = 0 then .none else .doze } }
    decide (s.power.entering = .none) = true) ∧
    (let s : State := State.reset
    let s : State := { s.up with keep := { s.keep with busy := true } }
    decide (s.running = false ∧
      s.anyWake = false ∧
      s.keep.busy = true) = true) ∧
    (let s : State := State.reset
    let rnd : Nat := 6
    let s : State := { s.up with keep := { s.keep with busy := false }, grp := s.grp.map (fun x => { x with active := false }), power := { s.up.power with entering := if rnd % 2 = 0 then .doze else .still } }
    decide (s.on = true ∧
      s.power.entering ≠ .none ∧
      s.running = false ∧
      s.anyWake = false ∧
      s.keep.busy = false) = true) ∧
    (let s : State := State.reset
    let rnd : Nat := 7
    let s : State := { s.up with power := { s.up.power with entering := if rnd % 2 = 0 then .doze else .still } }
    let s : State := (s.setB A.trnReqEvt 0 true)
    decide (s.on = true ∧
      s.power.entering ≠ .none ∧
      ((s.running = true ∨ s.anyWake = true))) = true) ∧
    (let s : State := State.reset
    let rnd : Nat := 5
    let s : State := { s.up with power := { s.up.power with st := .doze, crystalAt := if rnd % 2 = 0 then none else some (s.tarn - rnd % 2000000000), pointTarn := s.tarn - rnd % 1000000000, entering := if rnd % 3 = 0 then .still else .none } }
    let s : State := { (s.setB A.trnReqEvt 0 true) with sources := s.sources.map (fun x => { x with latched := rnd % 2 = 0, phase := if rnd % 3 = 0 then .idle else x.phase, goneAt := none }) }
    let src : Fin 768 := 244
    decide (s.power.st = .doze ∧
      s.wakeStands src = true) = true) ∧
    (let s : State := State.reset
    let rnd : Nat := 6
    let s : State := { s.up with power := { s.up.power with st := .doze, crystalAt := some (s.tarn - 2000000000), pointTarn := s.tarn - rnd % 1000000000 } }
    let s : State := (s.setB A.trnReqEvt 0 true)
    let src : Fin 768 := 244
    decide (s.power.st = .doze ∧
      s.wakeStands src = true ∧
      s.power.crystalAt.any (fun c => decide (c ≤ s.power.pointTarn)) = true) = true) ∧
    (let s : State := State.reset
    let rnd : Nat := 5
    let src : Fin 768 := 1
    let s : State := { s.up with power := { s.up.power with st := if rnd % 3 = 0 then .on else if rnd % 3 = 1 then .doze else .still } }
    let s : State := if rnd % 2 = 0 then s else s.setB A.trnReqEvt 0 true
    decide ((s.power.st ≠ .doze ∨ s.wakeStands src = false)) = true) :=
  ⟨by decide +kernel, by decide +kernel, by decide +kernel, by decide +kernel, by decide +kernel, by decide +kernel, by decide +kernel, by decide +kernel⟩

/-- Clauses of `Obligations.LowerStatesAreEnteredAndLeft` have states and operands that meet their hypotheses. -/
theorem witness_LowerStatesAreEnteredAndLeft_2 :
    (let s : State := State.reset
    let rnd : Nat := 2
    let src : Fin 768 := 3
    let s : State := { s.up with power := { s.up.power with st := if rnd % 3 = 0 then .on else if rnd % 3 = 1 then .doze else .still } }
    let s : State := if rnd % 2 = 0 then s else s.setB A.trnReqEvt 0 true
    decide ((s.power.st ≠ .still ∨ s.power.held = true ∨ s.power.resetLow = true ∨ s.power.supplyWait = none ∧ (s.wakeStands src = false ∨ s.stillSource src = false ∨ s.tripAllows src = false))) = true) ∧
    (let s : State := State.reset
    let rnd : Nat := 9
    let mv : Vector (BitVec 16) 24 := { toArray := #[0xb2d0#16, 0x0bd6#16, 0xd7df#16, 0xa727#16, 0xc8ef#16, 0x0000#16, 0xe974#16, 0x0011#16, 0x684b#16, 0x2d87#16, 0xc154#16, 0x4611#16, 0x1246#16, 0x00a0#16, 0x5186#16, 0x001f#16, 0x0003#16, 0x5bae#16, 0x001b#16, 0xee89#16, 0x0002#16, 0xbe3f#16, 0x8227#16, 0xb06c#16], size_toArray := rfl }
    let s : State := { s.up with power := { s.up.power with st := .still, supplyWait := if rnd % 2 = 0 then none else some 5, trip := none } }
    let s : State := (s.setB A.trnReqEvt 0 true)
    let src : Fin 768 := 244
    let mv : Vector (BitVec 16) 24 := if rnd % 3 = 0 then mv else (goodReadings s).set (rnd % 24) (BitVec.ofNat 16 (rnd % 700))
    decide (s.power.st = .still ∧
      s.power.held = false ∧
      s.power.resetLow = false ∧
      ((s.power.supplyWait.isSome = true ∨ s.wakeStands src = true ∧ s.stillSource src = true ∧ s.tripAllows src = true)) ∧
      suppliesHold s mv = false) = true) ∧
    (let s : State := State.reset
    let rnd : Nat := 5
    let s : State := { s.up with power := { s.up.power with st := .still, supplyWait := if rnd % 2 = 0 then none else some 3, wakeSrc := 256, trip := none } }
    let s : State := (s.setB A.trnReqEvt 0 true)
    let src : Fin 768 := 244
    let mv : Vector (BitVec 16) 24 := goodReadings s
    decide (s.power.st = .still ∧
      s.power.held = false ∧
      s.power.resetLow = false ∧
      ((s.power.supplyWait.isSome = true ∨ s.wakeStands src = true ∧ s.stillSource src = true ∧ s.tripAllows src = true)) ∧
      suppliesHold s mv = true) = true) ∧
    (let s : State := State.reset
    let s : State := { s.up with tarn := s.tarn + 10 ^ 11, power := { s.up.power with st := .still, supplyWait := some s.tarn } }
    let t : Nat := (s.power.supplyWait.getD 0)
    decide (s.power.supplyWait = some t ∧
      s.power.st = .still ∧
      t + ms (atLeast1 (s.f A.trnPupTmo 7 0)) ≤ s.tarn) = true) ∧
    (let s : State := State.reset
    let rnd : Nat := 0
    let s : State := { s.up with power := { s.up.power with st := if rnd % 3 = 0 then .on else .still, supplyWait := if rnd % 2 = 0 then none else some s.tarn } }
    decide (((s.power.st ≠ .still ∨ s.power.supplyWait.all (fun t => decide (s.tarn < t + ms (atLeast1 (s.f A.trnPupTmo 7 0)))) = true))) = true) ∧
    (let s : State := State.reset
    let rnd : Nat := 0
    let k : Fin 2 := 1
    let s : State := { s.up with tarn := s.tarn + 10 ^ 13, power := { s.up.power with crystalAt := some 0 } }
    let s : State := ((s.setB (A.trnTmr0Ctl k) 0 true).wr (A.trnTmr0Load k) (wd (rnd % 100000))).setB (A.trnTmr0Ctl k) 1 (rnd % 2 = 0)
    decide (s.power.st ≠ .off ∧
      s.power.held = false ∧
      s.b (A.trnTmr0Ctl k) 0 = true ∧
      s.power.crystalAt.any (fun c => decide (c ≤ (s.timer k).start)) = true ∧
      s.tmrNs k ≤ s.tarn - (s.timer k).start) = true) ∧
    (let s : State := State.reset
    let rnd : Nat := 3
    let k : Fin 2 := 1
    let s : State := { s.up with tarn := s.tarn + 10 ^ 8 * (rnd % 100), power := { s.up.power with crystalAt := none } }
    let s : State := ((s.setB (A.trnTmr0Ctl k) 0 true).wr (A.trnTmr0Load k) (wd (rnd % 400000))).setB (A.trnTmr0Ctl k) 1 (rnd % 2 = 0)
    let s : State := { s with power := { s.power with tmr0 := { start := s.tarn - 10 ^ 8 * (rnd % 90) }, tmr1 := { start := s.tarn - 10 ^ 8 * (rnd % 90) } } }
    decide (s.power.st ≠ .off ∧
      s.power.held = false ∧
      s.b (A.trnTmr0Ctl k) 0 = true ∧
      s.power.crystalAt = none ∧
      (s.timer k).start ≤ s.tarn) = true) ∧
    (let s : State := State.reset
    let rnd : Nat := 6
    let k : Fin 2 := 0
    let s : State := { s.up with power := { s.up.power with crystalAt := some 0, held := rnd % 3 = 0 } }
    let s : State := (s.setB (A.trnTmr0Ctl k) 0 (rnd % 2 = 0)).wr (A.trnTmr0Load k) (wd (10 ^ 6 + rnd))
    decide (((s.power.st = .off ∨ s.power.held = true ∨ s.b (A.trnTmr0Ctl k) 0 = false ∨ s.power.crystalAt.any (fun c => decide (c ≤ (s.timer k).start)) = true ∧ s.tarn - (s.timer k).start < s.tmrNs k))) = true) :=
  ⟨by decide +kernel, by decide +kernel, by decide +kernel, by decide +kernel, by decide +kernel, by decide +kernel, by decide +kernel, by decide +kernel⟩

/-- Clauses of `Obligations.LowerStatesAreEnteredAndLeft` have states and operands that meet their hypotheses. -/
theorem witness_LowerStatesAreEnteredAndLeft_3 :
    (let s : State := State.reset
    let port : Fin 2 := 0
    let s : State := { s.up with power := { s.up.power with st := .doze } }
    let s : State := ((s.setB A.trnWakeCfg 0 false).setB A.trnWakeCfg 2 true).setB (A.ethCtl (2 + port.val)) 0 true
    let f : Bytes := arpFrame (s.linkIp4 (8 + port))
    decide (s.power.st = .doze ∧
      s.b (A.ethCtl (2 + port.val)) 0 = true ∧
      ((fcsGood f = true ∧ (s.b A.trnWakeCfg 0 = true ∧ isMagic (s.linkMac (8 + port)) f = true ∨ s.b A.trnWakeCfg 1 = true ∧ s.isIcpFrame (8 + port) f = true ∨ s.b A.trnWakeCfg 2 = true ∧ s.isAsked (8 + port) f = true)))) = true) ∧
    (let s : State := State.reset
    let port : Fin 2 := 0
    let s : State := { s.up with power := { s.up.power with st := .doze } }
    let s : State := ((s.setB A.trnWakeCfg 0 false).setB A.trnWakeCfg 2 true).setB (A.ethCtl (2 + port.val)) 0 true
    let f : Bytes := []
    decide ((s.power.st ≠ .doze ∨ s.b (A.ethCtl (2 + port.val)) 0 = false ∨ ¬ (fcsGood f = true ∧ (s.b A.trnWakeCfg 0 = true ∧ isMagic (s.linkMac (8 + port)) f = true ∨ s.b A.trnWakeCfg 1 = true ∧ s.isIcpFrame (8 + port) f = true ∨ s.b A.trnWakeCfg 2 = true ∧ s.isAsked (8 + port) f = true)))) = true) ∧
    (let s : State := State.reset
    let rnd : Nat := 0
    let port : Fin 2 := 0
    let s : State := { s.up with power := { s.up.power with st := .doze } }
    let s : State := (s.setB A.trnWakeCfg 0 true).setB (A.ethCtl (2 + port.val)) 0 true
    let n : Nat := rnd % 9
    decide (s.power.st = .doze ∧
      s.b (A.ethCtl (2 + port.val)) 0 = true ∧
      s.b A.trnWakeCfg 0 = true) = true) ∧
    (let s : State := State.reset
    let rnd : Nat := 8
    let s : State := { s.up with power := { s.up.power with crystalAt := if rnd % 5 = 0 then s.power.crystalAt else none } }
    decide (s.power.st ≠ .off ∧
      s.power.crystalAt = none) = true) :=
  ⟨by decide +kernel, by decide +kernel, by decide +kernel, by decide +kernel⟩

/-- Clauses of `Obligations.RetainedStoreCommitsAndVerifies` have states and operands that meet their hypotheses. -/
theorem witness_RetainedStoreCommitsAndVerifies :
    (let s : State := State.reset
    let rnd : Nat := 4
    let s : State := { s.up with keep := { s.keep with busy := rnd % 2 = 0, captured := if rnd % 3 = 0 then [] else [1 + rnd % 7], writing := [] } }
    decide (s.on = true) = true) ∧
    (let s : State := State.reset
    let rnd : Nat := 9
    let s : State := { s.up with keep := { s.keep with firstChange := if rnd % 3 = 0 then none else some s.tarn, lastChange := s.tarn } }
    let s : State := (s.setF A.keepAuto 15 0 (rnd % 2 * 100))
    decide (((s.keep.firstChange = none ∨ s.f A.keepAuto 15 0 = 0 ∨ s.keep.firstChange.all (fun t => decide (s.tarn < t + 10 * ms (s.f A.keepAuto 15 0))) = true ∧ s.tarn < s.keep.lastChange + ms (s.f A.keepAuto 15 0)))) = true) ∧
    (let s : State := State.reset
    let rnd : Nat := 3
    let s : State := { s.up with keep := { s.keep with firstChange := if rnd % 3 = 0 then none else some s.tarn, lastChange := s.tarn } }
    let s : State := (s.setF A.keepAuto 15 0 (rnd % 2 * 100))
    decide (s.tarn < s.keep.lastVerify + clampN 1 168 (s.f A.keepVerify 7 0) * 3600 * 10 ^ 9) = true) ∧
    (let s : State := State.reset
    let rnd : Nat := 6
    let s : State := { s.up with keep := { s.keep with firstChange := if rnd % 3 = 0 then none else some s.tarn, lastChange := s.tarn } }
    let s : State := (s.setF A.keepAuto 15 0 (rnd % 2 * 100))
    decide (s.keep.busy = false) = true) ∧
    (let s : State := State.reset
    let rnd : Nat := 6
    let s : State := { s.up with keep := { s.keep with firstChange := if rnd % 3 = 0 then none else some s.tarn, lastChange := s.tarn } }
    let s : State := (s.setF A.keepAuto 15 0 (rnd % 2 * 100))
    decide (s.keep.verifying = false) = true) ∧
    (let s : State := State.reset
    let rnd : Nat := 9
    let s : State := { s.up with tarn := s.tarn + 10 ^ 13, keep := { s.keep with busy := rnd % 4 = 0, firstChange := some 5 } }
    let s : State := (s.setF A.keepAuto 15 0 (1 + rnd % 100))
    let t : Nat := (s.keep.firstChange.getD 0)
    decide (s.on = true ∧
      s.keep.firstChange = some t ∧
      s.f A.keepAuto 15 0 ≠ 0 ∧
      ((s.keep.lastChange + ms (s.f A.keepAuto 15 0) ≤ s.tarn ∨ t + 10 * ms (s.f A.keepAuto 15 0) ≤ s.tarn))) = true) ∧
    (let s : State := State.reset
    let rnd : Nat := 9
    let s : State := { s.up with keep := { s.keep with busy := true, again := [], recs := if rnd % 4 = 0 then s.keep.recs else someRecs (rnd % 2 = 0) (rnd % 3 = 0), writing := if rnd % 2 = 0 then [(3, .kept [(1, 2#32)])] else [(3, .kept [(1, 2#32)]), (7, .time [1, 2, 3, 4])] } }
    let k : Nat := 3
    let c : RecContent := .kept [(1, 2#32)]
    decide (s.on = true ∧
      s.keep.busy = true ∧
      (k, c) ∈ s.keep.writing ∧
      (s.keep.writing.map (·.1)).Nodup ∧
      s.keep.again = [] ∧
      ((s.keep.writing.map (·.1)).all (fun j => decide (1 ≤ j ∧ j ≤ 7)) = true) ∧
      s.keep.recs.length = 7) = true) ∧
    (let s : State := State.reset
    let rnd : Nat := 0
    let s : State := { s.up with keep := { s.keep with busy := true, again := if rnd % 2 = 0 then [3] else allKinds, writing := [(3, .kept [(1, 2#32)])] } }
    decide (s.on = true ∧
      s.keep.busy = true ∧
      s.keep.again ≠ []) = true) :=
  ⟨by decide +kernel, by decide +kernel, by decide +kernel, by decide +kernel, by decide +kernel, by decide +kernel, by decide +kernel, by decide +kernel⟩

/-- Clauses of `Obligations.RetainedStoreCommitsAndVerifies` have states and operands that meet their hypotheses. -/
theorem witness_RetainedStoreCommitsAndVerifies_2 :
    (let s : State := State.reset
    let rnd : Nat := 5
    let s : State := { s.up with tarn := s.tarn + 10 ^ 16, keep := { s.keep with busy := false } }
    let c : Instr := if rnd % 2 = 0 then .keepVerify else .keepVerifyPeriod
    decide (s.on = true ∧
      ((c = .keepVerify ∨ (c = .keepVerifyPeriod ∧ s.keep.lastVerify + clampN 1 168 (s.f A.keepVerify 7 0) * 3600 * 10 ^ 9 ≤ s.tarn)))) = true) ∧
    (let s : State := State.reset
    let rnd : Nat := 1
    let s : State := { s.up with keep := { s.keep with verifying := true, recs := if rnd % 2 = 0 then List.replicate 7 {} else someRecs true true } }
    decide (s.on = true ∧
      s.keep.verifying = true ∧
      s.keep.recs.length = 7 ∧
      copiesHold s = true) = true) ∧
    (let s : State := State.reset
    let rnd : Nat := 0
    let k : Fin 7 := 5
    let b : Bool := true
    let o : Nat := 0
    let s : State := { s.up with keep := { s.keep with verifying := true, recs := someRecs true true } }
    let o : Nat := o % 110
    let m : Byte := BitVec.ofNat 8 (1 + rnd % 255)
    decide (s.on = true ∧
      s.keep.verifying = true ∧
      s.keep.recs.length = 7 ∧
      copiesHold s = true ∧
      (s.recPair (k.val + 1)).b0.state (k.val + 1) = 1 ∧
      (s.recPair (k.val + 1)).b1.state (k.val + 1) = 1 ∧
      (((s.recPair (k.val + 1)).bank b).flip o m).state (k.val + 1) = 2) = true) ∧
    (let s : State := State.reset
    let rnd : Nat := 3
    let k : Fin 7 := 4
    let o : Nat := 5
    let s : State := { s.up with keep := { s.keep with verifying := true, recs := someRecs true true } }
    let o : Nat := o % 110
    let m : Byte := BitVec.ofNat 8 (1 + rnd % 255)
    decide (s.on = true ∧
      s.keep.verifying = true ∧
      s.keep.recs.length = 7 ∧
      copiesHold s = true ∧
      (s.recPair (k.val + 1)).b0.state (k.val + 1) = 1 ∧
      (s.recPair (k.val + 1)).b1.state (k.val + 1) = 1 ∧
      ((s.recPair (k.val + 1)).b0.flip o m).state (k.val + 1) = 2 ∧
      ((s.recPair (k.val + 1)).b1.flip o m).state (k.val + 1) = 2) = true) :=
  ⟨by decide +kernel, by decide +kernel, by decide +kernel, by decide +kernel⟩

/-- Clauses of `Obligations.TelemetrySamplesAndTap` have states and operands that meet their hypotheses. -/
theorem witness_TelemetrySamplesAndTap :
    (let s : State := State.reset
    let rnd : Nat := 8
    let power : BitVec 20 := 0xca8e2#20
    let s : State := if rnd % 3 = 0 then { s.up with power := { s.up.power with st := .still } } else s.up
    decide (s.power.st ≠ .off ∧
      s.power.held = false) = true) ∧
    (let s : State := State.reset
    let rnd : Nat := 4
    let s : State := { s.up with now := s.now + 10 ^ 13 }
    let s : State := (s.setF A.telPeriod 15 0 (1 + rnd % 60000))
    let s : State := { s with power := { s.power with telPrev := if rnd % 2 = 0 then s.power.telPrev else telClasses.map (fun k => s.telTotal k / 3), telDown := rnd % 1024 } }
    let s : State := { s with out := s.out.map (fun x => { x with tel := if rnd % 3 = 0 then [List.replicate 224 3#8] else x.tel, pend := if rnd % 5 = 0 then x.pend else none, pond := if rnd % 2 = 0 then [] else x.pond }) }
    let s : State := (List.range 16).foldl (fun (s : State) (n : Nat) => (s.setB (A.outCtl n) 24 true).setB (A.outCtl n) 0 true) s
    let p : Bytes := s.telPayload
    telLayout s p ∧
    decide (s.on = true ∧
      s.f A.telPeriod 15 0 ≠ 0 ∧
      s.power.lastTelRec + ms (s.f A.telPeriod 15 0) ≤ s.now) = true) ∧
    (let s : State := State.reset
    let rnd : Nat := 5
    let s : State := { s.up with power := { s.up.power with resetLow := rnd % 2 = 0, st := if rnd % 3 = 0 then .doze else if rnd % 3 = 1 then .off else .on } }
    let k : Fin 3 := Fin.ofNat 3 (rnd / 5)
    decide (s.tapRuns = true) = true) ∧
    (let s : State := State.reset
    let rnd : Nat := 2
    let s : State := { s.up with power := { s.up.power with resetLow := rnd % 2 = 0, st := if rnd % 3 = 0 then .doze else if rnd % 3 = 1 then .off else .on } }
    let cells : List Bool := List.replicate (rnd % 500) (rnd % 2 == 0)
    decide (s.tapRuns = true) = true) ∧
    (let s : State := State.reset
    let rnd : Nat := 9
    let opcode : Fin 32 := 8
    let s : State := { s.up with power := { s.up.power with resetLow := rnd % 2 = 0, st := if rnd % 3 = 0 then .doze else if rnd % 3 = 1 then .off else .on } }
    let cells : List Bool := List.replicate (rnd % 500) (rnd % 2 == 0)
    decide (s.tapRuns = true ∧
      4 < opcode.val) = true) ∧
    (let s : State := State.reset
    let s : State := s.up
    decide (s.tapRuns = true) = true) ∧
    (let s : State := State.reset
    let rnd : Nat := 9
    let power : BitVec 20 := 0x0dede#20
    let s : State := { s.up with power := { s.up.power with st := if rnd % 3 = 0 then .off else if rnd % 3 = 1 then .still else .on, held := rnd % 2 = 0, low := if rnd % 5 = 0 then [0] else [], crystalAt := if rnd % 2 = 0 then some 3 else none } }
    let s : State := { s with power := { s.power with lastTelRec := s.now - rnd % 1000000 } }
    let s : State := s.setF A.telPeriod 15 0 (rnd % 2 * 60000)
    decide ((s.power.st = .off ∨ s.power.held = true)) = true) ∧
    (let s : State := State.reset
    let rnd : Nat := 0
    let power : BitVec 20 := 0x159f8#20
    let s : State := { s.up with power := { s.up.power with st := if rnd % 3 = 0 then .off else if rnd % 3 = 1 then .still else .on, held := rnd % 2 = 0, low := if rnd % 5 = 0 then [0] else [], crystalAt := if rnd % 2 = 0 then some 3 else none } }
    let s : State := { s with power := { s.power with lastTelRec := s.now - rnd % 1000000 } }
    let s : State := s.setF A.telPeriod 15 0 (rnd % 2 * 60000)
    decide ((s.f A.telPeriod 15 0 = 0 ∨ s.now < s.power.lastTelRec + ms (s.f A.telPeriod 15 0))) = true) :=
  ⟨by decide +kernel, ⟨by unfold telLayout; decide +kernel, by decide +kernel⟩, by decide +kernel, by decide +kernel, by decide +kernel, by decide +kernel, by decide +kernel, by decide +kernel⟩

/-- Clauses of `Obligations.TelemetrySamplesAndTap` have states and operands that meet their hypotheses. -/
theorem witness_TelemetrySamplesAndTap_2 :
    (let s : State := State.reset
    let rnd : Nat := 4
    let power : BitVec 20 := 0x45d26#20
    let s : State := { s.up with power := { s.up.power with st := if rnd % 3 = 0 then .off else if rnd % 3 = 1 then .still else .on, held := rnd % 2 = 0, low := if rnd % 5 = 0 then [0] else [], crystalAt := if rnd % 2 = 0 then some 3 else none } }
    let s : State := { s with power := { s.power with lastTelRec := s.now - rnd % 1000000 } }
    let s : State := s.setF A.telPeriod 15 0 (rnd % 2 * 60000)
    decide ((s.power.low.any (fun j => decide (j < 8) || decide (22 ≤ j)) = true ∨ s.power.st = .still)) = true) ∧
    (let s : State := State.reset
    let rnd : Nat := 2
    let power : BitVec 20 := 0x91f6c#20
    let op : Fin 32 := 0
    let s : State := { s.up with power := { s.up.power with st := if rnd % 3 = 0 then .off else if rnd % 3 = 1 then .still else .on, held := rnd % 2 = 0, low := if rnd % 5 = 0 then [0] else [], crystalAt := if rnd % 2 = 0 then some 3 else none } }
    let s : State := { s with power := { s.power with lastTelRec := s.now - rnd % 1000000 } }
    let s : State := s.setF A.telPeriod 15 0 (rnd % 2 * 60000)
    decide (op.val ≤ 4) = true) ∧
    (let s : State := State.reset
    let rnd : Nat := 8
    let power : BitVec 20 := 0x42ce1#20
    let s : State := { s.up with power := { s.up.power with st := if rnd % 3 = 0 then .off else if rnd % 3 = 1 then .still else .on, held := rnd % 2 = 0, low := if rnd % 5 = 0 then [0] else [], crystalAt := if rnd % 2 = 0 then some 3 else none } }
    let s : State := { s with power := { s.power with lastTelRec := s.now - rnd % 1000000 } }
    let s : State := s.setF A.telPeriod 15 0 (rnd % 2 * 60000)
    decide ((s.power.st = .off ∨ s.power.crystalAt ≠ none)) = true) :=
  ⟨by decide +kernel, by decide +kernel, by decide +kernel⟩

/-- Clauses of `Obligations.SoftwareSourcesAreRaisedOrDenied` have states and operands that meet their hypotheses. -/
theorem witness_SoftwareSourcesAreRaisedOrDenied :
    (let s : State := State.reset
    let rnd : Nat := 9
    let t : Fin 8 := 0
    let v : Fin 1024 := 97
    let n : Fin 768 := 47
    let n : Fin 768 := Fin.ofNat 768 (512 + (if rnd % 2 = 0 then 32 * t.val + rnd % 32 else rnd % 256))
    let v : Fin 1024 := if rnd % 5 = 0 then v else Fin.ofNat 1024 n.val
    let s : State := s.up.onSrc n (fun x => { x with phase := [SrcPhase.idle, .pending, .assigned, .active].getD (rnd % 4) .idle })
    decide (s.on = true ∧
      v.val = n.val ∧
      512 ≤ n.val ∧
      ((t = 0 ∨ n.val / 32 = 16 + t.val))) = true) ∧
    (let s : State := State.reset
    let rnd : Nat := 0
    let t : Fin 8 := 4
    let v : Fin 1024 := 44
    let n : Fin 768 := 20
    let n : Fin 768 := Fin.ofNat 768 (512 + (if rnd % 2 = 0 then 32 * t.val + rnd % 32 else rnd % 256))
    let v : Fin 1024 := if rnd % 5 = 0 then v else Fin.ofNat 1024 n.val
    let s : State := s.up.onSrc n (fun x => { x with phase := [SrcPhase.idle, .pending, .assigned, .active].getD (rnd % 4) .idle })
    decide (s.on = true ∧
      ((v.val < 512 ∨ 768 ≤ v.val ∨ (t ≠ 0 ∧ v.val / 32 ≠ 16 + t.val)))) = true) :=
  ⟨by decide +kernel, by decide +kernel⟩

/-- Clauses of `Obligations.ServiceCompletesOnlyTheStackTop` have states and operands that meet their hypotheses. -/
theorem witness_ServiceCompletesOnlyTheStackTop :
    (let s : State := State.reset
    let rnd : Nat := 2
    let t : Fin 20 := 5
    let i : Fin 768 := 2
    let i : Fin 768 := Fin.ofNat 768 ([512, 700, 256, 13][rnd % 4]!)
    let n : Fin 1024 := Fin.ofNat 1024 i.val
    let s : State := (s.up.onSrc i (fun x => { x with phase := .active, refire := rnd % 2 = 0, target := t.val })).onTgt t (fun x => { x with stack := (i.val, 3) :: x.stack.take 3 })
    let p : Nat := (((s.targets[t]).stack.head?).getD (0, 0)).2
    let rest : List (Nat × Nat) := (s.targets[t]).stack.drop 1
    decide (s.on = true ∧
      n.val = i.val ∧
      (s.targets[t]).stack = (i.val, p) :: rest) = true) ∧
    (let s : State := State.reset
    let rnd : Nat := 4
    let t : Fin 20 := 9
    let n : Fin 1024 := 3
    let s : State := s.up.onTgt t (fun x => { x with stack := if rnd % 2 = 0 then [] else [(2000, 3)] })
    decide (s.on = true ∧
      ((s.targets[t]).stack.head?).map (·.1) ≠ some n.val) = true) :=
  ⟨by decide +kernel, by decide +kernel⟩

end Sys2Proof.Tests
end

section
/-! Frames: `Only` is kept by composition, and each update of the state changes the piece it names alone. -/

namespace Sys2Proof.Safety
open Sys2Proof Sys2Proof.Machine

/-- A frame allows a piece to change. -/
def Allows (ps : List Piece) (ks : List Kind) (p : Piece) : Prop := p ∈ ps ∨ p.kind ∈ ks

variable {ps : List Piece} {ks : List Kind} {s t u : State}

theorem Piece.same_refl (p : Piece) (s : State) : p.Same s s := by cases p <;> rfl

theorem Piece.same_trans {p : Piece} (h : p.Same s t) (g : p.Same t u) : p.Same s u := by
  cases p <;> exact Eq.trans g h

theorem only_refl : Only ps ks s s := fun p _ _ => p.same_refl s

theorem Only.trans (h : Only ps ks s t) (g : Only ps ks t u) : Only ps ks s u :=
  fun p hp hk => Piece.same_trans (h p hp hk) (g p hp hk)

/-- A frame holds of two states that differ in one allowed piece alone. -/
theorem only_of_same_except {q : Piece} (hq : Allows ps ks q) (h : ∀ p, p ≠ q → p.Same s t) : Only ps ks s t := by
  intro p hp hk
  refine h p ?_
  rintro rfl
  exact hq.elim hp hk

theorem only_wr {a : Nat} (v : Word) (h : Allows ps ks (.reg a)) : Only ps ks s (s.wr a v) := by
  refine only_of_same_except h fun p hp => ?_
  cases p with
  | reg b => exact rd_wr_ne s v (by simpa using hp)
  | _ => rfl

theorem only_inc {a : Nat} (h : Allows ps ks (.reg a)) : Only ps ks s (s.inc a) := only_wr _ h

theorem only_raise {a : Nat} (i : Nat) (h : Allows ps ks (.reg a)) : Only ps ks s (s.raise a i) := only_wr _ h

theorem only_onPower (f : Power → Power) (h : Allows ps ks .power) : Only ps ks s (s.onPower f) := by
  refine only_of_same_except h fun p hp => ?_
  cases p with
  | power => exact absurd rfl hp
  | _ => rfl

end Sys2Proof.Safety

namespace Sys2Proof.Machine
open Sys2Proof Sys2Proof.Safety

variable {ps : List Piece} {ks : List Kind}

/-! Reads of a source and of a target after an update of one. -/

theorem State.sources_onSrc_same (s : State) (n : Fin 768) (f : Source → Source) :
    (s.onSrc n f).sources[n] = f (s.sources[n]) := by
  simp [State.onSrc, vupd]

theorem State.sources_onSrc_ne (s : State) {n m : Fin 768} (f : Source → Source) (h : m ≠ n) :
    (s.onSrc n f).sources[m] = s.sources[m] :=
  Vector.getElem_set_ne n.isLt m.isLt (fun e => h (Fin.ext e.symm))

theorem State.targets_onTgt_same (s : State) (t : Fin 20) (f : Target → Target) :
    (s.onTgt t f).targets[t] = f (s.targets[t]) := by
  simp [State.onTgt, vupd]

theorem State.targets_onTgt_ne (s : State) {t r : Fin 20} (f : Target → Target) (h : r ≠ t) :
    (s.onTgt t f).targets[r] = s.targets[r] :=
  Vector.getElem_set_ne t.isLt r.isLt (fun e => h (Fin.ext e.symm))

theorem only_onSrc {s : State} {n : Fin 768} (f : Source → Source) (h : Allows ps ks (.source n)) :
    Only ps ks s (s.onSrc n f) := by
  refine only_of_same_except h fun p hp => ?_
  cases p with
  | source m => exact State.sources_onSrc_ne s f (by simpa using hp)
  | _ => rfl

theorem only_onTgt {s : State} {t : Fin 20} (f : Target → Target) (h : Allows ps ks (.target t)) :
    Only ps ks s (s.onTgt t f) := by
  refine only_of_same_except h fun p hp => ?_
  cases p with
  | target r => exact State.targets_onTgt_ne s f (by simpa using hp)
  | _ => rfl

/-! Counters and event bits. -/

theorem State.rd_inc_same (s : State) (a : Nat) :
    ((s.inc a).rd a).toNat = min 0xFFFFFFFF ((s.rd a).toNat + 1) := by
  simp only [State.inc, rd_wr_same, BitVec.toNat_ofNat]
  omega

theorem State.rd_inc_ne (s : State) {a b : Nat} (h : b ≠ a) : (s.inc a).rd b = s.rd b := rd_wr_ne s _ h

theorem State.rd_raise_ne (s : State) {a b : Nat} (i : Nat) (h : b ≠ a) : (s.raise a i).rd b = s.rd b := rd_wr_ne s _ h

theorem bit_setBit_true (w : Word) {i : Nat} (h : i < 32) : bit (setBit w i true) i = true := by
  have hone : (1 <<< i % 4294967296).testBit i = true := by
    rw [show 4294967296 = 2 ^ 32 from rfl, Nat.testBit_mod_two_pow]
    simp [h]
  simp [bit, setBit, setFld, hone]

theorem State.b_raise_same (s : State) (a : Nat) {i : Nat} (h : i < 32) : (s.raise a i).b a i = true := by
  rw [State.b, State.raise, State.setB, rd_wr_same, bit_setBit_true _ h]

end Sys2Proof.Machine
end

section
/-! The event controller's operations on a source and on a target's stack (R330, R334, R341, R342). -/

namespace Sys2Proof.Machine
open Sys2Proof Sys2Proof.Safety

variable {ps : List Piece} {ks : List Kind}

/-! A bit of the pending words, and a stack. -/

/-- The in-service stack of target `t` becomes `st`. -/
def State.withStack (s : State) (t : Fin 20) (st : List (Nat × Nat)) : State := s.onTgt t (fun y => { y with stack := st })

theorem State.withStack_stack (s : State) (t : Fin 20) (st : List (Nat × Nat)) : ((s.withStack t st).targets[t]).stack = st := by
  rw [State.withStack, State.targets_onTgt_same]

theorem only_withStack (s : State) (t : Fin 20) (st : List (Nat × Nat)) (h : Allows ps ks (.target t)) :
    Only ps ks s (s.withStack t st) := only_onTgt _ h

theorem fin?_val {k : Nat} (i : Fin k) : fin? k i.val = some i := dif_pos i.isLt

theorem State.bitSet_eq_onTgt (s : State) (n : Nat) (t : Fin 20) :
    s.bitSet n t = s.onTgt t (fun y => { y with unseen := n :: y.unseen.filter (· != n), told := y.told.filter (· != n) }) := by
  simp only [State.bitSet, forFin, fin?_val]

theorem only_bitSet (s : State) (n : Nat) (t : Fin 20) (h : Allows ps ks (.target t)) : Only ps ks s (s.bitSet n t) := by
  rw [State.bitSet_eq_onTgt]
  exact only_onTgt _ h

/-! Becoming PENDING, and the re-sampling of a level source. -/

@[simp] theorem State.haltEntry_sources (s : State) : s.haltEntry.sources = s.sources := by
  unfold State.haltEntry
  split <;> rfl

@[simp] theorem State.haltEntry_targets (s : State) : s.haltEntry.targets = s.targets := by
  unfold State.haltEntry
  split <;> rfl

theorem only_haltEntry (s : State) (hp : Allows ps ks .power) (hr : Allows ps ks (.reg A.trnCmdStat)) :
    Only ps ks s s.haltEntry := by
  unfold State.haltEntry
  split
  · exact only_refl
  · exact (only_onPower (fun q => { q with entering := .none }) hp).trans (only_wr _ hr)

theorem State.makePending_source (s : State) (n : Fin 768) :
    (s.makePending n).sources[n] = { s.sources[n] with phase := .pending, refire := false } := by
  rw [State.makePending, State.sources_onSrc_same]
  split
  · simp only [State.haltEntry_sources]
  · rfl

@[simp] theorem State.makePending_targets (s : State) (n : Fin 768) : (s.makePending n).targets = s.targets := by
  rw [State.makePending, State.onSrc_targets]
  split
  · exact s.haltEntry_targets
  · rfl

theorem only_makePending (s : State) (n : Fin 768) (hn : Allows ps ks (.source n)) (hp : Allows ps ks .power)
    (hr : Allows ps ks (.reg A.trnCmdStat)) : Only ps ks s (s.makePending n) := by
  unfold State.makePending
  split
  · exact (only_haltEntry s hp hr).trans (only_onSrc _ hn)
  · exact only_onSrc _ hn

theorem State.resample_source (s : State) (n : Fin 768) :
    (s.resample n).sources[n] =
      { s.sources[n] with phase := if s.levelSensed n && s.asserted n then .pending else .idle, refire := false } := by
  unfold State.resample
  split
  · exact s.makePending_source n
  · exact s.sources_onSrc_same n _

@[simp] theorem State.resample_targets (s : State) (n : Fin 768) : (s.resample n).targets = s.targets := by
  unfold State.resample
  split
  · exact s.makePending_targets n
  · rfl

theorem only_resample (s : State) (n : Fin 768) (hn : Allows ps ks (.source n)) (hp : Allows ps ks .power)
    (hr : Allows ps ks (.reg A.trnCmdStat)) : Only ps ks s (s.resample n) := by
  unfold State.resample
  split
  · exact only_makePending s n hn hp hr
  · exact only_onSrc _ hn

/-! Completion of the stack top (R342). -/

section
variable {s : State} {t : Fin 20} {i : Fin 768} {p : Nat} {rest : List (Nat × Nat)} (hst : (s.targets[t]).stack = (i.val, p) :: rest)
include hst

theorem State.done_of_top : s.done t i = s.complete t := by
  unfold State.done
  rw [hst]
  exact if_pos rfl

/-- Completion, by the sense of the source and REFIRE (R342). -/
theorem State.complete_of_top : s.complete t =
    if s.levelSensed i then (s.withStack t rest).resample i
    else if (s.sources[i]).refire then
      (((s.withStack t rest).onSrc i (fun x => { x with phase := .assigned, refire := false })).bitSet i t).onTgt t
        (fun y => { y with refired := true })
    else (s.withStack t rest).onSrc i (fun x => { x with phase := .idle, goneAt := some (s.now, true) }) := by
  unfold State.complete
  simp only [hst, fin?_val]
  rfl

/-- What a completion may change: the source, its target, and, where a wake source becomes PENDING, the entry to a lower state that it cancels. -/
theorem only_complete (ht : Allows ps ks (.target t)) (hi : Allows ps ks (.source i)) (hp : Allows ps ks .power)
    (hr : Allows ps ks (.reg A.trnCmdStat)) : Only ps ks s (s.complete t) := by
  have hpop := only_withStack s t rest ht
  rw [State.complete_of_top hst]
  split_ifs
  · exact hpop.trans (only_resample _ i hi hp hr)
  · exact ((hpop.trans (only_onSrc _ hi)).trans (only_bitSet _ i t ht)).trans (only_onTgt _ ht)
  · exact hpop.trans (only_onSrc _ hi)

/-- The source leaves service: PENDING or IDLE by its level, or ASSIGNED again by REFIRE (R342). -/
theorem State.complete_source :
    ((s.complete t).sources[i]).phase = (if s.levelSensed i then (if s.asserted i then .pending else .idle)
        else if (s.sources[i]).refire then .assigned else .idle) ∧
      ((s.complete t).sources[i]).refire = false ∧ ((s.complete t).sources[i]).target = (s.sources[i]).target := by
  rw [State.complete_of_top hst]
  by_cases hl : s.levelSensed i = true
  · have hx := (s.withStack t rest).resample_source i
    simp only [if_pos hl, hx]
    rw [show (s.withStack t rest).levelSensed i = true from hl, Bool.true_and]
    exact ⟨rfl, trivial, rfl⟩
  · by_cases hr : (s.sources[i]).refire = true
    · simp only [if_neg hl, if_pos hr, State.bitSet_eq_onTgt, State.onTgt_sources, State.sources_onSrc_same]
      exact ⟨trivial, trivial, rfl⟩
    · simp only [if_neg hl, if_neg hr, State.sources_onSrc_same]
      exact ⟨trivial, eq_false_of_ne_true hr, rfl⟩

theorem State.complete_stack : ((s.complete t).targets[t]).stack = rest := by
  rw [State.complete_of_top hst]
  split_ifs
  · simp only [State.resample_targets, State.withStack_stack]
  · simp only [State.bitSet_eq_onTgt, State.targets_onTgt_same, State.onSrc_targets, State.withStack_stack]
  · simp only [State.onSrc_targets, State.withStack_stack]

/-- A re-fired edge source is new to its target at once (R342). -/
theorem State.complete_refires (hl : s.levelSensed i = false) (hr : (s.sources[i]).refire = true) :
    ((s.complete t).targets[t]).refired = true ∧ i.val ∈ ((s.complete t).targets[t]).unseen := by
  rw [State.complete_of_top hst, hl, hr]
  simp only [Bool.false_eq_true, if_false, if_true, State.bitSet_eq_onTgt, State.targets_onTgt_same]
  exact ⟨trivial, List.mem_cons_self⟩

end

/-! A stack fault (R341). -/

theorem State.done_of_not_top {s : State} {t : Fin 20} {n : Nat} (h : ((s.targets[t]).stack.head?).map (·.1) ≠ some n) :
    s.done t n = s.stackFault t n := by
  unfold State.done
  split
  case h_1 m _ _ heq => exact if_neg (fun e => h (by rw [heq, e]; rfl))
  case h_2 => rfl

/-- The word of EVC_FAULT_LOG holds its three fields apart. -/
theorem fld_faultWord {c t n : Nat} (hc : c < 256) (ht : t < 32) (hn : n < 1024) :
    fld (wd (c * 2 ^ 24 + t * 2 ^ 16 + n)) 9 0 = n ∧ fld (wd (c * 2 ^ 24 + t * 2 ^ 16 + n)) 20 16 = t ∧
      fld (wd (c * 2 ^ 24 + t * 2 ^ 16 + n)) 31 24 = c := by
  simp only [fld, BitVec.toNat_ofNat, Nat.shiftRight_eq_div_pow]
  omega

/-- The word that a stack fault of target `t` by a DONE of `n` leaves in EVC_FAULT_LOG. -/
theorem State.stackFault_log (s : State) (t : Fin 20) (n : Fin 1024) :
    (s.stackFault t n).f A.evcFaultLog 9 0 = n.val ∧ (s.stackFault t n).f A.evcFaultLog 20 16 = t.val ∧
      (s.stackFault t n).f A.evcFaultLog 31 24 = min 255 (s.f A.evcFaultLog 31 24 + 1) := by
  have hlog : (s.stackFault t n).rd A.evcFaultLog =
      wd (min 255 (s.f A.evcFaultLog 31 24 + 1) * 2 ^ 24 + t.val * 2 ^ 16 + n.val) := by
    rw [State.stackFault, State.rd_raise_ne _ _ (by decide), State.rd_inc_ne _ (by decide), rd_wr_same, Nat.mod_eq_of_lt n.isLt]
  unfold State.f at hlog ⊢
  rw [hlog]
  exact fld_faultWord (by omega) (by omega) n.isLt

theorem State.stackFault_count (s : State) (t : Fin 20) (n : Nat) :
    ((s.stackFault t n).rd A.evcCntFault).toNat = min 0xFFFFFFFF ((s.rd A.evcCntFault).toNat + 1) := by
  rw [State.stackFault, State.rd_raise_ne _ _ (by decide), State.rd_inc_same, rd_wr_ne _ _ (by decide)]

theorem State.stackFault_raises (s : State) (t : Fin 20) (n : Nat) : (s.stackFault t n).b A.evcEvt 0 = true :=
  State.b_raise_same _ _ (by decide)

theorem only_stackFault (s : State) (t : Fin 20) (n : Nat) (hl : Allows ps ks (.reg A.evcFaultLog)) (hc : Allows ps ks (.reg A.evcCntFault))
    (he : Allows ps ks (.reg A.evcEvt)) : Only ps ks s (s.stackFault t n) :=
  ((only_wr _ hl).trans (only_inc hc)).trans (only_raise 0 he)

/-! A software source (R329, R349). -/

theorem forFin_onTgt_sources {f : Target → Target} (l : List Nat) (s : State) :
    (forFin (fun t s => s.onTgt t f) l s).sources = s.sources := by
  induction l generalizing s with
  | nil => rfl
  | cons t l ih =>
    rw [forFin, ih]
    split <;> rfl

@[simp] theorem State.bitSet_sources (s : State) (n t : Nat) : (s.bitSet n t).sources = s.sources := forFin_onTgt_sources _ _

/-- Host action returned source `n` to IDLE in this very cycle (Table 15.4). -/
def State.goneNow (s : State) (n : Fin 768) : Bool := (s.sources[n]).goneAt.any (fun x => x.1 == s.now)

/-- An edge of an idle source makes it PENDING, or ASSIGNED in the cycle of its dismissal, and one of a source in service sets REFIRE. REFIRE
clears on the way to PENDING alone: an idle source that carries it keeps it where it becomes ASSIGNED (R330, Table 15.4). -/
theorem State.raiseSource_edge {s : State} {n : Fin 768} (hedge : s.levelSensed n = false) :
    ((s.raiseSource n).sources[n]).phase = (if (s.sources[n]).phase = .idle then (if s.goneNow n then .assigned else .pending)
        else (s.sources[n]).phase) ∧
      ((s.raiseSource n).sources[n]).refire =
        ((s.sources[n]).refire && ((s.sources[n]).phase != .idle || s.goneNow n) || (s.sources[n]).phase == .active) ∧
      ((s.raiseSource n).sources[n]).target = (s.sources[n]).target := by
  unfold State.raiseSource State.goneNow
  cases hphase : (s.sources[n]).phase with
  | idle =>
    cases hgone : (s.sources[n]).goneAt with
    | none => simp [-Fin.getElem_fin, hphase, hgone, State.makePending_source]
    | some g =>
      obtain ⟨c, completed⟩ := g
      by_cases hc : c = s.now
      · cases completed <;>
          simp [-Fin.getElem_fin, hphase, hgone, hc, hedge, forFin_onTgt_sources, State.sources_onSrc_same]
      · simp [-Fin.getElem_fin, hphase, hgone, hc, State.makePending_source]
  | pending => simp [-Fin.getElem_fin, hphase, beq_eq_decide, bne]
  | assigned => simp [-Fin.getElem_fin, hphase, hedge, beq_eq_decide, bne, State.sources_onSrc_same]
  | active =>
    cases hrefire : (s.sources[n]).refire <;>
      simp [-Fin.getElem_fin, hphase, hrefire, hedge, State.sources_onSrc_same]

theorem State.levelSensed_soft (s : State) {n : Nat} (h : 512 ≤ n) : s.levelSensed n = false := by
  have hpin : isPin n = false := by
    rw [isPin, decide_eq_false (p := n < 276) (by omega), Bool.and_false]
  rw [State.levelSensed, hpin, decide_eq_false (by omega)]
  rfl

/-- A stall raises its own software sources, and stall 0 all of them (R349). -/
theorem State.swSet_of_own (s : State) {t : Fin 8} {n : Fin 768} (hsoft : 512 ≤ n.val) (hown : t = 0 ∨ n.val / 32 = 16 + t.val) :
    s.swSet t n = s.raiseSource n := by
  simp only [State.swSet, fin?_val, isSoft]
  refine if_pos ?_
  rcases hown with rfl | hown
  · simp [hsoft, n.isLt]
  · have hmine : 512 + 32 * t.val ≤ n.val ∧ n.val < 544 + 32 * t.val := by omega
    simp [hmine]

/-- The state after reset, but for source 512: it is IDLE by a dismissal in this cycle, and yet carries REFIRE. -/
def State.refiringIdle : State := State.reset.onSrc 512 (fun _ => { refire := true, goneAt := some (0, false) })

theorem State.refiringIdle_source : State.refiringIdle.sources[(512 : Fin 768)] = { refire := true, goneAt := some (0, false) } :=
  State.reset.sources_onSrc_same 512 _

/-! The two commands. -/

theorem exec_eventDone {s : State} (hon : s.on = true) (t : Fin 20) (n : Fin 1024) : exec (.eventDone t n) s = .next (s.done t n) :=
  congrArg _ (if_pos hon)

theorem exec_evcSwSet {s : State} (hon : s.on = true) (t : Fin 8) (v : Fin 1024) : exec (.evcSwSet t v) s = .next (s.swSet t v) :=
  congrArg _ (if_pos hon)

end Sys2Proof.Machine
end

section
namespace Sys2Proof.Proofs
open Sys2Proof Sys2Proof.Machine Sys2Proof.Safety

/-- Settles O10: DONE of the stack top is R342's completion, and any other DONE is a stack fault, which writes three registers alone. -/
theorem serviceCompletesOnlyTheStackTop : Obligations.ServiceCompletesOnlyTheStackTop := by
  unfold Obligations.ServiceCompletesOnlyTheStackTop
  constructor
  · intro s t n i p rest hon hn hst
    have hdone : s.done t n = s.complete t := hn ▸ State.done_of_top hst
    obtain ⟨hphase, hrefire, htarget⟩ := State.complete_source hst
    exact ⟨s.complete t, hdone ▸ exec_eventDone hon t n, State.complete_stack hst, hrefire, hphase, htarget,
      fun hl hr => .inl (State.complete_refires hst hl hr),
      only_complete hst (.inr (by simp [Piece.kind])) (.inl (by simp)) (.inl (by simp)) (.inr (by decide))⟩
  · intro s t n hon htop
    obtain ⟨hsource, htarget, hcount⟩ := s.stackFault_log t n
    exact ⟨s.stackFault t n, State.done_of_not_top htop ▸ exec_eventDone hon t n, hsource, htarget, hcount, s.stackFault_count t n,
      s.stackFault_raises t n, only_stackFault s t n (.inl (by simp)) (.inl (by simp)) (.inl (by simp))⟩

/-- Refutes O9: its first clause takes every state in which the device is on, also one in which an idle source carries REFIRE. Where such a
source was dismissed in this very cycle, the edge makes it ASSIGNED (Table 15.4) and leaves REFIRE set, and the clause has it clear. Where the
REFIRE of an idle source is clear, `State.raiseSource_edge` gives what the clause says of the source. -/
theorem not_softwareSourcesAreRaisedOrDenied : ¬ Obligations.SoftwareSourcesAreRaisedOrDenied := by
  unfold Obligations.SoftwareSourcesAreRaisedOrDenied
  intro h
  have hon : State.refiringIdle.on = true := rfl
  obtain ⟨u, hu, -, hrefire, -⟩ := (h State.refiringIdle 0 512 512 hon).1 rfl (by decide) (.inl rfl)
  have hset : State.refiringIdle.swSet 0 (512 : Fin 768).val = State.refiringIdle.raiseSource 512 := State.swSet_of_own _ (by decide) (.inl rfl)
  rw [exec_evcSwSet hon] at hu
  obtain rfl : State.refiringIdle.raiseSource 512 = u := hset ▸ Host.Outcome.next.inj hu
  obtain ⟨-, hkept, -⟩ := State.raiseSource_edge (s := State.refiringIdle) (n := 512) (State.levelSensed_soft _ (by decide))
  rw [hkept, State.goneNow, State.refiringIdle_source] at hrefire
  exact absurd hrefire (by decide)

end Sys2Proof.Proofs
end
